-- ==== Sys2Proof/Word.lean ====
section
/-! DEFINITION. The word types of the block: registers and descriptor words are 32 bits wide (R27, R404),
bytes are 8 bits wide (R363). Counts, times and positions are kept as Nat and Int where the spec computes
exactly and narrows afterwards (R39, R66, R131). -/

namespace Sys2Proof

/-- A register, descriptor or host-memory word (R27, R404). -/
abbrev Word := BitVec 32

/-- A byte of a frame or of a table window (R98, R190). -/
abbrev Byte := BitVec 8

end Sys2Proof
end

