-- ==== Sys2Proof/Syntax.lean ====
section
/-! DEFINITION. The commands of the block: one constructor of Instr for each row of spec/opcode_table.json. An operand is
what the row's rule leaves to the world outside the step: an address, a value, the unit acted on, a measured
quantity. The table gives no row a pattern of bits. -/

namespace Sys2Proof

/-- A descriptor as it is held after prefetch: its eight words (R404), and the eight words read with it, the profile
record of SET_PROFILE or the parameter words 8 to 15 of a long operation's OSB (R408); 0 where nothing was read. -/
structure Desc where
  w0 : Word
  w1 : Word
  w2 : Word
  w3 : Word
  w4 : Word
  w5 : Word
  w6 : Word
  w7 : Word
  param : List Word
deriving DecidableEq, Repr

/-- An axis or a course as the unit of motion (R59, R61). -/
inductive UnitKind where
  | axis
  | course
deriving DecidableEq, Repr

/-- The high-side or the low-side switch of a leg (R276). -/
inductive Switch where
  | low
  | high
deriving DecidableEq, Repr

/-- The coils of an axis (R18). -/
inductive Coil where
  | A
  | B
deriving DecidableEq, Repr

/-- What the spare comparator did at the end of an on-phase that the coil comparator ended (R330): it tripped with it or within 100 ns
after, up to 100 ns before, more than 100 ns before, or not within 100 ns after. -/
inductive SpareTrip where
  | agree
  | ahead
  | early
  | none
deriving DecidableEq, Repr

/-- A disagreement of the cores' samples of one independent-class input at a boundary (R472, R473): the kind of input
coded as in R500 (0 EN, 1 sense input, 2 VGATE window, 3 VM window), its number, and the cores that differ. -/
structure InputDiffer where
  kind : Nat
  index : Nat
  cores : Nat
deriving DecidableEq, Repr

/-- What the checkers find in one interpolation period (R473, R488): inputs whose samples disagree, axes whose runner
fails parity or residue, courses whose engine does. -/
structure PeriodObs where
  differ : List InputDiffer
  runnerFail : List Nat
  engineFail : List Nat
deriving DecidableEq, Repr

/-- The outcome of the voter copies' self-check after a tick boundary (R474). -/
structure TickObs where
  aPass : Bool
  bPass : Bool
deriving DecidableEq, Repr

/-- What a scrub read finds in an SRAM word (R485). -/
inductive SramFinding where
  | good
  | corrected
  | uncorrectable
deriving DecidableEq, Repr

/-- What the boot checks of R542 find: ROM, the four patch signatures, the rows that fail, the cores' known-answer tests, the voter copies, the
cores whose signature differs once their TCM is loaded, and the runner slots, course engines and delay lines (the slot, and whether it is the
write side) that fail parity. -/
structure BootObs where
  romGood : Bool
  patchGood : List Bool
  rowFail : List Nat
  corePass : List Bool
  aPass : Bool
  bPass : Bool
  tcmDiffer : List Nat
  runnerFail : List Nat
  engineFail : List Nat
  lineFail : List (Nat × Bool)
deriving DecidableEq, Repr

/-- One copy of a core bus write at the voter (R469); none when parity has dropped it (R470). -/
structure BusCopy where
  addr : Word
  data : Word
  be : BitVec 4
deriving DecidableEq, Repr

/-- The IEEE 1149.1 and device instructions of the debug port that R540 and R453 name. -/
inductive TapInstr where
  | bypass
  | samplePreload
  | extest
  | testReset
  | scan (cells : List Bool)
  | patchUpdate (slot : Nat) (image : List Word)
deriving DecidableEq, Repr

/-- An edge qualified at a line input: the input and the level that its filter takes (R344, R77). -/
structure LineEdge where
  n : Nat
  level : Bool
deriving DecidableEq, Repr

/-- A check of a delay line: the side that is checked, and whether the datum has a parity error of its own (R470, R523, R525). -/
structure DelayCheck where
  writeSide : Bool
  real : Bool
deriving DecidableEq, Repr

/-- The commands of the block. -/
inductive Instr where
  -- descriptor operations: the ring and the descriptor at its TI
  | nop (ring : Nat) (d : Desc)
  | fence (ring : Nat) (d : Desc)
  | waitRc (ring : Nat) (d : Desc)
  | setProfile (ring : Nat) (d : Desc)
  | moveTo (ring : Nat) (d : Desc)
  | moveBy (ring : Nat) (d : Desc)
  | velocity (ring : Nat) (d : Desc)
  | stop (ring : Nat) (d : Desc)
  | qstop (ring : Nat) (d : Desc)
  | resume (ring : Nat) (d : Desc)
  | setCurrent (ring : Nat) (d : Desc)
  | home (ring : Nat) (d : Desc)
  | characterize (ring : Nat) (d : Desc)
  | playTable (ring : Nat) (d : Desc)
  | followSteps (ring : Nat) (d : Desc)
  | bindCourse (ring : Nat) (d : Desc)
  | unbindCourse (ring : Nat) (d : Desc)
  | solPulse (ring : Nat) (d : Desc)
  | solHold (ring : Nat) (d : Desc)
  | diagOffstate (ring : Nat) (d : Desc)
  | readHistory (ring : Nat) (d : Desc)
  | setMode (ring : Nat) (d : Desc)
  | nvCommit (ring : Nat) (d : Desc)
  | selfTest (ring : Nat) (d : Desc)
  | spareApprove (ring : Nat) (d : Desc)
  -- register accesses: the BAR0 offset or the number of the unit, and the word written
  | glbModeReqWrite (v : Word)
  | modeRequestTaken
  | anchorSet (v : Word)
  | refRcLoRead
  | loRegisterRead (off : Nat)
  | rocRead (off : Nat)
  | narrowRead (addr : Nat) (en : List Bool)
  | narrowWrite (addr : Nat) (en : List Bool) (bytes : List Byte)
  | registerWrite (off : Nat) (v : Word)
  | crsCamDataAccess (v : Option Word)
  | fltHistSelWrite (v : Word)
  | fltAck (v : Word)
  | fltInjArm (v : Word)
  | fltInjDisarm (v : Word)
  | fltPinLevel (v : Word)
  | clrUnc (k : UnitKind) (n : Nat) (v : Word)
  | clrTrip (t l : Nat) (v : Word)
  | clrIso (t : Nat) (v : Word)
  | inpSafeClr (j : Nat) (v : Word)
  | train (v : Word)
  | arm (t l : Nat) (v : Word)
  | legPwmPerWrite (t l : Nat) (v : Word)
  | commit (v : Word)
  | uncommit (v : Word)
  | cfgCrcRefWrite (v : Word)
  | cfgLockWrite (v : Word)
  | unitEnable (k : UnitKind) (n : Nat) (v : Word)
  | unitDisable (k : UnitKind) (n : Nat) (v : Word)
  | disableTakesEffect (k : UnitKind) (n : Nat)
  | refEnable (v : Word)
  | rcStart
  | refDisable (v : Word)
  | tcompEnWrite (v : Word)
  | hostEnable (v : Word)
  | hostDisable (v : Word)
  | ringEnable (r : Nat) (v : Word)
  | ringDisable (r : Nat) (v : Word)
  | hostRingQuotaWrite (r : Nat) (v : Word)
  | hostTileBudgetWrite (t : Nat) (v : Word)
  | tileCtrlEnWrite (t : Nat) (v : Word)
  | legModeWrite (t l : Nat) (v : Word)
  | stepPairEnable (n : Nat) (v : Word)
  | encoderEnable (n : Nat) (v : Word)
  | inpFiltWrite (j : Nat) (v : Word)
  | policyAutomatic
  -- clocked steps and bus completions
  | interpolationPeriod (o : PeriodObs)
  | doorbellReadComplete (pis : List Word)
  | prefetchComplete (ring : Nat) (ok : Bool) (ds : List Desc)
  | parameterReadComplete (ring : Nat) (ok : Bool) (param : List Word)
  | planningTick (o : TickObs)
  | quotaRefill
  | crcPassStart
  | crcPassEnd
  | coreScrub (sigs : List Word)
  | sramScrubRead (word : Nat) (f : SramFinding)
  | rowSpareCopyComplete (row : Nat)
  | streamReadComplete (w : Nat) (ok : Bool) (bytes : List Byte)
  | revDwellEnd (k : UnitKind) (n : Nat)
  | throttleDwellEnd (k : UnitKind) (n : Nat)
  | startRelease (k : UnitKind) (n : Nat)
  | axisEnergize (a : Nat)
  | displacementWatchStart (a : Nat)
  | solPulseStart (t l : Nat)
  | pullInEnd (t l : Nat)
  | holdEnd (t l : Nat)
  | freewheelEnd (t l : Nat)
  | diagLegPhaseEnd (t : Nat) (first second : BitVec 12)
  | nvStepComplete (ok : Bool)
  | resetRelease (en : Bool) (primaryGood : Bool)
  | internalReset
  | bootComplete (o : BootObs)
  | sealedToConfigure
  | logicSupplyFail
  -- pins, supplies, comparators and timers
  | enLow
  | vgateUv (t : Nat)
  | vgateOv (t : Nat)
  | vmUv (t : Nat)
  | vmOv (t : Nat)
  | bstUv (t l : Nat)
  | prechargeTimeout (t l : Nat)
  | handshakeConfirm (t l : Nat) (sw : Switch)
  | deadTimeEnd (t l : Nat) (sw : Switch)
  | gateHsTimeout (t l : Nat) (sw : Switch)
  | crossCmd (t l : Nat)
  | gateEdgeMeasured (t l : Nat) (sw : Switch) (on : Bool) (ticks : Nat) (seg : Nat) (deviates : Bool)
  | segmentConductsOff (t l : Nat) (sw : Switch) (seg : Nat)
  | desaturation (t l : Nat) (sw : Switch)
  | grossDesaturation (t l : Nat) (sw : Switch)
  | shuntTrip (t l : Nat)
  | reactionWindowEnd (rec : Nat)
  | nfaultPulseEnd
  | coilComparatorTrip (a : Nat) (c : Coil) (ticks : Nat) (spare : SpareTrip)
  | blankingEnd (a : Nat) (c : Coil) (above : Bool) (spare : SpareTrip)
  | onTimeSaturation (a : Nat) (c : Coil) (spareTripped : Bool)
  | fastPortionEnd (a : Nat) (c : Coil)
  | offTimeEnd (a : Nat) (c : Coil)
  | spareTakeover (t : Nat)
  | pwmPeriodBoundary (t l : Nat)
  | pwmDriveOn (t l : Nat)
  | pwmDriveOff (t l : Nat)
  | converterTrigger (t l : Nat) (which : Bool)
  | adcConversionDone (t : Nat) (code : BitVec 12)
  | senseQualifiedEdge (n : Nat) (level : Bool) (earlier : List Bool)
  | inputKnown (n : Nat) (samples : List Bool)
  | stpEdge (n : Nat) (dirHigh : Bool)
  | encoderEdge (n : Nat) (up : Bool) (both : Bool)
  | encoderIndexEdge (n : Nat)
  | encoderRateTimeout (n : Nat)
  | lineEdge (e : LineEdge)
  | lineHoldover (n : Nat)
  | lineLost (n : Nat)
  | thermalSample (t : Nat) (s0 s1 : BitVec 16)
  | dieTempUpdate
  | syncSend
  | syncReceive (frame : List Byte)
  | syncMissing
  | faultFrameReceive (port : Nat) (frame : List Byte)
  | upstatusReceive (frame : List Byte)
  | linkAlignmentGained (port : Nat)
  | trainReqSend
  | trainReqReceive (port : Nat) (frame : List Byte) (wait : Nat)
  | trainEchoReceive (frame : List Byte) (rtt : Nat)
  | oscSwitch
  | returnToPrimary
  | oscBkpFail
  | clkLost
  | hostLinkDown (cause : Nat)
  | hotReset
  | busWriteVote (c0 c1 c2 : Option BusCopy) (agree : Bool)
  | delayParity (slot : Nat) (check : DelayCheck)
  | resyncComplete (matches' : Bool)
  | repetitionPassed
  | pairDisagree
  | knownAnswerTestEnd (passed : List Nat)
  | dbgFreeze
  | freezeRelease
  | coreHold
  | coreHoldRelease
  | refoutPulseEnd (n : Nat)
  | vgateGood (t : Nat)
  | vmGood (t : Nat)
  | bootstrapGood (t l : Nat)
  | enHigh
  | primaryOscGood
  | hostLinkUp
  | straitAlignmentLost (port : Nat)
  | stepPairDisable (n : Nat) (v : Word)
  | refoutMark (n : Nat)
  | shadowCheckTimeout (t : Nat)
  | dbgTapInstruction (i : TapInstr)
deriving DecidableEq, Repr

end Sys2Proof
end

