-- ==== Sys2Proof/Config.lean ====
section
/-! DEFINITION. What an implementation fixes and the spec leaves open (log entry 2). Each constant is opaque: nothing
in Lean can evaluate it, so a statement about it holds for every value. A free value is the constant applied to
the counter State.fresh, which the step that uses it advances, or to the operands it depends on. -/

namespace Sys2Proof.Config

/-- The error, in LSB of LA, of the acos table of R250 ("evaluates acos by table to within 1 LSB of LA"): only its
residue modulo 3 is used, as an error of -1, 0 or +1. -/
opaque acosError : Nat → BitVec 2

/-- The unit's number in a vote detail or a similar word that the spec names but to which it gives no value. -/
opaque openDetail : Nat → BitVec 32

/-- The word that a SELF_TEST entry reports as MEAS, LIMIT or DETAIL where the spec fixes no value (R430). -/
opaque selfTestWord : Nat → BitVec 32

/-- What an SRAM word holds (R487 names profile slots, baselines and cam records; the spec gives no layout): kind in bits 31:28 (1 a
profile slot of an axis, 2 of a course, 3 a baseline, 4 the cam pool, else another structure), its number below. -/
opaque sramUse : Nat → BitVec 32

/-- Which of the values that a word of the set had during a pass the pass has read (R448), by the counter State.fresh and the word's number. -/
opaque passRead : Nat → Nat → Nat

/-- The level of a ball to which the model gives none (R540), by its place in the boundary-scan chain and DT. -/
opaque ballLevel : Nat → Nat → Bool

/-- Backup frequency relative to the primary, in ppm, as the device measures it (R116: GLB_CLK.DEV). -/
opaque backupDeviation : Nat → BitVec 16

/-- What the loop of the line PLL makes of an edge (R77 gives its limits, its sense and its bandwidth, and no gain): by use, by the code of
its bandwidth and by the phase error. -/
opaque linePllRate : Nat → Nat → Int → BitVec 40

/-- The handshake time of a leg's switches in PWM ticks (R278): a property of the external MOSFETs, by global leg. -/
opaque handshakeTicks : Nat → BitVec 10

/-- The shunt comparator of a guarded leg stands above its threshold (R305), by global leg and DT. -/
opaque shuntAbove : Nat → Nat → Bool

end Sys2Proof.Config
end

