-- ==== Sys2Proof/Machine/State.lean ====
section
/-! DEFINITION. The state of the block as plain data: every register, queue, buffer, counter, mode and pin that the spec gives
it, block by block in the order of R24, and the queue of waiting commands. A bank of like units is a list of
(number, unit) pairs in which a number that is not listed stands for a unit at its reset value. -/

namespace Sys2Proof.Machine

/-- Like units by number; a unit that is not listed is at its reset value. -/
abbrev Bank (α : Type) := List (Nat × α)

/-- The variants of R1. No command changes the variant. -/
inductive Variant where
  | zm4812
  | zm2406
  | zm1203
deriving DecidableEq, Repr

/-- The device modes (R52, R54). -/
inductive DevMode where
  | sealed
  | configure
  | diagnose
  | run
  | hold
  | safe
deriving DecidableEq, Repr

/-- The fault classes (R505), lowest first. -/
inductive FClass where
  | log
  | degrade
  | isolate
  | halt
  | trip
  | lock
deriving DecidableEq, Repr

/-- What a command sends out: a write to host memory (R362, R386), a read request, an MSI-X message with the address and the data of its vector
(R365 to R367), a frame on a strait port (R98), the voted write of the planning cores on the bus (R469), the words of a read request that spans
several (R431), the levels that a boundary scan shifts out (R540). -/
inductive Output where
  | memWrite (addr : Nat) (words : List Word)
  | readRequest (addr : Nat) (bytes : Nat)
  | msix (vector : Nat) (addr : Nat) (data : Word)
  | frame (port : Nat) (bytes : List Byte)
  | busWrite (copy : BusCopy)
  | readData (words : List Word)
  | scan (levels : List Bool)
deriving DecidableEq, Repr

/-- The descriptor that a completion belongs to: its ring and index. -/
structure Tag where
  ring : Nat
  index : Nat
deriving DecidableEq, Repr

/-! ### GLB -/

/-- The GLB block (R52, R53, R371, R459, R116). -/
structure Glb where
  mode : DevMode
  prev : DevMode
  cause : Nat
  reqRes : Nat
  locked : Bool
  enIn : Bool
  /-- a register request not yet judged (R57) -/
  modeReq : Option Nat
  /-- the boundary at which the waiting request is judged has come (R56) -/
  reqDue : Bool
  /-- the SET_MODE descriptors taken up and not yet judged (R417), oldest first -/
  setMode : List (Nat × Tag)
  /-- SET_MODE descriptors that an event has overtaken: they complete at the next period boundary (R57, R417) -/
  overtaken : List Tag
  /-- Run has been entered and no period boundary has come since: no start condition is evaluated (R90) -/
  freshRun : Bool
  anchorLo : Word
  anchorHi : Word
  /-- GLB_ANCHOR_LO has been written since the last write of GLB_ANCHOR_HI (R371) -/
  loWritten : Bool
  /-- the anchor page in effect, and the one that takes effect at the next tick (R371) -/
  anchor : Option Nat
  anchorNext : Option Nat
  acc : Word
  accAddr : Word
  clkReturn : Bool
  clkDev : BitVec 16
  trimOk : Bool
  bkpOk : Bool
  priOk : Bool
  bkpActive : Bool
deriving DecidableEq, Repr

/-! ### REF and the strait -/

/-- The line PLL states (R78); `none` for the other sources. -/
inductive LockState where
  | none
  | acquiring
  | locked
  | holdover
  | lost
deriving DecidableEq, Repr

/-- One REFOUT output (R91, R92): a pulse in progress and the DT count at which it ends. -/
structure RefOut where
  pulse : Option Nat
deriving DecidableEq, Repr

/-- The reference coordinate unit (R66 to R93, R117 to R121). RC values are kept with 40 fraction bits (R72); `rc`
divided by 2^16 is the 64-bit RC. -/
structure Ref where
  ctrl : Word
  src : Word
  encCfg : Word
  lineCfg : Word
  lineNom : Word
  rcSetLo : Word
  rcSetHi : Word
  outCfg : Bank Word
  outDiv : Bank Word
  tcPt : Bank Word
  tcVr : Bank Word
  rc : Nat
  /-- the RC at the last period boundary (R71) -/
  rcLast : Nat
  rate : Word
  phase : Nat
  /-- REF_STAT bits 4:0 (R121) -/
  flags : Word
  /-- the RC advances (REF_STAT.RUN); a start is scheduled for the next boundary (R80) -/
  run : Bool
  startPend : Bool
  /-- the boundary of the scheduled start has come -/
  startDue : Bool
  /-- encoder tracker (R74, R75): rate in 2^-40 RC unit per DT count, sense and DT of the last edge -/
  encRate : Int
  encUp : Bool
  encDt : Nat
  /-- line PLL (R77, R78): state, rate in 2^-40 RC unit per DT count, runs of edges, DT of the last edge and the cycle period -/
  lock : LockState
  lineRate : Nat
  lineGood : Nat
  lineBad : Nat
  lineDt : Nat
  linePeriod : Nat
  /-- temperature compensation in force (R72, R119) -/
  tcC : Int
  tcGain : Int
  tcAct : Bool
  /-- the correction that applies at the next period boundary (R119) -/
  tcNext : Option Int
  outs : Bank RefOut
  /-- the RC integer at the DT count before the present one, from which a MARK output sees a change (R91) -/
  markFrom : Nat
deriving DecidableEq, Repr

/-- The strait (R94 to R112). -/
structure Strait where
  ctrl : Word
  island : Nat
  depth : Nat
  link0 : Nat
  link1 : Nat
  /-- REF_STR_STAT bits 4:0 -/
  flags : Word
  dly : Nat
  missCnt : Nat
  discCnt : Nat
  err : Word
  extrap : Bool
  /-- SRC_REF and LOCK_ST of the reference island, from SYNC byte 18 -/
  srcRef : Nat
  lockRef : Nat
  /-- training (R103): running, next request number, measured link delays -/
  training : Bool
  reqNo : Nat
  results : List Nat
  aligned : Bool
  /-- the last good SYNC frame: SEQ, RC and rate (R106) -/
  lastSeq : Option Nat
  syncRate : Int
  /-- correction e still to be added, in 2^-40 unit per DT count, and the DT counts over which (R106) -/
  slew : Int
  slewLeft : Nat
  /-- RC to be loaded at the next boundary (R106) -/
  loadRc : Option Nat
  missRun : Nat
  goodRun : Nat
  /-- boundaries since the last slip (R104) -/
  sinceSlip : Nat
  /-- classes and origins recorded (R109) -/
  seen : List (Nat × Nat)
  /-- highest class in force below and the highest island below (R108) -/
  belowClass : Nat
  belowOrigin : Nat
  below : Nat
  /-- port 0 is held down after a SYNC frame with HOP 31 (R95) -/
  long : Bool
  /-- frames discarded since the last STRAIT_CRC record, and whether one was made in this tick, per port (R512) -/
  disc : Bank Nat
  discTick : Bank Bool
  /-- requests waiting for an echo per port are answered at once; SEQ of the next SYNC (R100) -/
  seq : Nat
deriving DecidableEq, Repr

/-! ### Motion of an axis or a course -/

/-- A profile: the eight words of R122. -/
structure Profile where
  vstart : Word
  a1 : Word
  v1 : Word
  a2 : Word
  vmax : Word
  d2 : Word
  d1 : Word
  vstop : Word
deriving DecidableEq, Repr

/-- A segment of the runner (R38): periods left, signed acceleration in 2^-32 microstep per period², END, and the completion tag: the
take-up number of the move that completes when the segment ends. The moves before it that needed no period of their own complete with it. -/
structure Seg where
  periods : Nat
  acc : Int
  isEnd : Bool
  tag : Option Nat
deriving DecidableEq, Repr

/-- The stop set of R41. -/
structure StopSet where
  d2 : Nat
  v1 : Nat
  d1 : Nat
  vstop : Nat
  qdec : Nat
deriving DecidableEq, Repr

/-- A start condition of R412 in 40.8 values. -/
inductive Gate where
  | at (e : Nat)
  | window (opn cls : Nat)
deriving DecidableEq, Repr

/-- A motion descriptor in the lookahead (R138): MOVE_TO, MOVE_BY, VELOCITY or RESUME, with the profile copy of R126. -/
structure Move where
  tag : Tag
  /-- its place among the motion descriptors taken up for the unit (R60) -/
  ord : Nat
  opcode : Nat
  word0 : Word
  /-- a VELOCITY carries a signed speed in 16.16, other moves a target in microsteps -/
  isVel : Bool
  target : Int
  /-- a REPLACE MOVE_BY taken up in Velocity mode: the target is a distance from the position at which it takes effect (R411) -/
  rel : Bool
  prof : Profile
  gate : Option Gate
  replace : Bool
  /-- the DT from which the plan may take effect: the tick after take-up (R33) -/
  from_ : Nat
  /-- the gate was armed and evaluated at an earlier boundary (R87); the condition was met (R161) -/
  armed : Bool
  met : Bool
  late : Bool
  memberFault : Option (Nat × Nat)
  turned : Bool
  overshoot : Nat
  /-- the integer position at which the move took effect (R147) -/
  p0 : Int
  /-- no completion record is owed: the VELOCITY has completed (R136), or an entry move (R170) -/
  silent : Bool
deriving DecidableEq, Repr

/-- A retained value (R151). -/
structure Retained where
  isVel : Bool
  value : Int
  prof : Profile
deriving DecidableEq, Repr

/-- The causes of a stop, in the order of the table of R149, top first. -/
inductive StopCause where
  | hiz
  | modeLeft
  | disabled
  | haltClass
  | starved
  | stall
  | limit
  | qstop
  | stop
  | holdReq
deriving DecidableEq, Repr

/-- A stop in progress (R149, R150): its cause, whether the ramp has begun, and the member event it arises from (R178). -/
structure Stopping where
  cause : StopCause
  begun : Bool
  /-- the lookahead is still to be cancelled for an event that reached the unit; a STOP or QSTOP has cancelled it at its take-up -/
  sweep : Bool
  member : Option (Nat × Nat)
deriving DecidableEq, Repr

/-- A STOP or QSTOP that completes when the unit stands still (R137). -/
structure StopDesc where
  tag : Tag
  word0 : Word
deriving DecidableEq, Repr

/-- The state of the start at the head of the lookahead (R156 to R161). -/
inductive StartState where
  | none
  /-- ready since a boundary DT; in the throttle dwell, periods left (R160) -/
  | dwell (since left : Nat)
  /-- waiting in the release order (R161), with the boundary DT at which it became ready -/
  | ready (since : Nat)
  /-- admitted at the last boundary, and about to begin in the period that starts there (R157, R158) -/
  | due (since : Nat)
deriving DecidableEq, Repr

/-- A FOLLOW_STEPS in progress or waiting to take effect (R187, R188). -/
structure Follow where
  tag : Tag
  ord : Nat
  word0 : Word
  isEnc : Bool
  src : Nat
  k : Int
  f : Nat
  slot : Nat
  gate : Option Gate
  from_ : Nat
  /-- the gate has been evaluated at an earlier boundary (R87), and has been met -/
  armed : Bool
  met : Bool
  /-- x_s, N_k, the count at the last boundary and the last M terms q -/
  base : Int
  total : Int
  last : Nat
  hist : List Int
  late : Bool
  /-- the member event that has reached its course (R178) -/
  memberFault : Option (Nat × Nat)
deriving DecidableEq, Repr

/-- A PLAY_TABLE in progress or waiting to take effect (R190, R191). -/
structure Play where
  tag : Tag
  ord : Nat
  word0 : Word
  win : Nat
  offset : Nat
  count : Nat
  rcStart : Nat
  q : Nat
  e : Int
  slot : Nat
  from_ : Nat
  base : Int
  /-- reached END, or a sample was missing: the status that the completion at standstill carries (R192, R193) -/
  fin : Option Nat
  /-- samples of the table that the buffer holds: first index and bytes (R193) -/
  bufFirst : Nat
  buf : List Byte
  /-- sum of the samples before the buffer -/
  sumFirst : Int
  /-- next sample to request, a read outstanding, a failed read to retry (R395) -/
  nextReq : Nat
  reading : Bool
  retried : Bool
  /-- first sample after reads that failed twice (R395), when any -/
  absentTo : Nat
  /-- the member event that has reached its course (R178) -/
  memberFault : Option (Nat × Nat)
deriving DecidableEq, Repr

/-- A FOLLOW_STEPS or PLAY_TABLE that waits to take effect (R60). -/
inductive Later where
  | follow (f : Follow)
  | play (p : Play)
deriving DecidableEq, Repr

/-- The modes of R59. -/
inductive UnitMode where
  | off
  | target
  | velocity
  | step
  | table
  | member
deriving DecidableEq, Repr

/-- The runner or course engine of a unit, its lookahead and its profile memory (R38 to R45, R122 to R163). Positions and
speeds are integers in units of 2^-32 microstep (R39). -/
structure Motion where
  /-- the enable bit has taken effect (R442); a clearing write awaits its boundary (R152), and that boundary has come -/
  en : Bool
  disPend : Bool
  disDue : Bool
  mode : UnitMode
  x : Int
  v : Int
  tgt : Int
  queue : List Seg
  /-- segments planned and not yet appended to the queue, and the speed of a plateau that follows them without end (R136) -/
  plan : List Seg
  cruise : Option Int
  stopSet : StopSet
  /-- the move in progress, and the moves behind it in the lookahead -/
  act : Option Move
  look : List Move
  start : StartState
  stopping : Option Stopping
  stops : List StopDesc
  ret : Option Retained
  /-- the value AX_RET reports while a move restarted under R153 runs (R151) -/
  suspended : Bool
  restarted : Bool
  /-- periods of reversal dwell left (R145) -/
  dwell : Option Nat
  /-- what is left of the reversal dwell that the last standstill would ask of a motion in the opposite sense (R154, R419) -/
  rest : Nat
  /-- the last motion ran in the negative sense (AX_STAT.DIR) -/
  neg : Bool
  stopCause : Nat
  posUnc : Bool
  wrapped : Bool
  /-- milliamperes booked, and boundaries until the booking ends once the unit stands (R157) -/
  booked : Nat
  bookLeft : Option Nat
  held : Bool
  /-- the demanded position left the axis more than 256 microsteps behind (R175) -/
  behind : Bool
  /-- the FOLLOW_STEPS or PLAY_TABLE in effect, those that wait, and the motion descriptors taken up so far -/
  follow : Option Follow
  play : Option Play
  later : List Later
  /-- a RESUME taken up during a stop and the motion descriptors behind it, which wait for standstill, each with the copy of the slot that
  its move names (R126, R150) -/
  deferred : List (Tag × Desc × Profile)
  taken : Nat
  /-- a motion of HOME or CHARACTERIZE that waits for its plan, with the tick from which it may run (R33) -/
  own : Option (Move × Nat)
  /-- take-up number of the last move that the plan takes in (R139, R142) -/
  plannedTo : Nat
  profs : Bank Profile
  profSel : Nat
  /-- profile slots marked invalid by SRAM_UE (R487) -/
  profBad : List Nat
deriving DecidableEq, Repr

/-! ### Axis -/

/-- The phases of the chopper cycle (R212); `idle` while the coil is not driven. -/
inductive ChopPhase where
  | idle
  | turnOn
  | blanking
  | onCompare
  | toDecay
  | fast
  | toSlow
  | slow
deriving DecidableEq, Repr

/-- One coil: delivered set-point, mask, dither counter and chopper cycle (R206 to R219). -/
structure CoilSt where
  i12 : Nat
  neg : Bool
  /-- the output mask is negative (R208) -/
  mask : Bool
  phase : ChopPhase
  dither : Nat
  code : Nat
  /-- this off-time runs wholly in fast decay (R210, R218, R219); its fast portion in ticks (R216) -/
  allFast : Bool
  fastTicks : Nat
  /-- the quadrant at turn-on (R216) -/
  quad : Nat
  ton : Nat
  satRun : Nat
  /-- the on-phase spans a freeze: its capture is discarded (R241) -/
  spansFreeze : Bool
  /-- the DT at which the drive leg's high switch was commanded on, later by every DT count of a freeze since (R214, R228, R231) -/
  onDt : Nat
  /-- the GAIN that the last turn-on brought to the threshold (R203) -/
  gain : Int
deriving DecidableEq, Repr

/-- The stall unit of an axis (R239 to R253). `acc` is the sum of rho in units of 2^-16. -/
structure StallUnit where
  acc : Int
  n : Nat
  la : Nat
  qcnt : Nat
  /-- theta div 256 at the last boundary, quadrants ended since the last start, position at the last quadrant end and where
  the first counted quadrant began -/
  lastQ : Nat
  ended : Nat
  qPos : Int
  firstPos : Int
  /-- the next quadrant end forms no estimate (R241) -/
  skip : Bool
  invalid : Nat
  /-- AX_STALL_STAT bits 4:0 -/
  flags : Word
deriving DecidableEq, Repr

/-- One coil of the displacement watch (R256, R257). -/
structure WatchCoil where
  ref : Option Nat
  sum : Nat
  n : Nat
  past : Nat
  shift : Nat
deriving DecidableEq, Repr

/-- The displacement watch (R255): running, and boundaries of standstill counted so far. -/
structure Watch where
  on : Bool
  settle : Nat
  a : WatchCoil
  b : WatchCoil
deriving DecidableEq, Repr

/-- The states of HOME (R262). -/
inductive HomeState where
  | h0
  | h1
  | h2
  | h3
  | h4
  | h5
  | h6
  | h7
deriving DecidableEq, Repr

/-- A HOME in progress (R261 to R270). -/
structure Home where
  ord : Nat
  /-- the tick from which it may take effect, and the DT of the take-up's record values -/
  from_ : Nat
  stallMethod : Bool
  negDir : Bool
  input : Nat
  actHigh : Bool
  vs : Nat
  vr : Nat
  backoff : Nat
  maxDist : Nat
  homePos : Int
  finalEn : Bool
  final : Int
  slot : Nat
  thrH : Nat
  st : HomeState
  pass : Nat
  armed : Bool
  latch : Option Int
  /-- position and speed at the last two period boundaries (R263), older first -/
  prevX : Int
  prevV : Int
  seenX : Int
  seenV : Int
  latchDt : Nat
  latchRc : Nat
  latchLa : Nat
  chatter : Nat
  /-- position at which the present release or search began (R262), and states completed (R270) -/
  begin_ : Int
  /-- travel in the pass, in 2^-32 microstep (R270) -/
  path : Nat
  done : Nat
  started : Bool
  /-- the operation passes through H1 (R270) -/
  viaH1 : Bool
  /-- the failure status and reason, once the stop that ends the operation has begun -/
  failing : Option (Nat × Nat)
deriving DecidableEq, Repr

/-- A CHARACTERIZE in progress (R245 to R248): its parameters, the step (0 to 3 standstill, 4 to 67 bins, 68 return), what
the step waits for, and the sums and counts of the captures by coil quadrant. -/
structure Char where
  ord : Nat
  begun : Bool
  fromTick : Nat
  vc : Nat
  slot : Nat
  neg : Bool
  alt : Bool
  cyc : Nat
  xStart : Int
  step : Nat
  /-- 0 moving to the step's place or speed, 1 standing or running in, 2 collecting -/
  part : Nat
  timer : Nat
  from_ : Int
  sums : Bank Nat
  cnts : Bank Nat
  /-- valid captures of coil A and of coil B in a standstill step -/
  cntA : Nat
  cntB : Nat
  usable : Nat
deriving DecidableEq, Repr

/-- The configuration registers of the AX block (R162, R232, R271, R462). -/
structure AxisRegs where
  ctrl : Word
  posSetLo : Word
  posSetHi : Word
  blend : Word
  qstop : Word
  rev : Word
  book : Word
  cur : Word
  comm : Word
  chop : Word
  decay : Word
  stallCfg : Word
  dispCfg : Word
  limit : Word
deriving DecidableEq, Repr

/-- An axis. -/
structure Axis where
  regs : AxisRegs
  m : Motion
  /-- the course and slot that bind it (R168) -/
  bound : Option (Nat × Nat)
  /-- the four legs are driven (R308), and the boundary position has been energized at least once -/
  driven : Bool
  /-- the legs have gone to Hi-Z since the axis was last energized (R308) -/
  hizzed : Bool
  /-- a period boundary has found that the axis may be energized (R308) -/
  powerDue : Bool
  /-- numbers of the records that hold the axis isolated (R506, R520) -/
  isoHold : List Nat
  liveRun : Nat
  liveTbl : Nat
  /-- a SET_CURRENT waiting for its tick (R201): new table slot, new run current, the descriptor -/
  setCur : List (Option Nat × Option Nat × Nat × Tag × Word)
  theta : Nat
  coilA : CoilSt
  coilB : CoilSt
  stall : StallUnit
  watch : Watch
  base : Bank Word
  baseSel : Nat
  home : Option Home
  char : Option Char
deriving DecidableEq, Repr

/-! ### Courses -/

/-- The states of a member slot (R183). -/
inductive MemState where
  | empty
  | binding
  | bound
  | detached
deriving DecidableEq, Repr

/-- A member slot of a course (R168, R183): OFFSET in units of 2^-32 microstep. -/
structure Member where
  state : MemState
  kind : UnitKind
  index : Nat
  cam : Bool
  param : Word
  offset : Int
  /-- the BIND_COURSE that waits for its entry move (R170), and the status with which that move has ended -/
  pend : Option (Tag × Word)
  ended : Option Nat
deriving DecidableEq, Repr

/-- A BIND_COURSE or UNBIND_COURSE that waits for R60, R170 or R174 to let it take effect. -/
structure BindReq where
  tag : Tag
  word0 : Word
  unbind : Bool
  explicit : Bool
  bySlot : Bool
  kind : UnitKind
  index : Nat
  slot : Nat
  cam : Bool
  param : Word
  offset : Int
  pslot : Nat
  from_ : Nat
  /-- its place among the motion descriptors of the member -/
  ord : Nat
  /-- the target of an UNBIND_COURSE by unit, or the course -/
  tkind : UnitKind
  target : Nat
deriving DecidableEq, Repr

/-- A course (R164, R181 to R183). -/
structure Course where
  ctrl : Word
  blend : Word
  qstop : Word
  rev : Word
  memSel : Nat
  m : Motion
  parent : Option (Nat × Nat)
  members : Bank Member
  faultMem : Nat
  memFlt : Bool
deriving DecidableEq, Repr

/-! ### Tiles and legs -/

/-- One switch of a leg and its segmented driver (R276 to R288). -/
structure GateSw where
  /-- commanded on; a waiting on-command; the gate conducts; its handshake has confirmed; the dead time runs -/
  cmd : Bool
  waiting : Bool
  on : Bool
  hs : Bool
  dead : Bool
  retired : BitVec 16
  active : BitVec 16
  pend : Bool
  nOn : Nat
  nOff : Nat
  /-- the sink segments with which the switch was last commanded off (R283, R301) -/
  sink : Nat
  slowOn : Nat
  slowOff : Nat
  fastOn : Nat
  fastOff : Nat
  /-- consecutive deviations per segment, and the segments compared in the present rotation (R287) -/
  dev : Bank Nat
  round : BitVec 16
  capLow : Bool
  tswOn : Nat
  tswOff : Nat
deriving DecidableEq, Repr

/-- The phases of a solenoid pulse (R309, R322). -/
inductive SolPhase where
  | idle
  | pullIn
  | hold
  | fin
deriving DecidableEq, Repr

/-- A solenoid descriptor on a leg, running or waiting (R309, R414). -/
structure SolDesc where
  tag : Tag
  word0 : Word
  isHold : Bool
  per : Nat
  tPi : Nat
  dutyPi : Nat
  dutyH : Nat
  tH : Nat
  gate : Option Gate
  /-- the gate has been evaluated and not met before (R87); held since its condition was met -/
  armed : Bool
  heldSince : Option Nat
  dwellLeft : Option Nat
  /-- held by the tile budget, or by an earlier start of the tile that it holds (R158, R161, R322) -/
  held : Bool
  /-- admitted at the last boundary, and about to begin in the period that starts there (R161) -/
  due : Bool
  late : Bool
  startDt : Nat
deriving DecidableEq, Repr

/-- The shadow or active set of the fixed-frequency generator (R221). -/
structure PwmSet where
  per : Nat
  ph : Nat
  duty : Nat
  cmp0 : Nat
  cmp1 : Nat
deriving DecidableEq, Repr

/-- A leg. -/
structure Leg where
  mode : Nat
  gd : Word
  prot : Word
  sol : Word
  /-- LEG_STAT (R322): cause, latch, sticky bits 7:4, bootstrap good -/
  cause : Nat
  latch : Bool
  flags : Word
  bstOk : Bool
  hiz : Bool
  hi : GateSw
  lo : GateSw
  /-- the precharge of R294 runs -/
  precharge : Bool
  ctl : Word
  shadow : PwmSet
  act : PwmSet
  armedSet : Bool
  skipCnt : Nat
  adcDrop : Bool
  clamp : Bool
  driveOn : Bool
  dither : Nat
  runs : Bool
  res : Word
  solPhase : SolPhase
  solCur : Option SolDesc
  solWait : List SolDesc
  solLeft : Nat
  booked : Nat
  bookLeft : Option Nat
deriving DecidableEq, Repr

/-- What a tile ADC conversion is for (R226, R227, R331), and the DT count of the request; a confirmation carries the threshold of its trip in
microvolts. -/
inductive AdcReq where
  | leg (l : Nat) (which : Bool) (ch : Nat) (dt : Nat)
  | confirm (k : Nat) (spare : Bool) (uv : Int) (dt : Nat)
  | vm
  | vgate
deriving DecidableEq, Repr

/-- A tile. -/
structure Tile where
  ctrl : Word
  sup : Word
  vgUv : Bool
  vgOv : Bool
  vmUv : Bool
  vmOv : Bool
  iso : Bool
  isoLife : Bool
  /-- the records that hold the tile until they are acknowledged (R520) -/
  isoHold : List Nat
  flags : Word
  vgCode : Nat
  vmCode : Nat
  /-- the VM code held at the last boundary (R239) -/
  vmBound : Nat
  drop : Nat
  adcQ : List AdcReq
  /-- comparator supervision (R329 to R334) -/
  failed : BitVec 8
  spareOk : Bool
  cmpPend : Bool
  steered : Bool
  steerK : Nat
  shadowK : Nat
  /-- the coil to which CHOP_NO_TRIP moves the check at its next turn-on (R329) -/
  shadowNext : Option Nat
  cycles : Nat
  mism : Nat
  misCnt : Nat
  confirming : Bool
  judgedC : Nat
  judgedS : Nat
  badC : Nat
  badS : Nat
  takeover : Option Nat
  legs : Bank Leg
deriving DecidableEq, Repr

/-! ### HOST -/

/-- Ring states (R403). -/
inductive RingState where
  | off
  | run
  | drain
  | error
deriving DecidableEq, Repr

/-- A descriptor in the prefetch buffer: its parameter read is complete, and the DT at which it counts as prefetched (R408). -/
structure Fetched where
  d : Desc
  ready : Bool
  dt : Nat
deriving DecidableEq, Repr

/-- A descriptor taken up and not yet written back (R385): its completion record and instant once it has completed. -/
structure Outst where
  index : Nat
  word0 : Word
  /-- the DT of the tick that took it up -/
  takeDt : Nat
  record : Option (List Word)
  doneDt : Nat
deriving DecidableEq, Repr

/-- A ring (R377 to R403). -/
structure Ring where
  ctrl : Word
  scope : Word
  baseLo : Word
  baseHi : Word
  start : Word
  quota : Nat
  credit : Nat
  state : RingState
  err : Nat
  flags : Word
  wait : Nat
  pi : Nat
  fi : Nat
  ti : Nat
  ci : Nat
  /-- CI as the last status area gave it (R367) -/
  area : Nat
  /-- the descriptors that each outstanding read brings, oldest first (R382) -/
  reads : List Nat
  pref : List Fetched
  outst : List Outst
  /-- a FENCE: the rings and indices it waits for (R388) -/
  fence : Option (Nat × List (Nat × Nat))
  /-- a WAIT_RC: its index, E, and whether a sample has been evaluated (R415) -/
  waitRc : Option (Nat × Nat × Bool)
  /-- a fetch has waited for quota since the last status area (R375) -/
  quotaWait : Bool
deriving DecidableEq, Repr

/-- A table window (R394). -/
structure TWin where
  baseLo : Word
  baseHi : Word
  size : Word
  busy : Option (UnitKind × Nat)
deriving DecidableEq, Repr

/-- A long operation that runs (R391 to R393, R425 to R428). -/
structure LongOp where
  tag : Tag
  word0 : Word
  opcode : Nat
  /-- the axis of HOME and CHARACTERIZE -/
  axis : Nat
  osb : Nat
  res : Nat
  cap : Nat
  w1 : Word
  w6 : Word
  param : List Word
  /-- 1 ACCEPTED, 2 RUNNING, 3 ENDED (R391) -/
  st : Nat
  count : Nat
  dropped : Nat
  progress : Nat
  status : Nat
  summary : Word
  /-- entries not yet written -/
  fresh : List (List Word)
  ended : Bool
  flags : Nat
deriving DecidableEq, Repr

/-- What a read of host memory is for: the doorbell words, descriptors of a ring, the parameters of one of them, samples of a table window. -/
inductive ReadSrc where
  | doorbell
  | ring (r : Nat)
  | param (r : Nat)
  | table (w : Nat)
deriving DecidableEq, Repr

/-- The debug port (R540): the instruction in effect, and the cells of the boundary-scan chain. -/
structure TapPort where
  instr : TapInstr
  cells : List Bool
deriving DecidableEq, Repr

/-- A read of host memory that has not completed (R361): the requests that make it up, and the DT at which they were issued. -/
structure ReadReq where
  src : ReadSrc
  parts : List Output
  sent : Option Nat
deriving DecidableEq, Repr

/-- The HOST block (R399, R400). -/
structure HostB where
  ctrl : Word
  irqCfg : Word
  winLo : Word
  winHi : Word
  winSize : Word
  linkUp : Bool
  width : Nat
  speed : Nat
  bme : Bool
  d3 : Bool
  /-- the programmed maximum payload and maximum read request, in bytes (R361) -/
  mps : Nat
  mrrs : Nat
  /-- the reads that have not completed, oldest first; those without a DT wait for a tag (R361) -/
  asked : List ReadReq
  flags : Word
  dbMiss : Nat
  budget : Bank Nat
  inForce : Bank Nat
  used : Bank Nat
  twins : Bank TWin
  rings : Bank Ring
  dbOut : Bool
  dbStale : Nat
  v15Due : Bool
  v15Sent : Bool
  tickNo : Nat
  /-- planning has not been paused since the present tick began: the cores plan in it (R33, R46) -/
  planned : Bool
  /-- a pause has ended or still lasts, and the first tick behind it has not begun: the queues are refilled in it before a descriptor is taken up (R47) -/
  refill : Bool
  pauseS : Bool
  longs : List LongOp
  binds : List BindReq
  /-- solenoid descriptors that a reaction has ended: they complete at the next planning tick (R508) -/
  owed : List SolDesc
  /-- the words of the MSI-X table, and the pending bit of each vector (R365) -/
  msixTab : Bank Word
  msixPend : BitVec 16
deriving DecidableEq, Repr

/-! ### FLT -/

/-- An entry of the history queue (R514). `window` is the reaction window of R516. -/
structure Entry where
  /-- record number (R416), and the number that names the record for a hold and for the port latch -/
  num : Nat
  uid : Nat
  cls : FClass
  inj : Bool
  ack : Bool
  window : Bool
  mcount : Nat
  src : Nat
  detail : Word
  dt : Nat
  rc : Nat
  mmap : Nat
  mtop : Option FClass
  mlast : Nat
deriving DecidableEq, Repr

/-- The fault controller (R460, R461, R501 to R525). `hist` is newest first. -/
structure Flt where
  ctrl : Word
  flags : Word
  level : Bool
  pulse : Option Nat
  injUnit : Nat
  injTarget : Nat
  injArmed : Bool
  sevSel : Nat
  histSel : Nat
  sev : Bank FClass
  latch : List Word
  latchRec : Option Nat
  hist : List Entry
  seq : Nat
  lastDt : Nat
  lastSrc : Nat
deriving DecidableEq, Repr

/-! ### THM, SPR, INP, CFG -/

/-- The thermal state of a tile (R346 to R353). -/
structure ThmTile where
  temp : Int
  s0 : Int
  s1 : Int
  broken0 : Bool
  broken1 : Bool
  dev0 : Nat
  dev1 : Nat
  warn : Bool
  throt : Bool
  cntW : Nat
  cntT : Nat
  cntS : Nat
  fast : Bool
  valid : Bool
  lost : Bool
deriving DecidableEq, Repr

/-- The THM block (R356 to R358). -/
structure Thm where
  ctrl : Word
  cfg : Word
  dieT : Int
  shut : Bool
  flags : Word
  tiles : Bank ThmTile
deriving DecidableEq, Repr

/-- Core states (R498). -/
inductive CoreSt where
  | voting
  | spare
  | resync
  | retired
deriving DecidableEq, Repr

/-- A planning core: its state, slot, and the DTs of its minority events (R476). -/
structure CoreU where
  st : CoreSt
  slot : Nat
  events : List Nat
deriving DecidableEq, Repr

/-- A spare runner slot (R498). -/
structure SpareSlot where
  used : Bool
  retired : Bool
  axis : Nat
deriving DecidableEq, Repr

/-- An SRAM row (R485, R486): corrected errors, the words whose last read was corrected, and where its sparing stands. -/
structure SramRow where
  errs : Nat
  words : List Nat
  copying : Bool
  pend : Bool
  /-- no spare row was left for it (SRAM_SPARE_OUT has been raised) -/
  stuck : Bool
deriving DecidableEq, Repr

/-- A resynchronization in progress (R478). -/
structure Resync where
  target : Nat
  slot : Nat
  inPlace : Bool
deriving DecidableEq, Repr

/-- An independent-class input's run of disagreeing and agreeing boundaries (R473). -/
structure PathRun where
  differ : Nat
  agree : Nat
  raised : Bool
deriving DecidableEq, Repr

/-- Where the handling of an unresolved vote stands (R480): the first disagreement, the cores of the episode, whether they run the
known-answer test, and the number that names the PAIR_DISAGREE record. -/
structure Unres where
  since : Nat
  cores : List Nat
  testing : Bool
  uid : Nat
deriving DecidableEq, Repr

/-- A SPARE_APPROVE that has been taken up (R418): its word 1, and whether its spare is on the way. -/
structure Approve where
  tag : Tag
  word0 : Word
  word1 : Word
  begun : Bool
deriving DecidableEq, Repr

/-- The SPR block and the redundancy state (R467 to R499). -/
structure Spr where
  ctrl : Word
  flags : Word
  cores : Bank CoreU
  corePend : Bool
  /-- the SPARE_APPROVEs taken up and not yet completed (R418) -/
  approve : List Approve
  /-- two cores vote and every write needs their agreement (R479) -/
  pair : Bool
  aIn : Bool
  bIn : Bool
  aPass : Bool
  bPass : Bool
  checks : Nat
  slots : Bank SpareSlot
  runPend : Bank Bool
  runRetired : Bank Bool
  engRetired : Bank Bool
  rows : Bank SramRow
  rowsUsed : Bank Nat
  ue : Nat
  wearSel : Nat
  wear : Bank Nat
  resync : Option Resync
  /-- cores that are resynchronized in place once the present resynchronization has ended (R524) -/
  resyncWait : List Nat
  /-- the 8-byte word that the scrubber reads next (R485) -/
  scrubAt : Nat
  unres : Option Unres
  lost : Bool
  coreHold : Bool
  freeze : Bool
  /-- the DT at which the freeze began (R228) -/
  freezeDt : Nat
  paths : List ((Nat × Nat) × PathRun)
deriving DecidableEq, Repr

/-- What the filter of a sense input holds (R335, R336): how many sample instants have passed up to its newest sample, and its newest
samples, newest first, at most seven. -/
structure SenseHist where
  count : Nat
  last : List Bool
deriving DecidableEq, Repr

/-- What the filters of an encoder hold (R343): the channel and the sense of its last A or B edge, the DT of the last change of A, of B and
of the index channel, once there was one. -/
structure EncSeen where
  chanB : Bool
  up : Bool
  atA : Option Nat
  atB : Option Nat
  idx : Option Nat
deriving DecidableEq, Repr

/-- The INP block (R345, R185). Bit i of a 64-bit map stands for input i. -/
structure Inp where
  ctrl : Word
  filt : BitVec 64
  safe : BitVec 64
  safeAct : BitVec 64
  lvl : BitVec 64
  known : BitVec 64
  edge : BitVec 64
  latch : BitVec 64
  stepCfg : Bank Word
  stepCnt : Bank Word
  encCfg : Bank Word
  encCnt : Bank Word
  encIdx : Bank Word
  lineCfg : Bank Word
  samp : Bank SenseHist
  encSeen : Bank EncSeen
  /-- the DT of the last qualified edge of a line input and the level it left, once there was one (R344) -/
  lineLast : Bank (Option (Nat × Bool))
deriving DecidableEq, Repr

/-- A configuration CRC pass in progress (R448 to R450): it is compared, and the set as it stood before each change made since it began. -/
structure Pass where
  compared : Bool
  seen : List (List Word)
deriving DecidableEq, Repr

/-- An NV slot (R453 to R455): the image's words, and its erase count. -/
structure NvSlot where
  image : List Word
  erases : Nat
deriving DecidableEq, Repr

/-- An NV_COMMIT in progress (R456): its target, the steps completed, the image. -/
structure NvWrite where
  slotB : Bool
  done : Nat
  image : List Word
deriving DecidableEq, Repr

/-- The CFG block (R463 to R465) and the NV store. -/
structure CfgB where
  committed : Bool
  commitPend : Bool
  crcOk : Bool
  crcErr : Bool
  flags : Word
  ref : Word
  run : Word
  lock : Word
  lockWritten : Bool
  loaded : Nat
  pass : Option Pass
  /-- CFG_CRC has been raised and no matching pass has followed (R450) -/
  episode : Bool
  nvA : NvSlot
  nvB : NvSlot
  nvWrite : Option NvWrite
  /-- the contents of the patch slots (R453); an erased one is not listed -/
  patches : Bank (List Word)
  /-- the slots have been read by a load since the release of nRESET (R453, R457): what CFG_NV_STAT and its neighbours report of them -/
  nvSeen : Bool
  /-- the patch slots whose patch is active: its signature was good at boot (R542) -/
  active : List Nat
  /-- control registers whose enable bit has been cleared since the last period boundary (R442), by BAR0 offset -/
  clearing : List Nat
deriving DecidableEq, Repr

/-- A leg under the off-state diagnostic (R314 to R317): its readings, the supply codes at the start of its test, and the result of a leg
that is not tested. -/
structure DiagLeg where
  leg : Nat
  v1 : Nat
  v2 : Nat
  vm : Nat
  vg : Nat
  skip : Option Nat
deriving DecidableEq, Repr

/-- The off-state diagnostic on one tile (R313 to R317): the leg mask, the legs still to test behind the one under test, its phase (0, 1,
or 2 for the coil), the first leg of the coil that waits for its phase, and the entries that become final in this period. -/
structure DiagTile where
  mask : Nat
  legs : List Nat
  phase : Nat
  cur : Option DiagLeg
  first : Option DiagLeg
  entries : List (List Word)
deriving DecidableEq, Repr

/-! ### The whole state -/

/-- Why the model stops a run with a fault. No meaning of this model stops a run: every command of the table has an effect
in the spec, and one whose precondition does not hold changes nothing (log entry 1). -/
inductive Fault where
  /-- raised by no meaning; kept because the type must have a constructor. Safe. -/
  | unused
deriving DecidableEq, Repr

/-- Why the model refuses a command. -/
inductive Refusal where
  /-- a command to which the model gives no meaning yet; raised only by an arm of exec that rejects it by name. Safe. -/
  | notModelled (mnemonic : String)
deriving DecidableEq, Repr

/-- The state of the block. -/
structure State where
  variant : Variant
  /-- device time (R66): DT counts since the release of nRESET -/
  dt : Nat
  /-- the DT of the last period boundary, tick boundary, CRC pass and scrub carried out -/
  lastPeriod : Option Nat
  lastTick : Option Nat
  /-- internal reset holds the device (R537) -/
  inReset : Bool
  /-- the boot checks are done, and passed (R542, R543) -/
  bootDone : Bool
  bootPassed : Bool
  /-- the debug port's EXTEST drives the global balls (R540) -/
  tap : TapPort
  glb : Glb
  ref : Ref
  str : Strait
  host : HostB
  flt : Flt
  thm : Thm
  spr : Spr
  inp : Inp
  axes : Bank Axis
  courses : Bank Course
  camAddr : Nat
  /-- the cam pool (R173, R184) as bytes, word A at 4A to 4A + 3 -/
  cam : List Host.Cell
  /-- cam pool words marked by SRAM_UE (R487) -/
  camBad : List Nat
  tiles : Bank Tile
  /-- microstep table words that differ from reset, word w of slot k at 64k + w (R198) -/
  tbl : Bank Word
  cfg : CfgB
  diag : Bank DiagTile
  /-- the shadow word of each _LO/_HI pair, by the BAR0 offset of _LO (R436, R69) -/
  shadows : Bank Word
  /-- the value that the last read returned -/
  rdata : Word
  /-- what the last command sent out, in order -/
  out : List Output
  /-- the MODEL's own counter of free values (log entry 2) -/
  fresh : Nat
  /-- commands that wait, first in, first out -/
  pending : List Instr
deriving DecidableEq, Repr

/-! ### Reset values (log entry 3 names those the spec does not state) -/

def Glb.reset : Glb :=
  { mode := .sealed, prev := .sealed, cause := 0, reqRes := 0, locked := false, enIn := false, modeReq := none, reqDue := false,
    setMode := [], overtaken := [], freshRun := false, anchorLo := 0, anchorHi := 0, loWritten := false, anchor := none, anchorNext := none,
    acc := 0, accAddr := 0, clkReturn := false, clkDev := 0, trimOk := false, bkpOk := false, priOk := false,
    bkpActive := false }

def RefOut.reset : RefOut := { pulse := none }

def Ref.reset : Ref :=
  { ctrl := 0, src := 0, encCfg := 0x00000003, lineCfg := 0x00000810, lineNom := 0x00004E20, rcSetLo := 0, rcSetHi := 0,
    outCfg := [], outDiv := [], tcPt := [], tcVr := [], rc := 0, rcLast := 0, rate := 0, phase := 0, flags := 0,
    run := false, startPend := false, startDue := false, encRate := 0, encUp := true, encDt := 0, lock := .none, lineRate := 0,
    lineGood := 0, lineBad := 0, lineDt := 0, linePeriod := 0, tcC := 0, tcGain := 0, tcAct := false, tcNext := none, outs := [], markFrom := 0 }

def Strait.reset : Strait :=
  { ctrl := 0x00001080, island := 0xFF, depth := 0, link0 := 0, link1 := 0, flags := 0, dly := 0, missCnt := 0,
    discCnt := 0, err := 0, extrap := false, srcRef := 0, lockRef := 0, training := false, reqNo := 0, results := [],
    aligned := false, lastSeq := none, syncRate := 0, slew := 0, slewLeft := 0, loadRc := none, missRun := 0,
    goodRun := 0, sinceSlip := 0, seen := [], belowClass := 0, belowOrigin := 0, below := 0, long := false, disc := [],
    discTick := [], seq := 0 }

/-- The default profile of R124. -/
def Profile.reset : Profile :=
  { vstart := 0x00002000, a1 := 0x00040000, v1 := 0x00010000, a2 := 0x00020000, vmax := 0x00020000,
    d2 := 0x00040000, d1 := 0x00040000, vstop := 0x00002000 }

/-- The stop set before a profile is in use: that of the default profile and the reset AX_QSTOP_DECEL. -/
def StopSet.reset : StopSet := { d2 := 0x40000, v1 := 0x10000, d1 := 0x40000, vstop := 0x2000, qdec := 0x100000 }

def Motion.reset : Motion :=
  { en := false, disPend := false, disDue := false, mode := .off, x := 0, v := 0, tgt := 0, queue := [], plan := [], cruise := none,
    stopSet := StopSet.reset, act := none, look := [], start := .none, stopping := none, stops := [],
    ret := none, suspended := false, restarted := false, dwell := none, rest := 0, neg := false, stopCause := 0, posUnc := true,
    wrapped := false, booked := 0, bookLeft := none, held := false, behind := false, follow := none, play := none, later := [], deferred := [], taken := 0, own := none, plannedTo := 0,
    profs := [], profSel := 0, profBad := [] }

def CoilSt.reset : CoilSt :=
  { i12 := 0, neg := false, mask := false, phase := .idle, dither := 0, code := 0, allFast := false, fastTicks := 0,
    quad := 0, ton := 0, satRun := 0, spansFreeze := false, onDt := 0, gain := 0 }

def StallUnit.reset : StallUnit :=
  { acc := 0, n := 0, la := 0, qcnt := 0, lastQ := 0, ended := 0, qPos := 0, firstPos := 0, skip := false, invalid := 0, flags := 0 }

def WatchCoil.reset : WatchCoil := { ref := none, sum := 0, n := 0, past := 0, shift := 0 }

def Watch.reset : Watch := { on := false, settle := 0, a := WatchCoil.reset, b := WatchCoil.reset }

def AxisRegs.reset : AxisRegs :=
  { ctrl := 0, posSetLo := 0, posSetHi := 0, blend := 0x00400000, qstop := 0x00100000, rev := 0x00000014, book := 0,
    cur := 0x00010000, comm := 0, chop := 0x02100026, decay := 0x08040804, stallCfg := 0x03B44220,
    dispCfg := 0x00204014, limit := 0 }

def Axis.reset : Axis :=
  { regs := AxisRegs.reset, m := Motion.reset, bound := none, driven := false, hizzed := false, powerDue := false, isoHold := [], liveRun := 0, liveTbl := 0,
    setCur := [], theta := 0, coilA := CoilSt.reset, coilB := CoilSt.reset, stall := StallUnit.reset,
    watch := Watch.reset, base := [], baseSel := 0, home := none, char := none }

def Member.reset : Member :=
  { state := .empty, kind := .axis, index := 0, cam := false, param := 0, offset := 0, pend := none, ended := none }

def Course.reset : Course :=
  { ctrl := 0, blend := 0x00400000, qstop := 0x00100000, rev := 0x00000014, memSel := 0, m := Motion.reset,
    parent := none, members := [], faultMem := 0, memFlt := false }

def GateSw.reset : GateSw :=
  { cmd := false, waiting := false, on := false, hs := true, dead := false, retired := 0, active := 0x3FFF, pend := false,
    nOn := 0, nOff := 0, sink := 0, slowOn := 0, slowOff := 0, fastOn := 0, fastOff := 0, dev := [], round := 0, capLow := false,
    tswOn := 0, tswOff := 0 }

def PwmSet.reset : PwmSet := { per := 0x2710, ph := 0, duty := 0, cmp0 := 0, cmp1 := 0 }

def Leg.reset : Leg :=
  { mode := 0, gd := 0x0E801005, prot := 0x64041205, sol := 0, cause := 0, latch := false, flags := 0, bstOk := false,
    hiz := true, hi := GateSw.reset, lo := GateSw.reset, precharge := false, ctl := 0,
    shadow := PwmSet.reset, act := PwmSet.reset, armedSet := false, skipCnt := 0, adcDrop := false, clamp := false,
    driveOn := false, dither := 0, runs := false, res := 0, solPhase := .idle, solCur := none, solWait := [],
    solLeft := 0, booked := 0, bookLeft := none }

def Tile.reset : Tile :=
  { ctrl := 0, sup := 0x0000880E, vgUv := true, vgOv := false, vmUv := true, vmOv := false, isoHold := [], iso := false,
    isoLife := false, flags := 0, vgCode := 0, vmCode := 0, vmBound := 0, drop := 0,
    adcQ := [], failed := 0, spareOk := true, cmpPend := false, steered := false, steerK := 0, shadowK := 0, shadowNext := none, cycles := 0, mism := 0, misCnt := 0, confirming := false, judgedC := 0, judgedS := 0, badC := 0,
    badS := 0, takeover := none, legs := [] }

def Ring.reset : Ring :=
  { ctrl := 0, scope := 0, baseLo := 0, baseHi := 0, start := 0, quota := 0, credit := 0, state := .off, err := 0,
    flags := 0, wait := 0, pi := 0, fi := 0, ti := 0, ci := 0, reads := [], pref := [], outst := [],
    area := 0, fence := none, waitRc := none, quotaWait := false }

def TWin.reset : TWin := { baseLo := 0, baseHi := 0, size := 0, busy := none }

def HostB.reset : HostB :=
  { ctrl := 0, irqCfg := 2, winLo := 0, winHi := 0, winSize := 0, linkUp := false, width := 0, speed := 0, bme := false,
    d3 := false, mps := 128, mrrs := 512, asked := [], flags := 0, dbMiss := 0, budget := [], inForce := [], used := [], twins := [], rings := [],
    dbOut := false, dbStale := 0, v15Due := false, v15Sent := false, tickNo := 0, planned := true, refill := false, pauseS := false, longs := [],
    binds := [], owed := [], msixTab := [], msixPend := 0 }

def Flt.reset : Flt :=
  { ctrl := 0x00640000, flags := 0, level := false, pulse := none, injUnit := 0, injTarget := 0, injArmed := false,
    sevSel := 0, histSel := 0, sev := [], latch := List.replicate 11 0, latchRec := none, hist := [], seq := 0,
    lastDt := 0, lastSrc := 0 }

def ThmTile.reset : ThmTile :=
  { temp := 0, s0 := 0, s1 := 0, broken0 := false, broken1 := false, dev0 := 0, dev1 := 0, warn := false, throt := false,
    cntW := 0, cntT := 0, cntS := 0, fast := false, valid := false, lost := false }

def Thm.reset : Thm := { ctrl := 0, cfg := 0x14827300, dieT := 0, shut := false, flags := 0, tiles := [] }

def SpareSlot.reset : SpareSlot := { used := false, retired := false, axis := 0 }

def SramRow.reset : SramRow := { errs := 0, words := [], copying := false, pend := false, stuck := false }

/-- Core n at reset (R467): C0, C1 and C2 vote in slots 0, 1 and 2, and C3 is the spare. -/
def CoreU.reset (n : Nat) : CoreU :=
  { st := if n < 3 then .voting else .spare, slot := if n < 3 then n else 0, events := [] }

def Spr.reset : Spr :=
  { ctrl := 0, flags := 0, cores := [], corePend := false, approve := [], pair := false, aIn := true, bIn := true, aPass := false,
    bPass := false, checks := 0, slots := [], runPend := [], runRetired := [], engRetired := [], rows := [],
    rowsUsed := [], ue := 0, wearSel := 0, wear := [], resync := none, resyncWait := [], scrubAt := 0, unres := none, lost := false, coreHold := false,
    freeze := false, freezeDt := 0, paths := [] }

def SenseHist.reset : SenseHist := { count := 0, last := [] }

def EncSeen.reset : EncSeen := { chanB := false, up := true, atA := none, atB := none, idx := none }

def Inp.reset : Inp :=
  { ctrl := 0, filt := 0, safe := 0, safeAct := 0, lvl := 0, known := 0, edge := 0, latch := 0, stepCfg := [],
    stepCnt := [], encCfg := [], encCnt := [], encIdx := [], lineCfg := [], samp := [], encSeen := [], lineLast := [] }

def NvSlot.reset : NvSlot := { image := [], erases := 0 }

def CfgB.reset : CfgB :=
  { committed := false, commitPend := false, crcOk := false, crcErr := false, flags := 0, ref := 0, run := 0, lock := 0,
    lockWritten := false, loaded := 0, pass := none, episode := false, nvA := NvSlot.reset, nvB := NvSlot.reset,
    nvWrite := none, patches := [], nvSeen := false, active := [], clearing := [] }

/-- The block right after the release of nRESET (R52, R66, R537, R542): Sealed, DT 0, boot not yet complete. -/
def State.reset : State :=
  { variant := .zm4812, dt := 0, lastPeriod := none, lastTick := none, inReset := false, bootDone := false,
    bootPassed := false, tap := { instr := .bypass, cells := [] }, glb := Glb.reset, ref := Ref.reset, str := Strait.reset, host := HostB.reset,
    flt := Flt.reset, thm := Thm.reset, spr := Spr.reset, inp := Inp.reset, axes := [], courses := [], camAddr := 0,
    cam := [], camBad := [], tiles := [], tbl := [], cfg := CfgB.reset, diag := [], shadows := [], rdata := 0, out := [],
    fresh := 0, pending := [] }

end Sys2Proof.Machine
end

