-- ==== Sys2Proof/Machine/Ops.lean ====
section
/-! DEFINITION. The named operations that the meanings share: bit fields, banks of units, the counts of the variant, the
byte memory of the cam pool, the clock and the reference coordinate, outputs, completions. -/

namespace Sys2Proof.Machine

/-! ### Bit fields and numbers -/

/-- `n` bits of a word from bit `lo` up, as a number. -/
def fld (w : Word) (lo n : Nat) : Nat := (w.toNat / 2 ^ lo) % 2 ^ n

/-- Bit `i` of a word. -/
def bit (w : Word) (i : Nat) : Bool := w.getLsbD i

/-- A number as a word, modulo 2^32. -/
def wd (n : Nat) : Word := BitVec.ofNat 32 n

/-- An integer as a word in two's complement. -/
def iwd (x : Int) : Word := BitVec.ofInt 32 x

/-- The opcode (R404). -/
def op (d : Desc) : Nat := fld d.w0 0 8

/-- A motion descriptor, which enters the lookahead (R138). -/
def entersLook (o : Nat) : Bool := decide (o ∈ [0x11, 0x12, 0x13, 0x16])

/-- The word with `n` bits from `lo` replaced by the low bits of `v`. -/
def setFld (w : Word) (lo n v : Nat) : Word :=
  wd (w.toNat - fld w lo n * 2 ^ lo + (v % 2 ^ n) * 2 ^ lo)

/-- A bit as a number. -/
def b2n (b : Bool) : Nat := if b then 1 else 0

/-- The word whose bit `i` is `b` and whose other bits are 0. -/
def bw (b : Bool) (i : Nat) : Word := wd (b2n b * 2 ^ i)

/-- A number placed at bit `lo`. -/
def at_ (v lo : Nat) : Word := wd (v * 2 ^ lo)

/-- The `n`-bit two's complement value of a number. -/
def signed (n v : Nat) : Int :=
  let u := v % 2 ^ n
  if u < 2 ^ (n - 1) then (u : Int) else (u : Int) - 2 ^ n

/-- An integer reduced to the `n`-bit two's complement range. -/
def wrapS (n : Nat) (x : Int) : Int := (x + 2 ^ (n - 1)) % 2 ^ n - 2 ^ (n - 1)

/-- A number added with saturation at a limit. -/
def satAdd (lim a b : Nat) : Nat := min lim (a + b)

/-- Rounding to the nearest integer, halves up (R129, R133). -/
def roundDiv (a : Int) (b : Nat) : Int := (2 * a + b) / (2 * b)

/-- Ceiling of a quotient of naturals. -/
def ceilDiv (a b : Nat) : Nat := (a + b - 1) / b

/-- The 32-bit value of `a - b` (R378). -/
def sub32 (a b : Nat) : Nat := (a + 2 ^ 32 - b % 2 ^ 32) % 2 ^ 32

/-! ### Banks -/

/-- The unit of a number, or the default where none is listed. -/
def Bank.get (d : α) (b : Bank α) (k : Nat) : α := (b.lookup k).getD d

/-- The bank with the unit of a number replaced; numbers stay in rising order. -/
def Bank.set (b : Bank α) (k : Nat) (v : α) : Bank α :=
  match b with
  | [] => [(k, v)]
  | (j, w) :: rest =>
    if k < j then (k, v) :: (j, w) :: rest
    else if j = k then (k, v) :: rest
    else (j, w) :: Bank.set rest k v

/-! ### The byte memory of the cam pool: canonical lists of cells -/

/-- A byte that no cell lists reads as 0 (log entry 4). -/
def Memory.unlisted : BitVec 8 := 0

/-- The byte at an address. -/
def Memory.read (m : List Host.Cell) (a : Nat) : BitVec 8 := (m.lookup a).getD Memory.unlisted

/-- The memory with one byte written, in canonical form. -/
def Memory.write (m : List Host.Cell) (a : Nat) (v : BitVec 8) : List Host.Cell :=
  match m with
  | [] => if v = Memory.unlisted then [] else [(a, v)]
  | (j, w) :: rest =>
    if a < j then (if v = Memory.unlisted then (j, w) :: rest else (a, v) :: (j, w) :: rest)
    else if j = a then (if v = Memory.unlisted then rest else (a, v) :: rest)
    else (j, w) :: Memory.write rest a v

/-- The addresses rise strictly from a bound on, and no cell holds the value of an unlisted one. -/
def Memory.wfFrom (lo : Nat) : List Host.Cell → Bool
  | [] => true
  | (j, w) :: rest => decide (lo ≤ j) && decide (w ≠ Memory.unlisted) && Memory.wfFrom (j + 1) rest

/-- The canonical form. -/
def Memory.wf (m : List Host.Cell) : Bool := Memory.wfFrom 0 m

/-- The little-endian word at word address `a`. -/
def Memory.readWord (m : List Host.Cell) (a : Nat) : Word :=
  Memory.read m (4 * a + 3) ++ Memory.read m (4 * a + 2) ++ Memory.read m (4 * a + 1) ++ Memory.read m (4 * a)

/-- The memory with the little-endian word at word address `a` written. -/
def Memory.writeWord (m : List Host.Cell) (a : Nat) (v : Word) : List Host.Cell :=
  Memory.write (Memory.write (Memory.write (Memory.write m (4 * a) (v.extractLsb' 0 8))
    (4 * a + 1) (v.extractLsb' 8 8)) (4 * a + 2) (v.extractLsb' 16 8)) (4 * a + 3) (v.extractLsb' 24 8)

/-! ### The variant's counts (R1) -/

/-- One of three values by variant. -/
def Variant.pick (v : Variant) (a b c : α) : α :=
  match v with
  | .zm4812 => a
  | .zm2406 => b
  | .zm1203 => c

def Variant.tiles (v : Variant) : Nat := v.pick 12 6 3
def Variant.axes (v : Variant) : Nat := v.pick 48 24 12
def Variant.legs (v : Variant) : Nat := v.pick 192 96 48
def Variant.courses (v : Variant) : Nat := v.pick 16 8 4
def Variant.pairs (v : Variant) : Nat := v.pick 16 8 4
def Variant.encoders (v : Variant) : Nat := v.pick 4 2 1
def Variant.lines (v : Variant) : Nat := v.pick 2 2 1
def Variant.senses (v : Variant) : Nat := v.pick 64 32 16
def Variant.ports (v : Variant) : Nat := v.pick 2 1 0
def Variant.windows (v : Variant) : Nat := v.pick 16 16 0
def Variant.rings (v : Variant) : Nat := v.pick 64 32 16
def Variant.spareSlots (v : Variant) : Nat := v.pick 4 2 1
def Variant.mibs (v : Variant) : Nat := v.pick 2 1 1
def Variant.part (v : Variant) : Nat := v.pick 0x4812 0x2406 0x1203
def Variant.camWords (v : Variant) : Nat := v.pick 32768 16384 16384

/-! ### Units of the state -/

namespace State

def axis (s : State) (a : Nat) : Axis := Bank.get Axis.reset s.axes a
def setAxis (s : State) (a : Nat) (x : Axis) : State := { s with axes := Bank.set s.axes a x }
def course (s : State) (c : Nat) : Course := Bank.get Course.reset s.courses c
def setCourse (s : State) (c : Nat) (x : Course) : State := { s with courses := Bank.set s.courses c x }
def tile (s : State) (t : Nat) : Tile := Bank.get Tile.reset s.tiles t
def setTile (s : State) (t : Nat) (x : Tile) : State := { s with tiles := Bank.set s.tiles t x }
def leg (s : State) (t l : Nat) : Leg := Bank.get Leg.reset (s.tile t).legs l
def setLeg (s : State) (t l : Nat) (x : Leg) : State :=
  s.setTile t { s.tile t with legs := Bank.set (s.tile t).legs l x }
def ring (s : State) (r : Nat) : Ring := Bank.get Ring.reset s.host.rings r
def setRing (s : State) (r : Nat) (x : Ring) : State := { s with host := { s.host with rings := Bank.set s.host.rings r x } }
def twin (s : State) (w : Nat) : TWin := Bank.get TWin.reset s.host.twins w
def setTwin (s : State) (w : Nat) (x : TWin) : State := { s with host := { s.host with twins := Bank.set s.host.twins w x } }
def thmTile (s : State) (t : Nat) : ThmTile := Bank.get ThmTile.reset s.thm.tiles t
def setThmTile (s : State) (t : Nat) (x : ThmTile) : State := { s with thm := { s.thm with tiles := Bank.set s.thm.tiles t x } }
def core (s : State) (n : Nat) : CoreU := Bank.get (CoreU.reset n) s.spr.cores n
def setCore (s : State) (n : Nat) (x : CoreU) : State := { s with spr := { s.spr with cores := Bank.set s.spr.cores n x } }

/-- The motion of an axis or a course (R164). -/
def motion (s : State) (k : UnitKind) (n : Nat) : Motion :=
  match k with
  | .axis => (s.axis n).m
  | .course => (s.course n).m

def setMotion (s : State) (k : UnitKind) (n : Nat) (m : Motion) : State :=
  match k with
  | .axis => s.setAxis n { s.axis n with m := m }
  | .course => s.setCourse n { s.course n with m := m }

/-- A change of one axis, leg, tile, ring or motion. -/
def updAxis (s : State) (a : Nat) (f : Axis → Axis) : State := s.setAxis a (f (s.axis a))
def updCourse (s : State) (c : Nat) (f : Course → Course) : State := s.setCourse c (f (s.course c))
def updTile (s : State) (t : Nat) (f : Tile → Tile) : State := s.setTile t (f (s.tile t))
def updLeg (s : State) (t l : Nat) (f : Leg → Leg) : State := s.setLeg t l (f (s.leg t l))
def updRing (s : State) (r : Nat) (f : Ring → Ring) : State := s.setRing r (f (s.ring r))
def updMotion (s : State) (k : UnitKind) (n : Nat) (f : Motion → Motion) : State := s.setMotion k n (f (s.motion k n))

/-- The unit is present in the variant (R2). -/
def present (s : State) (k : UnitKind) (n : Nat) : Bool :=
  match k with
  | .axis => decide (n < s.variant.axes)
  | .course => decide (n < s.variant.courses)

/-- The numbers of the present units. -/
def allAxes (s : State) : List Nat := List.range s.variant.axes
def allCourses (s : State) : List Nat := List.range s.variant.courses
def allTiles (s : State) : List Nat := List.range s.variant.tiles
def allRings (s : State) : List Nat := List.range s.variant.rings

/-- A fold of a change over a list of numbers. -/
def each (s : State) (l : List Nat) (f : Nat → State → State) : State := l.foldl (fun t n => f n t) s

/-- Something is sent to the outside. -/
def emit (s : State) (o : Output) : State := { s with out := s.out ++ [o] }

/-- The free value counter advances past a value just used (log entry 2). -/
def spend (s : State) : State := { s with fresh := s.fresh + 1 }

end State

/-- The four legs of an axis within its tile (R19). -/
def axisTile (a : Nat) : Nat := a / 4
def axisLegs (a : Nat) : List Nat := [4 * (a % 4), 4 * (a % 4) + 1, 4 * (a % 4) + 2, 4 * (a % 4) + 3]

/-- The axis whose slot holds a leg (R19). -/
def legAxis (t l : Nat) : Nat := 4 * t + l / 4

/-! ### Device time and the reference coordinate -/

/-- The INC of R72 in 2^-40 RC unit, for a correction in ppb: 2^40/200 rounded, corrected and rounded again. -/
def rcInc (c : Int) : Nat := (roundDiv (5497558139 * (1000000000 + c)) 1000000000).toNat

/-- The fraction of the encoder source is clamped between 0x00_0000 and 0xFF_0000 (R74), here with 40 bits. -/
def encFracMax : Nat := 0xFF0000 * 2 ^ 16

/-- The RC after `n` DT counts of the selected source (R72, R74, R77, R106). -/
def rcAfter (r : Ref) (t : Strait) (n : Nat) : Nat :=
  if r.run then
    match fld r.src 0 4 with
    | 0 => (r.rc + n * rcInc r.tcC) % 2 ^ 80
    | 1 =>
      let frac : Int := (r.rc % 2 ^ 40 : Nat)
      let f := max 0 (min (encFracMax : Int) (frac + n * r.encRate))
      r.rc / 2 ^ 40 * 2 ^ 40 + f.toNat
    | 2 => (r.rc + n * r.lineRate) % 2 ^ 80
    | _ =>
      let adv : Int := n * (t.syncRate * 2 ^ 24 / 2000) + (min n t.slewLeft) * t.slew
      (((r.rc : Int) + adv) % 2 ^ 80).toNat
  else r.rc

/-- The GAIN in force: 0 where compensation is absent or disabled, whichever oscillator runs (R119, R203); behind a write of TCOMP_EN = 1 the last
one formed, until a temperature is taken (DESIGN CHOICE, log entry 83). -/
def State.gain (s : State) : Int := if bit s.ref.ctrl 1 && decide (s.variant = .zm4812) then s.ref.tcGain else 0

/-- The 40.8 value of the RC (R67): RC bits 63:16. -/
def Ref.c408 (r : Ref) : Nat := r.rc / 2 ^ 32

/-- The 40.8 boundary sample: the RC at the last period boundary (R67, R71). -/
def Ref.bound408 (r : Ref) : Nat := r.rcLast / 2 ^ 32

/-- The 64-bit RC (R66). -/
def Ref.rc64 (r : Ref) : Nat := r.rc / 2 ^ 16

/-- `n` DT counts pass. -/
def State.pass (s : State) (n : Nat) : State :=
  { s with dt := s.dt + n
           ref := { s.ref with rc := rcAfter s.ref s.str n, markFrom := if n = 0 then s.ref.markFrom else rcAfter s.ref s.str (n - 1) / 2 ^ 40 }
           str := { s.str with slewLeft := s.str.slewLeft - n } }

/-- DT counts from now to the next DT congruent to PHASE modulo `p`, not counting the boundary `last` already carried out. -/
def State.untilNext (s : State) (p : Nat) (last : Option Nat) : Nat :=
  let d := (p + s.ref.phase % p - s.dt % p) % p
  if d = 0 ∧ last = some s.dt then p else d

/-- The DT of the boundary that follows the one at `t`: no period is shorter than 1,000 DT counts or longer than 3,000, also before the first
boundary that strait alignment sets (R30, R104). -/
def State.boundaryAfter (s : State) (t : Nat) : Nat := t + 1000 + (2000 + s.ref.phase % 2000 - (t + 1000) % 2000) % 2000

/-- The DT at which the period that runs now has begun; a boundary that has come counts, carried out or not. -/
def State.periodStart (s : State) : Nat :=
  let due := s.dt - (s.dt + 2000 - s.ref.phase % 2000) % 2000
  match s.lastPeriod with
  | some t => if s.dt < s.boundaryAfter t then t else due
  | none => due

/-- The DT of the last period boundary. -/
def State.bdt (s : State) : Nat := s.lastPeriod.getD s.dt

/-- The DT of the last tick boundary. -/
def State.tickDt (s : State) : Nat := s.lastTick.getD s.dt

/-- The DT of the next tick boundary after now (R33). -/
def State.nextTick (s : State) : Nat := s.dt + s.untilNext 50000 (some s.dt)

/-- A 40.8 value is at or after another (R84). -/
def atOrAfter (c e : Nat) : Bool := decide ((c + 2 ^ 48 - e % 2 ^ 48) % 2 ^ 48 < 2 ^ 47)

/-- The classes of a window sample (R85). -/
inductive WinClass where
  | before
  | inside
  | after
deriving DecidableEq, Repr

/-- The width of a window (R85). -/
def winWidth (opn cls : Nat) : Nat := (cls + 2 ^ 48 - opn % 2 ^ 48) % 2 ^ 48

/-- The classification of a sample against a window (R85, R86). -/
def winClass (c opn cls : Nat) : WinClass :=
  if (c + 2 ^ 48 - opn % 2 ^ 48) % 2 ^ 48 < winWidth opn cls then .inside
  else if (c + 2 ^ 48 - cls % 2 ^ 48) % 2 ^ 48 < 2 ^ 47 then .after
  else .before

/-! ### Codes -/

def DevMode.code (m : DevMode) : Nat :=
  match m with
  | .sealed => 0
  | .configure => 1
  | .diagnose => 2
  | .run => 3
  | .hold => 4
  | .safe => 5

def DevMode.ofCode (n : Nat) : Option DevMode :=
  match n with
  | 0 => some .sealed
  | 1 => some .configure
  | 2 => some .diagnose
  | 3 => some .run
  | 4 => some .hold
  | 5 => some .safe
  | _ => none

def FClass.code (c : FClass) : Nat :=
  match c with
  | .log => 0
  | .degrade => 1
  | .isolate => 2
  | .halt => 3
  | .trip => 4
  | .lock => 5

def FClass.ofCode (n : Nat) : Option FClass :=
  match n with
  | 0 => some .log
  | 1 => some .degrade
  | 2 => some .isolate
  | 3 => some .halt
  | 4 => some .trip
  | 5 => some .lock
  | _ => none

def UnitMode.code (m : UnitMode) : Nat :=
  match m with
  | .off => 0
  | .target => 1
  | .velocity => 2
  | .step => 3
  | .table => 4
  | .member => 5

/-- AX_STAT.STOP_CAUSE (R149). -/
def StopCause.code (c : StopCause) : Nat :=
  match c with
  | .hiz => 7
  | .modeLeft => 7
  | .disabled => 9
  | .haltClass => 3
  | .starved => 4
  | .stall => 6
  | .limit => 5
  | .qstop => 2
  | .stop => 1
  | .holdReq => 8

/-- The rank of a cause in the table of R149: the top row is 0. -/
def StopCause.rank (c : StopCause) : Nat :=
  match c with
  | .hiz => 0
  | .modeLeft => 0
  | .disabled => 1
  | .haltClass => 2
  | .starved => 3
  | .stall => 4
  | .limit => 5
  | .qstop => 6
  | .stop => 7
  | .holdReq => 8

/-- The status of a move in progress that the cause interrupts (R149, R424). -/
def StopCause.status (c : StopCause) : Nat :=
  match c with
  | .hiz => 0x11
  | .modeLeft => 0x17
  | .disabled => 0x10
  | .haltClass => 0x11
  | .starved => 0x11
  | .stall => 0x11
  | .limit => 0x12
  | .qstop => 0x10
  | .stop => 0x10
  | .holdReq => 0x10

/-! ### Status codes of records (R424) -/

namespace Status

def ok : Nat := 0x01
def invalidField : Nat := 0x02
def unitAbsent : Nat := 0x03
def unitBusy : Nat := 0x04
def wrongMode : Nat := 0x05
def modeRefused : Nat := 0x06
def axisMoving : Nat := 0x07
def bound : Nat := 0x08
def addrRange : Nat := 0x09
def stopped : Nat := 0x10
def faultStopped : Nat := 0x11
def limitStopped : Nat := 0x12
def replaced : Nat := 0x13
def cancelled : Nat := 0x14
def windowMissed : Nat := 0x15
def underrun : Nat := 0x16
def aborted : Nat := 0x17
def noRetained : Nat := 0x18
def uncertain : Nat := 0x19
def limitActive : Nat := 0x1A
def inputUnknown : Nat := 0x1B
def notFound : Nat := 0x20
def noBaseline : Nat := 0x21
def tempRange : Nat := 0x22
def crcMismatch : Nat := 0x23
def nvFail : Nat := 0x24
def notPending : Nat := 0x25
def testFail : Nat := 0x26
def overBudget : Nat := 0x27

end Status

/-! ### Completions (R385, R422, R423) -/

/-- Word 7 of a record (R422): flags are bits 23:16. -/
def recWord7 (flags opcode status : Nat) : Word := wd (2 ^ 31 + flags * 2 ^ 16 + opcode * 2 ^ 8 + status)

/-- A record with words 1 to 5 given; word 0 as submitted and word 6 the boundary sample's low word (R423). -/
def State.mkRecord (s : State) (word0 : Word) (ws : List Word) (flags status : Nat) : List Word :=
  [word0] ++ (ws ++ List.replicate 5 0).take 5 ++ [wd (s.ref.bound408 % 2 ^ 32), recWord7 flags (fld word0 0 8) status]

/-- The descriptor of a tag completes with a record: it is held in its ring until its write-back (R385). -/
def State.complete (s : State) (g : Tag) (r : List Word) : State :=
  s.updRing g.ring fun x =>
    { x with outst := x.outst.map fun o =>
        if o.index = g.index ∧ o.record = none then { o with record := some r, doneDt := s.dt } else o }

/-- The position words of a record (R423): POS bits 31:0, POS bits 47:32. -/
def posLo (p : Int) : Word := iwd p
def posHi16 (p : Int) : Nat := ((p / 2 ^ 32) % 2 ^ 16).toNat

/-- The integer position of a unit (R39): the position without its fraction. -/
def Motion.pos (m : Motion) : Int := m.x / 2 ^ 32

/-- A 48-bit position in the format of R15: POS_HI holds bits 47:32 and copies of bit 47. -/
def posHi (p : Int) : Word := iwd (wrapS 48 p / 2 ^ 32)

/-- A retained value in the format of AX_RET_LO and AX_RET_HI (R162). -/
def retWords (r : Option Retained) : Word × Word :=
  match r with
  | none => (0, 0)
  | some x => if x.isVel then (iwd (x.value.natAbs : Int), if x.value < 0 then 0xFFFFFFFF else 0) else (posLo x.value, posHi x.value)

/-- Flags of a record (R422) from bit 16 up. -/
structure RecFlags where
  late : Bool
  unc : Bool
  memberFault : Bool
  retValid : Bool
  retKind : Bool
  turned : Bool
deriving DecidableEq, Repr

def RecFlags.code (f : RecFlags) : Nat :=
  b2n f.late + 2 * b2n f.unc + 4 * b2n f.memberFault + 8 * b2n f.retValid + 16 * b2n f.retKind + 32 * b2n f.turned

/-! ### Carrying out a command -/

/-- What a command answers. -/
abbrev Answer := Host.Outcome State Fault Refusal

/-- A command is carried out by a change of the state: what the command before it sent out is gone, and in internal reset nothing
happens (R537). -/
def State.command (s : State) (f : State → State) : Answer :=
  .next (if s.inReset then { s with out := [] } else f { s with out := [] })

end Sys2Proof.Machine
end

