-- ==== Sys2Proof/Machine/Frames.lean ====
section
/-! DEFINITION. The checks that the spec computes bit by bit: the CRC-16 and the layout of strait frames (R98, R99), and
CRC-32C (R447). -/

namespace Sys2Proof.Machine

/-- One bit of the CRC-16 of R99: polynomial 0x1021, no reflection. -/
def crc16Bit (c : Nat) : Nat := if c / 32768 % 2 = 1 then ((c * 2) % 65536) ^^^ 0x1021 else (c * 2) % 65536

/-- One byte of the CRC-16. -/
def crc16Byte (c : Nat) (b : Byte) : Nat := (List.range 8).foldl (fun x _ => crc16Bit x) (c ^^^ (b.toNat * 256))

/-- The CRC-16 of R99: initial value 0xFFFF, no final XOR. -/
def crc16 (bs : List Byte) : Nat := bs.foldl crc16Byte 0xFFFF

/-- One bit of CRC-32C, reflected (R447). -/
def crc32cBit (c : Nat) : Nat := if c % 2 = 1 then (c / 2) ^^^ 0x82F63B78 else c / 2

/-- One byte of CRC-32C. -/
def crc32cByte (c : Nat) (b : Nat) : Nat := (List.range 8).foldl (fun x _ => crc32cBit x) (c ^^^ b)

/-- CRC-32C over words, each least significant byte first (R447). -/
def crc32c (ws : List Word) : Word :=
  wd ((ws.foldl (fun c w => (List.range 4).foldl (fun x i => crc32cByte x (fld w (8 * i) 8)) c) 0xFFFFFFFF) ^^^ 0xFFFFFFFF)

/-- `n` bytes of a number, least significant first (R98). -/
def leBytes (n v : Nat) : List Byte := (List.range n).map fun i => BitVec.ofNat 8 (v / 2 ^ (8 * i))

/-- The number that bytes give, least significant first. -/
def ofLeBytes (bs : List Byte) : Nat := bs.foldr (fun b acc => b.toNat + 256 * acc) 0

/-- Byte `i` of a frame, as a number. -/
def frameByte (f : List Byte) (i : Nat) : Nat := (f.getD i 0).toNat

/-- Bytes `i` to `i + n - 1` of a frame, as a number, least significant first. -/
def frameNum (f : List Byte) (i n : Nat) : Nat := ofLeBytes ((f.drop i).take n)

/-- The frame types of R98. -/
def frameSync : Nat := 0x01
def frameUpstatus : Nat := 0x05
def frameFault : Nat := 0x06
def frameTrainReq : Nat := 0x0A
def frameTrainEcho : Nat := 0x0B

/-- The characters that open and close a frame: K28.5 (0xBC) and K29.7 (0xFD) of 8b/10b (R98). -/
def frameSof : Byte := 0xBC
def frameEof : Byte := 0xFD

/-- A frame from its bytes 1 to 23: SOF, the bytes, the CRC with its high byte first, EOF (R98, R99). -/
def mkFrame (body : List Byte) : List Byte :=
  let b := (body ++ List.replicate 23 0).take 23
  [frameSof] ++ b ++ [BitVec.ofNat 8 (crc16 b / 256), BitVec.ofNat 8 (crc16 b)] ++ [frameEof]

/-- The same frame with the CRC inverted (R101). -/
def mkBadFrame (body : List Byte) : List Byte :=
  let b := (body ++ List.replicate 23 0).take 23
  let c := crc16 b ^^^ 0xFFFF
  [frameSof] ++ b ++ [BitVec.ofNat 8 (c / 256), BitVec.ofNat 8 c] ++ [frameEof]

/-- The CRC of a frame is right. -/
def frameCrcOk (f : List Byte) : Bool :=
  decide (crc16 ((f.drop 1).take 23) = frameByte f 24 * 256 + frameByte f 25)

/-- A frame is good: 27 characters, SOF and EOF in place, a known type and a right CRC (R98, R99). -/
def frameGood (f : List Byte) : Bool :=
  decide (f.length = 27) && decide (f.getD 0 0 = frameSof) && decide (f.getD 26 0 = frameEof) && frameCrcOk f &&
  decide (frameByte f 1 ∈ [frameSync, frameUpstatus, frameFault, frameTrainReq, frameTrainEcho])

/-- The FLT byte of R98: class code 0 none, 1 HALT, 2 TRIP, 3 LOCK in bits 7:5, origin island in bits 4:0. -/
def fltByte (cls origin : Nat) : Nat := (cls % 8) * 32 + origin % 32

/-- The FLT class code of a fault class: 0 below HALT. -/
def FClass.fltCode (c : FClass) : Nat :=
  match c with
  | .log => 0
  | .degrade => 0
  | .isolate => 0
  | .halt => 1
  | .trip => 2
  | .lock => 3

/-- A FAULT frame of an origin island (R98, R108). -/
def faultFrame (origin cls : Nat) : List Byte :=
  mkFrame (leBytes 1 frameFault ++ leBytes 1 origin ++ List.replicate 16 0 ++ leBytes 1 (fltByte cls origin))

end Sys2Proof.Machine
end

