-- ==== Sys2Proof/Machine/Faults.lean ====
section
/-! DEFINITION. The fault controller (R501 to R525): source numbers and classes, recording and merging, nFAULT, and the class
reactions that a raised source starts. -/

namespace Sys2Proof.Machine

/-! ### Sources (R509, R510) -/

/-- What numbers a source: its index within the range is below the count of such units (R509). -/
structure SrcInfo where
  base : Nat
  count : Nat
  dflt : FClass
  mn : FClass
  mx : FClass
  /-- the unit owns legs, so that ISOLATE is a class it may take (R506) -/
  legs : Bool
deriving DecidableEq, Repr

/-- The table of R510, in rising source numbers, with the unit counts of the variant. -/
def srcTable (v : Variant) : List SrcInfo :=
  [ ⟨0x000, 3, .lock, .lock, .lock, false⟩, ⟨0x003, 3, .trip, .trip, .trip, false⟩,
    ⟨0x006, 1, .halt, .halt, .trip, false⟩, ⟨0x007, 1, .log, .log, .log, false⟩,
    ⟨0x008, 1, .halt, .halt, .lock, false⟩, ⟨0x009, 2, .halt, .log, .trip, false⟩,
    ⟨0x00B, 1, .log, .log, .halt, false⟩, ⟨0x00C, 2, .halt, .log, .trip, false⟩,
    ⟨0x00E, 1, .log, .log, .halt, false⟩, ⟨0x00F, 1, .halt, .log, .trip, false⟩,
    ⟨0x010, 4, .log, .log, .log, false⟩, ⟨0x014, 1, .degrade, .log, .halt, false⟩,
    ⟨0x015, 1, .log, .log, .log, false⟩, ⟨0x016, 1, .log, .log, .halt, false⟩,
    ⟨0x017, 1, .log, .log, .log, false⟩, ⟨0x018, 2, .degrade, .degrade, .degrade, false⟩ ] ++
  [ ⟨0x01A, v.mibs, .log, .log, .log, false⟩, ⟨0x01C, v.mibs, .degrade, .log, .degrade, false⟩,
    ⟨0x01E, v.mibs, .degrade, .degrade, .halt, false⟩, ⟨0x020, 4, .log, .log, .degrade, false⟩,
    ⟨0x024, 4, .log, .log, .degrade, false⟩, ⟨0x028, 4, .log, .log, .degrade, false⟩,
    ⟨0x02C, 4, .degrade, .degrade, .degrade, false⟩, ⟨0x030, 4, .degrade, .degrade, .halt, false⟩,
    ⟨0x034, 21, .log, .log, .log, false⟩, ⟨0x050, v.windows, .halt, .log, .trip, true⟩,
    ⟨0x060, v.rings, .log, .log, .halt, false⟩, ⟨0x0A0, v.courses, .isolate, .isolate, .trip, true⟩,
    ⟨0x0B0, v.courses, .halt, .log, .trip, true⟩, ⟨0x0C0, v.senses, .halt, .log, .trip, false⟩,
    ⟨0x100, v.axes, .halt, .log, .trip, true⟩, ⟨0x140, v.axes, .degrade, .degrade, .halt, true⟩,
    ⟨0x180, v.axes, .halt, .log, .trip, true⟩, ⟨0x1C0, v.axes, .log, .log, .trip, true⟩,
    ⟨0x200, v.axes, .log, .log, .trip, true⟩, ⟨0x240, v.axes, .log, .log, .halt, true⟩,
    ⟨0x280, v.axes, .log, .log, .halt, true⟩ ] ++
  [ ⟨0x2C0, v.tiles, .isolate, .isolate, .lock, true⟩, ⟨0x2D0, v.tiles, .isolate, .isolate, .lock, true⟩,
    ⟨0x2E0, v.tiles, .isolate, .isolate, .lock, true⟩, ⟨0x2F0, v.tiles, .isolate, .isolate, .lock, true⟩,
    ⟨0x300, v.tiles, .isolate, .isolate, .lock, true⟩, ⟨0x310, v.tiles, .isolate, .isolate, .lock, true⟩,
    ⟨0x320, v.tiles, .isolate, .isolate, .lock, true⟩, ⟨0x330, v.tiles, .isolate, .log, .trip, true⟩,
    ⟨0x340, v.tiles, .halt, .log, .trip, true⟩, ⟨0x350, v.tiles, .trip, .log, .lock, true⟩,
    ⟨0x360, v.tiles, .degrade, .log, .degrade, true⟩, ⟨0x370, v.tiles, .degrade, .log, .isolate, true⟩,
    ⟨0x380, v.tiles, .log, .log, .degrade, true⟩, ⟨0x390, v.tiles, .degrade, .degrade, .trip, true⟩,
    ⟨0x3A0, v.tiles, .degrade, .log, .degrade, true⟩, ⟨0x3B0, v.tiles, .log, .log, .degrade, true⟩,
    ⟨0x3C0, v.tiles, .degrade, .log, .degrade, true⟩, ⟨0x3D0, v.tiles, .halt, .degrade, .trip, true⟩,
    ⟨0x3E0, v.tiles, .log, .log, .halt, true⟩, ⟨0x3F0, v.tiles, .log, .log, .halt, true⟩ ]

/-- The row of a source number; none for an unassigned number. -/
def srcInfo (v : Variant) (n : Nat) : Option SrcInfo :=
  (srcTable v).find? fun r => decide (r.base ≤ n ∧ n < r.base + r.count)

/-- The class in force of a source (R461): its FLT_SEV class, DEFAULT at reset. -/
def State.classOf (s : State) (src : Nat) : FClass :=
  match srcInfo s.variant src with
  | some r => Bank.get r.dflt s.flt.sev src
  | none => .log

/-- A class that a write of FLT_SEV may set for a source (R511). -/
def sevAllowed (v : Variant) (src : Nat) (c : FClass) : Bool :=
  match srcInfo v src with
  | none => false
  | some r =>
    decide (r.mn.code ≤ c.code) && decide (c.code ≤ r.mx.code) &&
    (r.legs || decide (c ≠ .isolate)) &&
    !(decide (r.base = 0x330) && decide (c = .degrade)) &&
    !(decide (r.base = 0x140) && decide (c = .log))

/-! ### Entries (R513 to R518) -/

/-- A record is open (R516): in its reaction window of 400 DT counts, or unacknowledged and of class HALT or above. -/
def Entry.isOpen (e : Entry) (now : Nat) : Bool :=
  (e.window && decide (1 ≤ e.cls.code) && decide (now < e.dt + 400) && !e.ack) || (decide (3 ≤ e.cls.code) && !e.ack)

/-- A merge into an entry (R518). -/
def Entry.merge (e : Entry) (src : Nat) (c : FClass) : Entry :=
  { e with mcount := satAdd 1023 e.mcount 1
           mmap := e.mmap ||| 2 ^ (src / 8 % 128)
           mlast := src
           mtop := match e.mtop with
             | none => some c
             | some m => if m.code < c.code then some c else some m }

/-- The highest class an entry stands for where a condition asks for records of a class (R513). -/
def Entry.topClass (e : Entry) : FClass :=
  match e.mtop with
  | none => e.cls
  | some m => if e.cls.code < m.code then m else e.cls

/-- An unacknowledged record of a class at least `c` is held (R54, R513). -/
def Flt.unacked (f : Flt) (c : FClass) : Bool :=
  f.hist.any fun e => !e.ack && decide (c.code ≤ e.topClass.code)

/-- An unacknowledged record of exactly the class `c`, its MTOP counted as R513 says. -/
def Flt.unackedOf (f : Flt) (c : FClass) : Bool :=
  f.hist.any fun e => !e.ack && (decide (e.cls = c) || decide (e.mtop = some c))

/-- The words of an entry (R514). -/
def Entry.words (e : Entry) (now : Nat) : List Word :=
  [ wd (e.cls.code * 2 ^ 29 + b2n e.inj * 2 ^ 28 + b2n e.ack * 2 ^ 27 + b2n (e.isOpen now) * 2 ^ 26 + e.mcount * 2 ^ 16 + e.src),
    e.detail, wd e.dt, wd (e.dt / 2 ^ 32), wd e.rc, wd (e.rc / 2 ^ 32),
    wd e.mmap, wd (e.mmap / 2 ^ 32), wd (e.mmap / 2 ^ 64), wd (e.mmap / 2 ^ 96),
    wd ((match e.mtop with | none => 0 | some m => m.code) * 2 ^ 12 + e.mlast) ]

/-- Replace the first entry that a test picks. -/
def updFirst (l : List α) (p : α → Bool) (f : α → α) : List α :=
  match l with
  | [] => []
  | x :: xs => if p x then f x :: xs else x :: updFirst xs p f

/-- Remove the last entry that a test picks. -/
def dropLast? (l : List α) (p : α → Bool) : Option (List α) :=
  match l with
  | [] => none
  | x :: xs =>
    match dropLast? xs p with
    | some ys => some (x :: ys)
    | none => if p x then some xs else none

/-- An entry may be overwritten (R513): it is not an unacknowledged record of class HALT or above. -/
def Entry.mayGo (e : Entry) : Bool := e.ack || decide (e.cls.code < 3)

/-- The order of records that fall in one cycle (R503): higher class first, then lower source number. -/
def Entry.before (a b : Entry) : Bool :=
  decide (b.cls.code < a.cls.code) || (decide (a.cls = b.cls) && decide (a.src < b.src))

/-- Insert a record among those of its own cycle, which stand newest first at the head of the queue (R503). -/
def insertCycle (e : Entry) (l : List Entry) : List Entry :=
  match l with
  | [] => [e]
  | x :: xs => if decide (x.dt = e.dt) && e.before x then x :: insertCycle e xs else e :: x :: xs

/-- Give the `k` newest entries the record numbers below `top`, newest highest. -/
def renumber (k top : Nat) (l : List Entry) : List Entry :=
  match k, l with
  | k + 1, x :: xs => { x with num := top } :: renumber k (top - 1) xs
  | _, l => l

/-- The merges of a record go to another of its cycle (R503). -/
def Entry.takeMerges (e f : Entry) : Entry := { e with mcount := f.mcount, mmap := f.mmap, mtop := f.mtop, mlast := f.mlast }

/-- The entry without merges. -/
def Entry.bare (e : Entry) : Entry := { e with mcount := 0, mmap := 0, mtop := none, mlast := 0 }

/-- The four records of a cycle, newest first, take in a fifth that goes before the last of them, `x`: that one is merged into the first, which also
takes over what had been merged into the first before (R503). -/
def crowd (e x : Entry) (l : List Entry) : List Entry :=
  let all := insertCycle e l
  match all.getLast?, l.getLast? with
  | some a, some f =>
    let all := if a.uid = e.uid then all.map fun y => if y.uid = e.uid then e.takeMerges f else if y.uid = f.uid then y.bare else y else all
    all.map fun y => if y.uid = a.uid then y.merge x.src x.cls else y
  | _, _ => all

/-! ### Signals -/

/-- nFAULT (R521): asserted in internal reset, during a pulse, while LOCKED, and otherwise at LEVEL. -/
def State.nfault (s : State) : Bool :=
  s.inReset || s.glb.locked || s.flt.pulse.isSome || s.flt.level

/-- The pulse that a record of class ISOLATE or higher starts or restarts (R521). -/
def Flt.startPulse (f : Flt) (now : Nat) (c : FClass) : Flt :=
  if 2 ≤ c.code then { f with pulse := some (now + 200 * fld f.ctrl 16 10) } else f

/-- Vector 15 is requested by a class at or above FLT_MIN (R368). -/
def HostB.hint (h : HostB) (c : FClass) : HostB :=
  if fld h.irqCfg 0 4 ≤ c.code then { h with v15Due := true } else h

/-- The device is on a strait chain (R94, R112). -/
def State.onChain (s : State) : Bool := decide (fld s.str.ctrl 0 2 ≠ 0) && decide (s.str.island ≠ 0xFF)

/-- The role uses the port: a reference island uses port 1 only (R94). -/
def State.portUsed (s : State) (p : Nat) : Bool :=
  decide (fld s.str.ctrl 0 2 ≠ 0) && decide (p < s.variant.ports) && (decide (fld s.str.ctrl 0 2 ≠ 1) || decide (p = 1))

/-- The port transmits (R94); in Sealed no port does (R541). -/
def State.portOn (s : State) (p : Nat) : Bool := s.portUsed p && bit s.str.ctrl (2 + p) && decide (s.glb.mode ≠ .sealed)

/-- A FAULT frame on every enabled port (R108, R504). -/
def State.sendFault (s : State) (c : FClass) : State :=
  if s.onChain && decide (3 ≤ c.code) then
    (List.range 2).foldl (fun t p => if t.portOn p then t.emit (.frame p (faultFrame t.str.island c.fltCode)) else t) s
  else s

/-- What announces a record, or a forced merge (R504, R513): nFAULT, vector 15, the FAULT frame. A further record of the same cycle would give
the pulse the same end, so only the first of them starts it (R521). -/
def State.announce (s : State) (c : FClass) : State :=
  let s := { s with flt := s.flt.startPulse s.dt c }
  ({ s with host := s.host.hint c }).sendFault c

/-! ### Recording -/

/-- The entry of a new event. -/
def State.newEntry (s : State) (src : Nat) (c : FClass) (detail : Word) (inj : Bool) : Entry :=
  { num := s.flt.seq, uid := s.flt.seq, cls := c, inj := inj, ack := false, window := true, mcount := 0, src := src,
    detail := detail, dt := s.dt, rc := s.ref.rc64, mmap := 0, mtop := none, mlast := 0 }

/-- An event of a source in this cycle has been recorded that was injected where this one is real, or the other way round (R525). -/
def State.twinEvent (s : State) (src : Nat) (inj : Bool) : Option Entry :=
  s.flt.hist.find? fun e => decide (e.dt = s.dt) && decide (e.src = src) && (e.inj != inj)

/-- What a record holds is held by another (R518). -/
def State.rehold (s : State) (u v : Nat) : State :=
  let f (l : List Nat) : List Nat := l.map fun x => if x = u then v else x
  { s with
    axes := s.axes.map fun p => (p.1, { p.2 with isoHold := f p.2.isoHold })
    tiles := s.tiles.map fun p => (p.1, { p.2 with isoHold := f p.2.isoHold }) }

/-- The fifth event of a cycle (R503): it goes to the first record, or takes the place of the last, which goes there. -/
def State.fifth (s : State) (e x : Entry) (l older : List Entry) : State × Nat :=
  let first := ((x :: l).getLast?.map Entry.uid).getD x.uid
  if e.before x then
    let e := { e with uid := x.uid, num := x.num }
    let all := crowd e x l
    let all := renumber all.length x.num all
    let lead := (all.getLast?.map Entry.uid).getD x.uid
    let s := if lead = x.uid then s else s.rehold x.uid lead
    (({ s with flt := { s.flt with hist := all ++ older, latchRec := if s.flt.latchRec = some x.uid then none else s.flt.latchRec } }).announce e.cls, e.uid)
  else
    ({ s with flt := { s.flt with hist := updFirst s.flt.hist (fun y => decide (y.uid = first)) fun y => y.merge e.src e.cls } }, first)

/-- An event of a source at a class: recorded, or merged into an open record (R502, R513, R516 to R518); a real event and an injected one of the
same source in one cycle make one record, that of the real event (R525). Answers the number that names the record which now holds the event. -/
def State.record (s : State) (src : Nat) (c : FClass) (detail : Word) (inj : Bool) : State × Nat :=
  let s := if inj then { s with flt := { s.flt with flags := s.flt.flags ||| bw true 1 } } else s
  let target : Entry → Bool := fun e => decide (e.dt ≠ s.dt) && e.isOpen s.dt && decide (c.code ≤ e.cls.code)
  match s.twinEvent src inj with
  | some e =>
    let d := if inj then e.detail else detail
    ({ s with flt := { s.flt with hist := s.flt.hist.map fun x => if x.uid = e.uid then { x with inj := false, detail := d } else x } }, e.uid)
  | none =>
  match s.flt.hist.find? target with
  | some e =>
    ({ s with flt := { s.flt with hist := updFirst s.flt.hist target fun x => x.merge src c } }, e.uid)
  | none =>
    let cycle := s.flt.hist.takeWhile fun e => decide (e.dt = s.dt)
    match if 4 ≤ cycle.length then cycle else [] with
    | x :: l => s.fifth (s.newEntry src c detail inj) x l (s.flt.hist.drop cycle.length)
    | [] =>
      let e := s.newEntry src c detail inj
      let room : Option (List Entry × Bool) :=
        if s.flt.hist.length < 32 then some (s.flt.hist, false)
        else (dropLast? s.flt.hist Entry.mayGo).map fun l => (l, true)
      match room with
      | some (l, ovf) =>
        let l' := insertCycle e l
        let l' := renumber (l'.takeWhile fun x => decide (x.dt = s.dt)).length s.flt.seq l'
        let f := { s.flt with
          hist := l'
          seq := (s.flt.seq + 1) % 2 ^ 32
          flags := s.flt.flags ||| bw true 0 ||| bw ovf 2
          lastDt := (l'.head?.map Entry.dt).getD s.dt
          lastSrc := (l'.head?.map Entry.src).getD src }
        (({ s with flt := f }).announce c, e.uid)
      | none =>
        -- every entry is an unacknowledged HALT, TRIP or LOCK record: the forced merge of R513
        let uid := (s.flt.hist.head?.map Entry.uid).getD 0
        let f := { s.flt with
          hist := updFirst s.flt.hist (fun _ => true) fun x => x.merge src c
          flags := s.flt.flags ||| bw true 2 }
        (({ s with flt := f }).announce c, uid)

/-! ### Stops posted to units (R149, R150) -/

/-- The deceleration that a cause uses at a speed, in 2^-32 microstep per period². -/
def Motion.causeDecel (m : Motion) (c : StopCause) : Nat :=
  match c with
  | .stall => m.stopSet.qdec
  | .limit => m.stopSet.qdec
  | .qstop => m.stopSet.qdec
  | _ => if m.stopSet.v1 * 2 ^ 16 < m.v.natAbs then m.stopSet.d2 else m.stopSet.d1

/-- A cause takes the legs to Hi-Z or disables the unit: the velocity is 0 at once (R149). -/
def StopCause.dead (c : StopCause) : Bool := c = .hiz || c = .modeLeft || c = .disabled

/-- A stop that brings its unit to standstill at once (R149). What is left of one that took the legs to Hi-Z is the cores' part, at the next
planning tick (R508). -/
def Stopping.atOnce (st : Stopping) : Bool := st.cause.dead && st.member.isNone

/-- A stop is in progress, and the unit does not stand yet (R163). -/
def Motion.halting (m : Motion) : Bool := m.stopping.elim false fun st => !(st.atOnce && st.begun)

/-- A cause that cancels the lookahead where the stop begins (R149). -/
def StopCause.sweeps (c : StopCause) : Bool := !(c = .holdReq || c = .stop || c = .qstop)

/-- A stop cause reaches a unit (R149, R150): it begins a stop, or takes the place of a running one when it stands higher in
the table. The ramp is formed anew when the higher cause is steeper or takes the legs to Hi-Z. -/
def Motion.postStop (m : Motion) (c : StopCause) (mem : Option (Nat × Nat)) : Motion :=
  match m.stopping with
  | none => { m with stopping := some { cause := c, begun := false, sweep := c.sweeps, member := mem } }
  | some st =>
    if c.rank < st.cause.rank then
      { m with stopping := some { cause := c
                                  begun := st.begun && !(c.dead || decide (m.causeDecel st.cause < m.causeDecel c))
                                  sweep := st.sweep || c.sweeps
                                  member := mem } }
    else { m with stopping := some { st with sweep := st.sweep || c.sweeps } }

/-- A stop cause reaches a unit of the state. -/
def State.postStop (s : State) (k : UnitKind) (n : Nat) (c : StopCause) : State :=
  s.updMotion k n fun m => m.postStop c none

/-! ### Legs to Hi-Z -/

/-- A switch commanded off, its gate held by its sink segments (R276, R277). A dead time that runs goes on (R279). -/
def GateSw.off (g : GateSw) : GateSw :=
  { g with cmd := false, waiting := false, on := false, dead := g.dead && !g.on, sink := if g.on then g.nOff else g.sink, nOn := 0, nOff := 0 }

/-- A leg at Hi-Z: both switches commanded off (R276). -/
def Leg.toHiz (x : Leg) : Leg :=
  { x with hiz := true, hi := x.hi.off, lo := x.lo.off, precharge := false, driveOn := false, runs := false }

/-- A leg latches a cause unless it already holds a latch (R295, R301). -/
def Leg.latchCause (x : Leg) (cause : Nat) : Leg :=
  if x.latch then x else { x with latch := true, cause := cause }

/-- The record of a solenoid descriptor (R423). -/
def State.solRecord (s : State) (d : SolDesc) (status : Nat) : List Word :=
  s.mkRecord d.word0 [wd d.startDt, wd (d.startDt / 2 ^ 32)] (b2n d.late) status

/-- A running pulse or hold ends, and the leg is idle (R304, R312). A SOL_HOLD that holds has completed (R311). -/
def State.endSol (s : State) (t l : Nat) : State :=
  match (s.leg t l).solCur with
  | none => s
  | some d =>
    let s := if d.isHold && decide ((s.leg t l).solPhase = .hold) then s
      else { s with host := { s.host with owed := s.host.owed ++ [d] } }
    s.updLeg t l fun x => { x with solCur := none, solPhase := .idle, solLeft := 0, booked := 0, bookLeft := none }

/-- The solenoid descriptors that a reaction has ended complete with FAULT_STOPPED (R304, R312, R508). -/
def State.payOwed (s : State) : State :=
  s.host.owed.foldl (fun t d => t.complete d.tag (t.solRecord d Status.faultStopped)) { s with host := { s.host with owed := [] } }

/-- One leg goes to Hi-Z (R276, R304): a running SOL_PULSE or SOL_HOLD ends, and completes at the next planning tick (R508). -/
def State.legHiz (s : State) (t l : Nat) : State := (s.updLeg t l Leg.toHiz).endSol t l

/-- The coils of an axis leave every phase of the chopper cycle (R219), and its stall counter is no longer armed (R252). -/
def Axis.undrive (x : Axis) : Axis :=
  { x with driven := false, hizzed := x.hizzed || x.m.en, stall := { x.stall with qcnt := 0 }, coilA := { x.coilA with phase := .idle }, coilB := { x.coilB with phase := .idle } }

/-- The four legs of an axis go to Hi-Z, and the axis stops under the first row of R149 with POS_UNCERTAIN set (R150). -/
def State.axisHiz (s : State) (a : Nat) (c : StopCause) : State :=
  let s := (axisLegs a).foldl (fun t l => t.updLeg (axisTile a) l Leg.toHiz) s
  if (s.axis a).m.en then
    s.updAxis a fun x => { x.undrive with m := { (x.m.postStop c none) with posUnc := true } }
  else s.updAxis a Axis.undrive

/-- The axes and legs that the state lists: the others are at reset, off and at Hi-Z. -/
def State.listedAxes (s : State) : List Nat := s.axes.map Prod.fst
def State.listedLegs (s : State) : List (Nat × Nat) :=
  s.tiles.flatMap fun p => p.2.legs.map fun q => (p.1, q.1)

/-- Every leg goes to Hi-Z, and every enabled axis and course stops under the first row of R149. -/
def State.allHiz (s : State) (c : StopCause) : State :=
  let s := s.listedLegs.foldl (fun t p => t.legHiz p.1 p.2) s
  let s := s.listedAxes.foldl (fun t a => t.axisHiz a c) s
  (s.courses.map Prod.fst).foldl (fun t n =>
    if (t.course n).m.en then t.updMotion .course n fun m => { (m.postStop c none) with posUnc := true } else t) s

/-! ### Modes changed by events (R54 to R57) -/

/-- GLB_MODE (R52). SETTLING is given by the caller. -/
def State.modeWord (s : State) (settling : Bool) : Word :=
  wd (s.glb.cause * 2 ^ 24 + s.glb.prev.code * 2 ^ 20 + s.glb.reqRes * 2 ^ 16 + b2n s.glb.locked * 2 ^ 8 + b2n s.glb.enIn * 2 ^ 7 +
    b2n settling * 2 ^ 6 + s.glb.mode.code)

/-- An axis or a course has not come to standstill (GLB_MODE.SETTLING in Hold). -/
def State.settling (s : State) : Bool :=
  decide (s.glb.mode = .hold) &&
  (s.axes.any (fun p => p.2.m.en && !(decide (p.2.m.v = 0) && p.2.m.queue.isEmpty && !p.2.m.halting)) ||
   s.courses.any fun p => p.2.m.en && !(decide (p.2.m.v = 0) && p.2.m.queue.isEmpty && !p.2.m.halting))

/-- A SET_MODE completes with a status, carrying GLB_MODE (R417, R423). -/
def State.answerMode (s : State) (g : Tag) (status : Nat) : State :=
  let w0 := ((s.ring g.ring).outst.find? fun o => decide (o.index = g.index)).map Outst.word0
  s.complete g (s.mkRecord (w0.getD 0) [s.modeWord s.settling] 0 status)

/-- A request not yet judged is overtaken by an event (R57): REQ_RES 0x6. A register request goes first, and a SET_MODE then waits for the
next period; without one the oldest SET_MODE completes MODE_REFUSED. -/
def State.overtake (s : State) : State :=
  if s.glb.modeReq.isSome then { s with glb := { s.glb with modeReq := none, reqRes := 6 } }
  else
    match s.glb.setMode with
    | [] => s
    | (_, g) :: rest => { s with glb := { s.glb with setMode := rest, reqRes := 6, overtaken := s.glb.overtaken ++ [g] } }

/-- The SET_MODE descriptors that an event has overtaken complete at the boundary that has come (R417). -/
def State.answerOvertaken (s : State) : State :=
  s.glb.overtaken.foldl (fun t g => t.answerMode g Status.modeRefused) { s with glb := { s.glb with overtaken := [] } }

/-- The device changes its mode (R52, R54). -/
def Glb.enter (g : Glb) (m : DevMode) (cause : Nat) : Glb := { g with prev := g.mode, mode := m, cause := cause }

/-- An event changes the mode (R54, R57). A LOCK event that meets the device in Safe changes no mode and overtakes no request: the boundary judges it
(DESIGN CHOICE, log entry 85). -/
def State.eventMode (s : State) (m : DevMode) (cause : Nat) : State :=
  if s.glb.mode = m then s
  else
    let s := s.overtake
    { s with glb := s.glb.enter m cause }

/-! ### Class reactions (R505, R506) -/

/-- The unit that an event names (R506). -/
inductive FUnit where
  | none
  | leg (t l : Nat)
  | axis (a : Nat)
  | tile (t : Nat)
  | course (c : Nat)
  | played (k : UnitKind) (n : Nat)
deriving DecidableEq, Repr

/-- The axes bound beneath a course, to the depth of the tree (R169). -/
def State.beneath (s : State) (fuel : Nat) (c : Nat) : List Nat :=
  match fuel with
  | 0 => []
  | f + 1 =>
    (s.course c).members.flatMap fun p =>
      if p.2.state = .bound ∨ p.2.state = .binding then
        (match p.2.kind with
         | .axis => [p.2.index]
         | .course => s.beneath f p.2.index)
      else []

/-- A record holds an axis at Hi-Z until it is acknowledged (R308, R520). -/
def State.holdAxis (s : State) (uid a : Nat) : State :=
  s.updAxis a fun x => if uid ∈ x.isoHold then x else { x with isoHold := x.isoHold ++ [uid] }

/-- An axis is isolated by a record (R506, R520). -/
def State.isoAxis (s : State) (a uid : Nat) : State := (s.axisHiz a .hiz).holdAxis uid a

/-- The axis slots of a tile (R19). -/
def tileAxes (t : Nat) : List Nat := [4 * t, 4 * t + 1, 4 * t + 2, 4 * t + 3]

/-- A record holds a tile at Hi-Z until it is acknowledged: the axes of the tile, and its legs in modes 0x2 to 0x4 (R520). -/
def State.holdTile (s : State) (uid t : Nat) : State :=
  (tileAxes t).foldl (fun x a => x.holdAxis uid a)
    (s.updTile t fun x => if uid ∈ x.isoHold then x else { x with isoHold := x.isoHold ++ [uid] })


/-- A tile is taken to Hi-Z under ISO (R295): each leg in use latches CAUSE 0xB. -/
def State.isoTile (s : State) (t : Nat) : State :=
  let s := s.updTile t fun x => { x with iso := true }
  let s := ((s.tile t).legs.map Prod.fst).foldl (fun u l =>
    if (u.leg t l).mode = 0 then u else (u.updLeg t l fun x => x.latchCause 0xB).legHiz t l) s
  (List.range 4).foldl (fun u i => if (u.axis (4 * t + i)).m.en then u.axisHiz (4 * t + i) .hiz else u) s

/-- The other legs of an axis follow one that went to Hi-Z, with CAUSE 0xC (R304). -/
def State.legsFollow (s : State) (t l : Nat) : State :=
  if (s.leg t l).mode = 1 then
    let s := (axisLegs (legAxis t l)).foldl (fun u j => u.updLeg t j fun x => x.latchCause 0xC) s
    s.axisHiz (legAxis t l) .hiz
  else s.legHiz t l

/-- The ISOLATE of a leg (R506): it is held by its TRIP_LATCH, and on an axis the other three follow (R304). A latch that the hardware action
has set already stays as it is. GATE_CAP_LOW is the one leg source that may be ISOLATE without such an action, so a latch set here reads
CAUSE 0xA, gate capacity (DEDUCED, log 69). -/
def State.isolateLeg (s : State) (t l uid : Nat) : State :=
  let axis := decide ((s.leg t l).mode = 1)
  let s := (s.updLeg t l fun x => x.latchCause 0xA).legsFollow t l
  if axis then s.holdAxis uid (legAxis t l) else s

/-- The ISOLATE of a unit (R506). -/
def State.isolate (s : State) (u : FUnit) (uid : Nat) : State :=
  match u with
  | .none => s
  | .leg t l => s.isolateLeg t l uid
  | .axis a => s.isoAxis a uid
  | .tile t => (s.isoTile t).holdTile uid t
  | .course c => (s.beneath 8 c).foldl (fun x a => x.isoAxis a uid) s
  | .played .axis a => s.isoAxis a uid
  | .played .course c => (s.beneath 8 c).foldl (fun x a => x.isoAxis a uid) s

/-- The unit stands still (R129). -/
def Motion.still (m : Motion) : Bool := decide (m.v = 0) && m.queue.isEmpty

/-- HALT reaches every axis and course (R44, R149): POS_UNCERTAIN is set on each axis that was moving unless the event is a
starvation; the starved unit itself keeps its own row (R150). -/
def State.haltAll (s : State) (starved : Bool) (except : Option (UnitKind × Nat)) : State :=
  let s := (s.axes.map Prod.fst).foldl (fun t a =>
    if (t.axis a).m.en ∧ except ≠ some (.axis, a) then
      t.updAxis a fun x =>
        { x with m := { (x.m.postStop .haltClass none) with posUnc := x.m.posUnc || (!starved && !x.m.still) } }
    else t) s
  (s.courses.map Prod.fst).foldl (fun t n =>
    if (t.course n).m.en ∧ except ≠ some (.course, n) then
      t.updMotion .course n fun m => { (m.postStop .haltClass none) with posUnc := m.posUnc || (!starved && !m.still) }
    else t) s

/-- The reaction of a class (R505). -/
def State.react (s : State) (c : FClass) (u : FUnit) (uid : Nat) (starved : Bool) (except : Option (UnitKind × Nat)) : State :=
  match c with
  | .log => s
  | .degrade => s
  | .isolate => s.isolate u uid
  | .halt =>
    match s.glb.mode with
    | .diagnose => s.haltAll starved except
    | .run => (s.haltAll starved except).eventMode .hold 4
    | .hold => s.haltAll starved except
    | _ => s
  | .trip =>
    match s.glb.mode with
    | .diagnose => (s.allHiz .hiz).eventMode .safe 5
    | .run => (s.allHiz .hiz).eventMode .safe 5
    | .hold => (s.allHiz .hiz).eventMode .safe 5
    | _ => s
  | .lock =>
    let s := (s.allHiz .hiz).eventMode .safe 6
    { s with glb := { s.glb with locked := true } }

/-- A fault source is raised: recorded or merged at a class, and the reaction of that class is carried out (R502). -/
def State.raiseAs (s : State) (src : Nat) (c : FClass) (detail : Word) (inj : Bool) (u : FUnit) : State :=
  let r := s.record src c detail inj
  r.1.react c u r.2 false none

/-- A fault source is raised at its class in force. -/
def State.raise (s : State) (src : Nat) (detail : Word) (u : FUnit) : State :=
  s.raiseAs src (s.classOf src) detail false u

/-- A device source without legs is raised. -/
def State.raiseDev (s : State) (src : Nat) (detail : Word) : State := s.raise src detail .none

/-- The register-guard sources of R510, in their order from 0x034. -/
def srcAbsentAccess : Nat := 0x034
def srcAccNarrow : Nat := 0x035
def srcCfgWrLocked : Nat := 0x036
def srcCfgLockViol : Nat := 0x037
def srcCfgNvLoad : Nat := 0x038
def srcFltCfgBad : Nat := 0x039
def srcRefCfgBad : Nat := 0x03A
def srcRefEnBusy : Nat := 0x03B
def srcHostCfgBad : Nat := 0x03C
def srcHostEnBusy : Nat := 0x03D
def srcTwinBusy : Nat := 0x03E
def srcInpCfgBad : Nat := 0x03F
def srcThmCfgBad : Nat := 0x040
def srcSprCfgBad : Nat := 0x041
def srcAxCfgBad : Nat := 0x042
def srcCrsCfgBad : Nat := 0x043
def srcTileCfgBad : Nat := 0x044
def srcTileEnBusy : Nat := 0x045
def srcLegConflict : Nat := 0x046
def srcPwmCfgBad : Nat := 0x047
def srcDutyClamp : Nat := 0x048

/-- The detail word of a leg source (R318): global leg, cause, switch. -/
def legDetail (t l cause : Nat) (high : Bool) : Word := wd (16 * t + l + cause * 2 ^ 8 + b2n high * 2 ^ 12)

/-- The wear counter of a unit counts, saturating (R495). -/
def State.wear (s : State) (idx : Nat) : State :=
  { s with spr := { s.spr with wear := Bank.set s.spr.wear idx (satAdd (2 ^ 32 - 1) (Bank.get 0 s.spr.wear idx) 1) } }

/-- A starvation of a unit (R43, R45): its stop ramp begins, and the source acts on every other unit by its class. -/
def State.raiseStarved (s : State) (k : UnitKind) (n : Nat) : State :=
  let src := match k with
    | .axis => 0x100 + n
    | .course => 0x0B0 + n
  let u := match k with
    | .axis => FUnit.axis n
    | .course => FUnit.course n
  let c := s.classOf src
  let r := s.record src c (wd n) false
  r.1.react c u r.2 true (some (k, n))

end Sys2Proof.Machine
end

