-- ==== Sys2Proof/Machine/Ramp.lean ====
section
/-! DEFINITION. The ramp arithmetic of the planner (R122 to R148, R566). Speeds and positions are in units of 2^-32 microstep;
a plan in the sense of travel uses natural numbers, and the sign is put on at the end. -/

namespace Sys2Proof.Machine

/-- One microstep, or one microstep per period, in units of 2^-32 (R39). -/
def one : Int := 2 ^ 32

/-! ### Profiles (R122 to R125) -/

/-- A 16.16 speed word in units of 2^-32 microstep per period. -/
def vw (w : Word) : Nat := w.toNat * 2 ^ 16

/-- Every word of a profile lies in its range (R122, R123). -/
def Profile.valid (p : Profile) : Bool :=
  let inR (w : Word) (lo hi : Nat) : Bool := decide (lo ≤ w.toNat) && decide (w.toNat ≤ hi)
  inR p.vstart 0x100 0xFFFF && decide (1 ≤ p.a1.toNat) && inR p.v1 p.vstart.toNat p.vmax.toNat &&
  decide (1 ≤ p.a2.toNat) && inR p.vmax 0x100 0x400000 && decide (1 ≤ p.d2.toNat) && decide (1 ≤ p.d1.toNat) &&
  inR p.vstop 0x100 0xFFFF && decide (p.vstop.toNat ≤ p.v1.toNat)

/-- The profile whose words a list gives, in the order of R122. -/
def Profile.ofWords (l : List Word) : Profile :=
  { vstart := l.getD 0 0, a1 := l.getD 1 0, v1 := l.getD 2 0, a2 := l.getD 3 0,
    vmax := l.getD 4 0, d2 := l.getD 5 0, d1 := l.getD 6 0, vstop := l.getD 7 0 }

/-- The words of a profile, in the order of R122. -/
def Profile.words (p : Profile) : List Word := [p.vstart, p.a1, p.v1, p.a2, p.vmax, p.d2, p.d1, p.vstop]

/-- A VMAX override is permitted for a slot (R125). -/
def Profile.overrideOk (p : Profile) (v : Word) : Bool :=
  decide (v = 0) || (decide (0x100 ≤ v.toNat) && decide (v.toNat ≤ 0x400000) && decide (p.vstart.toNat ≤ v.toNat) &&
    decide (p.vstop.toNat ≤ v.toNat))

/-- The copy of a profile with a VMAX override (R125): an override below V1 takes V1 with it. -/
def Profile.override (p : Profile) (v : Word) : Profile :=
  if v = 0 then p else { p with vmax := v, v1 := if v.toNat < p.v1.toNat then v else p.v1 }

/-- The stop set that a profile copy and AX_QSTOP_DECEL give (R41). -/
def Profile.stopSet (p : Profile) (qdec : Nat) : StopSet :=
  { d2 := p.d2.toNat, v1 := p.v1.toNat, d1 := p.d1.toNat, vstop := p.vstop.toNat, qdec := qdec }

/-! ### Bands (R130, R131) -/

/-- A part of a ramp: periods, and acceleration with its sign in the sense of travel. -/
abbrev Part := Nat × Int

/-- The speed behind a part. -/
def partSpeed (u : Nat) (p : Part) : Nat := ((u : Int) + p.1 * p.2).toNat

/-- The distance of a part that starts at speed `u` (R39): N u + a N (N + 1) / 2. -/
def partDist (u : Nat) (p : Part) : Int := p.1 * u + p.2 * ((p.1 * (p.1 + 1) / 2 : Nat) : Int)

/-- A rising band from `u` to `w` at acceleration `a` (R131): none where the speed need not rise. -/
def riseBand (u w a : Nat) : List Part :=
  if u < w then [(ceilDiv (w - u) a, (((w - u) / ceilDiv (w - u) a : Nat) : Int))] else []

/-- A falling band from `u` to `w` at deceleration `a` (R131). -/
def fallBand (u w a : Nat) : List Part :=
  if w < u then [(ceilDiv (u - w) a, -(((u - w) / ceilDiv (u - w) a : Nat) : Int))] else []

/-- The speed behind a list of parts. -/
def partsSpeed (u : Nat) (l : List Part) : Nat := l.foldl partSpeed u

/-- The distance of a list of parts. -/
def partsDist (u : Nat) : List Part → Int
  | [] => 0
  | p :: l => partDist u p + partsDist (partSpeed u p) l

/-- The bands of a rise (R130): A1 below V1, A2 above. -/
def risePath (p : Profile) (u w : Nat) : List Part :=
  let lo := if u < vw p.v1 then riseBand u (min w (vw p.v1)) p.a1.toNat else []
  let u' := partsSpeed u lo
  lo ++ (if vw p.v1 < w then riseBand u' w p.a2.toNat else [])

/-- The bands of a fall by a stop set (R130): D2 above V1, D1 below. -/
def fallPath (t : StopSet) (u w : Nat) : List Part :=
  let v1 := t.v1 * 2 ^ 16
  let hi := if v1 < u then fallBand u (max w v1) t.d2 else []
  let u' := partsSpeed u hi
  hi ++ (if w < v1 then fallBand u' w t.d1 else [])

/-- The bands of a change of speed (R130). -/
def speedPath (p : Profile) (u w : Nat) : List Part :=
  if u < w then risePath p u w else fallPath (p.stopSet 0) u w

/-! ### Segments (R38, R130) -/

/-- The longest segment of the runner (R38). -/
def segMax : Nat := 65535

/-- A segment that ends neither the motion nor a move. -/
def Seg.plain (n : Nat) (a : Int) : Seg := { periods := n, acc := a, isEnd := false, tag := none }

/-- A part as segments of at most 65,535 periods of equal acceleration (R130), `fuel` bounding their number. -/
def splitPart (fuel n : Nat) (a : Int) : List Seg :=
  match fuel with
  | 0 => []
  | f + 1 =>
    if n = 0 then []
    else if n ≤ segMax then [Seg.plain n a]
    else Seg.plain segMax a :: splitPart f (n - segMax) a

/-- Parts as segments. -/
def partsSegs (l : List Part) : List Seg := l.flatMap fun p => splitPart (p.1 / segMax + 1) p.1 p.2

/-- Constant speed for `n` periods. -/
def holdSegs (n : Nat) : List Seg := splitPart (n / segMax + 1) n 0

/-- The last segment with END, or with a completion tag, set. -/
def markLast (isEnd : Bool) (tag : Option Nat) : List Seg → List Seg
  | [] => []
  | [x] => [{ x with isEnd := x.isEnd || isEnd, tag := tag.orElse fun _ => x.tag }]
  | x :: xs => x :: markLast isEnd tag xs

/-- Segments turned into the sense of travel. -/
def orient (neg : Bool) (l : List Seg) : List Seg := if neg then l.map fun x => { x with acc := -x.acc } else l

/-- Rounding to the nearest whole microstep, halves towards +2^47 (R129). -/
def roundPos (x : Int) : Int := (x + 2 ^ 31) / 2 ^ 32 * 2 ^ 32

/-- Position and speed behind a segment (R39, R129). -/
def segRun (s : Int × Int) (g : Seg) : Int × Int :=
  let x := s.1 + g.periods * s.2 + g.acc * ((g.periods * (g.periods + 1) / 2 : Nat) : Int)
  if g.isEnd then (roundPos x, 0) else (x, s.2 + g.periods * g.acc)

/-- Position and speed behind a list of segments. -/
def segsRun (s : Int × Int) (l : List Seg) : Int × Int := l.foldl segRun s

/-! ### Search -/

/-- The highest number from `lo` to `lo + n` that passes a test. -/
def highest (ok : Nat → Bool) (lo : Nat) : Nat → Option Nat
  | 0 => if ok lo then some lo else none
  | n + 1 => if ok (lo + (n + 1)) then some (lo + (n + 1)) else highest ok lo n

/-- The highest 16.16 word from `lo` to `hi` that passes a test. -/
def highestIn (ok : Nat → Bool) (lo hi : Nat) : Option Nat := if hi < lo then none else highest ok lo (hi - lo)

/-- The first answer of a test that falls from `lo + n` to `lo`. -/
def firstDown (f : Nat → Option α) (lo : Nat) : Nat → Option α
  | 0 => f lo
  | n + 1 => (f (lo + (n + 1))).orElse fun _ => firstDown f lo n

/-! ### A target move in the sense of travel (R128, R132, R133, R143, R566) -/

/-- Up from `u` to the plateau speed `v`, then down to `w`: the parts of either side, and the speeds reached. -/
structure Shape where
  up : List Part
  plateau : Nat
  dn : List Part
  last : Nat
  dist : Int

/-- The shape with a plateau at `v`; each band goes on from the speed that the one before reached (R131). -/
def shape (p : Profile) (u v w : Nat) : Shape :=
  let up := speedPath p u v
  let s := partsSpeed u up
  let dn := if w < s then fallPath (p.stopSet 0) s w else []
  { up := up, plateau := s, dn := dn, last := partsSpeed s dn, dist := partsDist u up + partsDist s dn }

/-- Where a plan to a target starts: the segments of its first period, the speed behind them, the distance they cover, the
lowest candidate for the peak, and the constant speed taken when no peak fits. -/
structure Entry0 where
  first : List Seg
  u : Nat
  used : Int
  low : Option Nat

/-- The first period of a move from speed `v0` (R128, R566). -/
def entry0 (p : Profile) (v0 : Nat) : Entry0 :=
  if v0 = 0 then
    { first := [Seg.plain 1 (vw p.vstart)], u := vw p.vstart,
      used := (vw p.vstart : Int), low := some (min (vw p.vstart) (vw p.vstop)) }
  else if v0 < vw p.vstop then
    { first := [Seg.plain 1 ((vw p.vstop : Int) - v0)], u := vw p.vstop,
      used := (vw p.vstop : Int), low := some (vw p.vstop) }
  else { first := [], u := v0, used := 0, low := none }

/-- The peak or plateau speed that R132 chooses for the distance `d` behind the first period: the highest 16.16 value that
fits, or the present speed itself where that fits and is higher. -/
def peak (p : Profile) (v0 u : Nat) (d : Int) (w : Nat) : Option Nat :=
  let fits (v : Nat) : Bool := decide ((shape p u v w).dist ≤ d)
  let lo := if v0 = 0 then max p.vstart.toNat (ceilDiv w (2 ^ 16)) else max p.vstop.toNat (ceilDiv w (2 ^ 16))
  let best := (highestIn (fun n => fits (n * 2 ^ 16)) lo p.vmax.toNat).map fun n => n * 2 ^ 16
  if w ≤ u ∧ u ≤ vw p.vmax ∧ fits u then
    match best with
    | some b => if u < b then some b else some u
    | none => some u
  else best

/-- A move over the distance `d` from speed `v0` to standstill (`w` = 0) or to the mortar speed `w`, without END and tag; none when the
target cannot be reached without exceeding D2 or D1 (R146), or no mortar at `w` is possible (R141). A move that needs no period, because the
target lies within half the landing speed or within one period of the mortar, has no segment (R133, R143, R566). -/
def planMove (p : Profile) (v0 : Nat) (d : Int) (w : Nat) : Option (List Seg) :=
  let e := entry0 p v0
  let out := if w = 0 then vw p.vstop else w
  let rest := d - e.used
  match peak p v0 e.u rest out with
  | some v =>
    let h := shape p e.u v out
    let left := rest - h.dist
    let nc := (left / h.plateau).toNat
    let r := left - nc * h.plateau
    let landing := if w = 0 then roundDiv r h.last else r / h.last
    some (e.first ++ partsSegs h.up ++ holdSegs nc ++ partsSegs h.dn ++ holdSegs landing.toNat)
  | none =>
    match e.low, w with
    | some low, 0 =>
      match (roundDiv d low).toNat with
      | 0 => some []
      | n + 1 => some (Seg.plain 1 ((low : Int) - v0) :: holdSegs n)
    | _, _ => none

/-- A target at distance `d` is reachable at the mortar speed `w` from speed `v0` (R141). -/
def mortarFits (p : Profile) (v0 : Nat) (d : Int) (w : Nat) : Bool :=
  let e := entry0 p v0
  decide ((shape p e.u (max (min e.u (vw p.vmax)) w) w).dist ≤ d - e.used)

/-- The distance in which the profile's D2 and D1 bring the axis from speed `u` down to `w`. -/
def fallDist (p : Profile) (u w : Nat) : Int := partsDist u (fallPath (p.stopSet 0) u w)

/-- The highest mortar speed, at most the 16.16 word `top`, from which the move behind the mortar comes down to `w` in its distance `d` (R141)
and from which the stop set of the move before it, which holds up to the mortar, reaches standstill within the distance `far` that the joined
moves still have (R42; none where a VELOCITY ends them). -/
def entrySpeed (before p : Profile) (d : Int) (far : Option Int) (w top : Nat) : Nat :=
  let stops (n : Nat) : Bool := far.elim true fun f => decide (fallDist before (n * 2 ^ 16) (vw before.vstop) ≤ f)
  match highestIn (fun n => decide (fallDist p (n * 2 ^ 16) w ≤ d) && stops n) 0 top with
  | some n => n * 2 ^ 16
  | none => 0

/-! ### Stops (R148) and changes of speed (R136) -/

/-- The ramp from speed `u` to VSTOP with END: by D2 and D1, or at a quick-stop deceleration. -/
def stopRamp (t : StopSet) (u : Nat) (quick : Bool) : List Seg :=
  let vs := t.vstop * 2 ^ 16
  if u ≤ vs then markLast true none [Seg.plain 1 0]
  else markLast true none (partsSegs (if quick then fallBand u vs t.qdec else fallPath t u vs))

/-- The bands from speed `u` to speed `w` in one sense (R136): from standstill a jump to VSTART, or to `w` itself below it. -/
def velocityRamp (p : Profile) (u w : Nat) : List Seg :=
  if u = 0 then
    if w ≤ vw p.vstart then [Seg.plain 1 w]
    else Seg.plain 1 (vw p.vstart) :: partsSegs (risePath p (vw p.vstart) w)
  else partsSegs (speedPath p u w)

end Sys2Proof.Machine
end

