-- ==== Sys2Proof/Machine/Motion.lean ====
section
/-! DEFINITION. The motion of an axis or a course: planning of joined moves (R134 to R147), the runner's period (R38 to R45),
completion records (R137, R422, R423), stops (R148 to R152) and what ends a stop. -/

namespace Sys2Proof.Machine

/-- The registers of the unit that its planning uses: blend limit and quick-stop deceleration in units of 2^-32, and the
reversal dwell (R162, R164). -/
structure MParam where
  blend : Nat
  rev : Nat
  qdec : Nat
  /-- the DT: a move counts for planning from the tick on that follows its take-up (R33) -/
  now : Nat

def State.mparam (s : State) (k : UnitKind) (n : Nat) : MParam :=
  match k with
  | .axis => { blend := vw (s.axis n).regs.blend, rev := fld (s.axis n).regs.rev 0 16, qdec := (s.axis n).regs.qstop.toNat, now := s.dt }
  | .course => { blend := vw (s.course n).blend, rev := fld (s.course n).rev 0 16, qdec := (s.course n).qstop.toNat, now := s.dt }

/-! ### Joined moves (R135, R141 to R144) -/

/-- A motion of HOME, CHARACTERIZE or a bind, which is no descriptor of the lookahead. -/
def Move.own (m : Move) : Bool := decide (m.opcode = 0 ∨ m.opcode = 0x30)

/-- The sense of a move that follows a target: -1, 0 or 1. -/
def Move.travel (m : Move) (prev : Int) : Int := if m.isVel then m.target.sign else (m.target - prev).sign

/-- The move is the move before it again (R135): planned as though absent. -/
def Move.isZero (m prev : Move) : Bool := !m.isVel && !prev.isVel && decide (m.target = prev.target)

/-- Two consecutive moves may be joined at a mortar, as far as their senses and the start condition go (R141). -/
def Move.joins (m prev : Move) (blend : Nat) (sense : Int) : Bool :=
  decide (blend ≠ 0) && !prev.isVel && m.gate.isNone && decide (m.travel prev.target = sense)

/-- The speed that a move runs at most: VMAX of its copy, or |v_t|. -/
def Move.top (m : Move) : Nat := if m.isVel then m.target.natAbs * 2 ^ 16 else vw m.prof.vmax

/-- The mortar speed behind a move, lowered for the moves that follow and for the move's own stop set (R42, R141), 0 where the move ends at
standstill; with it the distance from the move's target to the standstill of the moves joined behind it, none behind a VELOCITY. -/
def exitSpeed (blend : Nat) (sense : Int) (prev : Move) : List Move → Nat × Option Int
  | [] => (0, some 0)
  | m :: rest =>
    if m.isZero prev then exitSpeed blend sense prev rest
    else if m.joins prev blend sense then
      let top := min prev.top (min m.top blend)
      let out := exitSpeed blend sense m rest
      let d : Int := (m.target - prev.target).natAbs * one
      let far := if m.isVel then none else out.2.map fun f => d + f
      let vm := if m.isVel then top
        else entrySpeed prev.prof m.prof d far (if out.1 = 0 then vw m.prof.vstop else out.1) (top / 2 ^ 16)
      if vw prev.prof.vstop ≤ vm then (vm, far) else (0, some 0)
    else (0, some 0)

/-- A mortar speed lowered until the target can be reached at it (R141); 0 where none is left. -/
def lowerMortar (p : Profile) (v : Nat) (d : Int) (w : Nat) : Nat :=
  if w = 0 then 0
  else match highestIn (fun n => mortarFits p v d (n * 2 ^ 16)) p.vstop.toNat (w / 2 ^ 16) with
    | some n => n * 2 ^ 16
    | none => 0

/-- What the planner makes of a chain of moves in one sense: its segments, the speed of the plateau that a VELOCITY ends in, and where the
first moves need no period at all, the take-up number of the last of them, with whether the unit then stands. -/
structure Plan where
  segs : List Seg
  cruise : Option Int
  atOnce : Option (Nat × Bool)

/-- The segments of a move before what follows it: the last of them carries the completion, also of the moves behind it that need no period; a
move without a segment completes where it begins. `fin` says that the move ends at standstill. -/
def Plan.before (segs : List Seg) (o : Nat) (fin : Bool) (r : Plan) : Plan :=
  let c := r.atOnce.getD (o, fin)
  if segs = [] then { r with atOnce := some c } else { r with segs := markLast c.2 (some c.1) segs ++ r.segs, atOnce := none }

/-- The plan of a chain of moves in one sense from a state, up to standstill or to the plateau of a VELOCITY; none when the first target
cannot be reached ahead (R146). `prev` is the move before the first of the list. Where the moves behind a mortar cannot take over the speed that its
bands reach (R131), the mortar is lowered, down to VSTOP, and below that it is given up (R141). -/
def planFrom (blend : Nat) (neg : Bool) (prev : Option Move) (l : List Move) (x v : Int) : Option Plan :=
  match l with
  | [] => none
  | m :: rest =>
    if (match prev with | some q => m.isZero q | none => false) then planFrom blend neg prev rest x v
    else if m.isVel then
      let segs := orient neg (velocityRamp m.prof v.natAbs (m.target.natAbs * 2 ^ 16))
      let r : Plan := { segs := [], cruise := some (m.target * 2 ^ 16), atOnce := none }
      some (if m.silent then { r with segs := segs } else Plan.before segs m.ord false r)
    else
      let d : Int := (m.target * one - x).natAbs
      let w := lowerMortar m.prof v.natAbs d (exitSpeed blend (if neg then -1 else 1) m rest).1
      let at_ (w : Nat) : Option Plan :=
        if !mortarFits m.prof v.natAbs d w then none
        else match planMove m.prof v.natAbs d w with
          | none => none
          | some segs =>
            let segs := orient neg segs
            let e := segsRun (x, v) segs
            (planFrom blend neg (some m) rest e.1 e.2).map (Plan.before segs m.ord false)
      let joined : Option Plan :=
        if w = 0 then none
        else (at_ w).orElse fun _ => firstDown (fun n => at_ (n * 2 ^ 16)) m.prof.vstop.toNat (w / 2 ^ 16 - 1 - m.prof.vstop.toNat)
      joined.orElse fun _ => (planMove m.prof v.natAbs d 0).map fun segs =>
        Plan.before (orient neg segs) m.ord true { segs := [], cruise := none, atOnce := none }

/-- The moves of a list that follow one another in the order of take-up without another descriptor between them (R60), as far as their
tick has come (R33). -/
def chainFrom (now o : Nat) : List Move → List Move
  | [] => []
  | v :: r => if v.ord = o + 1 ∧ v.from_ ≤ now then v :: chainFrom now v.ord r else []

namespace Motion

/-- The moves of the lookahead that may join a move in progress: none behind a motion of HOME, CHARACTERIZE or a bind. -/
def chain (m : Motion) (now : Nat) (a : Move) : List Move := if a.own then [] else chainFrom now a.ord m.look

/-- Take-up number of the last move of the chain. -/
def chainEnd (m : Motion) (now : Nat) (a : Move) : Nat := ((m.chain now a).getLast?.getD a).ord

/-! ### Planning from the present state (R136, R139, R140, R146) -/

/-- The unit's engine without anything planned or queued. -/
def clear (m : Motion) : Motion := { m with queue := [], plan := [], cruise := none }

/-- The stop ramp from the present speed (R148). -/
def ramp (m : Motion) (quick : Bool) : List Seg := orient (decide (m.v < 0)) (stopRamp m.stopSet m.v.natAbs quick)

/-- A plan in the place of the one before it. -/
def withPlan (m : Motion) (r : Plan) : Motion := { m with plan := r.segs, cruise := r.cruise }

/-- The move in progress is planned from the present position and speed, together with the moves that join it. A target behind,
or ahead beyond D2 and D1, turns the unit (R146). Answers with what completes at once: the take-up number, and whether the unit then stands. -/
def launch (m : Motion) (p : MParam) : Motion × Option (Nat × Bool) :=
  match m.act with
  | none => (m, none)
  | some a =>
    let m : Motion := { m.clear with stopSet := a.prof.stopSet p.qdec, plannedTo := m.chainEnd p.now a }
    let sense : Int := if a.isVel then a.target.sign else (a.target * one - m.x).sign
    let ahead := planFrom p.blend (decide (if m.v = 0 then sense < 0 else m.v < 0)) none (a :: m.chain p.now a) m.x m.v
    if m.v = 0 ∧ sense = 0 then (m, some (a.ord, true))
    else match if m.v = 0 ∨ sense = m.v.sign then ahead else none with
      | some r => (m.withPlan r, r.atOnce)
      | none =>
        let stops := a.isVel && decide (sense = 0)
        ({ m with plan := if stops then markLast true (some a.ord) (m.ramp false) else m.ramp false
                  act := some { a with turned := a.turned || !a.isVel } }, none)

/-- The plan behind the segment in progress is formed again when a move has joined the lookahead (R139, R141, R142). -/
def extend (m : Motion) (p : MParam) : Motion :=
  match m.act, m.queue with
  | some a, g :: _ =>
    if a.isVel || a.turned && decide (m.dwell.isSome) || g.isEnd || m.stopping.isSome || decide (m.chainEnd p.now a ≤ m.plannedTo) then m
    else
      let e := segRun (m.x, m.v) g
      let m : Motion := { m with plannedTo := m.chainEnd p.now a }
      let sense : Int := (a.target * one - e.1).sign
      let behind := (m.chain p.now a).dropWhile fun (v : Move) => decide (v.ord ≤ g.tag.getD 0)
      let r := match g.tag with
        | some o => planFrom p.blend (decide (e.2 < 0)) (some ((((m.chain p.now a).filter fun (v : Move) => decide (v.ord ≤ o)).getLast?).getD a))
            behind e.1 e.2
        | none => if sense = e.2.sign then planFrom p.blend (decide (e.2 < 0)) none (a :: m.chain p.now a) e.1 e.2 else none
      match r with
      | none => m
      | some r =>
        let g : Seg := match r.atOnce with
          | some (o, fin) => { g with isEnd := fin, tag := some o }
          | none => g
        { m with queue := [g] }.withPlan r
  | _, _ => m

/-! ### The queue (R38, R40) -/

/-- Periods that the queue still holds. -/
def left (m : Motion) : Nat := (m.queue.map Seg.periods).sum

/-- The queue ends with END. -/
def ends (m : Motion) : Bool := (m.queue.getLast?.map Seg.isEnd).getD false

/-- The periods of queued time that a planning tick of 25 periods leaves at 200 (R40). -/
def horizon : Nat := 225

/-- One segment is appended while the horizon asks for it; eight hold it but where joined moves are shorter (log entry 8). -/
def feed1 (m : Motion) : Option Motion :=
  if m.left < horizon ∧ m.ends = false then
    match m.plan with
    | g :: r => some { m with queue := m.queue ++ [g], plan := r }
    | [] => if m.cruise.isSome then some { m with queue := m.queue ++ [Seg.plain 400 0] } else none
  else none

/-- At most so many segments are appended, one after another. -/
def feedUp (m : Motion) : Nat → Motion
  | 0 => m
  | n + 1 => match m.feed1 with
    | some m => m.feedUp n
    | none => m

/-- The queue is filled to the horizon (R40); every segment lasts a period at least. -/
def feed (m : Motion) : Motion := m.feedUp horizon

/-- Planned and filled. -/
def go (m : Motion) (p : MParam) : Motion × Option (Nat × Bool) := ((m.launch p).1.feed, (m.launch p).2)

/-! ### A period (R39, R43, R129) -/

/-- What the end of a period brings: nothing; the end of a tagged segment, with its tag and whether the queue ran dry with it; an END
segment; or a queue that ran dry. -/
inductive PeriodEnd where
  | none
  | passed (tag : Nat) (dry : Bool)
  | ended (tag : Option Nat)
  | starved
deriving DecidableEq, Repr

/-- The queue ran dry without END (R43). -/
def PeriodEnd.dry (e : PeriodEnd) : Bool :=
  match e with
  | .passed _ d => d
  | .starved => true
  | .none => false
  | .ended _ => false

/-- A position reduced to 48 bits and its fraction, with WRAPPED set when that changed it (R136). -/
def setX (m : Motion) (x : Int) : Motion :=
  let y := wrapS 80 x
  { m with x := y, wrapped := m.wrapped || decide (y ≠ x) }

/-- The head segment ends when it has no periods left. -/
def popHead (m : Motion) : Motion × PeriodEnd :=
  match m.queue with
  | g :: rest =>
    if g.periods = 0 then
      let m := { m with queue := rest }
      if g.isEnd then ({ m with x := roundPos m.x, v := 0 }, .ended g.tag)
      else match g.tag with
        | some o => (m, .passed o rest.isEmpty)
        | none => (m, if rest = [] then .starved else .none)
    else (m, .none)
  | [] => (m, .none)

/-- One period of the segment in progress: the velocity, then the position (R39). -/
def period (m : Motion) : Motion × PeriodEnd :=
  match m.queue with
  | g :: rest =>
    let v := m.v + g.acc
    (({ m with v := v, neg := if v = 0 then m.neg else decide (v < 0), queue := { g with periods := g.periods - 1 } :: rest }).setX
      (m.x + v)).popHead
  | [] => (m, .none)

/-- The unit is moving, or has segments to run. -/
def busy (m : Motion) : Bool := !m.still

/-- A motion descriptor is pending: in progress, waiting, followed or played (R60, R87). -/
def pendingAny (m : Motion) : Bool :=
  m.act.isSome || !m.look.isEmpty || m.follow.isSome || m.play.isSome || !m.later.isEmpty

/-- Motion descriptors in the lookahead, the move in progress or suspended among them (R138, R163). -/
def depth (m : Motion) : Nat :=
  (m.look.filter fun v => !v.own).length + (m.deferred.filter fun q => entersLook (op q.2.1)).length +
  (match m.act with | some a => if a.silent then 0 else 1 | none => 0)

/-- Standstill at once with the position rounded (R149). -/
def dead (m : Motion) : Motion := { m.clear with x := roundPos m.x, v := 0, dwell := none, own := none }

/-- The legs have gone to Hi-Z: the unit stands, and its start is given up. What was in progress or waits in the lookahead is the cores' to
complete (R149, R508). -/
def fall (m : Motion) : Motion :=
  { m.clear with x := roundPos m.x, v := 0, own := none, start := .none, held := false
                 stopping := m.stopping.map fun st => { st with begun := true } }

end Motion

/-! ### The end of a long operation (R391, R393, R423) -/

/-- The status word (R391), with entries counted that this tick writes. -/
def LongOp.word0of (x : LongOp) (count : Nat) : Word := wd (x.st * 2 ^ 28 + count * 2 ^ 16 + x.progress)

/-- The running operation of a tag changes. -/
def State.updLong (s : State) (g : Tag) (f : LongOp → LongOp) : State :=
  { s with host := { s.host with longs := s.host.longs.map fun x => if x.tag = g ∧ !x.ended then f x else x } }

/-- A running operation of an opcode, and of an axis where the opcode has one (R427). -/
def State.longOf (s : State) (opcode axis : Nat) : Option LongOp :=
  s.host.longs.find? fun x => decide (x.opcode = opcode) && decide (x.axis = axis) && !x.ended

/-- The position words of a record of an axis operation, and the axis's POS_UNCERTAIN flag (R422, R423). -/
def State.longTail (s : State) (x : LongOp) : List Word × Nat :=
  if x.opcode = 0x20 ∨ x.opcode = 0x21 then
    let m := (s.axis x.axis).m
    ([posLo m.pos, wd (posHi16 m.pos)], 2 * b2n m.posUnc)
  else ([0, 0], 0)

/-- A long operation ends with a status (R393): its OSB reads ENDED at the tick's update, and its descriptor completes with the final
status word, DROPPED, SUMMARY and, for an axis, the position (R423). -/
def State.endLong (s : State) (g : Tag) (status : Nat) : State :=
  match s.host.longs.find? fun x => decide (x.tag = g) && !x.ended with
  | none => s
  | some x =>
    let tail := s.longTail x
    let z : LongOp := { x with st := 3, status := status, flags := tail.2, ended := true }
    let s := s.updLong g fun _ => z
    s.complete g (s.mkRecord x.word0 ([z.word0of (x.count + x.fresh.length), wd x.dropped, x.summary] ++ tail.1) tail.2 status)

/-! ### Completion records of motion descriptors (R137, R422, R423) -/

/-- The member that a record names: MSLOT, MAXIS and MVALID (R423). -/
def memberWord (m : Option (Nat × Nat)) : Nat :=
  match m with
  | none => 0
  | some (slot, a) => 2 ^ 31 + (a % 64) * 2 ^ 24 + (slot % 16) * 2 ^ 16

/-- The record of a motion descriptor of a unit at the present boundary. -/
def State.motionRecord (s : State) (k : UnitKind) (n : Nat) (word0 : Word) (late turned : Bool) (past : Nat)
    (mem : Option (Nat × Nat)) (memFlag : Bool) (status : Nat) : List Word :=
  let m := s.motion k n
  let kind := (m.ret.map Retained.isVel).getD false
  let f : RecFlags := RecFlags.mk late m.posUnc memFlag m.ret.isSome kind turned
  let r := retWords m.ret
  s.mkRecord word0 [posLo m.pos, wd (posHi16 m.pos + memberWord mem), r.1, r.2, wd (min past (2 ^ 32 - 1))] f.code status

/-- The entry move of a bind has ended with a status (R170); the first is the one that counts. -/
def State.entryEnded (s : State) (k : UnitKind) (n : Nat) (status : Nat) : State :=
  match (match k with | .axis => (s.axis n).bound | .course => (s.course n).parent) with
  | none => s
  | some (c, slot) => s.updCourse c fun x =>
      let mb := Bank.get Member.reset x.members slot
      { x with members := Bank.set x.members slot { mb with ended := mb.ended.orElse fun _ => some status } }

/-- A silent move ends: nothing is written (R136, R170). -/
def State.silentEnd (s : State) (k : UnitKind) (n : Nat) (a : Move) (status : Nat) : State :=
  if a.opcode = 0x30 then s.entryEnded k n status else s

/-- A move completes with a status (R137). -/
def State.completeMove (s : State) (k : UnitKind) (n : Nat) (a : Move) (status : Nat) : State :=
  if a.silent then s.silentEnd k n a status
  else s.complete a.tag (s.motionRecord k n a.word0 a.late a.turned a.overshoot a.memberFault a.memberFault.isSome status)

/-- A move that a member event ended (R178): MVALID names the member, and MEMBER_FAULT stays as it was. -/
def State.completeMoveBy (s : State) (k : UnitKind) (n : Nat) (a : Move) (status : Nat) (mem : Option (Nat × Nat)) : State :=
  if a.silent then s.silentEnd k n a status
  else s.complete a.tag (s.motionRecord k n a.word0 a.late a.turned a.overshoot (mem.orElse fun _ => a.memberFault)
    a.memberFault.isSome status)

/-- The entry move of a bind (R170). -/
def Move.isEntry (v : Move) : Bool := v.silent && decide (v.opcode = 0x30)

/-- A stop finds an entry move that waits to begin: it ends with the status that the cause gives a move in progress (R170). -/
def State.entryCaught (s : State) (k : UnitKind) (n : Nat) (c : StopCause) : State :=
  let m := s.motion k n
  if m.look.any Move.isEntry || (m.dwell.isSome && m.act.elim false Move.isEntry) then s.entryEnded k n c.status else s

/-- Every move of the lookahead completes with CANCELLED, in ring order (R149, R421); a start that waits is given up. -/
def State.cancelLook (s : State) (k : UnitKind) (n : Nat) : State :=
  let s := (s.motion k n).look.foldl (fun t a => t.completeMove k n a Status.cancelled) s
  let s := (s.motion k n).deferred.foldl (fun (t : State) (q : Tag × Desc × Profile) =>
    t.complete q.1 (t.motionRecord k n q.2.1.w0 false false 0 none false Status.cancelled)) s
  s.updMotion k n fun m => { m with look := [], deferred := [], start := .none, held := false }

/-- A move that waits out a reversal dwell is cancelled as a move of the lookahead (R148, R421). -/
def State.cancelDwell (s : State) (k : UnitKind) (n : Nat) : State :=
  match (s.motion k n).dwell, (s.motion k n).act with
  | some _, some a => (s.completeMove k n a Status.cancelled).updMotion k n fun m => { m with act := none, dwell := none }
  | some _, none => s.updMotion k n fun m => { m with dwell := none }
  | none, _ => s

/-- A move that waits out a reversal dwell goes back to the head of the lookahead when Hold pauses it (R153); a move that is turning
stays in progress. -/
def Motion.undwell (m : Motion) : Motion :=
  match m.dwell, m.act with
  | some _, some a => if a.turned then { m with dwell := none } else { m with dwell := none, act := none, look := a :: m.look, start := .none }
  | some _, none => { m with dwell := none }
  | none, _ => m

/-- A value is retained from the move in progress (R151): R = T - P, or v_t. -/
def Motion.retain (m : Motion) : Motion :=
  match m.act with
  | none => m
  | some a => { m with ret := some { isVel := a.isVel, value := if a.isVel then a.target else a.target - m.pos, prof := a.prof } }

/-- STOP and QSTOP descriptors that wait complete with OK at standstill (R137). -/
def State.completeStops (s : State) (k : UnitKind) (n : Nat) : State :=
  let s := (s.motion k n).stops.foldl (fun t d =>
    t.complete d.tag (t.motionRecord k n d.word0 false false 0 none false Status.ok)) s
  s.updMotion k n fun m => { m with stops := [] }

/-- The table window of a playback is free again (R394). -/
def State.freeWindow (s : State) (k : UnitKind) (n : Nat) : State :=
  { s with host := { s.host with twins := s.host.twins.map fun p => (p.1, if p.2.busy = some (k, n) then { p.2 with busy := none } else p.2) } }

/-- What waits on a unit to take effect, the moves of its lookahead and binds apart, completes with CANCELLED. -/
def State.cancelLater (s : State) (k : UnitKind) (n : Nat) : State :=
  let s := (s.motion k n).later.foldl (fun t l =>
    match l with
    | .follow f => t.complete f.tag (t.motionRecord k n f.word0 f.late false 0 none false Status.cancelled)
    | .play p => (t.complete p.tag (t.motionRecord k n p.word0 false false 0 none false Status.cancelled)).freeWindow k n) s
  s.updMotion k n fun m => { m with later := [] }

/-- A FOLLOW_STEPS or PLAY_TABLE that a stop ended completes at standstill, and the unit stands in Target position mode
(R189, R192, R194). -/
def State.endFollowed (s : State) (k : UnitKind) (n : Nat) (status : Nat) (mem : Option (Nat × Nat)) : State :=
  let m := s.motion k n
  let s := match m.follow with
    | some f => s.complete f.tag
        (s.motionRecord k n f.word0 f.late false 0 (mem.orElse fun _ => f.memberFault) f.memberFault.isSome status)
    | none => s
  let s := match m.play with
    | some p => (s.complete p.tag
        (s.motionRecord k n p.word0 false false 0 (mem.orElse fun _ => p.memberFault) p.memberFault.isSome (p.fin.getD status))).freeWindow k n
    | none => s
  if m.follow.isSome || m.play.isSome then
    s.updMotion k n fun x => { x with follow := none, play := none, mode := .target, tgt := x.pos }
  else s

/-- The end of a stop (R149, R150, R153): the move in progress completes with the status of the highest cause and keeps its
retained value, the STOP and QSTOP descriptors complete, and STOP_CAUSE reports the cause. -/
def State.finishStop (s : State) (k : UnitKind) (n : Nat) : State :=
  match (s.motion k n).stopping with
  | none => s
  | some st =>
    let susp := (s.motion k n).suspended
    let s := s.updMotion k n fun m =>
      { m with stopping := none, stopCause := st.cause.code, start := .none }
    let s := if susp then s
      else if st.cause = .disabled then s.updMotion k n fun m => { m with ret := none }
      else s.updMotion k n Motion.retain
    if st.cause = .holdReq then
      (s.endFollowed k n st.cause.status none).updMotion k n fun m => { m with suspended := m.act.isSome, restarted := false }
    else
      let s := match (s.motion k n).act with
        | none => s
        | some a => s.completeMoveBy k n a st.cause.status st.member
      let s := s.updMotion k n fun m =>
        { m with act := none, suspended := false, restarted := false, tgt := m.pos,
                 mode := if m.mode = .velocity ∧ st.cause ≠ .disabled then .velocity else m.mode }
      let s := if st.cause = .disabled then s.updMotion k n fun m => { m with ret := none, mode := .off, booked := 0, bookLeft := none } else s
      (s.endFollowed k n st.cause.status st.member).completeStops k n

/-- A stop that has been posted begins (R44, R149), or takes in an event that has reached the unit meanwhile: the lookahead is cancelled,
except under Hold by request and behind a STOP or QSTOP, which cancelled it at take-up; the unstarted
segments are dropped, and the ramp is formed from the present speed; a cause without a ramp ends the stop at once. Where a unit stands
still with nothing in progress there is nothing to stop, and STOP_CAUSE stays. A course
that a member event stops under POLICY 0 comes down at CRS_QSTOP_DECEL whatever the member's cause (R178). -/
def State.beginStop (s : State) (k : UnitKind) (n : Nat) : State :=
  match (s.motion k n).stopping with
  | none => s
  | some st =>
    let sweep (t : State) : State := if st.sweep then t.cancelLook k n else t
    if st.atOnce then
      let s := s.updMotion k n fun m => { m with x := roundPos m.x }
      ((sweep ((s.entryCaught k n st.cause).cancelDwell k n)).updMotion k n Motion.dead).finishStop k n
    else if st.begun then (sweep s).updMotion k n fun m => { m with stopping := some { st with sweep := false } }
    else
      let s := if st.cause = .holdReq then s.updMotion k n Motion.undwell else sweep ((s.entryCaught k n st.cause).cancelDwell k n)
      if (s.motion k n).still && (s.motion k n).v = 0 then
        let m := s.motion k n
        let t := s.finishStop k n
        if m.act.isNone && m.follow.isNone && m.play.isNone then t.updMotion k n fun y => { y with stopCause := m.stopCause } else t
      else
        let quick := decide (st.cause = .stall ∨ st.cause = .limit ∨ st.cause = .qstop) || st.member.isSome
        s.updMotion k n fun m =>
          { m with queue := m.ramp quick, plan := [], cruise := none, stopping := some { st with begun := true, sweep := false } }

end Sys2Proof.Machine
end

