-- ==== Sys2Proof/Machine/Course.lean ====
section
/-! DEFINITION. Courses and bonds (R164 to R180), step followers (R187 to R189) and table playback (R190 to R194): the bond
formulas, the tree, member events, and the demanded position of a followed unit. -/

namespace Sys2Proof.Machine

/-! ### Bonds (R171 to R173) -/

/-- A gear bond (R171): OFFSET + G X, with 32 fraction bits, before the reduction modulo 2^48. -/
def gearBond (g : Word) (offset x : Int) : Int := offset + g.toInt * x / 2 ^ 16

/-- The fields of a cam record (R173). -/
structure Cam where
  s : Nat
  p : Nat
  rise : Int
  phi : Nat

/-- The cam record at a word address. -/
def State.camRec (s : State) (a : Nat) : Cam :=
  let w0 := Memory.readWord s.cam a
  { s := fld w0 0 5, p := fld w0 16 12 + 1,
    rise := signed 48 ((Memory.readWord s.cam (a + 1)).toNat + fld (Memory.readWord s.cam (a + 2)) 0 16 * 2 ^ 32),
    phi := (Memory.readWord s.cam (a + 3)).toNat }

/-- A cam record is valid (R173), and no word of it has been marked invalid (R487). -/
def State.camValid (s : State) (a : Nat) : Bool :=
  let c := s.camRec a
  decide (c.s ≤ 20) && decide (2 ≤ c.p) && decide (c.p ≤ 4096) && decide (c.phi < c.p * 2 ^ c.s) &&
  decide (a + 4 + c.p ≤ s.variant.camWords) && s.camBad.all fun w => decide (w < a ∨ a + 4 + c.p ≤ w)

/-- Point `i` of a cam record. -/
def State.camPoint (s : State) (a i : Nat) : Int := (Memory.readWord s.cam (a + 4 + i)).toInt

/-- A cam bond (R172), before the reduction modulo 2^48. -/
def State.camBond (s : State) (a : Nat) (offset x : Int) : Int :=
  let c := s.camRec a
  let u := x + c.phi * one
  let l : Int := c.p * 2 ^ c.s * one
  let n := u / l
  let phi := u - n * l
  let i := (phi / (2 ^ c.s * one)).toNat
  let f := (phi - i * 2 ^ c.s * one) / 2 ^ c.s
  let ci := s.camPoint a i
  let cn := if i < c.p - 1 then s.camPoint a (i + 1) else s.camPoint a 0 + c.rise
  offset + n * c.rise * one + ci * one + f * (cn - ci)

/-- The bond position of a member for a course coordinate, before the reduction modulo 2^48. -/
def State.bond (s : State) (mb : Member) (x : Int) : Int :=
  if mb.cam then s.camBond (fld mb.param 0 15) mb.offset x else gearBond mb.param mb.offset x

/-! ### The tree (R168, R169, R176, R183) -/

def Course.member (c : Course) (slot : Nat) : Member := Bank.get Member.reset c.members slot

def State.setMember (s : State) (c slot : Nat) (m : Member) : State :=
  s.updCourse c fun x => { x with members := Bank.set x.members slot m }

/-- The course and slot that hold a unit. -/
def State.parentOf (s : State) (k : UnitKind) (n : Nat) : Option (Nat × Nat) :=
  match k with
  | .axis => (s.axis n).bound
  | .course => (s.course n).parent

def State.setParent (s : State) (k : UnitKind) (n : Nat) (p : Option (Nat × Nat)) : State :=
  match k with
  | .axis => s.updAxis n fun x => { x with bound := p }
  | .course => s.updCourse n fun x => { x with parent := p }

/-- The unit is bound: its slot reads bound, and its bond governs it. -/
def State.isBound (s : State) (k : UnitKind) (n : Nat) : Bool :=
  match s.parentOf k n with
  | none => false
  | some (c, slot) => decide (((s.course c).member slot).state = .bound)

/-- The level of a course: 1 at the top (R169). -/
def State.level (s : State) (fuel c : Nat) : Nat :=
  match fuel with
  | 0 => 9
  | f + 1 =>
    match (s.course c).parent with
    | none => 1
    | some (p, _) => s.level f p + 1

/-- The depth of the tree beneath a course, itself counted. -/
def State.treeDepth (s : State) (fuel c : Nat) : Nat :=
  match fuel with
  | 0 => 9
  | f + 1 =>
    1 + ((s.course c).members.map fun p =>
      if (p.2.state = .bound ∨ p.2.state = .binding) ∧ p.2.kind = .course then s.treeDepth f p.2.index else 0).foldl max 0

/-- A course is another or an ancestor of it. -/
def State.ancestor (s : State) (fuel a c : Nat) : Bool :=
  match fuel with
  | 0 => false
  | f + 1 => decide (a = c) || (match (s.course c).parent with | none => false | some (p, _) => s.ancestor f a p)

/-- The courses and slots from a unit up to its top-level course, lowest first. -/
def State.path (s : State) (fuel : Nat) (k : UnitKind) (n : Nat) : List (Nat × Nat) :=
  match fuel with
  | 0 => []
  | f + 1 =>
    match s.parentOf k n with
    | none => []
    | some (c, slot) => if ((s.course c).member slot).state = .bound then (c, slot) :: s.path f .course c else []

/-- The axes bound beneath a course, for its bookings (R167): a member in its entry move is not counted. -/
def State.boundAxes (s : State) (fuel c : Nat) : List Nat :=
  match fuel with
  | 0 => []
  | f + 1 =>
    (s.course c).members.flatMap fun p =>
      if p.2.state = .bound then
        (match p.2.kind with
         | .axis => [p.2.index]
         | .course => s.boundAxes f p.2.index)
      else []

/-! ### Member events and detachment (R177, R178) -/

/-- The member of a slot is detached: it has no parent and stands in Target position mode. -/
def State.detach (s : State) (c slot : Nat) : State :=
  let mb := (s.course c).member slot
  if mb.state = .bound then
    let s := (s.setMember c slot { mb with state := .detached }).setParent mb.kind mb.index none
    s.updMotion mb.kind mb.index fun m => { m with mode := .target, stopSet := { m.stopSet with qdec := (s.mparam mb.kind mb.index).qdec } }
  else s

/-- A course marks its descriptor in progress for a member event that does not stop it (R178). -/
def State.markMember (s : State) (c slot a : Nat) : State :=
  s.updCourse c fun x =>
    { x with m := { x.m with
        act := x.m.act.map fun v => { v with memberFault := some (slot, a) }
        follow := x.m.follow.map fun v => { v with memberFault := some (slot, a) }
        play := x.m.play.map fun v => { v with memberFault := some (slot, a) } } }

/-- Every course on the path of a bound axis reports its member event (R177). -/
def State.memberReport (s : State) (a : Nat) : State :=
  (s.path 8 .axis a).foldl (fun t p => t.updCourse p.1 fun x => { x with memFlt := true, faultMem := p.2 }) s

/-- An event of this class leaves POLICY to act on it: one of class HALT or above reaches every course by itself (R177). -/
def FClass.policy (c : FClass) : Bool := decide (c.code < 3)

/-- A member event of an axis (R177, R178), with the stop cause of the axis's event, or none where the event is reported only.
Every course on the path records it; one course acts. -/
def State.memberEvent (s : State) (a : Nat) (cause : Option StopCause) : State :=
  let path := s.path 8 .axis a
  let s := s.memberReport a
  match cause with
  | none => path.foldl (fun t p => t.markMember p.1 p.2 a) s
  | some c =>
    match path.find? fun p => bit (s.course p.1).ctrl 4 with
    | some (d, slot) =>
      let mb := (s.course d).member slot
      let s := (path.filter fun p => decide (p.1 ≠ d)).foldl (fun t p => t.markMember p.1 p.2 a) s
      let s := (s.markMember d slot a).detach d slot
      match mb.kind with
      | .axis => s.postStop .axis mb.index c
      | .course => s.updMotion .course mb.index fun m => m.postStop c (some (slot, a))
    | none =>
      match path.getLast? with
      | none => s
      | some (top, slot) =>
        s.updMotion .course top fun m =>
          { (m.postStop c (some (slot, a))) with posUnc := m.posUnc || decide (c = .hiz ∨ c = .stall) }

/-- The legs of a bound axis have gone to Hi-Z by an event of class `c`: the axis is detached, with a member event unless the event reached
every course by itself; an event of class HALT or above is reported, and POLICY does not act on it (R177, R178). -/
def State.settleAxis (s : State) (c : FClass) (a : Nat) : State :=
  match (s.axis a).bound with
  | none => s
  | some (p, slot) =>
    match (s.axis a).m.stopping with
    | none => s
    | some st =>
      if st.cause.dead && s.isBound .axis a then
        let top := ((s.path 8 .axis a).getLast?.map Prod.fst).getD p
        let all := match (s.course top).m.stopping with
          | some u => u.cause.dead && u.member.isNone
          | none => false
        let s := if all then s else if c.policy then s.memberEvent a (some .hiz) else s.memberReport a
        (s.detach p slot).updMotion .axis a fun m => { m with posUnc := true }
      else s

/-- Every bound axis whose legs have gone to Hi-Z by an event of class `c` is detached. -/
def State.settle (s : State) (c : FClass := .log) : State := s.listedAxes.foldl (fun t a => t.settleAxis c a) s

/-- A source is raised, and the members that its reaction takes to Hi-Z are detached. -/
def State.fault (s : State) (src : Nat) (detail : Word) (u : FUnit) : State := (s.raise src detail u).settle (s.classOf src)

/-! ### A followed position (R175) -/

/-- The fastest that an axis follows, and the lag that raises TRACK_OVERSPEED, in units of 2^-32 microstep. -/
def trackMax : Int := 64 * 2 ^ 32
def trackLag : Int := 256 * 2 ^ 32

/-- An axis follows a demanded position in one period (R175). Answers with the lag at or above the limit. -/
def Motion.track (m : Motion) (y : Int) : Motion × Bool :=
  let d := wrapS 80 (y - m.x)
  let step := if d.natAbs ≤ trackMax.natAbs then d else if 0 < d then trackMax else -trackMax
  let far := decide (trackLag.natAbs < (d - step).natAbs)
  let x := wrapS 80 (m.x + step)
  ({ m with x := x, v := step, neg := if step = 0 then m.neg else decide (step < 0), tgt := wrapS 80 y / 2 ^ 32,
            wrapped := m.wrapped || decide (x ≠ m.x + step), behind := far }, far && !m.behind)

/-- A course coordinate follows exactly (R166). -/
def Motion.follow1 (m : Motion) (y : Int) : Motion :=
  let d := wrapS 80 (y - m.x)
  let x := wrapS 80 (m.x + d)
  { m with x := x, v := d, neg := if d = 0 then m.neg else decide (d < 0), tgt := x / 2 ^ 32,
           wrapped := m.wrapped || decide (x ≠ m.x + d) }

/-- An axis follows, and TRACK_OVERSPEED is raised in the first period of a lag above 256 microsteps (R175); below class HALT
it is a member event of a bound axis (R177). -/
def State.trackAxis (s : State) (a : Nat) (y : Int) : State :=
  let r := (s.axis a).m.track y
  let s := s.updAxis a fun x => { x with m := r.1 }
  if r.2 then
    let c := s.classOf (0x180 + a)
    let s := (s.raise (0x180 + a) (wd a) (.axis a)).settle c
    if (s.axis a).bound.isSome && decide (c.code ≤ 1) then s.memberEvent a none else s
  else s

/-- A unit follows a demanded position. -/
def State.trackUnit (s : State) (k : UnitKind) (n : Nat) (y : Int) : State :=
  match k with
  | .axis => s.trackAxis n y
  | .course => s.updMotion .course n fun m => m.follow1 y

/-! ### Step following (R187, R188) -/

/-- The count of a followed input. -/
def State.followCount (s : State) (f : Follow) : Nat :=
  if f.isEnc then (Bank.get 0 s.inp.encCnt f.src).toNat else (Bank.get 0 s.inp.stepCnt f.src).toNat

/-- One period of a follower: the total, the last M terms, and the demanded position (R188). -/
def Follow.period (f : Follow) (count : Nat) : Follow × Int :=
  let total := wrapS 48 (f.total + signed 32 (sub32 count f.last))
  let q := f.base + f.k * total * 2 ^ 16
  let m := 2 ^ f.f
  let hist := (q :: f.hist).take m
  let sum := hist.foldl (· + ·) 0 + ((m - hist.length : Nat) : Int) * f.base
  ({ f with total := total, last := count, hist := hist }, sum / m)

/-! ### Table playback (R190 to R193) -/

/-- Sample `j` of a playback, from its buffer. -/
def Play.sample (p : Play) (j : Nat) : Int := (p.buf.getD (j - p.bufFirst) 0).toInt

/-- A sample is in the buffer. -/
def Play.has (p : Play) (j : Nat) : Bool := decide (p.bufFirst ≤ j) && decide (j < p.bufFirst + p.buf.length)

/-- 2^E times a value in units of 2^-32 microstep. -/
def scaleE (e : Int) (v : Int) : Int := if 0 ≤ e then v * 2 ^ e.toNat else v / 2 ^ (-e).toNat

/-- The samples of the END position in 40.8 units: Count 2^Q (R191). -/
def Play.endAt (p : Play) : Nat := p.count * 2 ^ p.q * 256

/-- The progress of a playback at a boundary sample (R191, R192, R193). -/
inductive PlayAt where
  /-- before the start, or at a sample in the table: its number, and the fraction f in 2^-32 -/
  | before
  | at (i : Nat) (f : Int)
  | done
deriving DecidableEq, Repr

def Play.locate (p : Play) (c : Nat) : PlayAt :=
  if atOrAfter c p.rcStart then
    let u := (c + 2 ^ 48 - p.rcStart % 2 ^ 48) % 2 ^ 48
    if p.endAt ≤ u then .done
    else .at (u / (2 ^ p.q * 256)) (((u % (2 ^ p.q * 256)) * 2 ^ 32 / (2 ^ p.q * 256) : Nat) : Int)
  else .before

/-- The demanded position inside the table (R191). -/
def Play.demand (p : Play) (i : Nat) (f : Int) : Int :=
  let before := (p.buf.take (i - p.bufFirst)).foldl (fun a b => a + b.toInt) p.sumFirst
  p.base + scaleE p.e (before * one + f * p.sample i)

/-- The position at END (R191). -/
def Play.endPos (p : Play) : Int :=
  p.base + scaleE p.e ((p.buf.take (p.count - p.bufFirst)).foldl (fun a b => a + b.toInt) p.sumFirst * one)

/-- The streamer keeps 1,024 samples behind the current one (R193). -/
def Play.trim (p : Play) (i : Nat) : Play :=
  let n := i - 1024 - p.bufFirst
  { p with bufFirst := p.bufFirst + n, buf := p.buf.drop n,
           sumFirst := (p.buf.take n).foldl (fun a b => a + b.toInt) p.sumFirst }

/-- A playback is over: the unit comes down from its present speed by the stop set, and PLAY_TABLE completes with a status at
standstill (R192, R193). -/
def State.playOver (s : State) (k : UnitKind) (n : Nat) (status : Nat) : State :=
  let s := s.updMotion k n fun m =>
    let m := { m with play := m.play.map fun p => { p with fin := some status } }
    if m.v = 0 then m else { m with queue := m.ramp false, plan := [], cruise := none }
  if (s.motion k n).v = 0 then s.endFollowed k n status none else s

/-- A sample that a boundary needs is missing (R193). -/
def State.playUnderrun (s : State) (k : UnitKind) (n : Nat) (p : Play) : State :=
  let unit := match k with
    | .axis => n * 2 ^ 16
    | .course => 2 ^ 8 + n * 2 ^ 16
  (s.playOver k n Status.underrun).fault (0x050 + p.win) (wd (p.win + unit)) (.played k n)

end Sys2Proof.Machine
end

