-- ==== Sys2Proof/Machine/Gate.lean ====
section
/-! DEFINITION. The leg interlock (R276 to R282, R294), segmented drivers (R283 to R288), protections and their clearing (R293 to
R308). -/

namespace Sys2Proof.Machine

/-! ### Times of a leg in 400 MHz ticks -/

/-- t_DT (R279): 50 ns + 10 ns DT. -/
def Leg.tDt (x : Leg) : Nat := 20 + 4 * fld x.gd 0 7

/-- The target switching time T (R285). -/
def Leg.tSw (x : Leg) : Nat := fld x.gd 8 8

/-- t_minoff (R222), and t_min for the larger dead time of a coil's legs (R217): 2 t_DT + 200 ns. -/
def minTicks (tdt : Nat) : Nat := 2 * tdt + 80

/-- A 4-bit number with its bits in reverse order (R206). -/
def rev4 (p : Nat) : Nat := p % 2 * 8 + p / 2 % 2 * 4 + p / 4 % 2 * 2 + p / 8 % 2

/-! ### The interlock (R279) -/

def Leg.sw (x : Leg) (w : Switch) : GateSw :=
  match w with
  | .low => x.lo
  | .high => x.hi

def Leg.setSw (x : Leg) (w : Switch) (g : GateSw) : Leg :=
  match w with
  | .low => { x with lo := g }
  | .high => { x with hi := g }

/-- The other switch of a leg. -/
def otherSw (w : Switch) : Switch :=
  match w with
  | .low => .high
  | .high => .low

/-- The switch may turn on now: the other is commanded off, its handshake has confirmed and the dead time has elapsed; a
high-side switch also needs its bootstrap (R293). -/
def Leg.mayTurnOn (x : Leg) (w : Switch) : Bool :=
  let o := x.sw (otherSw w)
  !o.cmd && o.hs && !o.dead && !x.hiz && (decide (w = .low) || x.bstOk)

/-- An on-command takes effect, or waits (R279). -/
def Leg.cmdOn (x : Leg) (w : Switch) : Leg :=
  let g := x.sw w
  if x.mayTurnOn w then x.setSw w { g with cmd := true, waiting := false, on := true, hs := false, dead := false }
  else x.setSw w { g with cmd := true, waiting := true, on := false }

/-- An off-command: the gate is held off, and its handshake is awaited when it conducted (R278, R279). -/
def Leg.cmdOff (x : Leg) (w : Switch) : Leg :=
  let g := x.sw w
  x.setSw w { g with cmd := false, waiting := false, on := false, hs := g.hs && !g.on, dead := g.dead && !g.on,
                     sink := if g.on then g.nOff else g.sink }

/-- A command that waits is let through as soon as it may (R279). -/
def Leg.retry (x : Leg) : Leg :=
  let x := if x.lo.waiting && x.mayTurnOn .low then x.cmdOn .low else x
  if x.hi.waiting && x.mayTurnOn .high then x.cmdOn .high else x

/-- The leg leaves Hi-Z: both counts start at NSTART (R283), and a leg in mode 0x1, 0x3 or 0x4 whose bootstrap is low is
precharged through its low switch (R294). -/
def Leg.leaveHiz (x : Leg) : Leg :=
  let n := fld x.gd 20 4
  let x := { x with hiz := false, hi := { x.hi with nOn := n, nOff := n }, lo := { x.lo with nOn := n, nOff := n } }
  if !x.bstOk && decide (x.mode = 1 ∨ x.mode = 3 ∨ x.mode = 4) then { x with precharge := true }.cmdOn .low else x

/-! ### Trips (R300 to R307) -/

/-- The capacity of a driver (R288): segments usable now, at most 14. -/
def GateSw.capacity (g : GateSw) : Nat := min 14 ((List.range 16).filter fun i => g.active.getLsbD i).length

/-- TRIP_ACTIVE (R305): the cause in LEG_STAT.CAUSE persists. -/
def State.tripActive (s : State) (t l : Nat) : Bool :=
  let x := s.leg t l
  match x.cause with
  | 5 => Config.shuntAbove (16 * t + l) s.dt
  | 6 => x.hi.cmd && x.lo.cmd
  | 7 => !x.hi.hs
  | 8 => !x.lo.hs
  | 9 => !x.bstOk
  | 10 => decide (x.hi.capacity < 4 ∨ x.lo.capacity < 4)
  | 11 => (s.tile t).iso
  | _ => false

/-- A leg of the variant (R1, R18). -/
def State.hasLeg (s : State) (t l : Nat) : Bool := decide (t < s.variant.tiles) && decide (l < 16)

/-- A protection takes a leg to Hi-Z, latching its cause; the other legs of an axis follow (R301, R304). -/
def State.tripLeg (s : State) (t l cause : Nat) : State :=
  (s.updLeg t l fun x => x.latchCause cause).legsFollow t l

/-- A source is raised whose hardware action has taken axes to Hi-Z: its record holds them until it is acknowledged (R308). -/
def State.faultHeld (s : State) (src : Nat) (detail : Word) (u : FUnit) (axes : List Nat) : State :=
  let c := s.classOf src
  let r := s.record src c detail false
  axes.foldl (fun x a => x.holdAxis r.2 a) ((r.1.react c u r.2 false none).settle c)

/-- The same for a source whose hardware action has taken a tile to Hi-Z under ISO. -/
def State.faultTile (s : State) (src : Nat) (detail : Word) (t : Nat) : State :=
  let c := s.classOf src
  let r := s.record src c detail false
  ((r.1.react c (.tile t) r.2 false none).settle c).holdTile r.2 t

/-- A protection trips on a leg: the hardware action, then the source at its class (R301, R318). -/
def State.tripAs (s : State) (t l cause src : Nat) (high : Bool) : State :=
  (s.tripLeg t l cause).faultHeld (src + t) (legDetail t l cause high) (.leg t l)
    (if (s.leg t l).mode = 1 then [legAxis t l] else [])

/-- A switch that conducts is to be turned off with SOFT_N sink segments in place of N_OFF (R301). -/
def Leg.soften (x : Leg) (w : Switch) : Leg :=
  if (x.sw w).on then x.setSw w { x.sw w with nOff := fld x.prot 16 4 } else x

/-- A short circuit trips a leg (R301): the switches that conduct its current turn off softly. On a bound axis it is a member event, reported
whatever its class (R177). -/
def State.shortAs (s : State) (t l cause src : Nat) (high : Bool) (ws : List Switch) : State :=
  let s := s.updLeg t l fun x => ws.foldl Leg.soften x
  let s := if (s.leg t l).mode = 1 then s.memberReport (legAxis t l) else s
  s.tripAs t l cause src high

def srcVgateUv : Nat := 0x2C0
def srcVgateOv : Nat := 0x2D0
def srcVdsShort : Nat := 0x2E0
def srcShuntOc : Nat := 0x2F0
def srcCrossCmd : Nat := 0x300
def srcHsTimeout : Nat := 0x310
def srcGateFail : Nat := 0x320
def srcBstUv : Nat := 0x330
def srcVmUv : Nat := 0x340
def srcVmOv : Nat := 0x350
def srcSegRetired : Nat := 0x360
def srcCapLow : Nat := 0x370
def srcGateSlow : Nat := 0x380

/-- The drive switch of a leg mode (R62): low-side in mode 0x2, high-side in 0x3, and in 0x4 the high side (log entry 20). -/
def driveSwitch (mode : Nat) : Switch := if mode = 2 then .low else .high

/-- The bootstrap of a leg counts as under-voltage (R293), also after a precharge of 100 µs (R294). A high-side drive switch is no longer
commanded on (R237). -/
def State.bstFail (s : State) (t l : Nat) : State :=
  let s := s.updLeg t l fun x =>
    { (x.cmdOff .high) with bstOk := false, precharge := false, driveOn := x.driveOn && decide (driveSwitch x.mode = .low)
                            flags := x.flags ||| bw true 4 }
  if 2 ≤ (s.classOf (srcBstUv + t)).code then s.tripAs t l 9 srcBstUv true
  else s.fault (srcBstUv + t) (legDetail t l 9 true) (.leg t l)

/-! ### Segments (R284 to R288) -/

/-- Spares come in automatically (R493). -/
def State.autoSpares (s : State) : Bool := !bit s.spr.ctrl 8

/-- A spare of R492 has been brought into service (R499). -/
def State.spareIn (s : State) : State := { s with spr := { s.spr with flags := s.spr.flags ||| bw true 2 } }

/-- The first spare segment of a driver that is neither active nor retired. -/
def GateSw.spare (g : GateSw) : Option Nat :=
  [14, 15].find? fun i => !g.active.getLsbD i && !g.retired.getLsbD i

/-- Segments retired, and spares that have come into service, of a driver. -/
def GateSw.retiredCount (g : GateSw) : Nat := ((List.range 16).filter fun i => g.retired.getLsbD i).length
def GateSw.sparesUsed (g : GateSw) : Nat := ([14, 15].filter fun i => g.active.getLsbD i || g.retired.getLsbD i).length

/-- A segment bit set or cleared. -/
def segSet (b : BitVec 16) (i : Nat) : BitVec 16 := b ||| BitVec.ofNat 16 (2 ^ i)
def segClr (b : BitVec 16) (i : Nat) : BitVec 16 := b &&& ~~~ BitVec.ofNat 16 (2 ^ i)

/-- GATE_CAP_LOW is raised when the capacity falls below NMAX, and GATE_FAIL when it falls below 4 (R288). -/
def State.capCheck (s : State) (t l : Nat) (w : Switch) : State :=
  let x := s.leg t l
  let g := x.sw w
  let c := g.capacity
  let high := decide (w = .high)
  let s := if decide (c < fld x.gd 24 4) && !g.capLow then
      (s.updLeg t l fun y => y.setSw w { y.sw w with capLow := true }).fault (srcCapLow + t) (legDetail t l 10 high) (.leg t l)
    else s
  if c < 4 then s.tripAs t l 10 srcGateFail high else s

/-- A segment is retired (R287, R288): a spare takes the place of an active one. -/
def State.retireSeg (s : State) (t l : Nat) (w : Switch) (i : Nat) : State :=
  let x := s.leg t l
  let g := x.sw w
  if g.retired.getLsbD i then s
  else
    let used := g.active.getLsbD i
    let g := { g with retired := segSet g.retired i, active := segClr g.active i, dev := Bank.set g.dev i 0 }
    let sp := if used then g.spare else none
    let auto := s.autoSpares
    let g := match sp with
      | some j => if auto then { g with active := segSet g.active j } else { g with pend := true }
      | none => { g with pend := g.pend && g.spare.isSome }
    let lim := min (fld x.gd 24 4) g.capacity
    let g := { g with nOn := min g.nOn (max 1 lim), nOff := min g.nOff (max 1 lim) }
    let s := s.updLeg t l fun y => { (y.setSw w g) with flags := y.flags ||| bw true 5 }
    let s := if sp.isSome && auto then s.spareIn else s
    let s := s.fault (srcSegRetired + t) (legDetail t l 0 (decide (w = .high))) (.leg t l)
    s.capCheck t l w

/-- The spare that awaits approval for a driver is brought in (R288, R418). -/
def State.approveSeg (s : State) (t l : Nat) (w : Switch) : State :=
  let g := (s.leg t l).sw w
  match g.spare with
  | some j =>
    let g := { g with active := segSet g.active j }
    let g := { g with pend := g.spare.isSome && decide (g.sparesUsed < g.retiredCount), capLow := g.capLow && decide (g.capacity < fld (s.leg t l).gd 24 4) }
    (s.updLeg t l fun y => y.setSw w g).spareIn
  | none => s.updLeg t l fun y => y.setSw w { g with pend := false }

/-- The wear counter of a driver (R495). -/
def driverWear (t l : Nat) (w : Switch) : Nat := 0x100 + 2 * (16 * t + l) + b2n (decide (w = .high))

/-- A count after a measured edge (R285). -/
def nextCount (n t T lim : Nat) : Nat :=
  let tol := max 1 (T / 8)
  if T + tol < t then min lim (n + 1) else if t + tol < T then max 1 (n - 1) else n

/-- Every active segment has been compared in the present rotation (R287). -/
def GateSw.roundOver (g : GateSw) : Bool := decide (g.active &&& ~~~g.round = 0)

/-- The comparison of an edge may fall on the segment: one active segment, taken in rotation (R287). Where a rotation begins and its order are
left open: each active segment comes once in it. -/
def GateSw.inTurn (g : GateSw) (seg : Nat) : Bool := g.active.getLsbD seg && (g.roundOver || !g.round.getLsbD seg)

/-- The segment has been compared. -/
def GateSw.compare (g : GateSw) (seg : Nat) : GateSw := { g with round := segSet (if g.roundOver then 0 else g.round) seg }

/-- A measured edge: counts, run counts, LEG_TSW and the segment compared (R284 to R287). The turn-off edge that takes a leg to Hi-Z ran with the sink
segments that hold its gate, and the count of a leg at Hi-Z stays 0 (R283). -/
def State.edgeMeasured (s : State) (t l : Nat) (w : Switch) (on : Bool) (ticks seg : Nat) (dev : Bool) : State :=
  let x := s.leg t l
  let g := x.sw w
  let T := x.tSw
  let tol := max 1 (T / 8)
  let lim := min (fld x.gd 24 4) g.capacity
  let n := if on then g.nOn else if x.hiz then g.sink else g.nOff
  let slow := decide (lim ≤ n) && decide (T + tol < ticks)
  let fast := decide (n ≤ 1) && decide (ticks + tol < T)
  let runS := if slow then (if on then g.slowOn else g.slowOff) + 1 else 0
  let runF := if fast then (if on then g.fastOn else g.fastOff) + 1 else 0
  let repS := decide (256 ≤ runS)
  let repF := decide (256 ≤ runF)
  let runS := if repS then 0 else runS
  let runF := if repF then 0 else runF
  let n' := nextCount n ticks T lim
  let tv := min 255 ticks
  let cnt := if dev then Bank.get 0 g.dev seg + 1 else 0
  let g := if on then { g with nOn := n', slowOn := runS, fastOn := runF, tswOn := tv }
    else { g with nOff := if x.hiz then g.nOff else n', slowOff := runS, fastOff := runF, tswOff := tv }
  let g := { (g.compare seg) with dev := Bank.set g.dev seg cnt }
  let s := s.updLeg t l fun y => { (y.setSw w g) with flags := y.flags ||| bw repS 7 ||| bw repF 6 }
  let s := if repS then s.fault (srcGateSlow + t) (legDetail t l 0 (decide (w = .high))) (.leg t l) else s
  let s := if dev then s.wear (driverWear t l w) else s
  if decide (4 ≤ cnt) && g.active.getLsbD seg then s.retireSeg t l w seg else s

/-! ### Energizing an axis (R308, R63) -/

/-- The spare slot that serves an axis (R489). -/
def Spr.slotOf (p : Spr) (a : Nat) : Option Nat :=
  (List.range 4).find? fun i => let x := Bank.get SpareSlot.reset p.slots i; x.used && !x.retired && decide (x.axis = a)

/-- A runner serves the axis: its own, or a spare (R489, R490). -/
def State.runnerOk (s : State) (a : Nat) : Bool := !Bank.get false s.spr.runRetired a || (s.spr.slotOf a).isSome

/-- A comparator serves each coil of the axis: its own, or the spare (R332, R333). -/
def State.cmpOk (s : State) (a : Nat) : Bool :=
  let x := s.tile (axisTile a)
  [2 * (a % 4), 2 * (a % 4) + 1].all fun k =>
    !x.failed.getLsbD k || (x.steered && decide (x.steerK = k)) || decide (x.takeover = some k)

/-- Nothing holds the legs of an axis at Hi-Z: no TRIP_LATCH, no ISO, no lock-out of VGATE, no record, and no runner or comparator
that has failed without a spare (R306, R308, R333, R490, R520, R536). -/
def State.legsFree (s : State) (a : Nat) : Bool :=
  (axisLegs a).all (fun l => !(s.leg (axisTile a) l).latch) && !(s.tile (axisTile a)).iso &&
  !(s.tile (axisTile a)).vgUv && !(s.tile (axisTile a)).vgOv &&
  (s.axis a).isoHold.isEmpty && s.runnerOk a && s.cmpOk a

/-- The leg may leave Hi-Z: no latch, no ISO or unacknowledged record of it, no lock-out of VGATE (R306, R520, R536). -/
def State.legFree (s : State) (t l : Nat) : Bool :=
  !(s.leg t l).latch && !(s.tile t).iso && (s.tile t).isoHold.isEmpty && !(s.tile t).vgUv && !(s.tile t).vgOv

/-- The boundary at which a start became ready. -/
def StartState.since (x : StartState) : Option Nat :=
  match x with
  | .none => Option.none
  | .dwell t _ => Option.some t
  | .ready t => Option.some t
  | .due t => Option.some t

/-- A start has waited since an earlier boundary. -/
def Motion.waitedBefore (m : Motion) (now : Nat) : Bool := m.start.since.elim false fun t => decide (t < now)

/-- The throttle dwell in periods (R160). -/
def State.dwellPeriods (s : State) : Nat := fld s.thm.cfg 24 8 * 100

/-- A move under an AT condition. -/
def Move.isAt (v : Move) : Bool :=
  match v.gate with
  | some (.at _) => true
  | _ => false

/-- A start that has waited for its axis to be energized takes its place in the order of R161 as though it became ready at this boundary, with
the throttle dwell before it where the tile is at throttle level; one whose AT condition was met before is late (R160, R565). -/
def Motion.reenter (m : Motion) (now : Nat) (dwell : Option Nat) : Motion :=
  if m.start = .none then m
  else
    { m with
      look := m.look.map fun v => { v with late := v.late || (v.met && m.waitedBefore now && v.isAt) }
      later := m.later.map fun l => match l with
        | .follow v => .follow { v with late := v.late || (v.met && m.waitedBefore now && (match v.gate with | some (.at _) => true | _ => false)) }
        | .play p => .play p
      start := match dwell with
        | some n => .dwell now n
        | none => .ready now
      held := false }

/-- The start of an axis that is energized at this boundary enters the order. -/
def State.reenterAxis (s : State) (a : Nat) : State :=
  let dwell := if (s.thmTile (axisTile a)).throt then some s.dwellPeriods else none
  s.updAxis a fun x => { x with m := x.m.reenter s.bdt dwell }

/-- The legs of an axis are driven: each leaves Hi-Z, and an axis whose legs had gone to Hi-Z stands in Target position mode
with POS_UNCERTAIN set. -/
def State.energize (s : State) (a : Nat) : State :=
  let s := (axisLegs a).foldl (fun t l => t.updLeg (axisTile a) l Leg.leaveHiz) s
  s.updAxis a fun x =>
    { x with
      driven := true
      hizzed := false
      powerDue := false
      m := { x.m with
        posUnc := x.m.posUnc || x.hizzed
        mode := if x.hizzed ∧ x.m.follow.isNone ∧ x.m.play.isNone then .target else x.m.mode } }

/-- A leg of an axis is still precharging. -/
def State.precharging (s : State) (a : Nat) : Bool := (axisLegs a).any fun l => (s.leg (axisTile a) l).precharge

end Sys2Proof.Machine
end

