-- ==== Sys2Proof/Machine/Current.lean ====
section
/-! DEFINITION. Microstep tables and the current generator (R195 to R210, as far as it delivers set-points). -/

namespace Sys2Proof.Machine

/-- The entries of every table slot after reset (R199): round(255 sin(pi k / 512)) for k = 0 to 255. -/
def sineTable : List Nat :=
  [0, 2, 3, 5, 6, 8, 9, 11, 13, 14, 16, 17, 19, 20, 22, 23] ++
  [25, 27, 28, 30, 31, 33, 34, 36, 37, 39, 41, 42, 44, 45, 47, 48] ++
  [50, 51, 53, 54, 56, 57, 59, 60, 62, 63, 65, 67, 68, 70, 71, 73] ++
  [74, 76, 77, 79, 80, 81, 83, 84, 86, 87, 89, 90, 92, 93, 95, 96] ++
  [98, 99, 100, 102, 103, 105, 106, 108, 109, 110, 112, 113, 115, 116, 117, 119] ++
  [120, 122, 123, 124, 126, 127, 128, 130, 131, 132, 134, 135, 136, 138, 139, 140] ++
  [142, 143, 144, 146, 147, 148, 149, 151, 152, 153, 154, 156, 157, 158, 159, 161] ++
  [162, 163, 164, 165, 167, 168, 169, 170, 171, 172, 174, 175, 176, 177, 178, 179] ++
  [180, 181, 183, 184, 185, 186, 187, 188, 189, 190, 191, 192, 193, 194, 195, 196] ++
  [197, 198, 199, 200, 201, 202, 203, 204, 205, 206, 207, 208, 208, 209, 210, 211] ++
  [212, 213, 214, 215, 215, 216, 217, 218, 219, 220, 220, 221, 222, 223, 223, 224] ++
  [225, 226, 226, 227, 228, 228, 229, 230, 231, 231, 232, 232, 233, 234, 234, 235] ++
  [236, 236, 237, 237, 238, 238, 239, 240, 240, 241, 241, 242, 242, 243, 243, 244] ++
  [244, 244, 245, 245, 246, 246, 247, 247, 247, 248, 248, 248, 249, 249, 249, 250] ++
  [250, 250, 251, 251, 251, 252, 252, 252, 252, 252, 253, 253, 253, 253, 253, 254] ++
  [254, 254, 254, 254, 254, 254, 255, 255, 255, 255, 255, 255, 255, 255, 255, 255]

/-- A table word after reset (R198, R199). -/
def sineWord (w : Nat) : Word :=
  wd (sineTable.getD (4 * w) 0 + sineTable.getD (4 * w + 1) 0 * 2 ^ 8 + sineTable.getD (4 * w + 2) 0 * 2 ^ 16 +
    sineTable.getD (4 * w + 3) 0 * 2 ^ 24)

/-- Word `w` of table slot `k` (R198). -/
def State.tblWord (s : State) (k w : Nat) : Word := Bank.get (sineWord w) s.tbl (64 * k + w)

/-- Entry `i` of table slot `k`. -/
def State.tblEntry (s : State) (k i : Nat) : Nat := fld (s.tblWord k (i / 4)) (8 * (i % 4)) 8

/-- The electrical angle of an axis at a position (R195). -/
def thetaOf (comm : Word) (pos : Int) : Nat := ((pos + fld comm 0 10) % 1024).toNat

/-- Magnitude of a coil angle (R196). -/
def State.magnitude (s : State) (slot phi : Nat) : Nat :=
  let j := phi % 256
  if phi / 256 % 2 = 0 then s.tblEntry slot j else if j = 0 then 255 else s.tblEntry slot (256 - j)

/-- I12 of a coil (R202). -/
def i12Of (m run : Nat) : Nat := (m * run * 16 + 127) / 255

/-- The set-point of a coil angle: I12, and the sign, which a zero I12 does not have (R196). -/
def State.setPoint (s : State) (slot run phi : Nat) (inv : Bool) : Nat × Bool :=
  let i := i12Of (s.magnitude slot phi) run
  (i, decide (i ≠ 0) && xor (decide (2 ≤ phi / 256)) inv)

/-- The DAC code that a turn-on takes up (R206). -/
def ditherCode (i12 p : Nat) : Nat := i12 / 16 + (if rev4 p < i12 % 16 then 1 else 0)

/-- The threshold of a DAC code in microvolts (R203). -/
def thresholdUv (cur : Word) (code : Nat) (gain : Int) : Int :=
  (50000 * 2 ^ fld cur 16 2 : Nat) * code * (2 ^ 20 + gain) / (255 * 2 ^ 20)

/-- The coils of an axis. -/
def Axis.coil (x : Axis) (c : Coil) : CoilSt :=
  match c with
  | .A => x.coilA
  | .B => x.coilB

def Axis.setCoil (x : Axis) (c : Coil) (v : CoilSt) : Axis :=
  match c with
  | .A => { x with coilA := v }
  | .B => { x with coilB := v }

/-- The angle of a coil (R195). -/
def coilAngle (theta : Nat) (c : Coil) : Nat :=
  match c with
  | .A => theta
  | .B => (theta + 768) % 1024

/-- The first and second leg of a coil within the tile (R19, R197). -/
def coilLegs (a : Nat) (c : Coil) : Nat × Nat :=
  match c with
  | .A => (4 * (a % 4), 4 * (a % 4) + 1)
  | .B => (4 * (a % 4) + 2, 4 * (a % 4) + 3)

/-- The number of a coil within its tile (R328). -/
def coilK (a : Nat) (c : Coil) : Nat :=
  match c with
  | .A => 2 * (a % 4)
  | .B => 2 * (a % 4) + 1

/-- The live values are loaded from AX_CUR, and the dither counters start at 0 (R201, R206). -/
def Axis.loadLive (x : Axis) : Axis :=
  { x with liveRun := fld x.regs.cur 0 8, liveTbl := fld x.regs.cur 12 2,
           coilA := { x.coilA with dither := 0 }, coilB := { x.coilB with dither := 0 } }

/-- The set-points and the angle at the last period boundary, as the generator delivers them (R195, R202, R207). -/
def State.deliver (s : State) (a : Nat) : State :=
  let x := s.axis a
  let th := thetaOf x.regs.comm x.m.pos
  let pa := s.setPoint x.liveTbl x.liveRun (coilAngle th .A) false
  let pb := s.setPoint x.liveTbl x.liveRun (coilAngle th .B) (bit x.regs.comm 16)
  s.setAxis a { x with theta := th, coilA := { x.coilA with i12 := pa.1, neg := pa.2 },
                       coilB := { x.coilB with i12 := pb.1, neg := pb.2 } }

end Sys2Proof.Machine
end

