-- ==== Sys2Proof/Machine/Stall.lean ====
section
/-! DEFINITION. Captures, baselines, the load-angle estimate, stall qualification and the displacement watch (R239 to R257). -/

namespace Sys2Proof.Machine

/-! ### Baselines (R242 to R244, R249) -/

/-- An entry of the baseline table (R242). -/
def Axis.baseEntry (x : Axis) (i : Nat) : Word := Bank.get (if i < 260 then 0xFFFF else 0) x.base i

/-- The header says that the table may be used. -/
def Axis.baseValid (x : Axis) : Bool := bit (x.baseEntry 261) 31

/-- The baseline is valid and stale (R243). -/
def Axis.baseStale (x : Axis) : Bool :=
  x.baseValid &&
  (decide (fld (x.baseEntry 261) 0 8 ≠ x.liveRun) || decide (fld (x.baseEntry 261) 16 2 ≠ fld x.regs.cur 16 2) ||
   decide (x.baseEntry 262 ≠ x.regs.chop) || decide (x.baseEntry 263 ≠ x.regs.decay))

/-- The baseline may be used. -/
def Axis.baseUsable (x : Axis) : Bool := x.baseValid && !x.baseStale

/-- B0 of a coil quadrant. -/
def Axis.base0 (x : Axis) (q : Nat) : Nat := fld (x.baseEntry (256 + q)) 0 16

/-- The baseline of a quadrant at a speed in 2^-32 microstep per period, in 2^-16 tick (R249); none where a bin is not learned. -/
def Axis.interp (x : Axis) (q v : Nat) : Option Int :=
  let w := vw (x.baseEntry 260)
  let b (i : Nat) : Nat := fld (x.baseEntry (4 * i + q)) 0 16
  if 2 * v ≤ w then (if b 0 = 0xFFFF then none else some (b 0 * 2 ^ 16))
  else if 127 * w ≤ 2 * v then (if b 63 = 0xFFFF then none else some (b 63 * 2 ^ 16))
  else
    let i := (2 * v - w) / (2 * w)
    if b i = 0xFFFF ∨ b (i + 1) = 0xFFFF then none
    else some (b i * 2 ^ 16 + ((b (i + 1) : Int) - b i) * (((2 * v - (2 * i + 1) * w) * 2 ^ 16 / (2 * w) : Nat) : Int))

/-- Every coil quadrant is usable at a speed (R266). -/
def Axis.allUsable (x : Axis) (v : Nat) : Bool :=
  (List.range 4).all fun q => match x.interp q v with
    | none => false
    | some b => decide (fld x.regs.stallCfg 0 8 * 2 ^ 16 ≤ (b - x.base0 q * 2 ^ 16).natAbs)

/-! ### The estimate (R250) -/

/-- floor(65536 cos((2 k + 1) / 4 degrees)) for k = 0 to 254: a mean at or below entry k is at least k + 1/2 LSB of LA. -/
def cosTable : List Int :=
  [65535, 65530, 65520, 65505, 65485, 65460, 65430, 65395, 65355, 65310, 65261, 65206, 65146, 65081, 65012, 64937] ++
  [64857, 64773, 64683, 64589, 64490, 64385, 64276, 64162, 64043, 63920, 63791, 63657, 63519, 63376, 63228, 63075] ++
  [62917, 62755, 62588, 62416, 62239, 62058, 61871, 61680, 61485, 61285, 61080, 60870, 60656, 60437, 60213, 59985] ++
  [59753, 59516, 59274, 59028, 58777, 58522, 58262, 57998, 57730, 57457, 57179, 56898, 56612, 56322, 56027, 55728] ++
  [55425, 55118, 54806, 54491, 54171, 53847, 53519, 53187, 52851, 52510, 52166, 51818, 51466, 51110, 50750, 50386] ++
  [50019, 49647, 49272, 48893, 48510, 48124, 47734, 47340, 46943, 46542, 46138, 45730, 45318, 44904, 44485, 44064] ++
  [43639, 43210, 42779, 42344, 41906, 41464, 41020, 40572, 40122, 39668, 39211, 38752, 38289, 37823, 37355, 36883] ++
  [36409, 35932, 35453, 34970, 34485, 33998, 33508, 33015, 32520, 32022, 31522, 31019, 30514, 30007, 29497, 28985] ++
  [28471, 27955, 27437, 26916, 26394, 25869, 25343, 24815, 24284, 23752, 23218, 22683, 22145, 21606, 21065, 20523] ++
  [19979, 19434, 18887, 18338, 17789, 17238, 16685, 16131, 15576, 15020, 14463, 13905, 13345, 12785, 12224, 11661] ++
  [11098, 10534, 9969, 9403, 8837, 8270, 7702, 7134, 6565, 5996, 5426, 4856, 4286, 3715, 3144, 2572] ++
  [2001, 1429, 857, 285, -286, -858, -1430, -2002, -2573, -3145, -3716, -4287, -4857, -5427, -5997, -6566] ++
  [-7135, -7703, -8271, -8838, -9404, -9970, -10535, -11099, -11662, -12225, -12786, -13346, -13906, -14464, -15021, -15577] ++
  [-16132, -16686, -17239, -17790, -18339, -18888, -19435, -19980, -20524, -21066, -21607, -22146, -22684, -23219, -23753, -24285] ++
  [-24816, -25344, -25870, -26395, -26917, -27438, -27956, -28472, -28986, -29498, -30008, -30515, -31020, -31523, -32023, -32521] ++
  [-33016, -33509, -33999, -34486, -34971, -35454, -35933, -36410, -36884, -37356, -37824, -38290, -38753, -39212, -39669]

/-- LA of a mean rho in 2^-16, exact (R250): round(2 acos), at most 255. -/
def laExact (mean : Int) : Nat := (cosTable.filter fun c => decide (mean ≤ c)).length

/-- LA as the device's table evaluates it: within 1 LSB, and exact at the values R250 names (log entry 2). -/
def laOf (mean : Int) (n : Nat) : Nat :=
  let e := laExact mean
  if mean = 65536 ∨ mean = 0 ∨ mean ≤ -46341 then e
  else
    match (Config.acosError n).toNat % 3 with
    | 0 => e
    | 1 => e - 1
    | _ => min 255 (e + 1)

/-- The normalized on-time of a capture (R240). -/
def normTon (t v : Nat) : Nat := min 65535 (t * v / 2048)

/-- rho of a valid capture in 2^-16, where the quadrant is usable at the speed (R250). -/
def Axis.rho (x : Axis) (q tn v : Nat) : Option Int :=
  match x.interp q v with
  | none => none
  | some b =>
    let den := b - (x.base0 q : Int) * 2 ^ 16
    if den.natAbs < fld x.regs.stallCfg 0 8 * 2 ^ 16 ∨ den = 0 then none
    else some (max (-65536) (min 65536 (((tn : Int) - x.base0 q) * 2 ^ 32 / den)))

/-- A CHARACTERIZE is in effect. -/
def Axis.charRuns (x : Axis) : Bool := x.char.elim false Char.begun

/-- The stall counter is armed (R251). -/
def Axis.stallArmed (x : Axis) : Bool :=
  bit x.regs.stallCfg 31 && x.baseUsable && decide (x.m.v ≠ 0) && x.driven && !x.charRuns &&
  decide (fld x.regs.stallCfg 12 4 ≤ x.stall.ended)

/-- The stall counter is 0 while it is not armed (R252). -/
def Axis.unarm (x : Axis) : Axis := { x with stall := { x.stall with qcnt := if x.stallArmed then x.stall.qcnt else 0 } }

/-- A valid capture reaches the estimator (R250); no estimates are formed while CHARACTERIZE runs (R246). -/
def Axis.estimate (x : Axis) (q tn : Nat) : Axis :=
  if x.baseUsable && !x.charRuns then
    match x.rho q tn x.m.v.natAbs with
    | none => x
    | some r => { x with stall := { x.stall with acc := x.stall.acc + r, n := x.stall.n + 1 } }
  else x

/-- The displacement watch ends and its references are discarded; the last shifts stay readable (R255 to R257). -/
def Watch.stop (w : Watch) : Watch :=
  { on := false, settle := 0, a := { WatchCoil.reset with shift := w.a.shift }, b := { WatchCoil.reset with shift := w.b.shift } }

/-- A new start: the quadrants since the start count from 0, and the displacement watch ends (R251, R257). -/
def Axis.newStart (x : Axis) : Axis :=
  { x with stall := { x.stall with ended := 0, qPos := x.m.pos }, watch := x.watch.stop }

/-- A boundary of the stall unit (R250 to R252): at a quadrant end the estimate is formed and the counter counts; at standstill
the sums are cleared. Answers whether a stall is declared. -/
def State.stallBoundary (s : State) (a thr : Nat) : State × Bool :=
  let x := s.axis a
  let q := x.theta / 256
  let armed := x.stallArmed
  let st := if armed then x.stall else { x.stall with qcnt := 0 }
  if q = st.lastQ then
    let st := if x.m.v = 0 then { st with acc := 0, n := 0 } else st
    (s.setAxis a { x with stall := st }, false)
  else
    let form := decide (fld x.regs.stallCfg 8 4 ≤ st.n) && !st.skip && x.baseUsable && decide (st.n ≠ 0)
    let la := if form then laOf (roundDiv st.acc st.n) s.fresh else st.la
    let qcnt := if !armed then 0 else if !form then st.qcnt else if thr < la then st.qcnt + 1 else 0
    let first := if qcnt = 1 ∧ st.qcnt = 0 then st.qPos else st.firstPos
    let hit := decide (fld x.regs.stallCfg 24 4 + 1 ≤ qcnt)
    let st := { st with lastQ := q, acc := 0, n := 0, la := la, qcnt := if hit then 0 else qcnt, firstPos := first,
                        qPos := x.m.pos, ended := st.ended + 1, skip := false,
                        flags := st.flags ||| bw (armed && !form) 4 ||| bw hit 1 }
    let s := s.setAxis a { x with stall := st }
    (if form then s.spend else s, hit)

/-! ### The displacement watch (R255 to R257) -/

def Watch.coil (w : Watch) (c : Coil) : WatchCoil :=
  match c with
  | .A => w.a
  | .B => w.b

def Watch.setCoil (w : Watch) (c : Coil) (v : WatchCoil) : Watch :=
  match c with
  | .A => { w with a := v }
  | .B => { w with b := v }

/-- The references of a running watch are formed anew (R241, R257); the last shifts stay readable. -/
def Watch.fresh (w : Watch) : Watch :=
  { w with a := { WatchCoil.reset with shift := w.a.shift }, b := { WatchCoil.reset with shift := w.b.shift } }

/-- The watch may run (R255), but for the settle time. -/
def Axis.watchable (x : Axis) : Bool :=
  bit x.regs.dispCfg 31 && x.m.en && decide (x.m.mode = .target) && x.driven && x.m.still && !x.m.pendingAny &&
  x.m.stopping.isNone && x.home.isNone && x.char.isNone && x.bound.isNone

/-- The shift of a window (R256); with a reference of 0 the spec states no quotient, and the value is free (log entry 2). -/
def shiftOf (ref mean n : Nat) : Nat :=
  if ref = 0 then (Config.openDetail n).toNat % 256
  else min 255 (((mean : Int) - ref).natAbs * 256 / ref)

/-- A valid capture reaches the watch (R256, R257). -/
def State.watchCapture (s : State) (a : Nat) (c : Coil) (tn : Nat) : State :=
  let x := s.axis a
  if !x.watch.on then s
  else
    let w := x.watch.coil c
    let n := w.n + 1
    let sum := w.sum + tn
    if n < 16 then s.setAxis a { x with watch := x.watch.setCoil c { w with n := n, sum := sum } }
    else
      let mean := (roundDiv sum 16).toNat
      match w.ref with
      | none => s.setAxis a { x with watch := x.watch.setCoil c { w with ref := some mean, n := 0, sum := 0, past := 0 } }
      | some r =>
        let sh := shiftOf r mean s.fresh
        let s := if r = 0 then s.spend else s
        let past := if fld x.regs.dispCfg 16 8 < sh then w.past + 1 else 0
        let wt := x.watch.setCoil c { w with n := 0, sum := 0, past := past, shift := sh }
        if fld x.regs.dispCfg 12 4 ≤ past then
          let s := s.setAxis a { x with watch := wt.fresh, stall := { x.stall with flags := x.stall.flags ||| bw true 2 },
                                        m := { x.m with posUnc := true } }
          s.fault (0x200 + a) (wd (a + max wt.a.shift wt.b.shift * 2 ^ 8)) (.axis a)
        else s.setAxis a { x with watch := wt }

end Sys2Proof.Machine
end

