-- ==== Sys2Proof/Machine/Chopper.lean ====
section
/-! DEFINITION. The chopper cycle of a coil (R205 to R219), its captures (R239 to R241), the shadow check of the spare comparator
(R328 to R334), and the holds of the debug port (R228 to R231). -/

namespace Sys2Proof.Machine

/-! ### Commands of a coil's legs (R208, R211) -/

/-- Drive leg and return leg of a coil, within the tile (R208). -/
def CoilSt.legs (k : CoilSt) (a : Nat) (c : Coil) : Nat × Nat :=
  if k.mask then ((coilLegs a c).2, (coilLegs a c).1) else coilLegs a c

/-- One switch of a leg is to be on, the other off. -/
def Leg.drive (x : Leg) (w : Switch) : Leg :=
  let x := if (x.sw (otherSw w)).cmd then x.cmdOff (otherSw w) else x
  if (x.sw w).cmd then x else x.cmdOn w

/-- The larger dead time of a coil's legs, in ticks (R280). -/
def State.coilTdt (s : State) (a : Nat) (c : Coil) : Nat :=
  max (s.leg (axisTile a) (coilLegs a c).1).tDt (s.leg (axisTile a) (coilLegs a c).2).tDt

/-- A change of one coil. -/
def State.updCoil (s : State) (a : Nat) (c : Coil) (f : CoilSt → CoilSt) : State :=
  s.updAxis a fun x => x.setCoil c (f (x.coil c))

/-- Both legs of a coil towards slow decay. -/
def State.towardSlow (s : State) (a : Nat) (c : Coil) : State :=
  let p := coilLegs a c
  (s.updLeg (axisTile a) p.1 fun x => x.drive .low).updLeg (axisTile a) p.2 fun x => x.drive .low

/-- Both legs of a coil towards fast decay under its mask. -/
def State.towardFast (s : State) (a : Nat) (c : Coil) : State :=
  let p := ((s.axis a).coil c).legs a c
  (s.updLeg (axisTile a) p.1 fun x => x.drive .low).updLeg (axisTile a) p.2 fun x => x.drive .high

/-- Both legs of a coil towards the on state: the drive leg's high switch follows when the return leg's low switch is on and its
own interlock lets it (phase A of R212). -/
def State.towardOn (s : State) (a : Nat) (c : Coil) : State :=
  let p := ((s.axis a).coil c).legs a c
  (s.updLeg (axisTile a) p.1 fun x => if x.lo.cmd then x.cmdOff .low else x).updLeg (axisTile a) p.2 fun x => x.drive .low

/-- The transitions of R212 end when the switches they wait for are on. A transition to fast decay that a freeze finds in progress completes,
and the coil then goes to slow decay (R229; DESIGN CHOICE, log entry 77). -/
def State.coilStep (s : State) (a : Nat) (c : Coil) : State :=
  let k := (s.axis a).coil c
  let p := k.legs a c
  let d := s.leg (axisTile a) p.1
  let r := s.leg (axisTile a) p.2
  match k.phase with
  | .turnOn =>
    if s.spr.freeze || !r.lo.on then s
    else
      let s := s.updLeg (axisTile a) p.1 fun x => if x.hi.cmd then x else x.cmdOn .high
      if (s.leg (axisTile a) p.1).hi.on then s.updCoil a c fun k => { k with phase := .blanking, onDt := s.dt } else s
  | .toDecay =>
    if k.fastTicks = 0 then (if d.lo.on && r.lo.on then s.updCoil a c fun k => { k with phase := .slow } else s)
    else if d.lo.on && r.hi.on then s.updCoil a c fun k => { k with phase := .fast }
    else s
  | .fast =>
    if s.spr.freeze then (s.towardSlow a c).updCoil a c fun k => { k with phase := .toSlow, fastTicks := 0 } else s
  | .toSlow => if d.lo.on && r.lo.on then s.updCoil a c fun k => { k with phase := .slow } else s
  | .idle => s
  | .blanking => s
  | .onCompare => s
  | .slow => s

/-- The transitions of a coil, as far as they go now. -/
def State.coilSettle (s : State) (a : Nat) (c : Coil) : State := ((s.coilStep a c).coilStep a c).coilStep a c

/-- The coil of the axis slot that holds a leg. -/
def legCoil (l : Nat) : Coil := if l % 4 < 2 then .A else .B

/-- A leg's switches have changed: the coil of a leg in axis mode goes on. -/
def State.legSettle (s : State) (t l : Nat) : State :=
  if (s.leg t l).mode = 1 ∧ (s.axis (legAxis t l)).driven then s.coilSettle (legAxis t l) (legCoil l) else s

/-! ### A cycle (R206 to R218) -/

/-- The check starts afresh on a coil. -/
def Tile.checkOn (x : Tile) (k : Nat) : Tile :=
  { x with shadowK := k, cycles := 0, mism := 0, confirming := false, judgedC := 0, judgedS := 0, badC := 0, badS := 0 }

/-- The turn-on of a coil to which CHOP_NO_TRIP has called the check (R329). -/
def Tile.checkCalled (x : Tile) (k : Nat) : Tile := if x.shadowNext = some k then { x.checkOn k with shadowNext := none } else x

/-- Phase A: the dithered code is taken, and the mask is loaded from the sign delivered; a code of 0 leaves the coil in slow decay
for one further off-time (R206 to R209). -/
def State.turnOn (s : State) (a : Nat) (c : Coil) : State :=
  let x := s.axis a
  let k := x.coil c
  let code := ditherCode k.i12 k.dither
  let k := { k with dither := (k.dither + 1) % 16, code := code, gain := s.gain, allFast := false, fastTicks := 0, spansFreeze := false }
  if code = 0 then
    ((s.setAxis a (x.setCoil c { k with phase := .toDecay })).towardSlow a c).coilSettle a c
  else
    let k := { k with mask := k.neg, quad := coilAngle x.theta c / 256, phase := .turnOn }
    let s := s.updTile (axisTile a) fun y => y.checkCalled (coilK a c)
    ((s.setAxis a (x.setCoil c k)).towardOn a c).coilSettle a c

/-- Both coils of an axis begin with phase A (R219). -/
def State.startCoils (s : State) (a : Nat) : State := (s.turnOn a .A).turnOn a .B

/-- Ticks of the off-time (R215). -/
def Axis.tOff (x : Axis) : Nat := (fld x.regs.chop 0 8 + 2) * 100

/-- The fast portion of an off-time of `toff` ticks, merged where a portion is shorter than t_min (R216, R217). Where both portions are, R217
asks for both, and the whole off-time runs in slow decay (DESIGN CHOICE, log entry 76). -/
def fastPortion (toff fq tmin : Nat) : Nat :=
  let f := fq * toff / 16
  if 0 < f ∧ f < tmin then 0
  else if f < toff ∧ toff - f < tmin then toff
  else f

/-- A valid capture joins the sums of a CHARACTERIZE that collects (R246). -/
def Axis.charCapture (x : Axis) (c : Coil) (q tn : Nat) : Axis :=
  match x.char with
  | none => x
  | some h =>
    if h.part ≠ 2 then x
    else
      let n := match c with
        | .A => h.cntA
        | .B => h.cntB
      if h.step < 4 ∧ 64 ≤ n then x
      else
        let h := { h with sums := Bank.set h.sums q (Bank.get 0 h.sums q + tn), cnts := Bank.set h.cnts q (Bank.get 0 h.cnts q + 1) }
        { x with char := some (match c with
            | .A => { h with cntA := h.cntA + 1 }
            | .B => { h with cntB := h.cntB + 1 }) }

/-- A capture reaches the stall unit (R239 to R241). -/
def State.capture (s : State) (a : Nat) (c : Coil) (ticks : Nat) (valid : Bool) : State :=
  let x := s.axis a
  let k := x.coil c
  if k.spansFreeze then s
  else if valid then
    let tn := normTon ticks (s.tile (axisTile a)).vmBound
    ((s.setAxis a ((x.estimate k.quad tn).charCapture c k.quad tn)).watchCapture a c tn)
  else s.setAxis a { x with stall := { x.stall with invalid := x.stall.invalid + 1 } }

/-- The on-phase of a coil ends (R210, R212 to R219): the capture is delivered with its flags and the off-time starts. In a
freeze the coil goes to slow decay and stays there (R229). -/
def State.endOn (s : State) (a : Nat) (c : Coil) (comm blank sat : Bool) (ticks : Nat) : State :=
  let x := s.axis a
  let k := x.coil c
  let toff := x.tOff
  let auto := blank && bit x.regs.chop 20
  let fast := if s.spr.freeze then 0
    else if comm || auto then toff
    else fastPortion toff (fld x.regs.decay (8 * k.quad) 5) (minTicks (s.coilTdt a c))
  let run := if sat then k.satRun + 1 else 0
  let k := { k with phase := .toDecay, allFast := decide (fast = toff), fastTicks := fast, ton := min 65535 ticks, satRun := run }
  let s := s.setAxis a (x.setCoil c k)
  let s := if fast = 0 then s.towardSlow a c else s.towardFast a c
  (s.coilSettle a c).capture a c (min 65535 ticks) (!(comm || blank || sat))

/-- The rest of an off-time runs in fast decay under the old mask (R210). -/
def State.forceFast (s : State) (a : Nat) (c : Coil) : State :=
  if s.spr.freeze then s
  else
    let toff := (s.axis a).tOff
    let k := (s.axis a).coil c
    if k.phase = .fast then s.updCoil a c fun k => { k with allFast := true, fastTicks := toff }
    else ((s.updCoil a c fun k => { k with phase := .toDecay, allFast := true, fastTicks := toff }).towardFast a c).coilSettle a c

/-- A commutation event of a coil (R210). -/
def State.commutate (s : State) (a : Nat) (c : Coil) : State :=
  let k := (s.axis a).coil c
  if k.i12 = 0 ∨ k.neg = k.mask then s
  else
    match k.phase with
    | .idle => s
    | .blanking => s.endOn a c true false false ((s.dt - k.onDt) * 2)
    | .onCompare => s.endOn a c true false false ((s.dt - k.onDt) * 2)
    | .turnOn => (s.updLeg (axisTile a) (k.legs a c).1 fun x => if x.hi.cmd then x.cmdOff .high else x).forceFast a c
    | .toDecay => s.forceFast a c
    | .fast => s.forceFast a c
    | .toSlow => s.forceFast a c
    | .slow => s.forceFast a c

/-! ### The shadow check (R328 to R334) -/

/-- A coil of a tile may be under check: its axis is enabled and its comparator has not failed. -/
def State.checkable (s : State) (t k : Nat) : Bool :=
  (s.axis (4 * t + k / 2)).m.en && !(s.tile t).failed.getLsbD k

/-- The next checkable coil in ascending order after `k`. -/
def State.nextCheck (s : State) (t k : Nat) : Option Nat :=
  ((List.range 8).map fun i => (k + 1 + i) % 8).find? fun j => s.checkable t j

/-- The coil under check. -/
def State.checkCoil (s : State) (t : Nat) : Option Nat :=
  let x := s.tile t
  if x.spareOk && !x.steered then (if s.checkable t x.shadowK then some x.shadowK else s.nextCheck t x.shadowK) else none

/-- A shadow check or a confirmation runs (TILE_CMP_STAT.CHECKING). -/
def State.checking (s : State) (t : Nat) : Bool := (s.checkCoil t).isSome

/-- The check moves to the next coil. -/
def State.checkMove (s : State) (t : Nat) : State :=
  match s.nextCheck t (s.tile t).shadowK with
  | some k => s.updTile t fun x => x.checkOn k
  | none => s.updTile t fun x => x.checkOn x.shadowK

/-- The wear counter of a comparator (R495). -/
def cmpWear (t k : Nat) : Nat := 0x280 + 9 * t + k

/-- The detail word of a comparator source (R360). -/
def cmpDetail (t k : Nat) : Word := wd (t + k * 16)

def srcCmpFail : Nat := 0x390
def srcCmpSpareFail : Nat := 0x3A0
def srcCmpMismatch : Nat := 0x3B0

/-- A conversion of a supply, which takes a free slot of its own (R227). -/
def AdcReq.ofSupply (q : AdcReq) : Bool := decide (q = .vm) || decide (q = .vgate)

/-- The conversions of the supplies have their slots at or after 2 µs past the boundary (R227). -/
def State.supplyTime (s : State) : Bool := decide (s.bdt + 400 ≤ s.dt)

/-- Requests that wait in the queue of four: the one at the head is being converted (R227). -/
def adcWaiting (q : List AdcReq) : Nat :=
  (q.filter fun r => !r.ofSupply).length - (match q with
    | [] => 0
    | r :: _ => if r.ofSupply then 0 else 1)

/-- The DT count of a request, and its place among the requests of one 400 MHz tick: legs in ascending number, then the confirmation (R227, R331).
Requests of one DT count are taken as of one tick (DESIGN CHOICE, log entry 29). -/
def AdcReq.rank (q : AdcReq) : Option (Nat × Nat) :=
  match q with
  | .leg l _ _ dt => some (dt, l)
  | .confirm _ _ _ dt => some (dt, 16)
  | .vm => none
  | .vgate => none

/-- A request goes before another of its tick. -/
def AdcReq.before (r x : AdcReq) : Bool :=
  match r.rank, x.rank with
  | some a, some b => decide (a.1 = b.1) && decide (a.2 < b.2)
  | _, _ => false

/-- A request joins the queue (R227). -/
def AdcReq.join (r : AdcReq) : List AdcReq → List AdcReq
  | [] => [r]
  | x :: l => if r.before x then r :: x :: l else x :: r.join l

/-- The queue with a request in it. Until their time has come the supplies wait behind every request. -/
def State.adcJoined (s : State) (t : Nat) (r : AdcReq) : List AdcReq :=
  let q := (s.tile t).adcQ
  if s.supplyTime then r.join q else r.join (q.filter fun e => !e.ofSupply) ++ q.filter AdcReq.ofSupply

/-- A request is dropped: that of a leg is counted, that of a confirmation is not (R227, R331). -/
def State.adcDrop (s : State) (t : Nat) (r : Option AdcReq) : State :=
  match r with
  | some (.leg l _ _ _) =>
    (s.updTile t fun y => { y with drop := satAdd 65535 y.drop 1 }).updLeg t l fun y => { y with adcDrop := true }
  | _ => s

/-- A conversion is requested of a tile's ADC; four wait at most, and the last one beyond them is dropped (R227). -/
def State.adcRequest (s : State) (t : Nat) (r : AdcReq) : State :=
  let q := s.adcJoined t r
  if adcWaiting q ≤ 4 then s.updTile t fun x => { x with adcQ := q }
  else (s.updTile t fun x => { x with adcQ := (dropLast? q fun e => !e.ofSupply).getD q }).adcDrop t (q.filter fun e => !e.ofSupply).getLast?

/-- The spare takes over a coil (R205, R241, R332). -/
def State.steer (s : State) (t k : Nat) : State :=
  let s := s.updTile t fun x => { x with steered := true, steerK := k, takeover := none, cmpPend := false, confirming := false }
  (s.updAxis (4 * t + k / 2) fun x => { x with stall := { x.stall with skip := true }, watch := x.watch.fresh }).spareIn

/-- A coil comparator has failed (R332, R333): the spare takes over at the coil's next turn-on, or the axis goes to Hi-Z and is
held until its record is cleared. -/
def State.cmpFailed (s : State) (t k : Nat) : State :=
  let x := s.tile t
  let a := 4 * t + k / 2
  let free := x.spareOk && !x.steered && x.takeover.isNone && !x.cmpPend
  let s := s.updTile t fun x => { x with failed := x.failed ||| BitVec.ofNat 8 (2 ^ k) }
  let c := s.classOf (srcCmpFail + t)
  let r := s.record (srcCmpFail + t) c (cmpDetail t k) false
  let s := (r.1.react c (.axis a) r.2 false none).settle c
  if free && s.autoSpares then s.updTile t fun x => { x with takeover := some k }
  else
    let s := if free then s.updTile t fun x => { x with cmpPend := true, steerK := k } else s
    (s.isoAxis a r.2).settle c

/-- The spare comparator has failed and is retired (R334): no approval brings it in any more, and a coil that it was to take over at its next turn-on
goes to Hi-Z (R333). -/
def State.spareFailed (s : State) (t k : Nat) : State :=
  let was := (s.tile t).takeover
  let s := s.updTile t fun x => { x with spareOk := false, confirming := false, cmpPend := false, takeover := none }
  let c := s.classOf (srcCmpSpareFail + t)
  let r := s.record (srcCmpSpareFail + t) c (cmpDetail t k) false
  let s := (r.1.react c (.tile t) r.2 false none).settle c
  match was with
  | some j => (s.isoAxis (4 * t + j / 2) r.2).settle c
  | none => s

/-- A trip of the confirmation waits to be judged. -/
def Tile.toJudge (x : Tile) : Bool :=
  x.adcQ.any fun r => match r with
    | .confirm _ _ _ _ => true
    | .leg _ _ _ _ => false
    | .vm => false
    | .vgate => false

/-- The decision of R331, once the trips of its cycles are judged. -/
def State.confirmDecide (s : State) (t : Nat) : State :=
  let x := s.tile t
  let k := x.shadowK
  let enough := decide (32 ≤ x.judgedC) && decide (32 ≤ x.judgedS)
  if !x.confirming || x.toJudge || !((decide (64 ≤ x.cycles) && enough) || decide (256 ≤ x.cycles)) then s
  else
    let badC := enough && decide (16 ≤ x.badC)
    let badS := enough && decide (16 ≤ x.badS)
    let s := s.updTile t fun x => { x with confirming := false, cycles := 0, mism := 0 }
    if badC && badS then (s.spareFailed t k).cmpFailed t k
    else if badC then s.cmpFailed t k
    else if badS then s.spareFailed t k
    else (s.fault (srcCmpMismatch + t) (cmpDetail t k) (.axis (4 * t + k / 2))).checkMove t

/-- While a confirmation runs, each trip asks for a conversion in the order of the trips, which is dropped without a count when the queue is full
(R331). -/
def State.askJudge (s : State) (t k : Nat) (uv : Int) (first coilTrip spareTrip : Bool) : State :=
  let ask (u : State) (spare : Bool) (on : Bool) : State := if on then u.adcRequest t (.confirm k spare uv s.dt) else u
  if first then ask (ask s true spareTrip) false coilTrip else ask (ask s false coilTrip) true spareTrip

/-- A compared cycle of a coil (R329 to R331): it counts where the coil is under check. `first` says that the spare tripped before the coil
comparator. -/
def State.compared (s : State) (a : Nat) (c : Coil) (mismatch first coilTrip spareTrip : Bool) : State :=
  let t := axisTile a
  let k := coilK a c
  if s.checkCoil t ≠ some k then s
  else
    let s := if (s.tile t).shadowK = k then s else s.updTile t fun x => x.checkOn k
    let uv := thresholdUv (s.axis a).regs.cur ((s.axis a).coil c).code ((s.axis a).coil c).gain
    let conf := (s.tile t).confirming
    let s := if conf then s.askJudge t k uv first coilTrip spareTrip else s
    let s := s.updTile t fun x =>
      { x with cycles := x.cycles + 1, mism := x.mism + b2n mismatch, misCnt := satAdd 65535 x.misCnt (b2n mismatch) }
    let s := if mismatch then s.wear (cmpWear t k) else s
    if conf then s.confirmDecide t
    else if (s.tile t).cycles < 64 then s
    else if 4 ≤ (s.tile t).mism then s.updTile t fun x => { x.checkOn k with confirming := true }
    else s.checkMove t

/-- The comparison at an on-phase that the coil comparator ended. -/
def State.comparedTrip (s : State) (a : Nat) (c : Coil) (sp : SpareTrip) : State :=
  match sp with
  | .agree => s.compared a c false false true true
  | .ahead => s.compared a c false true true true
  | .early => s.compared a c true true true true
  | .none => s.compared a c true false true false

/-- The source CHOP_NO_TRIP at the sixteenth SAT cycle in a row (R214); the shadow check is called to the coil (R329). -/
def State.noTrip (s : State) (a : Nat) (c : Coil) : State :=
  if ((s.axis a).coil c).satRun ≠ 16 then s
  else
    let t := axisTile a
    let s := s.fault (0x280 + a) (wd (a + (coilK a c % 2) * 2 ^ 8)) (.axis a)
    if (s.checkCoil t).isSome then s.updTile t fun x => { x with shadowNext := some (coilK a c) } else s

/-! ### The commands of a chopper cycle -/

/-- A coil that a driven axis has in a phase. -/
def State.inPhase (s : State) (a : Nat) (c : Coil) (p : ChopPhase) : Bool :=
  (s.axis a).driven && decide (((s.axis a).coil c).phase = p)

/-- COIL_COMPARATOR_TRIP (R212): in phase C the on-phase ends. -/
def State.comparatorTrip (s : State) (a : Nat) (c : Coil) (ticks : Nat) (sp : SpareTrip) : State :=
  if s.inPhase a c .onCompare then (s.endOn a c false false false ticks).comparedTrip a c sp else s

def execCoilComparatorTrip (a : Nat) (c : Coil) (ticks : Nat) (sp : SpareTrip) (s : State) : Answer :=
  s.command fun s => s.comparatorTrip a c ticks sp

/-- BLANKING_END (R213): the comparator is armed, or trips at once with BLANK_TRIP. A coil that a freeze finds in its blanking, whose timer
stands, neither arms nor trips before the release (R212, R228, R229; DESIGN CHOICE, log entry 77). -/
def State.blankEnd (s : State) (a : Nat) (c : Coil) (above : Bool) (sp : SpareTrip) : State :=
  if s.inPhase a c .blanking && !s.spr.freeze then
    let s := s.updCoil a c fun k => { k with phase := .onCompare }
    if above then (s.endOn a c false true false (80 + 48 * fld (s.axis a).regs.chop 24 4)).comparedTrip a c sp else s
  else s

def execBlankingEnd (a : Nat) (c : Coil) (above : Bool) (sp : SpareTrip) (s : State) : Answer :=
  s.command fun s => s.blankEnd a c above sp

/-- ON_TIME_SATURATION (R214): the capture reaches 0xFFFF and the on-phase ends with SAT. -/
def State.saturate (s : State) (a : Nat) (c : Coil) (spareTripped : Bool) : State :=
  if s.inPhase a c .onCompare && !s.spr.freeze then
    ((s.endOn a c false false true 65535).compared a c spareTripped false false spareTripped).noTrip a c
  else s

def execOnTimeSaturation (a : Nat) (c : Coil) (spareTripped : Bool) (s : State) : Answer :=
  s.command fun s => s.saturate a c spareTripped

/-- FAST_PORTION_END (R212, R216): the coil goes to slow decay, unless the whole off-time is fast; also where the transition to fast decay
still runs, since the portion counts from its start. -/
def State.fastEnd (s : State) (a : Nat) (c : Coil) : State :=
  let k := (s.axis a).coil c
  if (s.inPhase a c .fast || (s.inPhase a c .toDecay && decide (0 < k.fastTicks))) && !k.allFast && !s.spr.freeze then
    ((s.towardSlow a c).updCoil a c fun k => { k with phase := .toSlow, fastTicks := 0 }).coilSettle a c
  else s

def execFastPortionEnd (a : Nat) (c : Coil) (s : State) : Answer := s.command fun s => s.fastEnd a c

/-- OFF_TIME_END (R215): the next turn-on transition starts. -/
def State.offEnd (s : State) (a : Nat) (c : Coil) : State :=
  if (s.inPhase a c .toDecay || s.inPhase a c .fast || s.inPhase a c .toSlow || s.inPhase a c .slow) && !s.spr.freeze then s.turnOn a c
  else s

def execOffTimeEnd (a : Nat) (c : Coil) (s : State) : Answer := s.command fun s => s.offEnd a c

/-- SPARE_TAKEOVER (R332): at the coil's next turn-on the spare is steered to it. -/
def State.takeOver (s : State) (t : Nat) : State :=
  match (s.tile t).takeover with
  | some k => if (s.tile t).spareOk then s.steer t k else s
  | none => s

def execSpareTakeover (t : Nat) (s : State) : Answer := s.command fun s => s.takeOver t

/-- SHADOW_CHECK_TIMEOUT (R329): after 2 ms on a coil the check moves on. -/
def State.checkTimeout (s : State) (t : Nat) : State :=
  if s.checking t && !(s.tile t).confirming && decide ((s.tile t).cycles < 64) then s.checkMove t else s

def execShadowCheckTimeout (t : Nat) (s : State) : Answer := s.command fun s => s.checkTimeout t

/-! ### Holds of the debug port (R46, R228 to R231) -/

/-- Planning is paused (R46): while a core is resynchronized, while an unresolved vote stands, while the port holds the cores, or
after planning is lost (R482). -/
def State.paused (s : State) : Bool :=
  s.spr.resync.isSome || s.spr.unres.isSome || s.spr.coreHold || s.spr.freeze || s.spr.lost

/-- The cores plan now: no pause holds, and none has come since the present tick began (R46). -/
def State.planning (s : State) : Bool :=
  !s.paused && (s.host.planned || decide (s.dt % 50000 = s.ref.phase % 50000))

/-- A planning tick begins at this boundary, and the cores plan: what a reaction has left to them is carried out (R508). -/
def State.aftermath (s : State) : Bool := !s.paused && decide (s.dt % 50000 = s.ref.phase % 50000)

/-- The device has been taken to Safe, and the cores have not come to the planning tick at which they end what it ends (R508). -/
def State.unlearned (s : State) : Bool := decide (s.glb.mode = .safe) && !s.aftermath

/-- A pause begins: what the cores have not finished in this tick waits, and the queues are refilled in the first tick behind the pause (R46, R47). -/
def State.pausePlan (s : State) : State := { s with host := { s.host with planned := false, refill := true } }

def srcDbgFreeze : Nat := 0x017

/-- A coil at the beginning of a freeze (R229, R241). -/
def State.freezeCoil (s : State) (a : Nat) (c : Coil) : State :=
  let k := (s.axis a).coil c
  match k.phase with
  | .turnOn => s.updLeg (axisTile a) (k.legs a c).1 fun x => if x.hi.cmd then x.cmdOff .high else x
  | .blanking => s.updCoil a c fun k => { k with spansFreeze := true }
  | .onCompare => s.updCoil a c fun k => { k with spansFreeze := true }
  | .fast => s.coilSettle a c
  | .idle => s
  | .toDecay => s
  | .toSlow => s
  | .slow => s

/-- A start condition that a freeze or a Hold interrupted counts as evaluated for the first time when it is evaluated next (R87,
R90, R231). -/
def Motion.disarm (m : Motion) : Motion :=
  { m with look := m.look.map fun v => if v.met then v else { v with armed := false }
           later := m.later.map fun l => match l with
             | .follow f => .follow { f with armed := f.armed && f.met }
             | .play p => .play p }

/-- DBG_FREEZE (R228 to R230). -/
def State.freezeOn (s : State) : State :=
  if s.spr.freeze then s
  else
    let s := { s.pausePlan with spr := { s.spr with freeze := true, freezeDt := s.dt } }
    let s := s.listedAxes.foldl (fun t a => (t.freezeCoil a .A).freezeCoil a .B) s
    s.raiseDev srcDbgFreeze 1

def execDbgFreeze (s : State) : Answer := s.command State.freezeOn

/-- CORE_HOLD (R228): planning pauses. -/
def State.holdCores (s : State) : State := { s.pausePlan with spr := { s.spr with coreHold := true } }

def execCoreHold (s : State) : Answer := s.command State.holdCores

/-- CORE_HOLD_RELEASE (R47): planning goes on at the next tick. -/
def State.releaseCores (s : State) : State :=
  if s.spr.coreHold then { s with spr := { s.spr with coreHold := false } } else s

def execCoreHoldRelease (s : State) : Answer := s.command State.releaseCores

end Sys2Proof.Machine
end

