-- ==== Sys2Proof/Machine/Drive.lean ====
section
/-! DEFINITION. The events of legs and supplies (R276 to R308, R342): handshakes and dead times, trips, segments, gate and VM
supplies, EN, and the energizing of an axis. -/

namespace Sys2Proof.Machine

/-! ### Handshakes and dead time (R278 to R282) -/

/-- HANDSHAKE_CONFIRM: the dead time of the leg begins. -/
def State.handshake (s : State) (t l : Nat) (w : Switch) : State :=
  let g := (s.leg t l).sw w
  if s.hasLeg t l && !g.on && !g.hs then
    (s.updLeg t l fun x => x.setSw w { x.sw w with hs := true, dead := true }).legSettle t l
  else s

def execHandshakeConfirm (t l : Nat) (w : Switch) (s : State) : Answer := s.command fun s => s.handshake t l w

/-- DEAD_TIME_END: a switch that waits turns on. -/
def State.deadEnd (s : State) (t l : Nat) (w : Switch) : State :=
  let g := (s.leg t l).sw w
  if s.hasLeg t l && g.dead then
    (s.updLeg t l fun x => (x.setSw w { x.sw w with dead := false }).retry).legSettle t l
  else s

def execDeadTimeEnd (t l : Nat) (w : Switch) (s : State) : Answer := s.command fun s => s.deadEnd t l w

/-- GATE_HS_TIMEOUT (R281). -/
def State.hsTimeout (s : State) (t l : Nat) (w : Switch) : State :=
  let g := (s.leg t l).sw w
  if s.hasLeg t l && !g.on && !g.hs then s.tripAs t l (if w = .high then 7 else 8) srcHsTimeout (decide (w = .high)) else s

def execGateHsTimeout (t l : Nat) (w : Switch) (s : State) : Answer := s.command fun s => s.hsTimeout t l w

/-- CROSS_CMD (R282): both commands on in one tick is a defect of the command path; the interlock takes the leg to Hi-Z. -/
def State.crossed (s : State) (t l : Nat) : State :=
  if s.hasLeg t l then s.tripAs t l 6 srcCrossCmd false else s

def execCrossCmd (t l : Nat) (s : State) : Answer := s.command fun s => s.crossed t l

/-! ### Short circuits (R297 to R303) -/

/-- The VDS comparators watch a switch that is commanded on. -/
def State.watched (s : State) (t l : Nat) (w : Switch) : Bool :=
  s.hasLeg t l && decide ((s.leg t l).mode ≠ 0) && ((s.leg t l).sw w).on

/-- DESATURATION (R298, R301). -/
def State.desat (s : State) (t l : Nat) (w : Switch) : State :=
  if s.watched t l w then s.shortAs t l (if w = .high then 2 else 1) srcVdsShort (decide (w = .high)) [w] else s

def execDesaturation (t l : Nat) (w : Switch) (s : State) : Answer := s.command fun s => s.desat t l w

/-- GROSS_DESATURATION (R299, R301). -/
def State.grossDesat (s : State) (t l : Nat) (w : Switch) : State :=
  if s.watched t l w then s.shortAs t l (if w = .high then 3 else 4) srcVdsShort (decide (w = .high)) [w] else s

def execGrossDesaturation (t l : Nat) (w : Switch) (s : State) : Answer := s.command fun s => s.grossDesat t l w

/-- A leg is shunt-guarded, with its comparator on (R300). -/
def State.shuntOn (s : State) (t l : Nat) : Bool :=
  s.hasLeg t l && decide (l = 0 ∨ l = 8) && bit (s.leg t l).prot 20 && decide ((s.leg t l).mode ≠ 0)

/-- SHUNT_TRIP (R300, R301). -/
def State.shunted (s : State) (t l : Nat) : State :=
  if s.shuntOn t l then s.shortAs t l 5 srcShuntOc false [.low, .high] else s

def execShuntTrip (t l : Nat) (s : State) : Answer := s.command fun s => s.shunted t l

/-! ### Segments (R283 to R288) -/

/-- An edge of a switch may be measured: one of a driven leg, or the turn-off that has taken the leg to Hi-Z (R284). -/
def Leg.edgeCounts (x : Leg) (w : Switch) (on : Bool) : Bool := !x.hiz || (!on && !(x.sw w).cmd)

/-- GATE_EDGE_MEASURED, with the comparison of the segment whose turn it is. -/
def State.edge (s : State) (t l : Nat) (w : Switch) (on : Bool) (ticks seg : Nat) (dev : Bool) : State :=
  if s.hasLeg t l && (s.leg t l).edgeCounts w on && ((s.leg t l).sw w).inTurn seg then s.edgeMeasured t l w on ticks seg dev else s

def execGateEdgeMeasured (t l : Nat) (w : Switch) (on : Bool) (ticks seg : Nat) (dev : Bool) (s : State) : Answer :=
  s.command fun s => s.edge t l w on ticks seg dev

/-- A segment is commanded off: its switch is, or it is no active segment, or an edge uses fewer segments than are active. -/
def GateSw.segOff (g : GateSw) (seg : Nat) : Bool :=
  !g.on || !g.active.getLsbD seg || decide (g.nOn < ((List.range 16).filter fun i => g.active.getLsbD i).length)

/-- SEGMENT_CONDUCTS_OFF (R287). -/
def State.conducts (s : State) (t l : Nat) (w : Switch) (seg : Nat) : State :=
  if s.hasLeg t l && ((s.leg t l).sw w).segOff seg then s.retireSeg t l w seg else s

def execSegmentConductsOff (t l : Nat) (w : Switch) (seg : Nat) (s : State) : Answer := s.command fun s => s.conducts t l w seg

/-! ### Energizing (R63, R294, R308) -/

/-- A leg of an axis is under the off-state diagnostic, which keeps its switches off throughout (R313). -/
def State.underTest (s : State) (a : Nat) : Bool :=
  s.diag.any fun p => decide (p.1 = axisTile a) && (axisLegs a).any fun l => decide (p.2.mask / 2 ^ l % 2 = 1)

/-- An axis may be energized (R308): enabled, nothing holds its legs, and the device in a mode that drives it; not during a freeze, in which the
set-points stand (R228), and not while the diagnostic tests a leg of it. -/
def State.mayEnergize (s : State) (a : Nat) : Bool :=
  let x := s.axis a
  x.m.en && !x.driven && s.legsFree a && !s.spr.freeze && !s.underTest a &&
  (decide (s.glb.mode = .run ∨ s.glb.mode = .hold) || (decide (s.glb.mode = .diagnose) && x.char.isSome))

/-- The coils of a driven axis begin with phase A once none of its legs is precharged; in a freeze they wait for the release. -/
def State.beginCoils (s : State) (a : Nat) : State :=
  if (s.axis a).driven && !s.precharging a && !s.spr.freeze then s.startCoils a else s

/-- An axis is energized: its legs leave Hi-Z and its coils begin with phase A, after the precharge where one runs (R219, R294). -/
def State.power (s : State) (a : Nat) : State :=
  if s.mayEnergize a then
    ((s.energize a).deliver a).beginCoils a
  else s

/-- AXIS_ENERGIZE (R308): a period boundary has found that nothing holds the axis any more. -/
def State.powerAtBoundary (s : State) (a : Nat) : State := if (s.axis a).powerDue then s.power a else s

def execAxisEnergize (a : Nat) (s : State) : Answer := s.command fun s => s.powerAtBoundary a

/-! ### Bootstrap (R292 to R294) -/

/-- BST_UV (R293). -/
def State.bootLow (s : State) (t l : Nat) : State :=
  if s.hasLeg t l && (s.leg t l).bstOk then s.bstFail t l else s

def execBstUv (t l : Nat) (s : State) : Answer := s.command fun s => s.bootLow t l

/-- A precharge is over, and the commands of the leg are let through (R294). -/
def State.prechargeDone (s : State) (t l : Nat) : State :=
  let x := s.leg t l
  if x.mode = 1 then s.beginCoils (legAxis t l)
  else s.updLeg t l fun x =>
    if x.driveOn then x.drive (driveSwitch x.mode) else if x.runs then x.drive (otherSw (driveSwitch x.mode)) else x.cmdOff .low

/-- PRECHARGE_TIMEOUT (R294): R293 applies; under class LOG the leg runs on with its high-side switch blocked. -/
def State.prechargeOut (s : State) (t l : Nat) : State :=
  if s.hasLeg t l && (s.leg t l).precharge then
    let s := s.bstFail t l
    if (s.leg t l).hiz then s else s.prechargeDone t l
  else s

def execPrechargeTimeout (t l : Nat) (s : State) : Answer := s.command fun s => s.prechargeOut t l

/-- BOOTSTRAP_GOOD (R292, R294): BST_OK reads 1, and a precharge ends; the first high-side command is let through. -/
def State.bootGood (s : State) (t l : Nat) : State :=
  if !s.hasLeg t l || (s.leg t l).bstOk then s
  else
    let pre := (s.leg t l).precharge
    let s := s.updLeg t l fun x => { x with bstOk := true, precharge := false }
    if pre then s.prechargeDone t l else (s.updLeg t l Leg.retry).legSettle t l

def execBootstrapGood (t l : Nat) (s : State) : Answer := s.command fun s => s.bootGood t l

/-! ### VGATE and VM of a tile (R292, R295, R296, R536) -/

/-- VGATE is outside its window: the tile goes to Hi-Z under ISO (R295). -/
def State.vgateOut (s : State) (t src : Nat) : State :=
  (s.isoTile t).faultTile (src + t) (wd t) t

/-- A tile of the variant. -/
def State.hasTile (s : State) (t : Nat) : Bool := decide (t < s.variant.tiles)

/-- VGATE_UV. -/
def State.vgateLow (s : State) (t : Nat) : State :=
  if s.hasTile t && !(s.tile t).vgUv then
    (s.updTile t fun x => { x with vgUv := true, vgOv := false, flags := x.flags ||| bw true 3 }).vgateOut t srcVgateUv
  else s

def execVgateUv (t : Nat) (s : State) : Answer := s.command fun s => s.vgateLow t

/-- VGATE_OV. -/
def State.vgateHigh (s : State) (t : Nat) : State :=
  if s.hasTile t && !(s.tile t).vgOv then
    (s.updTile t fun x => { x with vgOv := true, vgUv := false, flags := x.flags ||| bw true 2 }).vgateOut t srcVgateOv
  else s

def execVgateOv (t : Nat) (s : State) : Answer := s.command fun s => s.vgateHigh t

/-- VGATE_GOOD: VGATE lies in its window again, or for the first time. -/
def State.vgateBack (s : State) (t : Nat) : State :=
  if s.hasTile t then s.updTile t fun x => { x with vgUv := false, vgOv := false } else s

def execVgateGood (t : Nat) (s : State) : Answer := s.command fun s => s.vgateBack t

/-- VM_UV (R296). -/
def State.vmLow (s : State) (t : Nat) : State :=
  if s.hasTile t && !(s.tile t).vmUv then
    (s.updTile t fun x => { x with vmUv := true, vmOv := false, flags := x.flags ||| bw true 1 }).fault (srcVmUv + t) (wd t) (.tile t)
  else s

def execVmUv (t : Nat) (s : State) : Answer := s.command fun s => s.vmLow t

/-- VM_OV (R296). -/
def State.vmHigh (s : State) (t : Nat) : State :=
  if s.hasTile t && !(s.tile t).vmOv then
    (s.updTile t fun x => { x with vmOv := true, vmUv := false, flags := x.flags ||| bw true 0 }).fault (srcVmOv + t) (wd t) (.tile t)
  else s

def execVmOv (t : Nat) (s : State) : Answer := s.command fun s => s.vmHigh t

/-- VM_GOOD: VM lies in its window again, or for the first time. -/
def State.vmBack (s : State) (t : Nat) : State :=
  if s.hasTile t then s.updTile t fun x => { x with vmUv := false, vmOv := false } else s

def execVmGood (t : Nat) (s : State) : Answer := s.command fun s => s.vmBack t

/-! ### EN (R54, R55, R342) -/

def srcEnLow : Nat := 0x003

/-- EN_LOW: every leg goes to Hi-Z, and the device enters Safe from the modes that drive (R54); EN_LOW is raised in every mode
(R512). -/
def State.enFalls (s : State) : State :=
  if s.glb.enIn then
    let s := ({ s with glb := { s.glb with enIn := false } }).allHiz .hiz
    let s := if s.glb.mode = .diagnose ∨ s.glb.mode = .run ∨ s.glb.mode = .hold then s.eventMode .safe 3 else s
    s.fault srcEnLow 0 .none
  else s

def execEnLow (s : State) : Answer := s.command State.enFalls

/-- EN_HIGH (R342). -/
def execEnHigh (s : State) : Answer := s.command fun s => { s with glb := { s.glb with enIn := true } }

end Sys2Proof.Machine
end

