-- ==== Sys2Proof/Machine/Starts.lean ====
section
/-! DEFINITION. Starts (R156 to R161, R565): which descriptor of a unit comes next, gates (R87 to R90, R419), limits (R258 to
R260), the bookings of a tile, the release order, and what ends a segment brings (R137, R143, R145). -/

namespace Sys2Proof.Machine

/-! ### Limits (R258 to R260) -/

/-- A sense input is known; its filtered level (R337). -/
def Inp.isKnown (i : Inp) (n : Nat) : Bool := i.known.getLsbD n
def Inp.level (i : Inp) (n : Nat) : Bool := i.lvl.getLsbD n

/-- The states of a limit, coded as AX_STALL_STAT.NEG_ST (R275). -/
inductive LimitState where
  | inactive
  | active
  | unknown
  | unbound
deriving DecidableEq, Repr

def LimitState.code (l : LimitState) : Nat :=
  match l with
  | .inactive => 0
  | .active => 1
  | .unknown => 2
  | .unbound => 3

/-- Enable, active level and input of the negative or the positive limit (R274). -/
def limitEn (w : Word) (neg : Bool) : Bool := if neg then bit w 31 else bit w 23
def limitAct (w : Word) (neg : Bool) : Bool := if neg then bit w 30 else bit w 22
def limitIn (w : Word) (neg : Bool) : Nat := if neg then fld w 24 6 else fld w 16 6

/-- The state of a limit of an axis (R258, R275). -/
def State.limitState (s : State) (a : Nat) (neg : Bool) : LimitState :=
  let w := (s.axis a).regs.limit
  let i := limitIn w neg
  if !limitEn w neg then .unbound
  else if !s.inp.isKnown i then .unknown
  else if s.inp.level i = limitAct w neg then .active
  else .inactive

/-- A limit as it acts: an input that a running HOME searches is no limit (R267). -/
def State.limit (s : State) (a : Nat) (neg : Bool) : LimitState :=
  let x := s.axis a
  let homing := x.home.elim false fun h => h.started && !h.stallMethod && decide (h.input = limitIn x.regs.limit neg)
  if homing then .unbound else s.limitState a neg

/-- The status of a start refused by a limit in its sense (R260), when it is. -/
def State.limitRefuses (s : State) (k : UnitKind) (n : Nat) (sense : Int) : Option Nat :=
  match k with
  | .course => none
  | .axis =>
    if sense = 0 then none
    else match s.limit n (decide (sense < 0)) with
      | .active => some Status.limitActive
      | .unknown => some Status.inputUnknown
      | .inactive => none
      | .unbound => none

/-! ### What comes next for a unit (R60) -/

/-- The kinds of what waits to take effect on a unit. -/
inductive Item where
  | none
  | move
  | later
  | home
  | char
  | bind
deriving DecidableEq, Repr

/-- The place of a waiting FOLLOW_STEPS or PLAY_TABLE, and the tick from which it may take effect. -/
def Later.ord (l : Later) : Nat :=
  match l with
  | .follow f => f.ord
  | .play p => p.ord

def Later.from_ (l : Later) : Nat :=
  match l with
  | .follow f => f.from_
  | .play p => p.from_

/-- What waits on a unit, each with its place. -/
def State.items (s : State) (k : UnitKind) (n : Nat) : List (Nat × Item) :=
  let m := s.motion k n
  (match m.look with | v :: _ => [(v.ord, Item.move)] | [] => []) ++
  (match m.later with | v :: _ => [(v.ord, Item.later)] | [] => []) ++
  ((s.host.binds.filter fun b => decide (b.kind = k ∧ b.index = n)).map fun b => (b.ord, Item.bind)) ++
  (match k with
   | .course => []
   | .axis =>
     (match (s.axis n).home with | some h => if h.started then [] else [(h.ord, Item.home)] | none => []) ++
     (match (s.axis n).char with | some h => if h.begun then [] else [(h.ord, Item.char)] | none => []))

/-- The first of them in the order of take-up. -/
def State.nextItem (s : State) (k : UnitKind) (n : Nat) : Item :=
  ((s.items k n).foldl (fun (b : Option (Nat × Item)) p =>
    match b with
    | some q => if p.1 < q.1 then some p else some q
    | none => some p) none).elim Item.none Prod.snd

/-- A HOME or CHARACTERIZE is in effect on a unit. -/
def State.longRuns (s : State) (k : UnitKind) (n : Nat) : Bool :=
  match k with
  | .course => false
  | .axis => ((s.axis n).home.elim false fun h => h.started) || ((s.axis n).char.elim false fun h => h.begun)

/-- The unit stands with nothing in progress, so that a further descriptor may take effect. -/
def State.free (s : State) (k : UnitKind) (n : Nat) : Bool :=
  let m := s.motion k n
  m.en && m.still && m.stopping.isNone && m.dwell.isNone && m.act.isNone && m.follow.isNone && m.play.isNone && m.plan.isEmpty &&
  !s.longRuns k n

/-! ### Bookings (R157, R167, R390) -/

/-- Who starts. -/
inductive Who where
  | unit (k : UnitKind) (n : Nat)
  | leg (t l : Nat)
deriving DecidableEq, Repr

/-- The axes that a unit books for. -/
def State.bookAxes (s : State) (k : UnitKind) (n : Nat) : List Nat :=
  match k with
  | .axis => [n]
  | .course => s.boundAxes 8 n

/-- What a start books, by tile. -/
def State.own (s : State) (w : Who) : List (Nat × Nat) :=
  match w with
  | .unit k n => (s.bookAxes k n).map fun a => (axisTile a, fld (s.axis a).regs.book 0 16)
  | .leg t l => [(t, fld (s.leg t l).sol 16 16)]

/-- The sum of bookings in a tile. -/
def sumIn (l : List (Nat × Nat)) (t : Nat) : Nat := ((l.filter fun p => decide (p.1 = t)).map Prod.snd).sum

/-- A start of the unit has been admitted and is about to begin. -/
def Motion.isDue (m : Motion) : Bool :=
  match m.start with
  | .due _ => true
  | .none => false
  | .dwell _ _ => false
  | .ready _ => false

/-- What an axis books: its running booking, or that of a start, its own or that of a course above it, which is about to begin. -/
def State.booking (s : State) (a : Nat) : Nat :=
  let due := (s.axis a).m.isDue || (s.path 8 .axis a).getLast?.elim false fun p => (s.course p.1).m.isDue
  if due then fld (s.axis a).regs.book 0 16 else (s.axis a).m.booked

/-- What a solenoid leg books: its running booking, or that of a pull-in which is about to begin. -/
def Leg.booking (x : Leg) : Nat := if x.solWait.head?.elim false SolDesc.due then fld x.sol 16 16 else x.booked

/-- The bookings that count now, but for those of the starting unit (R158). -/
def State.others (s : State) (w : Who) : List (Nat × Nat) :=
  let mine := match w with
    | .unit k n => s.bookAxes k n
    | .leg _ _ => []
  ((s.listedAxes.filter fun a => decide (a ∉ mine)).map fun a => (axisTile a, s.booking a)) ++
  ((s.listedLegs.filter fun p => decide (w ≠ .leg p.1 p.2)).map fun p => (p.1, (s.leg p.1 p.2).booking))

/-- The bookings of a tile in milliamperes. -/
def State.bookedIn (s : State) (t : Nat) : Nat :=
  sumIn (s.listedAxes.map fun a => (axisTile a, (s.axis a).m.booked)) t +
  sumIn (s.listedLegs.map fun p => (p.1, (s.leg p.1 p.2).booked)) t

/-- The budget in force of a tile in milliamperes; none where 0xFFFF sets no limit. -/
def State.budgetOf (s : State) (t : Nat) : Option Nat :=
  let b := Bank.get 0xFFFF s.host.inForce t
  if b = 0xFFFF then none else some (10 * b)

/-- Every tile of a start admits it (R158). -/
def State.admits (s : State) (w : Who) : Bool :=
  (s.own w).all fun p => match s.budgetOf p.1 with
    | none => true
    | some b => decide (sumIn (s.others w) p.1 + sumIn (s.own w) p.1 ≤ b)

/-- A start that cannot fit even alone (R159). -/
def State.tooBig (s : State) (w : Who) : Bool :=
  (s.own w).any fun p => match s.budgetOf p.1 with
    | none => false
    | some b => decide (b < sumIn (s.own w) p.1)

/-- A tile of the start is at throttle level (R160). -/
def State.throttled (s : State) (w : Who) : Bool := (s.own w).any fun p => (s.thmTile p.1).throt

/-- The booking of a start begins: an axis's own, or that of every axis beneath a course. -/
def State.book (s : State) (k : UnitKind) (n : Nat) : State :=
  (s.bookAxes k n).foldl (fun t a => t.updAxis a fun x =>
    { x.newStart with m := { x.m with booked := fld x.regs.book 0 16, bookLeft := none } }) s

/-! ### Ends of segments (R137, R143, R145) -/

/-- The mode that a move puts its unit into. -/
def Move.unitMode (v : Move) : UnitMode := if v.isVel then .velocity else .target

/-- A move takes effect: it is the move in progress. -/
def Motion.take (m : Motion) (v : Move) : Motion :=
  let tgt := if v.rel then m.pos + v.target else v.target
  { m with look := if v.rel then m.look.map fun w => (if w.rel && !w.replace then { w with target := m.pos + w.target, rel := false } else w) else m.look
           act := some { v with p0 := m.pos, target := if v.isVel then v.target else tgt, rel := false }
           mode := v.unitMode, tgt := if v.isVel then m.pos else tgt, start := .none, held := false, suspended := false, restarted := false }

/-- The moves at the head of the lookahead that are the move before them again complete with it (R135), gated or not. -/
def State.completeZeros (s : State) (k : UnitKind) (n : Nat) (prev : Move) (fuel : Nat) : State :=
  match fuel, (s.motion k n).look with
  | f + 1, v :: rest =>
    if v.isZero prev && !v.replace && decide (v.ord = prev.ord + 1) then
      ((s.completeMove k n v Status.ok).updMotion k n fun m => { m with look := rest }).completeZeros k n { prev with ord := v.ord } f
    else s
  | _, _ => s

/-- The move in progress completes, and a value retained from a move restarted under R153 is discarded (R151). -/
def State.completeAct (s : State) (k : UnitKind) (n : Nat) (status : Nat) : State :=
  match (s.motion k n).act with
  | none => s
  | some a =>
    let s := s.updMotion k n fun m => { m with ret := if m.restarted then none else m.ret, restarted := false }
    (s.completeMove k n a status).updMotion k n fun m => { m with act := none }

/-- The sense in which a move would travel from a position. -/
def Move.sense (v : Move) (m : Motion) : Int :=
  if v.isVel then v.target.sign else if v.rel then v.target.sign else (v.target * one - m.x).sign

/-- The move at the head of the lookahead goes on from a mortar, with its own stop set (R144). -/
def State.takeNext (s : State) (k : UnitKind) (n : Nat) : State :=
  let q := (s.mparam k n).qdec
  match (s.motion k n).look with
  | v :: rest => s.updMotion k n fun m => { (({ m with look := rest }).take v) with stopSet := v.prof.stopSet q }
  | [] => s

/-- A completion tag is reached: the move in progress completes, and with it the moves behind it up to the one that the tag names, which needed
no period (R38, R137). A VELOCITY that has reached its speed goes on in silence (R136). -/
def State.completeThrough (s : State) (k : UnitKind) (n o : Nat) (ends : Bool) : Nat → State
  | 0 => s
  | f + 1 =>
    match (s.motion k n).act with
    | none => s
    | some a =>
      if a.isVel && !ends then
        (s.completeMove k n a Status.ok).updMotion k n fun m => { m with act := some { a with silent := true } }
      else
        let s := s.completeAct k n Status.ok
        let s := if a.own then s else s.completeZeros k n a 64
        match (s.motion k n).look with
        | v :: _ => if v.ord ≤ o ∧ a.ord < v.ord then (s.takeNext k n).completeThrough k n o ends f else s
        | [] => s

/-- The end of an END segment that ended neither a stop nor a playback: the move completes, or the unit turns (R145, R146). An opposite move
that was taken up before this end goes on through zero; one taken up in this very tick begins no earlier than its plan (R33). -/
def State.moveEnded (s : State) (k : UnitKind) (n : Nat) (tag : Option Nat) : State :=
  match (s.motion k n).act with
  | none => s
  | some a =>
    let rev := (s.mparam k n).rev
    match tag with
    | some o =>
      let sense : Int := if (s.motion k n).neg then -1 else 1
      let s := s.completeThrough k n o true 65
      let s := s.updMotion k n fun m => { m with plan := [], cruise := none, tgt := if a.isVel then m.pos else m.tgt }
      match (s.motion k n).look with
      | v :: rest =>
        if v.sense (s.motion k n) = -sense ∧ v.gate.isNone ∧ !v.replace ∧ s.nextItem k n = .move ∧ !a.own then
          let dwell := max rev ((v.from_ - s.dt) / 2000)
          s.updMotion k n fun m => { (({ m with look := rest }).take v) with dwell := some dwell }
        else s
      | [] => s
    | none =>
      s.updMotion k n fun m =>
        { m with plan := [], cruise := none, dwell := some rev
                 act := some { a with overshoot := if a.turned then (m.pos - a.p0).natAbs else a.overshoot } }

/-- A tagged segment ended in motion: a VELOCITY has reached its speed, or a move ends at its mortar and the next one goes on with its
own stop set (R137, R143, R144). -/
def State.movePassed (s : State) (k : UnitKind) (n o : Nat) : State :=
  let s := s.completeThrough k n o false 65
  if (s.motion k n).act.isNone then s.takeNext k n else s

/-- The unit has come to standstill by an END segment: the reversal dwell counts from here (R145, R419). -/
def State.unitEnded (s : State) (k : UnitKind) (n : Nat) (tag : Option Nat) : State :=
  let rev := (s.mparam k n).rev
  let s := s.updMotion k n fun m => { m with rest := rev }
  let m := s.motion k n
  if m.stopping.isSome then s.finishStop k n
  else if (m.play.elim none Play.fin).isSome then s.endFollowed k n Status.ok none
  else s.moveEnded k n tag

/-- What the end of a period brings to a unit, but for a queue that has run dry. -/
def State.periodEnd (s : State) (k : UnitKind) (n : Nat) (e : Motion.PeriodEnd) : State :=
  match e with
  | .none => s
  | .passed o _ => s.movePassed k n o
  | .ended tag => s.unitEnded k n tag
  | .starved => s

/-- A queue has run dry (R43, R45): the unit comes down by its own stop set. -/
def State.starve (s : State) (k : UnitKind) (n : Nat) : State :=
  let s := (s.updMotion k n fun m => m.postStop .starved none).raiseStarved k n
  (s.beginStop k n).settle

/-- The move in progress is planned and its first segments are queued; what needs no period completes at this boundary (R137, R566). -/
def State.go (s : State) (k : UnitKind) (n : Nat) : State :=
  let p := s.mparam k n
  let now := ((s.motion k n).go p).2
  let s := s.updMotion k n fun m => (m.go p).1
  match now with
  | none => s
  | some (o, false) => s.movePassed k n o
  | some (o, true) => (s.updMotion k n fun m => { m with x := roundPos m.x, v := 0 }).moveEnded k n (some o)

/-! ### Taking effect -/

/-- The move at the head of the lookahead completes without moving; a refused start takes those behind it along (R159). -/
def State.refuseHead (s : State) (k : UnitKind) (n : Nat) (status : Nat) (cancel : Bool) : State :=
  match (s.motion k n).look with
  | [] => s
  | v :: rest =>
    let s := (s.completeMove k n v status).updMotion k n fun m => { m with look := rest, start := .none, held := false }
    if cancel then s.cancelLook k n else s

/-- A HOME or CHARACTERIZE that waits completes with a status without taking effect: it does nothing (R60). -/
def State.dropLong (s : State) (o a status : Nat) : State :=
  let s := s.updAxis a fun x => if o = 0x20 then { x with home := none } else { x with char := none }
  match s.longOf o a with
  | some x => s.endLong x.tag status
  | none => s

/-- What comes next for the unit completes with a status without taking effect. -/
def State.dropItem (s : State) (k : UnitKind) (n : Nat) (status : Nat) : State :=
  let s : State := match s.nextItem k n with
    | .none => s
    | .move => s.refuseHead k n status false
    | .later =>
      match (s.motion k n).later with
      | [] => s
      | .follow f :: rest =>
        (s.complete f.tag (s.motionRecord k n f.word0 f.late false 0 none false status)).updMotion k n fun m => { m with later := rest }
      | .play p :: rest =>
        ((s.complete p.tag (s.motionRecord k n p.word0 false false 0 none false status)).freeWindow k n).updMotion k n fun m =>
          { m with later := rest }
    | .home => s.dropLong 0x20 n status
    | .char => s.dropLong 0x21 n status
    | .bind => s
  s.updMotion k n fun m => { m with start := .none, held := false }

/-- A follower begins (R188): its count starts from the boundary at which the start became ready to begin. -/
def State.beginFollow (s : State) (k : UnitKind) (n : Nat) (f : Follow) : State :=
  let q := (s.mparam k n).qdec
  s.updMotion k n fun m =>
    { m with follow := some { f with base := m.x, total := 0, hist := [] }, later := m.later.drop 1, mode := .step,
             start := .none, held := false, stopSet := (Bank.get Profile.reset m.profs f.slot).stopSet q }

/-- A playback begins (R191). -/
def State.beginPlay (s : State) (k : UnitKind) (n : Nat) (p : Play) : State :=
  let q := (s.mparam k n).qdec
  s.updMotion k n fun m =>
    { m with play := some { p with base := m.x }, later := m.later.drop 1, mode := .table, start := .none, held := false,
             stopSet := (Bank.get Profile.reset m.profs p.slot).stopSet q }

/-- A start begins at this boundary (R156 to R161): its booking takes the place of an earlier one of the unit, and the descriptor takes
effect. `since` is the boundary at which it became ready. -/
def State.beginUnit (s : State) (k : UnitKind) (n : Nat) (since : Nat) : State :=
  let m := s.motion k n
  if m.suspended then
    match m.act.bind fun a => s.limitRefuses k n (a.sense m) with
    | some st => (s.completeAct k n st).updMotion k n fun m => { m with suspended := false, start := .none, held := false }
    | none =>
      let s := s.book k n
      (s.updMotion k n fun m => { m with suspended := false, restarted := true, start := .none, held := false }).go k n
  else
    match s.nextItem k n with
    | .none => s.updMotion k n fun m => { m with start := .none, held := false }
    | .move =>
      match m.look with
      | [] => s
      | v :: rest =>
        let missed : Bool := match v.gate with
          | some (.window o c) => decide (winClass s.ref.bound408 o c ≠ .inside)
          | _ => false
        if missed then s.refuseHead k n Status.windowMissed false
        else match s.limitRefuses k n (v.sense m) with
          | some st => s.refuseHead k n st false
          | none =>
            let late := v.late || (match v.gate with | some (.at _) => decide (since < s.bdt) | _ => false)
            let s := s.book k n
            (s.updMotion k n fun m => (({ m with look := rest }).take { v with late := late })).go k n
    | .later =>
      match m.later with
      | .follow f :: _ =>
        let missed : Bool := match f.gate with
          | some (.window o c) => decide (winClass s.ref.bound408 o c ≠ .inside)
          | _ => false
        if missed then
          (s.complete f.tag (s.motionRecord k n f.word0 f.late false 0 none false Status.windowMissed)).updMotion k n fun m =>
            { m with later := m.later.drop 1, start := .none, held := false }
        else
          let late := f.late || (match f.gate with | some (.at _) => decide (since < s.bdt) | _ => false)
          (s.book k n).beginFollow k n { f with late := late }
      | .play p :: _ => (s.book k n).beginPlay k n p
      | [] => s
    | .home =>
      ((s.book k n).updMotion k n fun m => { m with start := .none, held := false }).updAxis n fun x =>
        { x with home := x.home.map fun h => { h with started := true, seenX := x.m.x, prevX := x.m.x, path := 0 } }
    | .char =>
      let s := ((s.book k n).updMotion k n fun m => { m with start := .none, held := false }).updAxis n fun x =>
        { x with char := x.char.map fun h => { h with begun := true, xStart := x.m.x / 2 ^ 32 } }
      if s.glb.mode = .diagnose then s.power n else s
    | .bind => s.updMotion k n fun m => { m with start := .none, held := false }

/-! ### The release order (R161) -/

/-- A start that waits. -/
structure Waiter where
  who : Who
  since : Nat
  cls : Nat
  num : Nat
  dwells : Bool

/-- The number under which a unit's start takes its place (R161, R167). -/
def State.startNum (s : State) (k : UnitKind) (n : Nat) : Nat :=
  match k with
  | .axis => n
  | .course => match s.boundAxes 8 n with
    | [] => 0
    | a :: l => l.foldl min a

/-- The start of a unit has a place in the order: that of an axis whose legs are at Hi-Z has none until the boundary at which it is energized
(R565). CHARACTERIZE energizes its axis itself in Diagnose. -/
def State.placed (s : State) (k : UnitKind) (n : Nat) : Bool :=
  match k with
  | .axis => (s.axis n).driven || (s.axis n).powerDue || (decide (s.glb.mode = .diagnose) && (s.axis n).char.isSome && s.mayEnergize n)
  | .course => true

/-- A unit's start in the order. -/
def State.unitWaiter (s : State) (k : UnitKind) (n : Nat) : List Waiter :=
  if s.placed k n then
    match (s.motion k n).start with
    | .none => []
    | .dwell since left => [⟨.unit k n, since, 0, s.startNum k n, decide (0 < left)⟩]
    | .ready since => [⟨.unit k n, since, 0, s.startNum k n, false⟩]
    | .due _ => []
  else []

/-- A solenoid leg's held start, which has its place while the leg may be driven. -/
def State.legWaiter (s : State) (t l : Nat) : List Waiter :=
  match (s.leg t l).solWait with
  | d :: _ => match d.heldSince with
    | some since => if d.due || !s.legFree t l then [] else [⟨.leg t l, since, 1, 16 * t + l, d.dwellLeft.isSome⟩]
    | none => []
  | [] => []

/-- One start comes before another. -/
def Waiter.before (a b : Waiter) : Bool :=
  decide (a.since < b.since) ||
  (decide (a.since = b.since) && (decide (a.cls < b.cls) || (decide (a.cls = b.cls) && decide (a.num ≤ b.num))))

def insertWaiter (w : Waiter) (l : List Waiter) : List Waiter :=
  match l with
  | [] => [w]
  | x :: xs => if w.before x then w :: x :: xs else x :: insertWaiter w xs

/-- The starts that wait, in the order of R161. -/
def State.waiters (s : State) : List Waiter :=
  ((s.listedAxes.flatMap fun a => s.unitWaiter .axis a) ++ ((s.courses.map Prod.fst).flatMap fun c => s.unitWaiter .course c) ++
    (s.listedLegs.flatMap fun p => s.legWaiter p.1 p.2)).foldr insertWaiter []

/-! ### Solenoid pulses (R225, R309 to R312) -/

/-- The BAR0 offset of a leg sub-block (R458). -/
def legOffset (t l : Nat) : Nat := 0x10000 + 0x1000 * t + 0x100 + 0x40 * l

/-- t_minoff in ticks (R222). -/
def Leg.tMinOff (x : Leg) : Nat := minTicks x.tDt

/-- The armed shadow set is copied to the active set, with its duty clamped and its phase reduced (R221, R222). Answers whether it was
clamped. -/
def Leg.transfer (x : Leg) : Leg × Bool :=
  if x.armedSet then
    let p := x.shadow
    let top := 16 * (p.per - x.tMinOff)
    let past := decide (top < p.duty)
    ({ x with act := { p with duty := min top p.duty, ph := p.ph % max 1 p.per }, armedSet := false, clamp := x.clamp || past }, past)
  else (x, false)

/-- A phase of a pulse has no periods left (R309). -/
def Leg.phaseDone (x : Leg) (p : SolPhase) : Bool := decide (x.solPhase = p) && decide (x.solLeft = 0)

/-- The end phase begins: the drive switch goes off, the freewheel switch stays on (R309). -/
def State.endPhase (s : State) (t l : Nat) : State :=
  s.updLeg t l fun x => { (x.drive (otherSw (driveSwitch x.mode))) with solPhase := .fin, driveOn := false }

/-- The pull-in is over (R309, R311): hold, or the end phase where there is none; SOL_HOLD completes as its hold begins. The hold duty comes with
an armed transfer of the whole set, with PH as 0 (R225, R414). -/
def State.pullInEnd (s : State) (t l : Nat) : State :=
  match (s.leg t l).solCur with
  | none => s
  | some d =>
    if (s.leg t l).phaseDone .pullIn && !s.spr.freeze then
      let s := s.updLeg t l fun x => { x with bookLeft := some 1 }
      if d.isHold || decide (0 < d.tH) then
        let s := s.updLeg t l fun x =>
          let y := ({ x with shadow := { x.shadow with duty := d.dutyH }, armedSet := true }.transfer).1
          { y with solPhase := .hold, solLeft := d.tH, act := { y.act with ph := 0 } }
        if d.isHold then s.complete d.tag (s.solRecord d Status.ok) else s
      else s.endPhase t l
    else s

/-- The pull-in of a leg begins: its booking counts from this period, and the generator restarts at 0 with the descriptor's set active at once,
PH taken as 0 and CMP0 and CMP1 as their registers hold them (R225, R309, R310, R414). With both duties 0 no pull-in is run. -/
def State.beginPulse (s : State) (t l : Nat) (d : SolDesc) (rest : List SolDesc) : State :=
  let x := s.leg t l
  let x := if x.hiz then x.leaveHiz else x
  let set := { x.shadow with per := d.per, duty := d.dutyPi }
  let s := s.setLeg t l
    { x with solCur := some { d with startDt := s.dt, heldSince := none, dwellLeft := none, held := false, due := false }, solWait := rest, solPhase := .pullIn,
             solLeft := if d.dutyPi = 0 ∧ d.dutyH = 0 then 0 else d.tPi, runs := true, dither := 0, armedSet := false,
             booked := fld x.sol 16 16, bookLeft := none, act := { set with ph := 0 }, shadow := set }
  s.pullInEnd t l

/-- A waiting solenoid descriptor completes without a pulse. -/
def State.refusePulse (s : State) (t l : Nat) (status : Nat) : State :=
  match (s.leg t l).solWait with
  | [] => s
  | d :: rest => (s.complete d.tag (s.solRecord d status)).updLeg t l fun x => { x with solWait := rest }

/-- A leg in a solenoid mode (R62, R312). -/
def Leg.solMode (x : Leg) : Bool := decide (x.mode = 2 ∨ x.mode = 3)

/-- A released pull-in begins, late under an AT condition that was met earlier; a window that has closed is missed (R161, R310), and a leg whose
mode has changed refuses it (R312). -/
def State.releasePulse (s : State) (t l : Nat) (since : Nat) : State :=
  match (s.leg t l).solWait with
  | [] => s
  | d :: rest =>
    if !(s.leg t l).solMode then s.refusePulse t l Status.invalidField
    else match d.gate with
    | some (.window o c) => if winClass s.ref.c408 o c = .inside then s.beginPulse t l d rest else s.refusePulse t l Status.windowMissed
    | some (.at _) => s.beginPulse t l { d with late := d.late || decide (since < s.bdt) } rest
    | none => s.beginPulse t l d rest

/-- A waiting start is refused as it exceeds its budget (R159). -/
def State.refuseStart (s : State) (w : Who) : State :=
  match w with
  | .leg t l => s.refusePulse t l Status.overBudget
  | .unit k n =>
    let m := s.motion k n
    let clear (u : State) : State := u.updMotion k n fun m => { m with start := .none, held := false }
    if m.suspended then
      (clear ((s.completeAct k n Status.overBudget).updMotion k n fun m => { m with suspended := false })).cancelLook k n
    else
      (s.dropItem k n Status.overBudget).cancelLook k n

/-- A start begins. -/
def State.beginStart (s : State) (w : Who) (since : Nat) : State :=
  match w with
  | .unit k n => s.beginUnit k n since
  | .leg t l => s.releasePulse t l since

/-- The count from which a FOLLOW_STEPS that is admitted at this boundary follows (R188). -/
def State.noteCount (s : State) (w : Who) : State :=
  match w with
  | .unit k n => s.updMotion k n fun m =>
      { m with later := m.later.modifyHead fun l => match l with
          | .follow f => .follow { f with last := s.followCount f }
          | .play p => .play p }
  | .leg _ _ => s

/-- A start that was held is admitted at this boundary (R161). -/
def State.admitStart (s : State) (w : Who) (since : Nat) : State :=
  match w with
  | .unit k n => s.updMotion k n fun m => { m with start := .due since, held := false }
  | .leg t l => s.updLeg t l fun x => { x with solWait := x.solWait.modifyHead fun d => { d with due := true, held := false } }

/-- A start is marked as held by the budget (R158, R322). -/
def State.markHeld (s : State) (w : Who) (h : Bool) : State :=
  match w with
  | .unit k n => s.updMotion k n fun m => { m with held := h }
  | .leg t l => s.updLeg t l fun x => { x with solWait := x.solWait.modifyHead fun d => { d with held := h } }

/-- The starts in the order of R161 at a boundary: each is admitted when every tile of it admits it and no earlier start of such a tile is held;
`may` picks those that begin in this step, and the others are marked as about to begin. A start that an earlier one holds up reads
BUDGET_HELD like one that the budget holds (DESIGN CHOICE, log entry 75). -/
def State.release (s : State) (may : Waiter → Bool) : List Waiter → List Nat → State
  | [], _ => s
  | w :: ws, blocked =>
    let tiles := (s.own w.who).map Prod.fst
    if s.tooBig w.who then (s.refuseStart w.who).release may ws blocked
    else if w.dwells then s.release may ws (tiles ++ blocked)
    else if tiles.any (fun t => decide (t ∈ blocked)) || !s.admits w.who then
      (s.markHeld w.who true).release may ws (tiles ++ blocked)
    else if may w then ((s.noteCount w.who).beginStart w.who w.since).release may ws blocked
    else ((s.noteCount w.who).admitStart w.who w.since).release may ws blocked

/-! ### Readiness (R87, R156, R419) -/

/-- What evaluating a start condition on a sample brings (R87). -/
inductive Met where
  | no
  | yes
  | missed
deriving DecidableEq, Repr

/-- A start condition on a 40.8 value. -/
def gateMet (g : Option Gate) (c : Nat) : Met :=
  match g with
  | none => .yes
  | some (.at e) => if atOrAfter c e then .yes else .no
  | some (.window o cl) =>
    match winClass c o cl with
    | .before => .no
    | .inside => .yes
    | .after => .missed

/-- A start becomes ready at this boundary; it waits out the throttle dwell where its tile is at throttle level (R160). -/
def State.makeReady (s : State) (k : UnitKind) (n : Nat) : State :=
  if s.throttled (.unit k n) && s.placed k n then s.updMotion k n fun m => { m with start := .dwell s.bdt s.dwellPeriods }
  else s.updMotion k n fun m => { m with start := .ready s.bdt }

/-- A member of the course is in its entry move: the course waits (R170). -/
def State.binding (s : State) (c : Nat) : Bool := (s.course c).members.any fun p => decide (p.2.state = .binding)

/-- A unit's starts are evaluated in Run; that of CHARACTERIZE also in Diagnose (R87, R90, R245). A unit that is to
be disabled at this boundary starts nothing (R152). -/
def State.startsRun (s : State) (k : UnitKind) (n : Nat) : Bool :=
  (decide (s.glb.mode = .run) || (decide (s.glb.mode = .diagnose) && decide (s.nextItem k n = .char))) && !s.spr.freeze &&
  !(s.motion k n).disDue &&
  (match k with
   | .axis => true
   | .course => !s.binding n)

/-- A move or VELOCITY runs against the sense of the last motion, whose reversal dwell has not elapsed (R145, R154, R419). -/
def Motion.turnsBack (m : Motion) (v : Move) : Bool := decide (0 < m.rest) && decide (v.sense m = if m.neg then 1 else -1)

/-- The readiness of a unit at a boundary: a suspended move, or what comes next, in the order of take-up. -/
def State.readiness (s : State) (k : UnitKind) (n : Nat) (fuel : Nat) : State :=
  match fuel with
  | 0 => s
  | f + 1 =>
    let m := s.motion k n
    if m.start ≠ .none || !s.startsRun k n then s
    else if m.suspended then (if m.en && m.still && m.stopping.isNone then s.makeReady k n else s)
    else if !s.free k n then s
    else if s.isBound k n then
      if s.nextItem k n = .none then s else (s.dropItem k n Status.bound).readiness k n f
    else
      match s.nextItem k n with
      | .none => s
      | .move =>
        match m.look with
        | [] => s
        | v :: rest =>
          if s.dt < v.from_ then s
          else if m.turnsBack v then s.updMotion k n fun m => { m with dwell := some m.rest }
          else match gateMet v.gate s.ref.bound408 with
            | .missed => (s.refuseHead k n Status.windowMissed false).readiness k n f
            | .no => s.updMotion k n fun m => { m with look := { v with armed := true } :: rest }
            | .yes =>
              let late := v.late || (!v.armed && (match v.gate with | some (.at _) => true | _ => false))
              if !v.isVel && decide (v.sense m = 0) then
                -- no start jump, and so no start (R135, R156)
                ((s.completeMove k n { v with late := late } Status.ok).updMotion k n fun m =>
                  { m with look := rest, mode := .target, tgt := m.pos }).readiness k n f
              else (s.updMotion k n fun m => { m with look := { v with met := true, late := late } :: rest }).makeReady k n
      | .later =>
        match m.later with
        | [] => s
        | .play p :: _ =>
          if s.dt < p.from_ ∨ p.buf.length < min 4096 p.count then s else s.makeReady k n
        | .follow v :: rest =>
          if s.dt < v.from_ then s
          else match gateMet v.gate s.ref.bound408 with
            | .missed =>
              ((s.complete v.tag (s.motionRecord k n v.word0 false false 0 none false Status.windowMissed)).updMotion k n fun m =>
                { m with later := rest }).readiness k n f
            | .no => s.updMotion k n fun m => { m with later := .follow { v with armed := true } :: rest }
            | .yes =>
              let late := v.late || (!v.armed && (match v.gate with | some (.at _) => true | _ => false))
              (s.updMotion k n fun m => { m with later := .follow { v with met := true, late := late } :: rest }).makeReady k n
      | .home => match (s.axis n).home with
        | some h => if s.dt < h.from_ then s else s.makeReady k n
        | none => s
      | .char => match (s.axis n).char with
        | some h =>
          if s.dt < h.fromTick then s
          else if m.mode = .target then s.makeReady k n
          else s.dropItem k n Status.wrongMode
        | none => s
      | .bind => s

/-- A start in its throttle dwell: a period passes, and the wait ends with the throttle level (R160). A held start whose tile has come
to throttle level waits out what is left of the dwell. -/
def State.dwellTick (s : State) (k : UnitKind) (n : Nat) : State :=
  let th := s.throttled (.unit k n)
  if !s.placed k n then s
  else s.updMotion k n fun m =>
    match m.start with
    | .none => m
    | .due _ => m
    | .dwell since left => { m with start := .dwell since (if th then left - 1 else 0) }
    | .ready since =>
      let left := s.dwellPeriods - (s.bdt - since) / 2000
      if th && decide (0 < left) && m.held then { m with start := .dwell since left } else m

/-- The dwell has run out: the budget check follows. -/
def State.dwellOver (s : State) (k : UnitKind) (n : Nat) : State :=
  s.updMotion k n fun m =>
    match m.start with
    | .dwell since 0 => { m with start := .ready since }
    | _ => m

/-! ### The commands -/

/-- REV_DWELL_END (R145): the reversal dwell has elapsed and the opposite move in progress goes on with its start jump, which is no start: no hold,
budget or limit stands in its way (R156, R260). A course waits while a member is in its entry move (R170). -/
def State.revEnd (s : State) (k : UnitKind) (n : Nat) : State :=
  let m := s.motion k n
  let waits : Bool := m.stopping.elim false Stopping.begun || match k with
    | .axis => false
    | .course => s.binding n
  if m.dwell = some 0 && m.en && !s.spr.freeze && !waits then
    let s := s.updMotion k n fun m => { m with dwell := none }
    if m.act.isSome then s.go k n else s
  else s

def execRevDwellEnd (k : UnitKind) (n : Nat) (s : State) : Answer := s.command fun s => s.revEnd k n

/-- THROTTLE_DWELL_END (R160). -/
def execThrottleDwellEnd (k : UnitKind) (n : Nat) (s : State) : Answer := s.command fun s => s.dwellOver k n

/-- A start that was admitted begins in the period that starts at the boundary; where the device, the unit's enable or the legs no longer let
it, the admission is given back and the start keeps its place (R157). -/
def State.beginDue (s : State) (w : Who) : State :=
  let runs : Bool := decide (s.glb.mode = .run ∨ s.glb.mode = .diagnose) && !s.spr.freeze
  match w with
  | .unit k n =>
    match (s.motion k n).start with
    | .due since =>
      if runs && s.placed k n && !(s.motion k n).disDue && !(s.motion k n).disPend then s.beginUnit k n since
      else s.updMotion k n fun m => { m with start := .ready since }
    | .none => s
    | .dwell _ _ => s
    | .ready _ => s
  | .leg t l =>
    match (s.leg t l).solWait with
    | d :: _ =>
      if !d.due then s
      else if runs && s.legFree t l then s.releasePulse t l (d.heldSince.getD s.bdt)
      else s.updLeg t l fun x => { x with solWait := x.solWait.modifyHead fun d => { d with due := false } }
    | [] => s

/-- START_RELEASE (R161): a held start that the boundary has admitted begins; an axis that is energized at the boundary is so first (R565). -/
def State.releaseUnit (s : State) (k : UnitKind) (n : Nat) : State :=
  let s := match k with
    | .axis => s.powerAtBoundary n
    | .course => s
  s.beginDue (.unit k n)

def execStartRelease (k : UnitKind) (n : Nat) (s : State) : Answer := s.command fun s => s.releaseUnit k n

end Sys2Proof.Machine
end

