-- ==== Sys2Proof/Machine/Pwm.lean ====
section
/-! DEFINITION. The fixed-frequency generator (R220 to R225), solenoid pulses (R309 to R312), converter triggers and the tile ADC
(R226, R227, R331). -/

namespace Sys2Proof.Machine

/-! ### The generator (R220 to R223) -/

/-- The dithered duty of the period in ticks (R220). -/
def Leg.dTicks (x : Leg) : Nat := x.act.duty / 16 + (if rev4 x.dither < x.act.duty % 16 then 1 else 0)

/-- A leg's mode runs the generator (R220). -/
def Leg.pwmMode (x : Leg) : Bool := decide (x.mode = 2 ∨ x.mode = 3 ∨ x.mode = 4)

/-- PULL_IN_END. -/
def execPullInEnd (t l : Nat) (s : State) : Answer := s.command fun s => s.pullInEnd t l

/-- HOLD_END (R309): a SOL_PULSE goes to its end phase. -/
def State.holdEnd (s : State) (t l : Nat) : State :=
  match (s.leg t l).solCur with
  | none => s
  | some d => if (s.leg t l).phaseDone .hold && !d.isHold && !s.spr.freeze then s.endPhase t l else s

def execHoldEnd (t l : Nat) (s : State) : Answer := s.command fun s => s.holdEnd t l

/-- The leg's generator runs: a pulse in pull-in or hold, or a direct-PWM leg of a device that drives its legs (R309, R62). -/
def State.pwmRuns (s : State) (t l : Nat) : Bool :=
  let x := s.leg t l
  s.hasLeg t l && s.legFree t l && !s.spr.freeze &&
  ((decide (x.mode = 4) && decide (s.glb.mode = .run ∨ s.glb.mode = .hold)) ||
   (decide (x.mode = 2 ∨ x.mode = 3) && decide (x.solPhase = .pullIn ∨ x.solPhase = .hold)))

/-- PWM_PERIOD_BOUNDARY (R220, R221): a phase that has run out ends, an armed set transfers, and the next period begins. A leg at
Hi-Z leaves it here, with its other switch on until the drive switch is due. -/
def State.pwmBoundary (s : State) (t l : Nat) : State :=
  let s := (s.pullInEnd t l).holdEnd t l
  if s.pwmRuns t l then
    let x := s.leg t l
    let r := x.transfer
    let x := if x.runs then { r.1 with dither := (r.1.dither + 1) % 16 } else r.1
    let x := if x.hiz then x.leaveHiz else x
    let x := if x.runs then x else if x.precharge then { x with runs := true } else { x.drive (otherSw (driveSwitch x.mode)) with runs := true }
    let s := s.setLeg t l { x with solLeft := x.solLeft - 1 }
    if r.2 then s.fault srcDutyClamp (wd (legOffset t l)) .none else s
  else s

def execPwmPeriodBoundary (t l : Nat) (s : State) : Answer := s.command fun s => s.pwmBoundary t l

/-- The handshake time of a leg in ticks. -/
def hsTicks (t l : Nat) : Nat := (Config.handshakeTicks (16 * t + l)).toNat

/-- PWM_DRIVE_ON (R220, R223): the drive switch is commanded on, unless its effective on-time would be shorter than the target
switching time; the other switch goes off in either case. -/
def State.driveOn (s : State) (t l : Nat) : State :=
  let s := (s.pullInEnd t l).holdEnd t l
  let x := s.leg t l
  if s.pwmRuns t l && x.runs && !x.driveOn && decide (0 < x.dTicks) then
    let w := driveSwitch x.mode
    if x.dTicks < hsTicks t l + x.tDt + x.tSw then
      s.setLeg t l { (if x.precharge then x else x.cmdOff (otherSw w)) with skipCnt := satAdd 65535 x.skipCnt 1 }
    else if x.precharge then s.setLeg t l { x with driveOn := true }
    else s.setLeg t l { x.drive w with driveOn := true }
  else s

def execPwmDriveOn (t l : Nat) (s : State) : Answer := s.command fun s => s.driveOn t l

/-- PWM_DRIVE_OFF (R220, R223): the drive switch is commanded off and its complement on, unless that on-time would be too short.
After a suppressed drive switch the dead time runs from the off-edge (R224). -/
def State.driveOff (s : State) (t l : Nat) : State :=
  let s := (s.pullInEnd t l).holdEnd t l
  let x := s.leg t l
  if s.pwmRuns t l && x.runs then
    let w := driveSwitch x.mode
    let hs := if x.driveOn then hsTicks t l else 0
    let skipped := !x.driveOn && !(x.sw (otherSw w)).cmd
    let y := x.cmdOff w
    let y := if skipped then y.setSw w { y.sw w with dead := true } else y
    if x.precharge then s.setLeg t l { x with driveOn := false }
    else if x.act.per - x.dTicks < hs + x.tDt + x.tSw then
      s.setLeg t l { y with driveOn := false, skipCnt := satAdd 65535 x.skipCnt 1 }
    else s.setLeg t l { y.drive (otherSw w) with driveOn := false }
  else s

def execPwmDriveOff (t l : Nat) (s : State) : Answer := s.command fun s => s.driveOff t l

/-! ### Solenoid starts (R309 to R312, R420) -/

/-- The leg can take the next solenoid descriptor: it is idle, or held by a SOL_HOLD (R311). -/
def Leg.solReady (x : Leg) : Bool :=
  match x.solCur with
  | none => true
  | some d => d.isHold && decide (x.solPhase = .hold)

/-- A descriptor that releases the leg (R311). -/
def SolDesc.releases (d : SolDesc) : Bool := d.isHold && decide (d.dutyPi = 0) && decide (d.dutyH = 0)

/-- The first waiting descriptor whose condition is met, or whose window has passed, at a 40.8 value; with it the others. Until the first boundary
in Run only a descriptor without a condition counts (R90). -/
def firstMet (c : Nat) (fresh : Bool) : List SolDesc → Option (SolDesc × Met × List SolDesc)
  | [] => none
  | d :: r =>
    match if fresh && d.gate.isSome then .no else gateMet d.gate c with
    | .no => (firstMet c fresh r).map fun q => (q.1, q.2.1, d :: q.2.2)
    | m => some (d, m, r)

/-- A descriptor's condition is evaluated at a 40.8 value: it stands armed from its first evaluation on, and an AT condition that this finds met
is late (R87, R420). -/
def SolDesc.arm (c : Nat) (d : SolDesc) : SolDesc :=
  { d with armed := true
           late := d.late || (!d.armed && (match d.gate with
             | some (.at e) => atOrAfter c e
             | _ => false)) }

/-- The conditions of a leg's waiting descriptors are evaluated at this DT count, from the first boundary in Run on (R90). -/
def State.armed (s : State) (l : List SolDesc) : List SolDesc := if s.glb.freshRun then l else l.map (SolDesc.arm s.ref.c408)

/-- A descriptor of a leg whose condition is met: the hold of SOL_RELEASE ends, a start of R156 to R161 is refused, held or dwells, or it begins. -/
def State.pulseGo (s : State) (t l : Nat) (d : SolDesc) (rest : List SolDesc) : State :=
  let waits (d : SolDesc) : State := s.updLeg t l fun x => { x with solWait := d :: rest }
  if d.releases then
    match (s.leg t l).solCur with
    | none => s.refusePulse t l Status.ok
    | some _ => (s.updLeg t l fun x => { x with solCur := some d, solWait := rest }).endPhase t l
  else if s.tooBig (.leg t l) then s.refusePulse t l Status.overBudget
  else if s.throttled (.leg t l) then waits { d with heldSince := some s.bdt, dwellLeft := some s.dwellPeriods }
  else if !s.legFree t l then waits { d with heldSince := some s.bdt }
  else if !s.admits (.leg t l) || s.waiters.any (fun w => ((s.own w.who).map Prod.fst).contains t) then
    waits { d with heldSince := some s.bdt, held := true }
  else s.beginPulse t l d rest

/-- A leg that can take a pulse evaluates the conditions of its waiting descriptors at this DT count (R88, R310, R420): each is armed from its first
evaluation on, and the first that is met begins, is held, or waits for its leg. -/
def State.pulseStart (s : State) (t l : Nat) : State :=
  let x := s.leg t l
  if !x.solReady || !decide (s.glb.mode = .run) || s.spr.freeze then s
  else
    let x := { x with solWait := s.armed x.solWait }
    let s := s.setLeg t l x
    if x.solWait.any fun d => d.heldSince.isSome then s
    else match firstMet s.ref.c408 s.glb.freshRun x.solWait with
    | none => s
    | some (d, m, rest) =>
      let s := s.setLeg t l { x with solWait := d :: rest }
      if !x.solMode then s.refusePulse t l Status.invalidField
      else if m = .missed then s.refusePulse t l Status.windowMissed
      else s.pulseGo t l d rest

/-- SOL_PULSE_START (R310): at the DT count at which its condition is met, or, for a held start, when the order releases it. -/
def State.pulseCommand (s : State) (t l : Nat) : State :=
  match (s.leg t l).solWait with
  | [] => s
  | d :: _ => if d.heldSince.isSome then (s.pulseStart t l).beginDue (.leg t l) else s.pulseStart t l

def execSolPulseStart (t l : Nat) (s : State) : Answer := s.command fun s => s.pulseCommand t l

/-- A period of a leg's held start and of its booking (R157, R160). -/
def State.legTick (s : State) (t l : Nat) : State :=
  let th := (s.thmTile t).throt
  s.updLeg t l fun x =>
    { x with
      solWait := match x.solWait with
        | d :: rest => { d with dwellLeft := match d.dwellLeft with
            | some n => if th && decide (1 < n) then some (n - 1) else none
            | none => none } :: rest
        | [] => []
      booked := if x.bookLeft = some 0 then 0 else x.booked
      bookLeft := match x.bookLeft with
        | some (n + 1) => some n
        | _ => none }

/-- FREEWHEEL_END (R309, R311): the leg is idle with both switches off, and the descriptor completes; the gates of those that wait are armed at
this DT count (R420). -/
def State.freewheelEnd (s : State) (t l : Nat) : State :=
  match (s.leg t l).solCur with
  | none => s
  | some d =>
    if (s.leg t l).solPhase = .fin ∧ !s.spr.freeze then
      ((s.complete d.tag (s.solRecord d Status.ok)).updLeg t l fun x =>
        { x.toHiz with solCur := none, solPhase := .idle, solLeft := 0 }).pulseStart t l
    else s

def execFreewheelEnd (t l : Nat) (s : State) : Answer := s.command fun s => s.freewheelEnd t l

/-! ### Converter triggers and the tile ADC (R226, R227) -/

/-- CONVERTER_TRIGGER: a compare of a running leg asks for a conversion; a full queue drops it. -/
def State.trigger (s : State) (t l : Nat) (which : Bool) : State :=
  let x := s.leg t l
  if s.hasLeg t l && x.pwmMode && x.runs && !s.spr.freeze && bit x.ctl (if which then 9 else 8) then
    s.adcRequest t (.leg l which (fld x.ctl (if which then 28 else 24) 4) s.dt)
  else s

def execConverterTrigger (t l : Nat) (which : Bool) (s : State) : Answer := s.command fun s => s.trigger t l which

/-- A judged trip of the confirmation (R331): it is out of tolerance when it differs from the threshold by more than VFS/16 + 1 mV. -/
def State.judge (s : State) (t k : Nat) (spare : Bool) (uv : Int) (code : BitVec 12) : State :=
  let x := s.tile t
  if !x.confirming || decide (x.shadowK ≠ k) then s
  else
    let vfs : Nat := 50000 * 2 ^ fld (s.axis (4 * t + k / 2)).regs.cur 16 2
    let bad := decide (vfs / 16 + 1000 < (code.toInt * 125 - uv).natAbs)
    let x := if spare then { x with judgedS := x.judgedS + 1, badS := x.badS + b2n bad }
      else { x with judgedC := x.judgedC + 1, badC := x.badC + b2n bad }
    (s.setTile t x).confirmDecide t

/-- A result register takes a code (R226, R235). -/
def adcResult (w : Word) (which : Bool) (code : BitVec 12) : Word :=
  if which then setFld (setFld w 16 12 code.toNat) 31 1 1 else setFld (setFld w 0 12 code.toNat) 15 1 1

/-- ADC_CONVERSION_DONE (R227): the oldest request takes the code; a supply's slot comes no earlier than 2 µs past the boundary. -/
def State.adcDone (s : State) (t : Nat) (code : BitVec 12) : State :=
  match (s.tile t).adcQ with
  | [] => s
  | r :: rest =>
    if r.ofSupply && !s.supplyTime then s else
    let s := s.updTile t fun x => { x with adcQ := rest }
    match r with
    | .leg l which _ _ => s.updLeg t l fun x => { x with res := adcResult x.res which code }
    | .confirm k spare uv _ => s.judge t k spare uv code
    | .vm => s.updTile t fun x => { x with vmCode := code.toNat }
    | .vgate => s.updTile t fun x => { x with vgCode := code.toNat }

def execAdcConversionDone (t : Nat) (code : BitVec 12) (s : State) : Answer := s.command fun s => s.adcDone t code

/-- The two supply conversions of an interpolation period (R227), and the VM code held at the boundary (R239). -/
def Tile.supplySlots (x : Tile) : Tile :=
  { x with vmBound := x.vmCode, adcQ := x.adcQ.filter (fun r => !r.ofSupply) ++ [.vm, .vgate] }

/-! ### The release of a freeze (R231) -/

/-- An AT or WINDOW condition of a pulse that is met as the freeze ends counts as met at its first evaluation, and begins late. -/
def SolDesc.rearm (c : Nat) (d : SolDesc) : SolDesc :=
  if d.heldSince.isSome then d else { d with armed := match gateMet d.gate c with
    | .no => true
    | _ => false }

/-- The on-time capture of a coil has stood for `n` DT counts (R228). -/
def CoilSt.thaw (n : Nat) (k : CoilSt) : CoilSt :=
  match k.phase with
  | .blanking => { k with onDt := k.onDt + n }
  | .onCompare => { k with onDt := k.onDt + n }
  | _ => k

/-- A coil of an axis that the freeze found idle, or that reached the end of its precharge in it, begins with phase A. -/
def State.thawIdle (s : State) (a : Nat) : State :=
  if ((s.axis a).coil .A).phase = .idle ∧ ((s.axis a).coil .B).phase = .idle then s.beginCoils a else s

/-- An axis at the end of a freeze: captures go on from their frozen values, transitions and turn-ons follow, and gates are evaluated anew. -/
def State.thawAxis (s : State) (a : Nat) : State :=
  let n := s.dt - s.spr.freezeDt
  let s := (s.updCoil a .A (CoilSt.thaw n)).updCoil a .B (CoilSt.thaw n)
  (((s.coilSettle a .A).coilSettle a .B).thawIdle a).updMotion .axis a Motion.disarm

/-- FREEZE_RELEASE (R231). -/
def State.freezeOff (s : State) : State :=
  if s.spr.freeze then
    let s := { s with spr := { s.spr with freeze := false } }
    let s := s.listedAxes.foldl State.thawAxis s
    let s := (s.courses.map Prod.fst).foldl (fun t n => t.updMotion .course n Motion.disarm) s
    let s := s.listedLegs.foldl (fun t p => t.updLeg p.1 p.2 fun x => { x with solWait := x.solWait.map (SolDesc.rearm s.ref.c408) }) s
    s.raiseDev srcDbgFreeze 0
  else s

def execFreezeRelease (s : State) : Answer := s.command State.freezeOff

end Sys2Proof.Machine
end

