-- ==== Sys2Proof/Machine/Endpoint.lean ====
section
/-! DEFINITION. The PCI Express endpoint: what it is (R361), the requests that it issues (R362, R363, R369, R397), and its MSI-X structures
(R364 to R367). -/

namespace Sys2Proof.Machine

/-! ### What the endpoint is (R361) -/

/-- What the endpoint's configuration space shows, and the limits of its requests. The capability bits of every feature that is not listed
read 0. -/
structure Endpoint where
  vendor : BitVec 16
  device : BitVec 16
  subVendor : BitVec 16
  subDevice : BitVec 16
  revision : BitVec 8
  classCode : BitVec 24
  headerType : BitVec 8
  interruptPin : BitVec 8
  /-- the size of BAR0 in bytes, and its low bits: 64-bit memory, not prefetchable -/
  bar0Size : Nat
  bar0Type : BitVec 4
  vectors : Nat
  /-- the largest payload and the largest read request in bytes, the outstanding non-posted requests, the completion timeout in DT counts -/
  maxPayload : Nat
  maxRead : Nat
  maxTags : Nat
  timeout : Nat
  aer : Bool
  ecrc : Bool
  /-- D3hot beside D0; ASPM, MSI, and FLR, ATS, PASID, SR-IOV, AtomicOps, TPH and LTR -/
  d3hot : Bool
  aspm : Bool
  msi : Bool
  others : Bool
deriving DecidableEq, Repr

/-- The endpoint of a variant: the device ID is GLB_ID.PART. -/
def Variant.endpoint (v : Variant) : Endpoint :=
  { vendor := 0x1F7C, device := BitVec.ofNat 16 v.part, subVendor := 0x1F7C, subDevice := BitVec.ofNat 16 v.part
    revision := 0xB0, classCode := 0x088000, headerType := 0, interruptPin := 0
    bar0Size := 0x40000, bar0Type := 0b0100, vectors := 16
    maxPayload := 256, maxRead := 512, maxTags := 32, timeout := 200000
    aer := true, ecrc := true, d3hot := true, aspm := false, msi := false, others := false }

/-! ### The requests (R362, R363) -/

/-- The address of a request. -/
def Output.addr : Output → Nat
  | .memWrite a _ => a
  | .readRequest a _ => a
  | .msix _ a _ => a
  | .frame _ _ => 0
  | .busWrite _ => 0
  | .readData _ => 0
  | .scan _ => 0

/-- No request sets Relaxed Ordering or No Snoop, and every one uses traffic class 0. -/
def Output.relaxedOrdering (_ : Output) : Bool := false
def Output.noSnoop (_ : Output) : Bool := false
def Output.trafficClass (_ : Output) : Nat := 0

/-- A request uses a 64-bit address exactly where its target lies at or above 4 GiB. -/
def Output.wideAddr (o : Output) : Bool := decide (2 ^ 32 ≤ o.addr)

/-- Words as they lie in host memory: every value is little-endian (R363), and a 64-bit value is two words, the low one first. -/
def hostBytes (ws : List Word) : List Byte := ws.flatMap fun w => leBytes 4 w.toNat

/-- The word at an offset of bytes read from host memory. -/
def hostWord (bytes : List Byte) (at_ : Nat) : Word :=
  wd (((bytes.drop at_).take 4).foldr (fun b n => b.toNat + 256 * n) 0)

/-- The descriptor that 32 bytes of a ring hold (R363, R404). -/
def hostDesc (bytes : List Byte) : Desc :=
  { w0 := hostWord bytes 0, w1 := hostWord bytes 4, w2 := hostWord bytes 8, w3 := hostWord bytes 12, w4 := hostWord bytes 16
    w5 := hostWord bytes 20, w6 := hostWord bytes 24, w7 := hostWord bytes 28, param := [] }

/-! ### The managed window (R369) -/

/-- HOST_CTRL.EN. -/
def HostB.enabled (h : HostB) : Bool := bit h.ctrl 0

/-- LOG2 and base of the managed window. -/
def HostB.winLog (h : HostB) : Nat := fld h.winSize 0 6
def HostB.winBase (h : HostB) : Nat := h.winHi.toNat * 2 ^ 32 + h.winLo.toNat / 2 ^ 20 * 2 ^ 20

/-- The window's registers allow it to be enabled. -/
def HostB.winOk (h : HostB) : Bool :=
  decide (20 ≤ h.winLog) && decide (h.winLog ≤ 34) && decide (h.winBase % 2 ^ h.winLog = 0)

/-- An extent lies wholly within the window that the registers give (R394). -/
def HostB.withinWindow (h : HostB) (addr bytes : Nat) : Bool :=
  decide (h.winBase ≤ addr) && decide (addr + bytes ≤ h.winBase + 2 ^ h.winLog)

/-- An extent of host memory that the device may reach: the window is enabled and holds it. -/
def HostB.inWindow (h : HostB) (addr bytes : Nat) : Bool := h.enabled && h.withinWindow addr bytes

/-- An extent of the anchor page, the one place outside the window that the device reaches. -/
def State.onAnchor (s : State) (addr bytes : Nat) : Bool :=
  match s.glb.anchor with
  | none => false
  | some a => decide (a ≤ addr) && decide (addr + bytes ≤ a + 4096)

/-- The device may reach what a request names. -/
def State.reaches (s : State) : Output → Bool
  | .memWrite a ws => s.host.inWindow a (4 * ws.length) || s.onAnchor a (4 * ws.length)
  | .readRequest a n => s.host.inWindow a n || s.onAnchor a n
  | .msix _ _ _ => true
  | .frame _ _ => true
  | .busWrite _ => true
  | .readData _ => true
  | .scan _ => true

/-- The device can issue requests (R397). -/
def State.canIssue (s : State) : Bool := s.host.linkUp && s.host.bme && !s.host.d3

/-- The largest payload and the largest read request in bytes: the programmed ones within what the endpoint supports (R361). -/
def HostB.payload (h : HostB) : Nat := max 4 (min 256 h.mps)
def HostB.readMax (h : HostB) : Nat := max 4 (min 512 h.mrrs)

/-- The requests that carry a memory write or a read, in ascending order of address: none is larger than the programmed size (R361). -/
def HostB.pieces (h : HostB) : Output → List Output
  | .memWrite a ws =>
    let n := h.payload / 4
    (List.range ((ws.length + n - 1) / n)).map fun i => .memWrite (a + 4 * n * i) ((ws.drop (n * i)).take n)
  | .readRequest a k =>
    let n := h.readMax
    (List.range ((k + n - 1) / n)).map fun i => .readRequest (a + n * i) (min n (k - n * i))
  | o => [o]

/-- A request is issued in the order given; it is lost while none can be issued (R397), and none is issued for what the device may not reach. -/
def State.post (s : State) (o : Output) : State :=
  if s.canIssue && s.reaches o then { s with out := s.out ++ s.host.pieces o } else s

/-! ### Outstanding reads (R361) -/

/-- The tags in use: the requests of the reads that have been issued. -/
def HostB.tags (h : HostB) : Nat := ((h.asked.filter fun x => x.sent.isSome).map fun x => x.parts.length).sum

/-- The waiting reads are issued in order, each once tags are free for all of its requests. -/
def issueReads (now free : Nat) : List ReadReq → List ReadReq × List Output
  | [] => ([], [])
  | x :: l =>
    if x.sent.isSome then
      let r := issueReads now free l
      (x :: r.1, r.2)
    else if x.parts.length ≤ free then
      let r := issueReads now (free - x.parts.length) l
      ({ x with sent := some now } :: r.1, x.parts ++ r.2)
    else (x :: l, [])

/-- What waits for a tag is issued while requests can be issued; the device has 32 tags. -/
def State.issueAsked (s : State) : State :=
  if s.canIssue then
    let r := issueReads s.dt (s.variant.endpoint.maxTags - s.host.tags) s.host.asked
    { s with host := { s.host with asked := r.1 }, out := s.out ++ r.2 }
  else s

/-- A read of host memory. -/
def State.request (s : State) (src : ReadSrc) (o : Output) : State :=
  if s.canIssue && s.reaches o then
    ({ s with host := { s.host with asked := s.host.asked ++ [ReadReq.mk src (s.host.pieces o) none] } }).issueAsked
  else s

/-- The oldest read for a purpose has been answered: its tags are free. -/
def State.answered (s : State) (src : ReadSrc) : State :=
  ({ s with host := { s.host with asked := s.host.asked.eraseP fun x => decide (x.src = src) } }).issueAsked

/-- The oldest read for a purpose is one whose result was discarded while it was outstanding: more reads are than the `live` ones. -/
def HostB.discarded (h : HostB) (src : ReadSrc) (live : Nat) : Bool :=
  decide (live < (h.asked.filter fun x => decide (x.src = src)).length)

/-- A ring asks for nothing more: what waits for a tag on its behalf is not issued. -/
def State.unask (s : State) (r : Nat) : State :=
  { s with host := { s.host with
      asked := s.host.asked.filter fun x => x.sent.isSome || !(decide (x.src = .ring r) || decide (x.src = .param r)) } }

/-- A read whose completion timeout has passed: 1 ms (R361). -/
def State.overdue (s : State) : List ReadSrc :=
  (s.host.asked.filter fun x => x.sent.any fun t => decide (t + s.variant.endpoint.timeout ≤ s.dt)).map ReadReq.src

/-! ### MSI-X (R364 to R367) -/

/-- A word of the table at reset: every vector is masked, as the PCI Express specification resets Vector Control (log entry 39). -/
def msixReset (i : Nat) : Word := if i % 4 = 3 then 1 else 0

/-- Word i of the table: address, upper address, data and Vector Control of vector i / 4. -/
def HostB.msixWord (h : HostB) (i : Nat) : Word := (h.msixTab.lookup i).getD (msixReset i)

/-- The mask bit of a vector. -/
def HostB.masked (h : HostB) (v : Nat) : Bool := bit (h.msixWord (4 * v + 3)) 0

/-- The message of a vector. -/
def HostB.message (h : HostB) (v : Nat) : Output :=
  .msix v ((h.msixWord (4 * v + 1)).toNat * 2 ^ 32 + (h.msixWord (4 * v)).toNat) (h.msixWord (4 * v + 2))

/-- The pending bit of a vector is written. -/
def HostB.setPending (h : HostB) (v : Nat) (on : Bool) : HostB :=
  { h with msixPend := if on then h.msixPend ||| BitVec.ofNat 16 (2 ^ v) else h.msixPend &&& ~~~ BitVec.ofNat 16 (2 ^ v) }

/-- A vector is sent: a masked one becomes pending, and one that falls due while no request can be issued is lost (R397). -/
def State.sendVector (s : State) (v : Nat) : State :=
  if !s.canIssue then s
  else if s.host.masked v then { s with host := s.host.setPending v true }
  else s.post (s.host.message v)

/-- The MSI-X structures, which follow the PCI Express rules (R365). -/
def msixOff (off : Nat) : Bool :=
  (decide (0x3E000 ≤ off) && decide (off < 0x3E100)) || (decide (0x3F000 ≤ off) && decide (off < 0x3F008))

/-- The word that a read of the structures returns: a table word, or 32 pending bits. -/
def HostB.msixRead (h : HostB) (off : Nat) : Word :=
  if off < 0x3F000 then h.msixWord ((off - 0x3E000) / 4) else if off < 0x3F004 then h.msixPend.setWidth 32 else 0

/-- What of a table word software writes: the address is a multiple of 4, and of Vector Control only the mask bit is there. -/
def msixBits (i : Nat) : Word := if i % 4 = 0 then 0xFFFFFFFC else if i % 4 = 3 then 1 else 0xFFFFFFFF

/-- A write of the structures: a vector that is pending as its mask bit is cleared is sent. The pending bits are read-only. -/
def State.msixWrite (s : State) (off : Nat) (v : Word) : State :=
  if off < 0x3F000 then
    let i := (off - 0x3E000) / 4
    let s := { s with host := { s.host with msixTab := Bank.set s.host.msixTab i (v &&& msixBits i) } }
    if !s.host.masked (i / 4) && s.host.msixPend.getLsbD (i / 4) && s.canIssue then
      ({ s with host := s.host.setPending (i / 4) false }).sendVector (i / 4)
    else s
  else s

/-- The endpoint's configuration space is reset, its MSI-X state included (R364); the sizes that the host programs are those of the PCI Express
specification (log entry 87). -/
def HostB.resetEndpoint (h : HostB) : HostB := { h with bme := false, d3 := false, mps := 128, mrrs := 512, msixTab := [], msixPend := 0 }

end Sys2Proof.Machine
end

