-- ==== Sys2Proof/Machine/HostLink.lean ====
section
/-! DEFINITION. What the device sends to the host (R362, R386, R392): operation status blocks and
result arrays (R391 to R393, R425 to R427). -/

namespace Sys2Proof.Machine

/-! ### Addresses (R369, R377, R394) -/

/-- A 64-bit address of two words. -/
def addr64 (lo hi : Word) : Nat := hi.toNat * 2 ^ 32 + lo.toNat

/-- The base of a ring, its size exponent, and the slot of an index (R377). -/
def Ring.base (x : Ring) : Nat := x.baseHi.toNat * 2 ^ 32 + x.baseLo.toNat / 2 ^ 12 * 2 ^ 12
def Ring.log (x : Ring) : Nat := fld x.ctrl 8 5
def Ring.slot (x : Ring) (i : Nat) : Nat := x.base + 32 * (i % 2 ^ x.log)

/-- The base of a table window and its extent in bytes (R394). -/
def TWin.base (x : TWin) : Nat := x.baseHi.toNat * 2 ^ 32 + x.baseLo.toNat / 2 ^ 12 * 2 ^ 12
def TWin.bytes (x : TWin) : Nat := 4096 * fld x.size 0 19

/-! ### Long operations (R391 to R393, R426) -/

/-- The bytes of a result entry (R425): 32 for HOME, 16 for the others. -/
def entryBytes (opcode : Nat) : Nat := if opcode = 0x20 then 32 else 16

/-- The OSB's 16 words (R426), `dt` the tick boundary. -/
def LongOp.osbWords (x : LongOp) (dt : Nat) : List Word :=
  [ x.word0of x.count, wd (x.flags * 2 ^ 16 + x.opcode * 2 ^ 8 + (if x.st = 3 then x.status else 0)), wd x.dropped,
    wd x.tag.ring, wd x.tag.index, wd dt, wd (dt / 2 ^ 32), x.summary ] ++ (x.param ++ List.replicate 8 0).take 8

/-- An entry is appended, or counted as dropped when the array is full (R392). -/
def LongOp.append (x : LongOp) (e : List Word) : LongOp :=
  if x.count + x.fresh.length < x.cap then { x with fresh := x.fresh ++ [e] } else { x with dropped := satAdd (2 ^ 32 - 1) x.dropped 1 }

/-- PROGRESS never decreases (R392). -/
def LongOp.advance (x : LongOp) (p : Nat) : LongOp := { x with progress := max x.progress (min 65535 p) }

/-- The entries of an operation are written behind those before them. -/
def LongOp.entries (x : LongOp) : List Output :=
  (x.fresh.zipIdx).map fun p => .memWrite (x.res + entryBytes x.opcode * (x.count + p.2)) p.1

/-- The OSB of one operation is brought up to date: words 1 to 15, then word 0; one accepted in this tick has been written whole. -/
def State.writeOsb (s : State) (x : LongOp) : State :=
  if x.st = 1 then s
  else
    let w := x.osbWords s.tickDt
    (s.post (.memWrite (x.osb + 4) (w.drop 1))).post (.memWrite x.osb (w.take 1))

/-- The update of a tick (R387, R392): first every operation's new entries, then its OSB, word 0 last. -/
def State.updateOsbs (s : State) : State :=
  let s := s.host.longs.foldl (fun t x => x.entries.foldl State.post t) s
  let ls := s.host.longs.map fun (x : LongOp) => { x with count := x.count + x.fresh.length, fresh := [] }
  let s := ls.foldl State.writeOsb s
  { s with host := { s.host with
      longs := (ls.filter fun x => !x.ended).map fun (x : LongOp) => { x with st := max 2 x.st } } }

/-- An operation is accepted: the whole OSB is written with STATE ACCEPTED (R392). -/
def State.acceptLong (s : State) (x : LongOp) : State :=
  let s := { s with host := { s.host with longs := s.host.longs ++ [x] } }
  s.post (.memWrite x.osb (x.osbWords s.tickDt))

end Sys2Proof.Machine
end

