-- ==== Sys2Proof/Machine/FaultPort.lean ====
section
/-! DEFINITION. Acknowledging and reading records (R416, R515, R519, R520), the safety inputs' level, the reaction window and the end
of the nFAULT pulse (R516, R521). -/

namespace Sys2Proof.Machine

/-! ### Safety inputs (R340) -/

/-- A sense input is active or unknown as a safety input. -/
def State.safetyOn (s : State) (n : Nat) : Bool :=
  !s.inp.isKnown n || decide (s.inp.level n = s.inp.safeAct.getLsbD n)

/-! ### Acknowledging (R519, R520) -/

/-- The leg that a detail word of R318 names. -/
def detailLeg (d : Word) : Nat × Nat := (fld d 0 8 / 16, fld d 0 8 % 16)

/-- The cause of a record persists, by its source (R519). -/
def State.causePersists (s : State) (src : Nat) (d : Word) : Bool :=
  let t := src % 16
  if src = srcEnLow then !s.glb.enIn
  else if src = 0x004 ∨ src = 0x005 then true
  else if src = 0x00A then !s.canIssue
  else if src = 0x00D then decide (s.ref.lock = .lost)
  else if src = 0x00F then s.str.extrap
  else if 0x0C0 ≤ src ∧ src < 0x100 then s.safetyOn (src - 0x0C0)
  else if 0x140 ≤ src ∧ src < 0x180 then Bank.get false s.spr.runPend (src - 0x140)
  else if 0x2C0 ≤ src ∧ src < 0x2E0 then (s.tile t).vgUv || (s.tile t).vgOv
  else if 0x2E0 ≤ src ∧ src < 0x340 then s.tripActive (detailLeg d).1 (detailLeg d).2
  else if 0x340 ≤ src ∧ src < 0x360 then (s.tile t).vmUv || (s.tile t).vmOv
  else if 0x390 ≤ src ∧ src < 0x3A0 then
    (s.tile t).failed.getLsbD (fld d 4 3) && !((s.tile t).steered && decide ((s.tile t).steerK = fld d 4 3))
  else if 0x3E0 ≤ src ∧ src < 0x3F0 then (s.thmTile t).warn
  else if 0x3F0 ≤ src ∧ src < 0x400 then (s.thmTile t).throt
  else false

/-- A record may be acknowledged now. -/
def State.mayAck (s : State) (e : Entry) : Bool :=
  match e.cls with
  | .log => true
  | .degrade => true
  | .lock => true
  | .isolate => !s.causePersists e.src e.detail
  | .halt => !s.causePersists e.src e.detail
  | .trip => !s.causePersists e.src e.detail

/-- The record of a number is acknowledged unless its cause persists; the isolation holds of its events end (R519, R520). -/
def State.ackRecord (s : State) (uid : Nat) : State :=
  match s.flt.hist.find? fun e => decide (e.uid = uid) with
  | none => s
  | some e =>
    if s.mayAck e then
      { s with
        flt := { s.flt with hist := s.flt.hist.map fun x => if x.uid = uid then { x with ack := true } else x }
        axes := s.axes.map fun p => (p.1, { p.2 with isoHold := p.2.isoHold.filter fun u => decide (u ≠ uid) })
        tiles := s.tiles.map fun p => (p.1, { p.2 with isoHold := p.2.isoHold.filter fun u => decide (u ≠ uid) }) }
    else s

/-- The record of the port latch is acknowledged, where it is still held (R515). -/
def State.ackLatch (s : State) : State :=
  match s.flt.latchRec with
  | some u => s.ackRecord u
  | none => s

/-- The entry at an age is copied into the port latch; zeros beyond the entries held (R515). -/
def State.latchEntry (s : State) (age : Nat) : State :=
  match s.flt.hist[age]? with
  | some e => { s with flt := { s.flt with latch := e.words s.dt, latchRec := some e.uid } }
  | none => { s with flt := { s.flt with latch := List.replicate 11 0, latchRec := none } }

/-! ### Reading the history (R416) -/

/-- A record number is at or after another, modulo 2^32. -/
def atOrAfter32 (n from_ : Nat) : Bool := decide (sub32 n from_ < 2 ^ 31)

/-- The records held from a number on, oldest first. -/
def Flt.from (f : Flt) (n : Nat) : List Entry := (f.hist.filter fun e => atOrAfter32 e.num n).reverse

/-- The records from a number on that are no longer held. -/
def Flt.lostFrom (f : Flt) (n : Nat) : Nat :=
  if atOrAfter32 f.seq n then sub32 f.seq n - (f.from n).length else 0

/-! ### The commands -/

/-- REACTION_WINDOW_END (R516). -/
def State.windowEnd (s : State) (n : Nat) : State :=
  { s with flt := { s.flt with hist := s.flt.hist.map fun e =>
      if e.num = n ∧ e.dt + 400 ≤ s.dt then { e with window := false } else e } }

def execReactionWindowEnd (n : Nat) (s : State) : Answer := s.command fun s => s.windowEnd n

/-- NFAULT_PULSE_END (R521): the pin follows LEVEL again. -/
def State.pulseOver (s : State) : State :=
  match s.flt.pulse with
  | some t => if t ≤ s.dt then { s with flt := { s.flt with pulse := none } } else s
  | none => s

def execNfaultPulseEnd (s : State) : Answer := s.command State.pulseOver

end Sys2Proof.Machine
end

