-- ==== Sys2Proof/Machine/Thermal.lean ====
section
/-! DEFINITION. The thermal unit (R346 to R355): sensors, tile temperatures, warning, throttle and shutdown. Temperatures are in 1/16 °C. -/

namespace Sys2Proof.Machine

def srcThermShutdown : Nat := 0x002
def srcSensorFail : Nat := 0x3C0
def srcTileTempLost : Nat := 0x3D0
def srcThermWarn : Nat := 0x3E0
def srcThermThrottle : Nat := 0x3F0

/-! ### Medians -/

/-- Insert in rising order. -/
def insertInt (x : Int) (l : List Int) : List Int :=
  match l with
  | [] => [x]
  | y :: ys => if x ≤ y then x :: y :: ys else y :: insertInt x ys

/-- Twice the median of a list: the mean of the two middle values when the count is even (R347). -/
def median2 (l : List Int) : Int :=
  let s := l.foldr insertInt []
  if s.length % 2 = 1 then 2 * s.getD (s.length / 2) 0 else s.getD (s.length / 2 - 1) 0 + s.getD (s.length / 2) 0

/-! ### Tile temperature (R346 to R348) -/

/-- The good sensors of a tile that has been sampled. -/
def ThmTile.good (x : ThmTile) : List Int :=
  if x.valid then (if x.broken0 then [] else [x.s0]) ++ (if x.broken1 then [] else [x.s1]) else []

/-- The tiles next to a tile. -/
def State.nextTiles (s : State) (t : Nat) : List Nat :=
  (if 0 < t then [t - 1] else []) ++ (if t + 1 < s.variant.tiles then [t + 1] else [])

/-- The reference set of the sensors of a tile. -/
def State.refSet (s : State) (t : Nat) : List Int := ((s.thmTile t).good ++ (s.nextTiles t).flatMap fun u => (s.thmTile u).good)

/-- Both sensors are broken. -/
def ThmTile.blind (x : ThmTile) : Bool := x.broken0 && x.broken1

/-- A sensor that lies more than 15 °C from the median counts one deviation more. -/
def devCount (n : Nat) (med2 v : Int) : Nat := if 480 < (2 * v - med2).natAbs then n + 1 else 0

/-- The temperature of a tile that has a good sensor (R346). -/
def ThmTile.pick (x : ThmTile) (med2 : Int) : Int :=
  if x.broken0 then x.s1
  else if x.broken1 then x.s0
  else if (x.s0 - x.s1).natAbs ≤ 240 then max x.s0 x.s1
  else if (2 * x.s0 - med2).natAbs < (2 * x.s1 - med2).natAbs then x.s0
  else if (2 * x.s1 - med2).natAbs < (2 * x.s0 - med2).natAbs then x.s1
  else max x.s0 x.s1

/-- The temperatures of neighbours that have a good sensor. -/
def State.nearTemps (s : State) (t : Nat) : List Int :=
  ((s.nextTiles t).filter fun u => (s.thmTile u).valid && !(s.thmTile u).blind).map fun u => (s.thmTile u).temp

/-! ### Levels (R350 to R353) -/

/-- The rising thresholds of R351 in 1/16 °C. -/
def Thm.warnAt (x : Thm) : Int := 16 * (fld x.cfg 8 8 : Int)
def Thm.throtAt (x : Thm) : Int := 16 * (fld x.cfg 16 8 : Int)

/-- The count of samples beyond a threshold; a flag changes at the fourth. -/
def levelCount (flag : Bool) (n : Nat) (rise temp : Int) : Nat :=
  if flag then (if temp < rise - 160 then n + 1 else 0) else (if rise < temp then n + 1 else 0)

/-- A flag and its count after a sample. -/
def levelStep (flag : Bool) (n : Nat) (rise temp : Int) : Bool × Nat :=
  let c := levelCount flag n rise temp
  if 4 ≤ c then (!flag, 0) else (flag, c)

/-- The tile is sampled at 20 kHz: within 10 °C of an active threshold (R350). -/
def Thm.near (x : Thm) (y : ThmTile) : Bool :=
  [if y.warn then x.warnAt - 160 else x.warnAt, if y.throt then x.throtAt - 160 else x.throtAt, 2400].any fun h =>
    decide ((y.temp - h).natAbs ≤ 160)

/-- The detail word of a thermal source (R360). -/
def thermDetail (t : Nat) (temp : Int) : Word := wd (t + ((temp % 65536).toNat) * 2 ^ 16)

/-- A tile is taken to Hi-Z for the life of the device (R348). -/
def State.isoForLife (s : State) (t : Nat) : State :=
  ((s.isoTile t).updTile t fun x => { x with isoLife := true }).settle

/-- Sensors that have deviated eight times are declared broken (R347). -/
def State.breakSensors (s : State) (t : Nat) : State :=
  let x := s.thmTile t
  let b0 := decide (8 ≤ x.dev0) && !x.broken0
  let b1 := decide (8 ≤ x.dev1) && !x.broken1
  let s := s.setThmTile t { x with broken0 := x.broken0 || b0, broken1 := x.broken1 || b1 }
  let s := if b0 || b1 then { s with thm := { s.thm with flags := s.thm.flags ||| bw true 18 } } else s
  let s := if b0 then s.fault (srcSensorFail + t) (wd t) (.tile t) else s
  if b1 then s.fault (srcSensorFail + t) (wd (t + 16)) (.tile t) else s

/-- The tile temperature is formed (R346, R348). -/
def State.formTemp (s : State) (t : Nat) : State :=
  let x := s.thmTile t
  if x.blind then
    let near := s.nearTemps t
    let s := match near with
      | [] => if (s.tile t).isoLife then s else s.isoForLife t
      | a :: l => s.setThmTile t { x with temp := l.foldl max a + 160 }
    if x.lost then s
    else (s.setThmTile t { s.thmTile t with lost := true }).fault (srcTileTempLost + t) (wd t) (.tile t)
  else s.setThmTile t { x with temp := x.pick (median2 (s.refSet t)) }

/-- The flags of a tile follow its temperature (R350 to R353). -/
def State.formLevels (s : State) (t : Nat) : State :=
  let x := s.thmTile t
  let w := levelStep x.warn x.cntW s.thm.warnAt x.temp
  let h := levelStep x.throt x.cntT s.thm.throtAt x.temp
  let c := if 2400 < x.temp then x.cntS + 1 else 0
  let y := { x with warn := w.1, cntW := w.2, throt := h.1, cntT := h.2, cntS := min 4 c }
  let y := { y with fast := s.thm.near y }
  let newW := w.1 && !x.warn
  let newT := h.1 && !x.throt
  let s := s.setThmTile t y
  let s := { s with thm := { s.thm with flags := s.thm.flags ||| bw newW 16 ||| bw newT 17 } }
  let s := if newW then s.fault (srcThermWarn + t) (thermDetail t x.temp) (.tile t) else s
  let s := if newT then s.fault (srcThermThrottle + t) (thermDetail t x.temp) (.tile t) else s
  if decide (4 ≤ c) && !s.thm.shut then
    ({ s with thm := { s.thm with shut := true } }).fault srcThermShutdown (thermDetail t x.temp) .none
  else s

/-- The wear counter of a sensor in use counts a sample that lies more than 15 °C from the median (R495). -/
def State.sensorWear (s : State) (t : Nat) : State :=
  let x := s.thmTile t
  let s := if decide (0 < x.dev0) && !x.broken0 then s.wear (0x2F0 + 2 * t) else s
  if decide (0 < x.dev1) && !x.broken1 then s.wear (0x2F0 + 2 * t + 1) else s

/-- THERMAL_SAMPLE (R346 to R353): both sensors of a tile are read together. -/
def State.thermal (s : State) (t : Nat) (a b : BitVec 16) : State :=
  if s.hasTile t then
    let s := s.setThmTile t { s.thmTile t with s0 := a.toInt, s1 := b.toInt, valid := true }
    let m := median2 (s.refSet t)
    let s := s.setThmTile t
      (let x := s.thmTile t; { x with dev0 := devCount x.dev0 m x.s0, dev1 := devCount x.dev1 m x.s1 })
    (((s.sensorWear t).breakSensors t).formTemp t).formLevels t
  else s

/-- NV writes are refused (R354). -/
def State.nvBlock (s : State) : Bool :=
  s.thm.shut || s.thm.tiles.any fun p => p.2.throt || decide (p.2.temp < -400 ∨ 1680 < p.2.temp)

end Sys2Proof.Machine
end

