-- ==== Sys2Proof/Machine/Operands.lean ====
section
/-! DEFINITION. The operands of a descriptor (R404 to R415, R425, R428): the fields of its words, its target, and the checks of R407 up
to the device mode. -/

namespace Sys2Proof.Machine

/-! ### Words and fields -/

/-- A parameter word read with the descriptor, 0 where none was read (R408, R426). -/
def par (d : Desc) (i : Nat) : Word := d.param.getD i 0

/-- A 48-bit signed value: bits 31:0 of one word, bits 47:32 in the low half of another (R411, R413). -/
def signed48 (lo hi : Word) : Int := signed 48 (lo.toNat + fld hi 0 16 * 2 ^ 32)

/-- The 40.8 values of the start area (R412). -/
def startE (d : Desc) : Nat := d.w4.toNat + fld d.w6 0 16 * 2 ^ 32
def startClose (d : Desc) : Nat := d.w5.toNat + fld d.w6 16 16 * 2 ^ 32

/-- START (R404). -/
def startKind (d : Desc) : Nat := fld d.w0 22 2

/-- The start condition that a descriptor carries. -/
def gateOf (d : Desc) : Option Gate :=
  match startKind d with
  | 1 => some (.at (startE d))
  | 2 => some (.window (startE d) (startClose d))
  | _ => none

/-! ### Targets (R384, R406) -/

/-- What a descriptor addresses. -/
inductive Target where
  | device
  | unit (k : UnitKind) (n : Nat)
  | legs (t mask : Nat)
deriving DecidableEq, Repr

/-- The target by kind code and number. -/
def targetOf (kind n mask : Nat) : Target :=
  match kind with
  | 1 => .unit .axis n
  | 2 => .unit .course n
  | 3 => .legs n mask
  | _ => .device

/-- The scope's kind (R402). -/
def Ring.kind (x : Ring) : Nat := fld x.scope 0 2

/-- The target of a descriptor on a ring: the ring's scope, or TKIND and TINDEX on a service ring. -/
def Ring.target (x : Ring) (d : Desc) : Target :=
  if x.kind = 0 then targetOf (fld d.w0 30 2) (fld d.w0 24 6) 0xFFFF else targetOf x.kind (fld x.scope 8 6) (fld x.scope 16 16)

/-- The opcodes of R409. -/
def opcodes : List Nat :=
  [0x00, 0x01, 0x02, 0x10, 0x11, 0x12, 0x13, 0x14, 0x15, 0x16, 0x17, 0x20, 0x21] ++
  [0x28, 0x29, 0x30, 0x31, 0x38, 0x39, 0x40, 0x41, 0x42, 0x43, 0x44, 0x45]

/-- The opcodes that a kind of target accepts (R384, R406): 0 device, 1 axis, 2 course, 3 leg set. -/
def kindAccepts (kind o : Nat) : Bool :=
  decide (o ∈ [0x00, 0x01, 0x02]) ||
  (match kind with
   | 1 => decide (o ∈ [0x10, 0x11, 0x12, 0x13, 0x14, 0x15, 0x16, 0x28, 0x29, 0x31, 0x20, 0x17, 0x21])
   | 2 => decide (o ∈ [0x10, 0x11, 0x12, 0x13, 0x14, 0x15, 0x16, 0x28, 0x29, 0x31, 0x30])
   | 3 => decide (o ∈ [0x38, 0x39])
   | _ => decide (o ∈ [0x40, 0x41, 0x42, 0x43, 0x44, 0x45]))

/-- A long operation (R409). -/
def isLong (o : Nat) : Bool := decide (o ∈ [0x20, 0x21, 0x40, 0x43, 0x44])

/-- The opcodes with a start condition AT or WINDOW (R409). -/
def startsGated (o : Nat) : Bool := decide (o ∈ [0x11, 0x12, 0x13, 0x16, 0x29, 0x38, 0x39])

/-- The modes in which a descriptor is carried out (R409). -/
def modeAccepts (o : Nat) (m : DevMode) : Bool :=
  match m with
  | .sealed => false
  | .configure => false
  | .diagnose => decide (o ∈ opcodes) && decide (o ∉ [0x11, 0x12, 0x13, 0x16, 0x20, 0x28, 0x29, 0x30, 0x38, 0x39])
  | .run => decide (o ≠ 0x40)
  | .hold => decide (o ≠ 0x40 ∧ o ≠ 0x20 ∧ o ≠ 0x21)
  | .safe => decide (o ∉ [0x11, 0x12, 0x13, 0x16, 0x20, 0x21, 0x28, 0x29, 0x30, 0x38, 0x39, 0x40])

/-! ### Checks (R407) -/

/-- A failed check: the status, and WORD and BIT of an invalid field (R423). -/
structure Bad where
  status : Nat
  word : Nat
  bit : Nat
deriving DecidableEq, Repr

/-- An invalid field. -/
def bad (w b : Nat) : Option Bad := some { status := Status.invalidField, word := w, bit := b }

/-- A failure without a field. -/
def badStatus (st : Nat) : Option Bad := some { status := st, word := 0, bit := 0 }

/-- The first failure of a list of checks. -/
def firstBad (l : List (Bool × Option Bad)) : Option Bad :=
  match l with
  | [] => none
  | (c, b) :: rest => if c then b else firstBad rest

/-- Step 1: the opcode, word 7, the scope and TKIND. -/
def check1 (x : Ring) (d : Desc) : Option Bad :=
  firstBad [
    (!decide (op d ∈ opcodes), bad 0 0),
    (bit d.w7 31, bad 7 31),
    (decide (x.kind ≠ 0) && !kindAccepts x.kind (op d), bad 0 0),
    (decide (x.kind = 0) && !kindAccepts (fld d.w0 30 2) (op d), bad 0 30)]

/-- A target is present (R11). -/
def State.targetPresent (s : State) (t : Target) : Bool :=
  match t with
  | .device => true
  | .unit k n => s.present k n
  | .legs t _ => decide (t < s.variant.tiles)

/-- The member kind of a BIND_COURSE (R413). -/
def memberKind (d : Desc) : UnitKind := if bit d.w1 14 then .course else .axis

/-- The tiles of a mask. -/
def maskBits (n m : Nat) : List Nat := (List.range n).filter fun i => decide (m / 2 ^ i % 2 = 1)

/-- Step 2: the target and every unit that a field names is present. -/
def State.check2 (s : State) (t : Target) (d : Desc) : Option Bad :=
  let v := s.variant
  let named : Bool := match op d with
    | 0x20 => decide (fld d.w1 8 6 < v.senses)
    | 0x28 => decide (fld d.w3 0 4 < v.windows)
    | 0x29 => if bit d.w1 4 then decide (4 ≤ fld d.w1 0 4 ∨ fld d.w1 0 4 < v.encoders) else decide (fld d.w1 0 4 < v.pairs)
    | 0x30 => s.present (memberKind d) (fld d.w1 8 6)
    | 0x40 => (maskBits 12 (fld d.w1 0 12)).all fun i => decide (i < v.tiles)
    | 0x45 =>
      match fld d.w1 0 4 with
      | 1 => decide (fld d.w1 8 8 < v.legs)
      | 2 => decide (fld d.w1 8 8 < v.tiles)
      | 4 => decide (fld d.w1 8 8 < v.axes)
      | _ => true
    | _ => true
  if s.targetPresent t && named then none else badStatus Status.unitAbsent

/-- Step 3: every host address lies within the managed window over its extent. -/
def State.check3 (s : State) (d : Desc) : Option Bad :=
  let h := s.host
  let o := op d
  let good : Bool :=
    if o = 0x10 then h.inWindow (addr64 d.w2 d.w3) 32
    else if o = 0x41 then
      let c := fld d.w1 0 6
      h.inWindow (addr64 d.w3 d.w4) (48 * (if 1 ≤ c ∧ c ≤ 32 then c else 1))
    else if isLong o then
      h.inWindow (addr64 d.w2 d.w3) 64 &&
      (decide (fld d.w6 0 12 = 0) || h.inWindow (addr64 d.w4 d.w5) (entryBytes o * fld d.w6 0 12))
    else true
  if good then none else badStatus Status.addrRange

/-- START is permitted, and a window has a width of R85 (R412). -/
def checkStart (d : Desc) : Option Bad :=
  let k := startKind d
  let o := op d
  firstBad [
    (decide (k = 3), bad 0 22),
    (decide (o = 0x02 ∧ k ≠ 1), bad 0 22),
    (decide (k ≠ 0) && decide (o ≠ 0x02) && !startsGated o, bad 0 22),
    (decide (k ≠ 0) && decide (o ∈ [0x11, 0x12, 0x13]) && bit d.w0 8, bad 0 22),
    (decide (k = 2) && !(decide (1 ≤ winWidth (startE d) (startClose d)) && decide (winWidth (startE d) (startClose d) < 2 ^ 47)), bad 4 0)]

/-- The ranges of a long operation's common fields (R425): its addresses are aligned. -/
def checkOsb (d : Desc) : Option Bad :=
  firstBad [
    (decide (addr64 d.w2 d.w3 % 64 ≠ 0), bad 2 0),
    (decide (addr64 d.w4 d.w5 % entryBytes (op d) ≠ 0), bad 4 0)]

/-- The ranges of the fields of R411, R413, R414, R415, R261, R245, R428 that hold whatever the state. -/
def State.checkFields (s : State) (t : Target) (d : Desc) : Option Bad :=
  let vmax (w : Word) : Bool := decide (w ≠ 0) && !(decide (0x100 ≤ w.toNat) && decide (w.toNat ≤ 0x400000))
  match op d with
  | 0x10 => firstBad [(decide (addr64 d.w2 d.w3 % 32 ≠ 0), bad 2 0)]
  | 0x11 => firstBad [(vmax d.w3, bad 3 0)]
  | 0x12 => firstBad [(vmax d.w3, bad 3 0)]
  | 0x13 => firstBad [(decide (0x400000 < d.w1.toInt.natAbs), bad 1 0)]
  | 0x17 => firstBad [(!bit d.w0 8 && !bit d.w0 9, bad 0 8)]
  | 0x20 =>
    let vs := (par d 0).toNat
    let vr := (par d 1).toNat
    firstBad [
      (decide (vs < 0x100 ∨ 0x400000 < vs), bad 8 0),
      (decide (vr ≠ 0) && (bit d.w1 0 || decide (vr < 0x100 ∨ vs < vr)), bad 9 0),
      (decide ((par d 2).toNat = 0 ∨ 2 ^ 31 ≤ (par d 2).toNat), bad 10 0),
      (decide ((par d 3).toNat = 0), bad 11 0)]
  | 0x21 => firstBad [
      (decide (d.w1.toNat < 0x4000 ∨ 0x400000 < d.w1.toNat), bad 1 0),
      (decide (fld d.w6 16 5 < 2 ∨ 16 < fld d.w6 16 5), bad 6 16)]
  | 0x28 =>
    let c := fld d.w2 0 30
    let sz := (s.twin (fld d.w3 0 4)).bytes
    firstBad [
      (decide (c = 0 ∨ 2 ^ 30 < fld d.w1 0 30 + c), bad 2 0),
      (decide (sz ≠ 0 ∧ sz < fld d.w1 0 30 + c), bad 2 0),
      (decide (8 < (signed 5 (fld d.w3 8 5)).natAbs), bad 3 8)]
  | 0x29 => firstBad [
      (bit d.w1 4 && decide (4 ≤ fld d.w1 0 4), bad 1 0),
      (decide (d.w2 = 0 ∨ 0x1000000 < d.w2.toInt.natAbs), bad 2 0)]
  | 0x31 => firstBad [
      (bit d.w0 8 && (match t with
        | .unit .axis _ => true
        | _ => false), bad 0 8)]
  | 0x38 => firstBad [
      (decide (fld d.w1 16 16 < 2000), bad 1 16),
      (decide (fld d.w1 0 16 = 0) && !(decide (fld d.w2 0 20 = 0) && decide (fld d.w3 0 20 = 0)), bad 1 0),
      ((match t with
        | .legs _ m => decide (m / 2 ^ fld d.w2 24 4 % 2 = 0)
        | _ => false), bad 2 24)]
  | 0x39 => firstBad [
      (decide (fld d.w1 16 16 < 2000), bad 1 16),
      (decide (fld d.w1 0 16 = 0) && !(decide (fld d.w2 0 20 = 0) && decide (fld d.w3 0 20 = 0)), bad 1 0),
      ((match t with
        | .legs _ m => decide (m / 2 ^ fld d.w2 24 4 % 2 = 0)
        | _ => false), bad 2 24)]
  | 0x40 => firstBad [
      (decide (fld d.w1 0 12 = 0), bad 1 0),
      (decide (fld d.w1 16 16 = 0), bad 1 16)]
  | 0x41 => firstBad [
      (decide (fld d.w1 0 6 = 0 ∨ 32 < fld d.w1 0 6), bad 1 0),
      (decide (addr64 d.w3 d.w4 % 16 ≠ 0), bad 3 0)]
  | 0x42 => firstBad [(decide (5 < fld d.w1 0 4), bad 1 0)]
  | 0x44 => firstBad [(decide (fld d.w1 0 8 = 0), bad 1 0)]
  | 0x45 => firstBad [
      (decide (fld d.w1 0 4 = 0 ∨ 5 < fld d.w1 0 4), bad 1 0),
      (decide ((fld d.w1 0 4 = 3 ∨ fld d.w1 0 4 = 5) ∧ fld d.w1 8 8 ≠ 0), bad 1 8)]
  | _ => none

/-- Step 4: ranges, codes, alignment and START. -/
def State.check4 (s : State) (t : Target) (d : Desc) : Option Bad :=
  (checkStart d).orElse fun _ => ((if isLong (op d) then checkOsb d else none).orElse fun _ => s.checkFields t d)

/-- Step 5: the device mode, and for NV_COMMIT the LOCK latch. -/
def State.check5 (s : State) (d : Desc) : Option Bad :=
  if !modeAccepts (op d) s.glb.mode || (decide (op d = 0x43) && s.glb.locked) then badStatus Status.wrongMode else none

/-- Step 6: the target is no bound member; R179 exempts SET_PROFILE and UNBIND_COURSE alone. -/
def State.check6 (s : State) (t : Target) (d : Desc) : Option Bad :=
  match t with
  | .unit k n =>
    if (s.parentOf k n).isSome && decide (op d ∉ [0x10, 0x31]) then badStatus Status.bound else none
  | _ => none

/-- The unit has a long operation (R427). -/
def State.longBusy (s : State) (a : Nat) : Bool := (s.axis a).home.isSome || (s.axis a).char.isSome

/-- The followers in use: units that follow, or wait to (R187). -/
def State.followers (s : State) : Nat :=
  let n (m : Motion) : Nat := b2n m.follow.isSome + (m.later.filter fun l => match l with
    | .follow _ => true
    | .play _ => false).length
  (s.axes.map fun p => n p.2.m).sum + (s.courses.map fun p => n p.2.m).sum

/-- Step 7: the follower, the window or the operation slot is free. -/
def State.check7 (s : State) (t : Target) (d : Desc) : Option Bad :=
  let busy : Bool := match op d, t with
    | 0x20, .unit _ n => s.longBusy n
    | 0x21, .unit _ n => s.longBusy n
    | 0x28, _ => (s.twin (fld d.w3 0 4)).busy.isSome
    | 0x29, _ => decide (s.variant.pairs ≤ s.followers)
    | 0x40, _ => (s.longOf 0x40 0).isSome
    | 0x43, _ => (s.longOf 0x43 0).isSome
    | 0x44, _ => (s.longOf 0x44 0).isSome
    | _, _ => false
  if busy then badStatus Status.unitBusy else none

/-- A profile slot holds a valid profile (R123, R487). -/
def Motion.slotOk (m : Motion) (i : Nat) : Bool := (Bank.get Profile.reset m.profs i).valid && decide (i ∉ m.profBad)

/-- A followed input is enabled (R187). -/
def State.followOn (s : State) (d : Desc) : Bool :=
  if bit d.w1 4 then bit (Bank.get 0x10 s.inp.encCfg (fld d.w1 0 4)) 0 else bit (Bank.get 0x10 s.inp.stepCfg (fld d.w1 0 4)) 0

/-- The target's unit is enabled (R410). -/
def State.unitOn (s : State) (t : Target) : Bool :=
  match t with
  | .unit k n => (s.motion k n).en
  | _ => true

/-- The profile slot that a descriptor names, with the field that names it, where it needs a valid one at take-up (R423). -/
def slotField (d : Desc) : Option (Nat × Nat × Nat) :=
  match op d with
  | 0x11 => some (fld d.w2 16 4, 2, 16)
  | 0x12 => some (fld d.w2 16 4, 2, 16)
  | 0x13 => some (fld d.w2 16 4, 2, 16)
  | 0x20 => some (fld d.w1 16 4, 1, 16)
  | 0x21 => some (fld d.w6 28 4, 6, 28)
  | 0x28 => some (fld d.w3 16 4, 3, 16)
  | 0x29 => some (fld d.w1 16 4, 1, 16)
  | _ => none

/-- Step 8, as far as it does not depend on the unit's motion: the target is enabled, the slot is valid, the source is on (R410, R123,
R187, R190, R126). -/
def State.check8 (s : State) (t : Target) (d : Desc) : Option Bad :=
  let o := op d
  let m : Motion := match t with
    | .unit k n => s.motion k n
    | _ => Motion.reset
  firstBad [
    (decide (o ∈ [0x11, 0x12, 0x13, 0x14, 0x15, 0x16, 0x17, 0x20, 0x21, 0x28, 0x29, 0x30]) && !s.unitOn t, bad 0 24),
    (decide (o = 0x10) && !(Profile.ofWords d.param).valid, bad 2 0),
    ((slotField d).any (fun f => !m.slotOk f.1), (slotField d).bind fun f => bad f.2.1 f.2.2),
    (decide (o = 0x28) && decide ((s.twin (fld d.w3 0 4)).bytes = 0), bad 3 0),
    (decide (o = 0x29) && !s.followOn d, bad 1 0)]

/-- The first check of R407 that fails. -/
def State.check (s : State) (x : Ring) (d : Desc) : Option Bad :=
  let t := x.target d
  (check1 x d).orElse fun _ => (s.check2 t d).orElse fun _ => (s.check3 d).orElse fun _ => (s.check4 t d).orElse fun _ =>
    (s.check5 d).orElse fun _ => (s.check6 t d).orElse fun _ => (s.check7 t d).orElse fun _ => s.check8 t d

end Sys2Proof.Machine
end

