-- ==== Sys2Proof/Machine/MoveOps.lean ====
section
/-! DEFINITION. What the taking up of a descriptor for a unit, a leg or the history does (R126, R134, R137, R140, R148, R154, R170, R187,
R190, R201, R309, R312, R416, R417), once the checks of R407 up to step 7 have passed. -/

namespace Sys2Proof.Machine

/-! ### Completions at take-up (R423) -/

/-- The descriptors whose records carry the unit's position (R423). -/
def motionOp (o : Nat) : Bool := decide (o ∈ [0x11, 0x12, 0x13, 0x14, 0x15, 0x16, 0x28, 0x29, 0x31])

/-- The flag POS_UNCERTAIN of a target's unit (R422). -/
def State.uncFlag (s : State) (t : Target) : Nat :=
  match t with
  | .unit k n => if s.present k n then 2 * b2n (s.motion k n).posUnc else 0
  | _ => 0

/-- Words 1 to 3 of the record of a READ_HISTORY: the elements copied, FLT_SEQ at take-up, and the records from FROM on that are no longer
held (R423). -/
def State.historyWords (s : State) (d : Desc) (n : Nat) : List Word := [wd n, wd s.flt.seq, wd (s.flt.lostFrom d.w2.toNat)]

/-- A descriptor that fails a check does nothing and completes with its status (R407, R423). -/
def State.refuse (s : State) (g : Tag) (d : Desc) (t : Target) (b : Bad) : State :=
  if b.status = Status.invalidField then
    s.complete g (s.mkRecord d.w0 [wd (b.word + b.bit * 2 ^ 8)] (s.uncFlag t) b.status)
  else
    let s := if b.status = Status.addrRange then { s with host := { s.host with flags := s.host.flags ||| bw true 0 } } else s
    match t with
    | .unit k n =>
      if s.present k n && motionOp (op d) then s.complete g (s.motionRecord k n d.w0 false false 0 none false b.status)
      else if s.present k n && isLong (op d) then
        s.complete g (s.mkRecord d.w0 [0, 0, 0, posLo (s.motion k n).pos, wd (posHi16 (s.motion k n).pos)] (s.uncFlag t) b.status)
      else s.complete g (s.mkRecord d.w0 [] (s.uncFlag t) b.status)
    | _ =>
      let ws := if op d = 0x41 then s.historyWords d 0 else []
      s.complete g (s.mkRecord d.w0 ws 0 b.status)

/-- An invalid field found by the chapter that owns it. -/
def State.refuseField (s : State) (g : Tag) (d : Desc) (t : Target) (w b : Nat) : State :=
  s.refuse g d t { status := Status.invalidField, word := w, bit := b }

/-- A failure without a field, found by the chapter that owns it. -/
def State.refuseWith (s : State) (g : Tag) (d : Desc) (t : Target) (st : Nat) : State :=
  s.refuse g d t { status := st, word := 0, bit := 0 }

/-! ### SET_PROFILE (R126, R137) -/

/-- SET_PROFILE writes its slot and completes; moves keep their copies. -/
def State.takeProfile (s : State) (g : Tag) (d : Desc) (k : UnitKind) (n : Nat) : State :=
  let i := fld d.w1 0 4
  let s := s.updMotion k n fun m =>
    { m with profs := Bank.set m.profs i (Profile.ofWords d.param), profBad := m.profBad.filter fun j => decide (j ≠ i) }
  s.complete g (s.mkRecord d.w0 [] (s.uncFlag (.unit k n)) Status.ok)

/-! ### Moves (R134, R136, R140, R154, R411) -/

/-- The base of a move (R134, R411): the target of the move before it, or the position; with true, a distance from the position at which
the moves before it take effect. A move in progress counts, also one that a stop is ending; behind a VELOCITY, which has no target, and behind a
motion of HOME, CHARACTERIZE or a bind, which is no move of the lookahead, the base is the position at take-up (log entry 73). A second REPLACE takes
its base as though the first, which has not taken effect, had never been taken up (R140). -/
def Motion.base (m : Motion) (replace : Bool) : Int × Bool :=
  let of (a : Move) : Int × Bool := if a.isVel || a.own then (m.pos, false) else (a.target, a.rel)
  let plain : Int × Bool := match (m.look.filter fun v => !v.own && !(replace && v.replace)).getLast?, m.act with
    | some v, _ => of v
    | none, some a => of a
    | none, none => (m.pos, false)
  if replace then
    match m.act with
    | some a => if a.isVel then (0, true) else of a
    | none => plain
  else plain

/-- A move enters the lookahead; a retained value ends (R138, R151). -/
def State.enter (s : State) (k : UnitKind) (n : Nat) (v : Move) : State :=
  s.updMotion k n fun m => { m with look := m.look ++ [{ v with ord := m.taken }], taken := m.taken + 1, ret := none }

/-- A move as it is taken up. -/
def State.newMove (s : State) (g : Tag) (d : Desc) (isVel : Bool) (target : Int) (rel : Bool) (p : Profile) (replace : Bool) : Move :=
  { tag := g, ord := 0, opcode := op d, word0 := d.w0, isVel := isVel, target := target, rel := rel, prof := p, gate := gateOf d,
    replace := replace, from_ := s.nextTick, armed := false, met := false, late := false, memberFault := none, turned := false,
    overshoot := 0, p0 := 0, silent := false }

/-- Nothing moves, and nothing of the unit is pending. -/
def State.idle (s : State) (k : UnitKind) (n : Nat) : Bool := s.free k n && decide (s.nextItem k n = .none) && (s.motion k n).deferred.isEmpty

/-- A move whose target is its base completes at take-up where the unit stands, whatever waits before it (R135); it takes no place among the
moves around it. -/
def State.takeZero (s : State) (k : UnitKind) (n : Nat) (v : Move) : State :=
  let s := s.updMotion k n fun m =>
    if m.act.isSome then { m with ret := none } else { m with ret := none, mode := .target, tgt := m.pos }
  s.completeMove k n v Status.ok

/-- The unit stands with nothing in effect that a stop would end. -/
def State.standing (s : State) (k : UnitKind) (n : Nat) : Bool :=
  let m := s.motion k n
  m.still && m.stopping.isNone && m.follow.isNone && m.play.isNone && !s.longRuns k n

/-- The profile slot that a move names (R126). -/
def State.moveSlot (s : State) (d : Desc) (k : UnitKind) (n : Nat) : Profile := Bank.get Profile.reset (s.motion k n).profs (fld d.w2 16 4)

/-- MOVE_TO, MOVE_BY and VELOCITY, with the copy of the slot taken at take-up (R126). -/
def State.takeMove (s : State) (g : Tag) (d : Desc) (k : UnitKind) (n : Nat) (p : Profile) : State :=
  let m := s.motion k n
  let rep := bit d.w0 8
  if op d = 0x13 then s.enter k n (s.newMove g d true d.w1.toInt false p rep)
  else if !p.overrideOk d.w3 then s.refuseField g d (.unit k n) 3 0
  else
    let b := m.base rep
    let v := signed48 d.w1 d.w2
    let by_ := decide (op d = 0x12)
    let at_ := if b.2 then m.pos + b.1 else b.1
    let target := if by_ then b.1 + v else v
    let full := if by_ then at_ + v else v
    if full < -2 ^ 47 ∨ 2 ^ 47 ≤ full ∨ 2 ^ 47 ≤ (full - at_).natAbs then s.refuseField g d (.unit k n) 1 0
    else
      let mv := s.newMove g d false target (by_ && b.2) (p.override d.w3) rep
      if s.standing k n && !m.suspended && decide (full = at_) && (!rep || s.idle k n) then s.takeZero k n mv else s.enter k n mv

/-- RESUME (R154): a move over the retained value, or a refusal that keeps it. -/
def State.takeResume (s : State) (g : Tag) (d : Desc) (k : UnitKind) (n : Nat) : State :=
  let m := s.motion k n
  match m.ret with
  | none => s.refuseWith g d (.unit k n) Status.noRetained
  | some r =>
    if m.posUnc && !bit d.w0 9 then s.refuseWith g d (.unit k n) Status.uncertain
    else if s.limitRefuses k n r.value.sign = some Status.limitActive then s.refuseWith g d (.unit k n) Status.limitActive
    else if r.value = 0 ∧ !r.isVel then
      let s := s.updMotion k n fun m => { m with ret := none }
      s.complete g (s.motionRecord k n d.w0 false false 0 none false Status.ok)
    else s.enter k n (s.newMove g d r.isVel r.value (!r.isVel) r.prof false)

/-! ### STOP and QSTOP (R148, R421) -/

/-- STOP and QSTOP: the lookahead is cancelled; at standstill the descriptor completes, otherwise it waits for the stop. -/
def State.takeStop (s : State) (g : Tag) (d : Desc) (k : UnitKind) (n : Nat) : State :=
  if s.standing k n then
    let s := (s.cancelDwell k n).cancelLook k n
    s.complete g (s.motionRecord k n d.w0 false false 0 none false Status.ok)
  else
    let s := (s.cancelDwell k n).cancelLook k n
    s.updMotion k n fun m =>
      { (m.postStop (if op d = 0x15 then .qstop else .stop) none) with stops := m.stops ++ [{ tag := g, word0 := d.w0 }] }

/-! ### SET_CURRENT (R201) -/

/-- SET_CURRENT waits for the next tick. -/
def State.takeCurrent (s : State) (g : Tag) (d : Desc) (a : Nat) : State :=
  let tbl := if bit d.w0 9 then some (fld d.w1 12 2) else none
  let run := if bit d.w0 8 then some (fld d.w1 0 8) else none
  s.updAxis a fun x => { x with setCur := x.setCur ++ [(tbl, run, s.nextTick, g, d.w0)] }

/-! ### FOLLOW_STEPS and PLAY_TABLE (R187, R190) -/

/-- A FOLLOW_STEPS or PLAY_TABLE joins what waits on the unit. -/
def State.enterLater (s : State) (k : UnitKind) (n : Nat) (l : Nat → Later) : State :=
  s.updMotion k n fun m => { m with later := m.later ++ [l m.taken], taken := m.taken + 1, ret := none }

/-- FOLLOW_STEPS. -/
def State.takeFollow (s : State) (g : Tag) (d : Desc) (k : UnitKind) (n : Nat) : State :=
  s.enterLater k n fun o => .follow
    { tag := g, ord := o, word0 := d.w0, isEnc := bit d.w1 4, src := fld d.w1 0 4, k := d.w2.toInt, f := fld d.w1 8 3,
      slot := fld d.w1 16 4, gate := gateOf d, from_ := s.nextTick, armed := false, met := false, base := 0, total := 0, last := 0,
      hist := [], late := false, memberFault := none }

/-- The next read of a streamer, in bytes: at most 256, within the table, and with room in the buffer of 4 KiB (R193, R395). -/
def Play.readSize (p : Play) : Nat :=
  let n := min 256 (p.count - p.nextReq)
  if p.reading || decide (p.bufFirst + 4096 < p.nextReq + n) then 0 else n

/-- The streamer of a window asks for its next samples. -/
def Play.ask (w : TWin) (p : Play) : Play × Option Output :=
  if p.readSize = 0 then (p, none)
  else ({ p with reading := true }, some (.readRequest (w.base + p.offset + p.nextReq) p.readSize))

/-- PLAY_TABLE: its window is busy, and its streamer begins to read. -/
def State.takePlay (s : State) (g : Tag) (d : Desc) (k : UnitKind) (n : Nat) : State :=
  let w := fld d.w3 0 4
  let p : Play :=
    { tag := g, ord := (s.motion k n).taken, word0 := d.w0, win := w, offset := fld d.w1 0 30, count := fld d.w2 0 30, rcStart := startE d,
      q := fld d.w3 4 4, e := signed 5 (fld d.w3 8 5), slot := fld d.w3 16 4, from_ := s.nextTick, base := 0, fin := none,
      bufFirst := 0, buf := [], sumFirst := 0, nextReq := 0, reading := false, retried := false, absentTo := 0, memberFault := none }
  let r := p.ask (s.twin w)
  let s := s.setTwin w { s.twin w with busy := some (k, n) }
  let s := s.enterLater k n fun _ => .play r.1
  match r.2 with
  | some o => s.request (.table w) o
  | none => s

/-! ### BIND_COURSE and UNBIND_COURSE (R168, R174, R413) -/

/-- A bond descriptor waits until R60, R170 or R174 lets it take effect; its member is given. -/
def State.enterBind (s : State) (b : BindReq) : State :=
  let o := (s.motion b.kind b.index).taken
  let s := s.updMotion b.kind b.index fun m => { m with taken := m.taken + 1, ret := if b.unbind then m.ret else none }
  { s with host := { s.host with binds := s.host.binds ++ [{ b with ord := o }] } }

/-- BIND_COURSE. -/
def State.takeBind (s : State) (g : Tag) (d : Desc) (c : Nat) : State :=
  s.enterBind
    { tag := g, word0 := d.w0, unbind := false, explicit := bit d.w1 16, bySlot := false, kind := memberKind d, index := fld d.w1 8 6,
      slot := fld d.w1 0 4, cam := bit d.w1 15, param := d.w2, offset := signed48 d.w3 d.w4 * one, pslot := fld d.w1 20 4,
      from_ := s.nextTick, ord := 0, tkind := .course, target := c }

/-- The unit that an UNBIND_COURSE by slot concerns: the member that an earlier BIND_COURSE is to put there, or the one that is there, or, of
an empty slot, the course. -/
def State.slotUnit (s : State) (c slot : Nat) : UnitKind × Nat :=
  let mb := (s.course c).member slot
  match (s.host.binds.filter fun b => !b.unbind && decide (b.target = c) && decide (b.slot = slot)).getLast? with
  | some b => (b.kind, b.index)
  | none => if mb.state = .empty then (.course, c) else (mb.kind, mb.index)

/-- UNBIND_COURSE: by its target, or by a slot of the target course. -/
def State.takeUnbind (s : State) (g : Tag) (d : Desc) (k : UnitKind) (n : Nat) : State :=
  let by_ := bit d.w0 8
  let slot := fld d.w1 0 4
  let u := if by_ then s.slotUnit n slot else (k, n)
  s.enterBind
    { tag := g, word0 := d.w0, unbind := true, explicit := false, bySlot := by_, kind := u.1,
      index := u.2, slot := slot, cam := false, param := 0, offset := 0, pslot := 0, from_ := s.nextTick, ord := 0,
      tkind := k, target := n }

/-! ### SOL_PULSE and SOL_HOLD (R309 to R312, R414) -/

/-- A solenoid descriptor: refused under R312, or waiting at its leg, where it is evaluated at once. -/
def State.takeSol (s : State) (g : Tag) (d : Desc) (t mask : Nat) : State :=
  let l := fld d.w2 24 4
  let x := s.leg t l
  let per := fld d.w1 16 16
  let top := 16 * (per - x.tMinOff)
  let tgt := Target.legs t mask
  if !decide (x.mode = 2 ∨ x.mode = 3) then s.refuseField g d tgt 2 24
  else if top < fld d.w2 0 20 then s.refuseField g d tgt 2 0
  else if top < fld d.w3 0 20 then s.refuseField g d tgt 3 0
  else if x.latch then s.refuseWith g d tgt Status.faultStopped
  else
    let v : SolDesc :=
      { tag := g, word0 := d.w0, isHold := decide (op d = 0x39), per := per, tPi := fld d.w1 0 16, dutyPi := fld d.w2 0 20,
        dutyH := fld d.w3 0 20, tH := if op d = 0x39 then 0 else fld d.w7 0 16, gate := gateOf d, armed := false, heldSince := none,
        dwellLeft := none, held := false, due := false, late := false, startDt := 0 }
    let s := s.setLeg t l { x with solWait := x.solWait ++ [v] }
    s.pulseStart t l

/-! ### Long operations (R391, R425, R427) -/

/-- The operation of a descriptor, ACCEPTED. -/
def newLong (g : Tag) (d : Desc) (axis : Nat) : LongOp :=
  { tag := g, word0 := d.w0, opcode := op d, axis := axis, osb := addr64 d.w2 d.w3, res := addr64 d.w4 d.w5, cap := fld d.w6 0 12,
    w1 := d.w1, w6 := d.w6, param := (d.param ++ List.replicate 8 0).take 8, st := 1, count := 0, dropped := 0, progress := 0, status := 0,
    summary := 0, fresh := [], ended := false, flags := 0 }

/-- HOME (R261): it waits on its axis under R60. -/
def State.takeHome (s : State) (g : Tag) (d : Desc) (a : Nat) : State :=
  let h : Home :=
    { ord := (s.axis a).m.taken, from_ := s.nextTick, stallMethod := bit d.w1 0, negDir := bit d.w1 1, input := fld d.w1 8 6,
      actHigh := bit d.w1 2, vs := (par d 0).toNat, vr := (par d 1).toNat, backoff := (par d 2).toNat, maxDist := (par d 3).toNat,
      homePos := signed48 (par d 4) (par d 5), finalEn := bit d.w1 3, final := signed48 (par d 6) (par d 7), slot := fld d.w1 16 4,
      thrH := fld d.w1 24 8, st := .h0, pass := 1, armed := false, latch := none, prevX := 0, prevV := 0, seenX := 0, seenV := 0, latchDt := 0, latchRc := 0, latchLa := 0, chatter := 0,
      begin_ := 0, path := 0, done := 0, started := false, viaH1 := false, failing := none }
  let s := s.updAxis a fun x => { x with home := some h, m := { x.m with taken := x.m.taken + 1, ret := none } }
  s.acceptLong (newLong g d a)

/-- CHARACTERIZE (R245): it waits on its axis under R60. -/
def State.takeChar (s : State) (g : Tag) (d : Desc) (a : Nat) : State :=
  let h : Char :=
    { ord := (s.axis a).m.taken, begun := false, fromTick := s.nextTick, vc := d.w1.toNat, slot := fld d.w6 28 4, neg := bit d.w6 26,
      alt := bit d.w6 27, cyc := fld d.w6 16 5, xStart := 0, step := 0, part := 0, timer := 0, from_ := 0, sums := [], cnts := [],
      cntA := 0, cntB := 0, usable := 0 }
  let s := s.updAxis a fun x => { x with char := some h, m := { x.m with taken := x.m.taken + 1 } }
  s.acceptLong (newLong g d a)

/-! ### READ_HISTORY and SET_MODE (R416, R417) -/

/-- READ_HISTORY: the elements are written, acknowledged where asked, and the descriptor completes. -/
def State.takeHistory (s : State) (g : Tag) (d : Desc) : State :=
  let es := (s.flt.from d.w2.toNat).take (fld d.w1 0 6)
  let buf := addr64 d.w3 d.w4
  let ws := s.historyWords d es.length
  let s := es.zipIdx.foldl (fun t p => t.post (.memWrite (buf + 48 * p.2) (wd p.1.num :: p.1.words s.dt))) s
  let s := if bit d.w0 8 then es.foldl (fun t e => t.ackRecord e.uid) s else s
  s.complete g (s.mkRecord d.w0 ws 0 Status.ok)

/-- SET_MODE: its request is made at a period boundary after take-up. -/
def State.takeMode (s : State) (g : Tag) (d : Desc) : State :=
  { s with glb := { s.glb with setMode := s.glb.setMode ++ [(fld d.w1 0 4, g)] } }

end Sys2Proof.Machine
end

