-- ==== Sys2Proof/Machine/Homing.lean ====
section
/-! DEFINITION. HOME (R261 to R270) and CHARACTERIZE (R245 to R248): what a period boundary and a qualified edge bring to them. -/

namespace Sys2Proof.Machine

/-! ### Motions without a descriptor of their own -/

/-- A move that writes no record. -/
def ownMove (isVel : Bool) (target : Int) (p : Profile) : Move :=
  { tag := { ring := 0, index := 0 }, ord := 0, opcode := 0, word0 := 0, isVel := isVel, target := target, rel := false, prof := p,
    gate := none, replace := false, from_ := 0, armed := false, met := false, late := false, memberFault := none, turned := false,
    overshoot := 0, p0 := 0, silent := true }

/-- A motion of an operation is asked for at a boundary: the cores plan it in this tick, and the runner first uses it in the next (R33). -/
def State.ownAsk (s : State) (a : Nat) (v : Move) : State := s.updMotion .axis a fun m => { m with own := some (v, s.nextTick) }

/-- An operation's motion is planned from the present state; it is a new start where the axis stands. -/
def State.ownGo (s : State) (a : Nat) (v : Move) : State :=
  let s := if (s.axis a).m.v = 0 then s.updAxis a Axis.newStart else s
  (s.updMotion .axis a fun m =>
    { m with own := none, act := some { v with p0 := m.pos }, mode := .target, tgt := if v.isVel then m.tgt else v.target, suspended := false,
             restarted := false }).go .axis a

/-- An operation's motion ends by the stop set, without a stop cause. -/
def Motion.brake (m : Motion) : Motion :=
  if m.v = 0 then { m.clear with act := none, dwell := none, own := none }
  else { m with act := none, dwell := none, own := none, queue := m.ramp false, plan := [], cruise := none }

/-- The unit stands, with nothing of the operation left to run. -/
def Motion.rested (m : Motion) : Bool := m.still && m.act.isNone && m.plan.isEmpty && m.stopping.isNone && m.own.isNone

/-- The plateau of a speed has been reached. -/
def Motion.cruising (m : Motion) : Bool :=
  m.cruise.isSome && m.plan.isEmpty && m.queue.all (fun g => decide (g.acc = 0)) && decide (m.v ≠ 0) && m.dwell.isNone &&
  m.own.isNone

/-- The change of a running HOME. -/
def State.updHome (s : State) (a : Nat) (f : Home → Home) : State := s.updAxis a fun x => { x with home := x.home.map f }

/-! ### HOME: entries and progress (R270) -/

def HomeState.code (h : HomeState) : Nat :=
  match h with
  | .h0 => 0
  | .h1 => 1
  | .h2 => 2
  | .h3 => 3
  | .h4 => 4
  | .h5 => 5
  | .h6 => 6
  | .h7 => 7

/-- A second pass is asked for (R262). -/
def Home.twoPass (h : Home) : Bool := !h.stallMethod && decide (h.vr ≠ 0)

/-- The states that the operation passes through. -/
def Home.total (h : Home) : Nat := 5 + b2n h.viaH1 + 3 * b2n h.twoPass + b2n h.finalEn

/-- Travel since the present release or search began. -/
def Home.travel (h : Home) (m : Motion) : Nat := (m.pos - h.begin_).natAbs

/-- PROGRESS (R270). -/
def Home.progress (h : Home) (m : Motion) : Nat :=
  let part := if h.st = .h1 ∨ h.st = .h2 then min 65535 (65535 * h.travel m / h.maxDist) else 0
  (65535 * h.done + part) / h.total

/-- A result entry of HOME. TRAVEL is the way that the axis has gone in the pass (log entry 30). -/
def Home.entry (h : Home) (type low : Nat) (pos : Int) (dt rc la : Nat) : List Word :=
  [ wd (type * 2 ^ 24 + h.pass * 2 ^ 20 + h.st.code * 2 ^ 16 + low), posLo pos, posHi pos, wd dt, wd (dt / 2 ^ 32), wd rc,
    wd (rc / 2 ^ 32 % 2 ^ 16 + la * 2 ^ 16), wd (min (h.path / 2 ^ 32) (2 ^ 32 - 1)) ]

/-- The operation of an axis, by opcode. -/
def State.axisLong (s : State) (o a : Nat) (f : LongOp → LongOp) : State :=
  match s.longOf o a with
  | some x => s.updLong x.tag f
  | none => s

/-- An entry is appended to HOME's results. -/
def State.homeEntry (s : State) (a : Nat) (e : List Word) : State := s.axisLong 0x20 a fun x => x.append e

/-- HOME goes on to a state. -/
def State.homeTo (s : State) (a : Nat) (st : HomeState) : State :=
  s.updHome a fun h => { h with st := st, done := h.done + 1 }

/-- HOME fails: the axis comes down by its stop set unless a stop cause brings it down. -/
def State.homeFail (s : State) (a st reason : Nat) : State :=
  (s.updHome a fun h => { h with failing := some (st, reason) }).updMotion .axis a fun m =>
    if m.stopping.isSome then { m with act := none, own := none } else m.brake

/-- The reason of the failure entry for a stop cause (R270). -/
def StopCause.homeReason (c : StopCause) : Nat :=
  match c with
  | .hiz => 6
  | .modeLeft => 6
  | .disabled => 8
  | .haltClass => 6
  | .starved => 6
  | .stall => 6
  | .limit => 7
  | .qstop => 8
  | .stop => 8
  | .holdReq => 8

/-- HOME's own motion in a sense, refused by a limit that guards it (R267). -/
def State.homeGo (s : State) (a : Nat) (v : Move) : State :=
  match s.limitRefuses .axis a (v.sense (s.axis a).m) with
  | some st => s.homeFail a st 7
  | none => s.ownAsk a v

/-- A speed in the sense of DIR, or against it. -/
def Home.vel (h : Home) (v : Nat) (away : Bool) : Int := if h.negDir ≠ away then -(v : Int) else v

/-- The profile of HOME's motions. -/
def State.homeProf (s : State) (a : Nat) (h : Home) : Profile := Bank.get Profile.reset (s.axis a).m.profs h.slot

/-- The search begins: the latch is armed (R262, R263). -/
def State.homeSearch (s : State) (a : Nat) (h : Home) : State :=
  let v := if h.pass = 1 then h.vs else h.vr
  let s := (s.homeTo a .h2).updHome a fun h =>
    { h with armed := true, latch := none, chatter := 0, begin_ := (s.axis a).m.pos }
  s.homeGo a (ownMove true (h.vel v false) (s.homeProf a h))

/-- The home input is active; it is known and inactive (R262). -/
def State.homeActive (s : State) (h : Home) : Bool := s.inp.isKnown h.input && decide (s.inp.level h.input = h.actHigh)
def State.homeInactive (s : State) (h : Home) : Bool := s.inp.isKnown h.input && decide (s.inp.level h.input ≠ h.actHigh)

/-- The checks of H0 (R262, R265, R266). -/
def State.homeCheck (s : State) (a : Nat) (h : Home) : State :=
  let x := s.axis a
  if h.stallMethod then
    if bit x.regs.stallCfg 31 && x.baseUsable && x.allUsable (h.vs * 2 ^ 16) then s.homeSearch a h
    else s.homeFail a Status.noBaseline 5
  else if !s.inp.isKnown h.input then s.homeFail a Status.inputUnknown 1
  else if s.homeActive h then
    let s := (s.homeTo a .h1).updHome a fun h => { h with viaH1 := true, armed := false, begin_ := x.m.pos }
    s.homeGo a (ownMove true (h.vel h.vs true) (s.homeProf a h))
  else s.homeSearch a h

/-- The position is redefined, and POS_UNCERTAIN falls (R268); a HOME that then fails in H6 leaves it so (R155; DESIGN CHOICE, log entry 84). -/
def State.homeSet (s : State) (a : Nat) (h : Home) : State :=
  let p := h.latch.getD 0
  let d := h.homePos - p
  let s := s.homeEntry a (h.entry 3 0 d s.bdt s.ref.bound408 0)
  let s := s.updAxis a fun x =>
    { x with m := { x.m with x := wrapS 80 (x.m.x + d * one), tgt := wrapS 48 (x.m.tgt + d), posUnc := false, ret := none }
             home := x.home.map fun h => { h with begin_ := h.begin_ + d, seenX := h.seenX + d * one, prevX := h.prevX + d * one }
             theta := thetaOf x.regs.comm (wrapS 48 (x.m.pos + d))
             stall := { x.stall with lastQ := thetaOf x.regs.comm (wrapS 48 (x.m.pos + d)) / 256, qPos := wrapS 48 (x.stall.qPos + d) } }
  if h.finalEn then
    let s := s.homeTo a .h6
    if (s.axis a).m.x = h.final * one then s else s.homeGo a (ownMove false h.final (s.homeProf a h))
  else s.homeTo a .h7

/-- HOME is over: its operation ends and the axis is free. -/
def State.homeOver (s : State) (a st reason : Nat) (h : Home) : State :=
  let s := s.axisLong 0x20 a fun x => { x with summary := wd (h.st.code * 2 ^ 16 + reason) }
  match s.longOf 0x20 a with
  | some x => (s.updAxis a fun y => { y with home := none }).endLong x.tag st
  | none => s.updAxis a fun y => { y with home := none }

/-- The latch entry of a pass (R270). -/
def State.homeLatched (s : State) (a : Nat) (h : Home) : State :=
  s.homeEntry a (h.entry (if h.stallMethod then 2 else 1) (if h.stallMethod then 0 else h.chatter) (h.latch.getD 0) h.latchDt
    h.latchRc (if h.stallMethod then h.latchLa else 0))

/-- A state of HOME at a period boundary. -/
def State.homeState (s : State) (a : Nat) (h : Home) : State :=
  let m := (s.axis a).m
  match h.st with
  | .h0 => s.homeCheck a h
  | .h1 =>
    if m.act.isSome then
      if h.armed then s.updMotion .axis a Motion.brake
      else if h.maxDist < h.travel m then s.homeFail a Status.notFound 2
      else s
    else if m.rested then s.homeSearch a h
    else s
  | .h2 =>
    if h.latch.isSome then
      (s.homeTo a .h3).updMotion .axis a fun m =>
        if h.stallMethod && decide (m.v ≠ 0) then
          { m with act := none, queue := markLast true none [Seg.plain 1 (-m.v)], plan := [], cruise := none, own := none }
        else m.brake
    else if h.maxDist < h.travel m then s.homeFail a Status.notFound 3
    else s
  | .h3 =>
    if m.rested then
      let s := s.homeLatched a h
      if h.twoPass && decide (h.pass = 1) then
        let s := (s.homeTo a .h4).updHome a fun h => { h with pass := 2, begin_ := m.pos, path := 0 }
        let d : Int := if h.negDir then h.backoff else -(h.backoff : Int)
        s.homeGo a (ownMove false (m.pos + d) (s.homeProf a h))
      else s.homeTo a .h5
    else s
  | .h4 =>
    if m.rested then
      if s.homeInactive h then s.homeSearch a h else s.homeFail a Status.notFound 4
    else s
  | .h5 => s.homeSet a h
  | .h6 =>
    if m.rested then (s.homeEntry a (h.entry 4 0 m.pos s.bdt s.ref.bound408 0)).homeTo a .h7 else s
  | .h7 => (s.axisLong 0x20 a fun x => x.advance 65535).homeOver a Status.ok 0 h

/-- The states of HOME as far as they go at this boundary. -/
def State.homeStates (s : State) (a : Nat) (fuel : Nat) : State :=
  match fuel, (s.axis a).home with
  | f + 1, some h =>
    match h.failing with
    | some _ => s
    | none =>
      let s' := s.homeState a h
      match (s'.axis a).home with
      | some h' => if h'.st = h.st then s' else s'.homeStates a f
      | none => s'
  | _, _ => s

/-- The status and reason with which an operation ends when the device has left the modes in which it runs (R54, R149, R269). -/
def DevMode.leftStatus (m : DevMode) : Nat × Nat :=
  match m with
  | .hold => (Status.stopped, 8)
  | .safe => (Status.faultStopped, 6)
  | _ => (Status.aborted, 6)

/-- HOME is ended by a stop cause, or by the device leaving Run (R261, R269). -/
def State.homeWatch (s : State) (a : Nat) : State :=
  match (s.axis a).home with
  | none => s
  | some h =>
    if h.failing.isSome then s
    else match (s.axis a).m.stopping with
      | some st => if h.started then s.homeFail a st.cause.status st.cause.homeReason else s
      | none =>
        if s.glb.mode = .run ∨ s.unlearned then s
        else if h.started then s.homeFail a s.glb.mode.leftStatus.1 s.glb.mode.leftStatus.2
        else s.updHome a fun h => { h with failing := some s.glb.mode.leftStatus }

/-- A HOME in effect sees the position and the speed of the boundary, and counts the way gone (R263, R270). -/
def State.homeSeen (s : State) (a : Nat) : State :=
  s.updAxis a fun x =>
    { x with home := x.home.map fun h =>
        if h.started then
          { h with prevX := h.seenX, prevV := h.seenV, seenX := x.m.x, seenV := x.m.v, path := h.path + (wrapS 80 (x.m.x - h.seenX)).natAbs }
        else h }

/-- HOME at a period boundary, once the period that ends there has been carried out. -/
def State.homeStep (s : State) (a : Nat) : State :=
  let s := s.homeSeen a
  match (s.axis a).home with
  | none => s
  | some h =>
    match h.failing with
    | some (st, reason) =>
      if (s.axis a).m.rested || !h.started then
        let m := (s.axis a).m
        let s := if h.latch.isSome && decide (h.st = .h2 ∨ h.st = .h3) then s.homeLatched a { h with st := .h3 } else s
        (s.homeEntry a (h.entry 15 reason m.pos s.bdt s.ref.bound408 0)).homeOver a st reason h
      else s
    | none =>
      if h.started then
        let s := s.homeStates a 12
        match (s.axis a).home with
        | some h => s.axisLong 0x20 a fun x => x.advance (h.progress (s.axis a).m)
        | none => s
      else s

/-- The RC of `n` DT counts ago, at the present rate of its source. -/
def rcBefore (r : Ref) (t : Strait) (n : Nat) : Nat :=
  let rate : Int := match fld r.src 0 4 with
    | 0 => rcInc r.tcC
    | 1 => r.encRate
    | 2 => r.lineRate
    | _ => t.syncRate * 2 ^ 24 / 2000
  if r.run then (((r.rc : Int) - n * rate) % 2 ^ 80).toNat else r.rc

/-- A qualified edge of the home input, with the DT of its sample S (R262 to R264): it releases, latches, or counts as chatter. The filter
holds less than a period, so S lies in the period that runs or in the one before. -/
def State.homeEdge (s : State) (a i : Nat) (level : Bool) (sdt : Nat) : State :=
  match (s.axis a).home with
  | none => s
  | some h =>
    if !h.started || h.stallMethod || decide (h.input ≠ i) || h.failing.isSome then s
    else
      let active := decide (level = h.actHigh)
      match h.st with
      | .h1 => if active then s else s.updHome a fun h => { h with armed := true }
      | .h2 =>
        if h.latch.isSome then s.updHome a fun h => { h with chatter := satAdd 65535 h.chatter 1 }
        else if active && h.armed then
          let cur := decide (s.bdt ≤ sdt)
          let m := if cur then (sdt - s.bdt) / 200 else (sdt + 2000 - s.bdt) / 200
          let x := if cur then h.seenX else h.prevX
          let v := if cur then h.seenV else h.prevV
          let p : Int := (2 * (10 * x + v * m) + 10 * one) / (20 * one)
          let rc := rcBefore s.ref s.str (s.dt - sdt) / 2 ^ 32
          (s.updHome a fun h => { h with latch := some p, latchDt := sdt, latchRc := rc, armed := false }).updAxis a fun y =>
            { y with stall := { y.stall with flags := y.stall.flags ||| bw true 0 } }
        else s
      | .h3 => s.updHome a fun h => { h with chatter := satAdd 65535 h.chatter 1 }
      | .h0 => s
      | .h4 => s
      | .h5 => s
      | .h6 => s
      | .h7 => s

/-- A stall declared in H2 of the stall method latches (R266). -/
def State.homeStall (s : State) (a : Nat) : State :=
  s.updAxis a fun x =>
    { x with
      home := x.home.map fun h =>
        { h with latch := some x.stall.firstPos, latchDt := s.bdt, latchRc := s.ref.bound408, latchLa := x.stall.la, armed := false }
      stall := { x.stall with flags := x.stall.flags ||| bw true 0 } }

/-- HOME searches by stall now. -/
def Axis.homeStalls (x : Axis) : Bool :=
  x.home.elim false fun h => h.started && h.stallMethod && decide (h.st = .h2) && h.armed && h.failing.isNone

/-- The threshold of the stall counter: THR_H in a search by stall, else THR (R266). -/
def Axis.stallThr (x : Axis) : Nat :=
  match x.home with
  | some h => if x.homeStalls && decide (h.thrH ≠ 0) then h.thrH else fld x.regs.stallCfg 16 8
  | none => fld x.regs.stallCfg 16 8

/-! ### CHARACTERIZE (R246, R247) -/

/-- The change of a running CHARACTERIZE. -/
def State.updChar (s : State) (a : Nat) (f : Char → Char) : State := s.updAxis a fun x => { x with char := x.char.map f }

/-- W (R246). -/
def Char.width (h : Char) : Nat := ceilDiv h.vc 64

/-- The speed of bin `b`, 16.16 with its sign. -/
def Char.binSpeed (h : Char) (b : Nat) : Int :=
  let v : Int := ((2 * b + 1) * h.width / 2 : Nat)
  if h.neg ≠ (h.alt && decide (b % 2 = 1)) then -v else v

/-- A baseline entry is written. -/
def State.setBase (s : State) (a i : Nat) (v : Word) : State := s.updAxis a fun x => Axis.unarm { x with base := Bank.set x.base i v }

/-- The mean of the captures of a quadrant, or 0xFFFF below 16 of them (R246). -/
def Char.mean (h : Char) (q : Nat) : Nat :=
  let n := Bank.get 0 h.cnts q
  let t : Nat := Bank.get 0 h.sums q
  if n < 16 then 0xFFFF else (roundDiv (t : Int) n).toNat

/-- The captures used. -/
def Char.ncap (h : Char) : Nat := min 4095 (((List.range 4).map fun q => Bank.get 0 h.cnts q).sum)

/-- A result entry of CHARACTERIZE (R247). -/
def charEntry (type bin usable ncap : Nat) (q : List Nat) (v : Nat) : List Word :=
  [ wd (type * 2 ^ 24 + bin * 2 ^ 16 + usable * 2 ^ 12 + ncap), wd (q.getD 1 0 * 2 ^ 16 + q.getD 0 0),
    wd (q.getD 3 0 * 2 ^ 16 + q.getD 2 0), wd v ]

/-- The next step begins; PROGRESS counts completed steps (R247). -/
def State.charNext (s : State) (a : Nat) : State :=
  let s := s.updChar a fun h => { h with step := h.step + 1, part := 0 }
  match (s.axis a).char with
  | some h => s.axisLong 0x21 a fun x => x.advance (65535 * h.step / 69)
  | none => s

/-- CHARACTERIZE ends with a status once the axis stands. -/
def State.charFail (s : State) (a st : Nat) : State :=
  (s.updChar a fun h => { h with part := 9, timer := st }).updMotion .axis a fun m =>
    if m.stopping.isSome then { m with act := none, own := none } else m.brake

/-- A motion of CHARACTERIZE, refused by a limit that guards its sense (R260). -/
def State.charGo (s : State) (a : Nat) (v : Move) : State :=
  match s.limitRefuses .axis a (v.sense (s.axis a).m) with
  | some st => s.charFail a st
  | none => s.ownAsk a v

/-- A motion that an operation has asked for begins at its tick, unless a limit has come to guard its sense (R260, R267). -/
def State.ownStart (s : State) (a : Nat) : State :=
  let m := (s.axis a).m
  match m.own with
  | none => s
  | some (v, from_) =>
    if s.dt < from_ ∨ m.stopping.isSome then s
    else match s.limitRefuses .axis a (v.sense m) with
      | none => s.ownGo a v
      | some st => if (s.axis a).home.isSome then s.homeFail a st 7 else s.charFail a st

/-- The position nearest to the axis whose angle is `th` (R246). -/
def nearestTheta (comm : Word) (pos : Int) (th : Nat) : Int :=
  let d : Nat := ((th : Int) - thetaOf comm pos).toNat + (1024 - (thetaOf comm pos - th)) % 1024
  let d := d % 1024
  if d ≤ 512 then pos + d else pos + d - 1024

/-- A standstill step (R246). -/
def State.charStand (s : State) (a : Nat) (h : Char) (p : Profile) : State :=
  let m := (s.axis a).m
  match h.part with
  | 0 =>
    if !m.rested then s
    else
      let t := nearestTheta (s.axis a).regs.comm m.pos (256 * h.step + 128)
      if t * one = m.x then s.updChar a fun h => { h with part := 1, timer := 200 }
      else (s.updChar a fun h => { h with part := 3 }).charGo a (ownMove false t p)
  | 1 =>
    if h.timer ≤ 1 then s.updChar a fun h => { h with part := 2, cntA := 0, cntB := 0 } else s.updChar a fun h => { h with timer := h.timer - 1 }
  | 2 =>
    if h.cntA < 64 ∨ h.cntB < 64 then s
    else if h.step < 3 then s.charNext a
    else
      let q := (List.range 4).map h.mean
      let s := q.zipIdx.foldl (fun t v => t.setBase a (256 + v.2) (wd v.1)) s
      let s := s.axisLong 0x21 a fun x => x.append (charEntry 0x10 0xFF 0 h.ncap q 0)
      (s.updChar a fun h => { h with sums := [], cnts := [] }).charNext a
  | _ => if m.rested then s.updChar a fun h => { h with part := 1, timer := 200 } else s

/-- A bin (R246, R247). -/
def State.charBin (s : State) (a : Nat) (h : Char) (p : Profile) : State :=
  let x := s.axis a
  let m := x.m
  let b := h.step - 4
  match h.part with
  | 0 => (s.updChar a fun h => { h with part := 3 }).charGo a (ownMove true (h.binSpeed b) p)
  | 1 =>
    if 1024 ≤ (m.pos - h.from_).natAbs then s.updChar a fun h => { h with part := 2, from_ := m.pos, sums := [], cnts := [] } else s
  | 2 =>
    if h.cyc * 1024 ≤ (m.pos - h.from_).natAbs then
      let q := (List.range 4).map h.mean
      let use := (List.range 4).filter fun i =>
        decide (q.getD i 0 ≠ 0xFFFF) && decide (fld x.regs.stallCfg 0 8 ≤ ((q.getD i 0 : Int) - x.base0 i).natAbs)
      let s := q.zipIdx.foldl (fun t v => t.setBase a (4 * b + v.2) (wd v.1)) s
      let s := s.axisLong 0x21 a fun y =>
        y.append (charEntry 0x11 b ((use.map fun i => 2 ^ i).sum) h.ncap q (h.binSpeed b).natAbs)
      (s.updChar a fun h => { h with usable := h.usable + b2n (decide (use.length = 4)), sums := [], cnts := [] }).charNext a
    else s
  | _ => if m.cruising then s.updChar a fun h => { h with part := 1, from_ := m.pos } else s

/-- An axis that a diagnostic operation has driven in Diagnose is no longer driven. -/
def State.unpower (s : State) (a : Nat) : State :=
  if s.glb.mode = .diagnose ∧ (s.axis a).driven then
    ((axisLegs a).foldl (fun t l => t.updLeg (axisTile a) l Leg.toHiz) s).updAxis a fun x =>
      { x.undrive with m := { x.m with posUnc := true } }
  else s

/-- CHARACTERIZE is over. -/
def State.charOver (s : State) (a st : Nat) (h : Char) : State :=
  let s := s.axisLong 0x21 a fun x => { x with summary := wd h.usable }
  let s := (s.updAxis a fun y => { y with char := none }).unpower a
  match s.longOf 0x21 a with
  | some x => s.endLong x.tag st
  | none => s

/-- The header that makes the baseline usable (R242, R246). -/
def State.charHeader (s : State) (a : Nat) (h : Char) : State :=
  let x := s.axis a
  let s := (s.setBase a 260 (wd h.width)).setBase a 261 (wd (2 ^ 31 + fld x.regs.cur 16 2 * 2 ^ 16 + x.liveRun))
  (s.setBase a 262 x.regs.chop).setBase a 263 x.regs.decay

/-- The return to x_start (R246). -/
def State.charReturn (s : State) (a : Nat) (h : Char) (p : Profile) : State :=
  let m := (s.axis a).m
  match h.part with
  | 0 => (s.updChar a fun h => { h with part := 3 }).updMotion .axis a Motion.brake
  | 3 =>
    if !m.rested then s
    else if m.x = h.xStart * one then s.updChar a fun h => { h with part := 4 }
    else (s.updChar a fun h => { h with part := 4 }).charGo a (ownMove false h.xStart p)
  | _ =>
    if m.rested then
      let s := (s.charHeader a h).axisLong 0x21 a fun x => x.advance 65535
      s.charOver a Status.ok h
    else s

/-- CHARACTERIZE is ended by a stop cause, or by the device leaving Diagnose and Run (R248). -/
def State.charWatch (s : State) (a : Nat) : State :=
  match (s.axis a).char with
  | none => s
  | some h =>
    if h.part = 9 then s
    else match (s.axis a).m.stopping with
      | some st => if h.begun then s.charFail a st.cause.status else s
      | none =>
        if s.glb.mode = .run ∨ s.glb.mode = .diagnose ∨ s.unlearned then s
        else if h.begun then s.charFail a s.glb.mode.leftStatus.1
        else s.updChar a fun h => { h with part := 9, timer := s.glb.mode.leftStatus.1 }

/-- CHARACTERIZE at a period boundary. -/
def State.charStep (s : State) (a : Nat) : State :=
  match (s.axis a).char with
  | none => s
  | some h =>
    if h.part = 9 then (if (s.axis a).m.rested || !h.begun then s.charOver a h.timer h else s)
    else if !h.begun then
      if s.nextItem .axis a = .char ∧ h.fromTick ≤ s.dt ∧ s.free .axis a ∧ (s.axis a).m.mode ≠ .target then
        s.updChar a fun h => { h with part := 9, timer := Status.wrongMode }
      else s
    else
      let p := Bank.get Profile.reset (s.axis a).m.profs h.slot
      let s := if h.step = 0 ∧ h.part = 0 then
          s.setBase a 261 (setFld ((s.axis a).baseEntry 261) 31 1 0)
        else s
      if h.step < 4 then s.charStand a h p
      else if h.step < 68 then s.charBin a h p
      else s.charReturn a h p

end Sys2Proof.Machine
end

