-- ==== Sys2Proof/Machine/Bonds.lean ====
section
/-! DEFINITION. BIND_COURSE and UNBIND_COURSE as they take effect at a period boundary (R60, R168 to R174), and the end of an entry
move (R170). -/

namespace Sys2Proof.Machine

/-! ### Whether a bond descriptor may take effect (R60, R169) -/

/-- A course whose slot in a former parent still reads detached (R178). -/
def State.detachedCourse (s : State) (c : Nat) : Bool :=
  s.courses.any fun p => p.2.members.any fun q => decide (q.2.state = .detached ∧ q.2.kind = .course ∧ q.2.index = c)

/-- The unit stands (R129), and nothing of it is in progress: a VELOCITY that has completed and still runs is none (R60). -/
def State.doneSoFar (s : State) (k : UnitKind) (n : Nat) : Bool :=
  let m := s.motion k n
  m.stopping.isNone && m.dwell.isNone && m.follow.isNone && m.play.isNone && !m.suspended && !s.longRuns k n &&
  (match m.act with
   | none => true
   | some a => a.silent && a.isVel)

/-- The resulting tree stays within eight levels (R169). -/
def State.depthOk (s : State) (b : BindReq) : Bool :=
  match b.kind with
  | .axis => true
  | .course => decide (s.level 9 b.target + s.treeDepth 9 b.index ≤ 8)

/-- The conditions of R169, in its order, with the field that R423 names. -/
def State.bindBad (s : State) (b : BindReq) : Option Bad :=
  let c := s.course b.target
  firstBad [
    (!c.m.en || s.detachedCourse b.target, bad 0 24),
    (!(s.motion b.kind b.index).en, bad 1 8),
    ((s.parentOf b.kind b.index).isSome, bad 1 8),
    (decide (b.kind = .course) && s.ancestor 9 b.index b.target, bad 1 8),
    (!s.depthOk b, bad 1 8),
    (!decide ((c.member b.slot).state = .empty ∨ (c.member b.slot).state = .detached), bad 1 0),
    (b.cam && !s.camValid (fld b.param 0 15), bad 2 0),
    (!(c.m.still && decide (c.m.v = 0)), badStatus Status.axisMoving)]

/-- A bond descriptor completes without effect. -/
def State.bindFail (s : State) (b : BindReq) (f : Bad) : State :=
  let ws := if f.status = Status.invalidField then [wd (f.word + f.bit * 2 ^ 8)] else []
  if b.unbind && f.status ≠ Status.invalidField then
    s.complete b.tag (s.motionRecord b.kind b.index b.word0 false false 0 none false f.status)
  else s.complete b.tag (s.mkRecord b.word0 ws (2 * b2n (s.motion b.tkind b.target).posUnc) f.status)

/-! ### BIND_COURSE (R170) -/

/-- The record of a bind: the OFFSET in use (R423). -/
def State.bindRecord (s : State) (word0 : Word) (c : Nat) (mb : Member) (status : Nat) : List Word :=
  s.mkRecord word0 [posLo (mb.offset / one), wd (posHi16 (mb.offset / one)), wd (mb.offset % one).toNat]
    (2 * b2n (s.motion .course c).posUnc) status

/-- The member is bound: it reads mode 0x5, and its bond governs it. -/
def State.bindDone (s : State) (g : Tag) (word0 : Word) (c slot : Nat) (mb : Member) : State :=
  let s := (s.setMember c slot { mb with state := .bound, pend := none, ended := none }).setParent mb.kind mb.index (some (c, slot))
  let s := s.updMotion mb.kind mb.index fun m => { m.clear with mode := .member, act := none, ret := none }
  s.complete g (s.bindRecord word0 c mb Status.ok)

/-- The silent MOVE_TO that brings a member to its bond position: planned in this tick, it begins in the next (R33). -/
def State.entryMove (s : State) (b : BindReq) (q : Int) : Move :=
  let p := Bank.get Profile.reset (s.motion b.kind b.index).profs b.pslot
  { ownMove false (q / one) p with opcode := 0x30, tag := b.tag, ord := b.ord, from_ := s.nextTick }

/-- A BIND_COURSE takes effect. -/
def State.bindNow (s : State) (b : BindReq) : State :=
  let mb : Member :=
    { state := .binding, kind := b.kind, index := b.index, cam := b.cam, param := b.param, offset := b.offset,
      pend := some (b.tag, b.word0), ended := none }
  let x := (s.course b.target).m.x
  let u := s.motion b.kind b.index
  if !b.explicit then
    let q := s.bond { mb with offset := 0 } x
    s.bindDone b.tag b.word0 b.target b.slot { mb with offset := wrapS 80 (u.x - q) }
  else
    let q := wrapS 80 (s.bond mb x)
    if q = u.x then s.bindDone b.tag b.word0 b.target b.slot mb
    else if !u.slotOk b.pslot then s.bindFail b { status := Status.invalidField, word := 1, bit := 20 }
    else
      ((s.setMember b.target b.slot mb).setParent b.kind b.index (some (b.target, b.slot))).updMotion b.kind b.index fun m =>
        { m with look := s.entryMove b q :: m.look }

/-! ### UNBIND_COURSE (R174) -/

/-- A slot is empty, and its member has no parent and stands in Target position mode at its rounded position. -/
def State.freeSlot (s : State) (c slot : Nat) : State :=
  let mb := (s.course c).member slot
  ((s.setMember c slot Member.reset).setParent mb.kind mb.index none).updMotion mb.kind mb.index fun m =>
    { m with mode := .target, x := roundPos m.x, v := 0, tgt := roundPos m.x / one, behind := false }

/-- An UNBIND_COURSE of a bound member takes effect at standstill. -/
def State.unbindNow (s : State) (b : BindReq) (c slot : Nat) : State :=
  let mb := (s.course c).member slot
  if (s.motion mb.kind mb.index).v = 0 then
    let s := s.freeSlot c slot
    s.complete b.tag (s.motionRecord mb.kind mb.index b.word0 false false 0 none false Status.ok)
  else s.bindFail { b with kind := mb.kind, index := mb.index } { status := Status.axisMoving, word := 0, bit := 0 }

/-- The slot that an UNBIND_COURSE names now. -/
def State.unbindSlot (s : State) (b : BindReq) : Option (Nat × Nat) :=
  if b.bySlot then some (b.target, b.slot) else s.parentOf b.tkind b.target

/-! ### A boundary (R60) -/

/-- An earlier motion descriptor of the unit that a bond descriptor concerns is not complete (R60). -/
def State.bindWaits (s : State) (b : BindReq) : Bool :=
  decide (s.nextItem b.kind b.index ≠ .bind) || !s.doneSoFar b.kind b.index ||
  s.host.binds.any fun c => decide (c.kind = b.kind ∧ c.index = b.index ∧ c.ord < b.ord)

/-- Whether a bond descriptor has taken effect or been refused at this boundary, and the state then. An UNBIND_COURSE of a detached member's
slot moves no unit and waits for none (R174). -/
def State.bindStep (s : State) (b : BindReq) : Bool × State :=
  let s' : State := { s with host := { s.host with binds := s.host.binds.filter fun c => decide (c.tag ≠ b.tag) } }
  if s.dt < b.from_ then (false, s)
  else if b.unbind then
    match s.unbindSlot b with
    | none => if s.bindWaits b then (false, s) else (true, s'.bindFail b { status := Status.invalidField, word := 0, bit := 24 })
    | some (c, slot) =>
      match ((s.course c).member slot).state with
      | .empty => if s.bindWaits b then (false, s) else (true, s'.bindFail b { status := Status.invalidField, word := 1, bit := 0 })
      | .detached =>
        let mb := (s.course c).member slot
        let s := s'.setMember c slot Member.reset
        (true, s.complete b.tag (s.motionRecord mb.kind mb.index b.word0 false false 0 none false Status.ok))
      | .binding => (false, s)
      | .bound => if s.bindWaits b then (false, s) else (true, s'.unbindNow b c slot)
  else if s.unlearned then (false, s)
  else if s.glb.mode ≠ .run ∧ s.glb.mode ≠ .hold then
    (true, s'.bindFail b { status := s.glb.mode.leftStatus.1, word := 0, bit := 0 })
  else if s.bindWaits b then (false, s)
  else if !((s.motion b.kind b.index).still && decide ((s.motion b.kind b.index).v = 0)) then
    (true, s'.bindFail b { status := Status.axisMoving, word := 0, bit := 0 })
  else
    match s.bindBad b with
    | some f => (true, s'.bindFail b f)
    | none => (true, s'.bindNow b)

/-- The end of an entry move: the member is bound, or the bind has failed and its slot is empty (R170). -/
def State.entryOver (s : State) (c slot : Nat) : State :=
  let mb := (s.course c).member slot
  match mb.state, mb.pend, mb.ended with
  | .binding, some (g, w0), some st =>
    if st = Status.ok then s.bindDone g w0 c slot mb
    else
      let s := (s.setMember c slot Member.reset).setParent mb.kind mb.index none
      let s := s.updMotion mb.kind mb.index fun m => { m with mode := if m.en then .target else m.mode }
      s.complete g (s.mkRecord w0 [] (2 * b2n (s.motion .course c).posUnc) st)
  | _, _, _ => s

/-- The entry moves that have ended, and, while the cores plan (R46), the bond descriptors in the order of take-up. -/
def State.bonds (s : State) : State :=
  let s := (s.courses.flatMap fun p => p.2.members.map fun q => (p.1, q.1)).foldl (fun t p => t.entryOver p.1 p.2) s
  if s.planning then s.host.binds.foldl (fun t b => (t.bindStep b).2) s else s

end Sys2Proof.Machine
end

