-- ==== Sys2Proof/Machine/Inputs.lean ====
section
/-! DEFINITION. Sense inputs (R335 to R341), limits (R259, R338), step/direction pairs (R185, R186), encoder counts and the encoder source
(R73 to R76, R343). -/

namespace Sys2Proof.Machine

def srcEncErr : Nat := 0x00C
def srcSafetyIn : Nat := 0x0C0
def srcLimit : Nat := 0x240

/-! ### Maps of inputs -/

/-- A bit of a 64-bit map set or cleared. -/
def mapSet (b : BitVec 64) (i : Nat) (v : Bool) : BitVec 64 :=
  let m := BitVec.ofNat 64 (2 ^ i)
  if v then b ||| m else b &&& ~~~ m

/-- INP_STEP_CFG and INP_ENC_CFG of a unit; their reset is 0x10 (R185, R345). -/
def Inp.stepCfgOf (i : Inp) (n : Nat) : Word := Bank.get 0x10 i.stepCfg n
def Inp.encCfgOf (i : Inp) (n : Nat) : Word := Bank.get 0x10 i.encCfg n
def Inp.lineCfgOf (i : Inp) (n : Nat) : Word := Bank.get 0x6400 i.lineCfg n

/-- An enabled step/direction pair has taken the input (R185, R339). -/
def Inp.taken (i : Inp) (n : Nat) : Bool := bit (i.stepCfgOf (n / 2)) 0

/-! ### Safety inputs (R340) -/

/-- The latch of a safety input that is active or unknown is set, and each setting raises SAFETY_IN. -/
def State.safetyInput (s : State) (n : Nat) : State :=
  if s.inp.safe.getLsbD n && s.safetyOn n && !s.inp.latch.getLsbD n then
    ({ s with inp := { s.inp with latch := mapSet s.inp.latch n true } }).fault (srcSafetyIn + n) (wd n) .none
  else s

/-- Every safety input is looked at. -/
def State.safetyScan (s : State) : State := (List.range s.variant.senses).foldl State.safetyInput s

/-! ### Limits (R259, R338) -/

/-- The detail word of LIMIT (R510). -/
def limitDetail (a n : Nat) (neg : Bool) : Word := wd (a + (if neg then 0 else 2 ^ 8) + n * 2 ^ 16)

/-- The sense in which a unit moves in the present period: in the first period of a start its speed at the last boundary is still 0. -/
def Motion.sense (m : Motion) : Int :=
  if m.v ≠ 0 then m.v.sign else (m.queue.head?.elim 0 Seg.acc).sign

/-- An enabled limit of an axis has become active: the axis stops where it moves in the sense that the limit guards. -/
def State.limitHit (s : State) (a n : Nat) (neg : Bool) (edge : Bool) : State :=
  let guarded := decide ((s.axis a).m.sense = if neg then -1 else 1)
  let flag (u : State) : State := u.updAxis a fun x => { x with stall := { x.stall with flags := x.stall.flags ||| bw true 3 } }
  if guarded then
    let s := flag s
    let s := if !s.isBound .axis a then s.postStop .axis a .limit
      else if (s.classOf (srcLimit + a)).policy then s.memberEvent a (some .limit) else s.memberReport a
    s.fault (srcLimit + a) (limitDetail a n neg) (.axis a)
  else if edge then flag s
  else s

/-- A sense input takes the active level of a limit, by an edge or by becoming known. -/
def State.limitInput (s : State) (a n : Nat) (edge : Bool) : State :=
  let hit (u : State) (neg : Bool) : State :=
    if decide (limitIn (u.axis a).regs.limit neg = n) && decide (u.limit a neg = .active) then u.limitHit a n neg edge else u
  hit (hit s true) false

/-! ### Sense inputs (R336, R337) -/

/-- N and M of the filter of an input (R336). -/
def Inp.filtN (i : Inp) (n : Nat) : Nat := if i.filt.getLsbD n then 7 else 5
def Inp.filtM (i : Inp) (n : Nat) : Nat := if i.filt.getLsbD n then 5 else 3

/-- The samples that the filter of an input holds. -/
def Inp.hist (i : Inp) (n : Nat) : SenseHist := Bank.get SenseHist.reset i.samp n

/-- The last N of them. -/
def Inp.window (i : Inp) (n : Nat) (last : List Bool) : List Bool := last.take (i.filtN n)

/-- The level that the filter takes at the newest of its samples, when it takes one: of a known input the other level, at M of the last N samples
there (R336); of an unknown one the level at which all of the last N lie (R337). -/
def Inp.takes (i : Inp) (n : Nat) (last : List Bool) : Option Bool :=
  let w := i.window n last
  if i.isKnown n then (if i.filtM n ≤ (w.filter fun x => x != i.level n).length then some (!i.level n) else none)
  else match w with
    | [] => none
    | x :: _ => if w.length = i.filtN n ∧ w.all (fun y => y == x) then some x else none

/-- Samples pass at which the filter takes no level; none where it takes one, for that sample is the event. -/
def Inp.feed (i : Inp) (n : Nat) (last : List Bool) : List Bool → Option (List Bool)
  | [] => some last
  | x :: r => if (i.takes n ((x :: last).take 7)).isSome then none else i.feed n ((x :: last).take 7) r

/-- The samples of an input that no command has brought lie at the level of the newest sample that its filter holds (log entry 25). -/
def SenseHist.gap (h : SenseHist) (k : Nat) : List Bool := List.replicate (min 7 k) (h.last.headD false)

/-- The samples of a command, oldest first, the last of them taken now: the first at which the filter takes a level must be that last one
(R336, R337). Answers with the level and what the filter then holds. -/
def Inp.event (i : Inp) (n now : Nat) (samples : List Bool) : Option (Bool × SenseHist) :=
  match samples.getLast? with
  | none => none
  | some x =>
    let h := i.hist n
    let k := now / 200 + 1
    if now % 200 ≠ 0 ∨ k < h.count + samples.length then none
    else
      let between := if h.last.isEmpty then [] else h.gap (k - h.count - samples.length)
      (i.feed n h.last (between ++ samples.dropLast)).bind fun l =>
        (i.takes n ((x :: l).take 7)).map fun v => (v, { count := k, last := (x :: l).take 7 })

/-- How many samples before the newest lies sample S, the earliest at a level among the last N (R336). -/
def Inp.sBehind (i : Inp) (n : Nat) (level : Bool) (h : SenseHist) : Nat :=
  (((i.window n h.last).zipIdx.filter fun p => p.1 == level).getLast?.map Prod.snd).getD 0

/-- SENSE_QUALIFIED_EDGE: the filtered level changes at the last of the samples; latches, limits and homing follow. -/
def State.senseEdge (s : State) (n : Nat) (samples : List Bool) : State :=
  if decide (n < s.variant.senses) && s.inp.isKnown n && !s.inp.taken n then
    match s.inp.event n s.dt samples with
    | none => s
    | some (level, h) =>
      let at_ := s.dt - 200 * s.inp.sBehind n level h
      let s := { s with inp := { s.inp with lvl := mapSet s.inp.lvl n level, edge := mapSet s.inp.edge n true, samp := Bank.set s.inp.samp n h } }
      let s := s.safetyInput n
      s.listedAxes.foldl (fun t a => (t.limitInput a n true).homeEdge a n level at_) s
  else s

/-- SENSE_QUALIFIED_EDGE: the last sample lies at the new level, as every sample does that meets a quota (R336). -/
def execSenseQualifiedEdge (n : Nat) (level : Bool) (earlier : List Bool) (s : State) : Answer := s.command fun s => s.senseEdge n (earlier ++ [level])

/-- INPUT_KNOWN: no edge; it reaches a limit only where the axis moves towards it (R338). -/
def State.senseKnown (s : State) (n : Nat) (samples : List Bool) : State :=
  if decide (n < s.variant.senses) && !s.inp.isKnown n && !s.inp.taken n then
    match s.inp.event n s.dt samples with
    | none => s
    | some (level, h) =>
      let s := { s with inp := { s.inp with lvl := mapSet s.inp.lvl n level, known := mapSet s.inp.known n true, samp := Bank.set s.inp.samp n h } }
      let s := s.safetyInput n
      s.listedAxes.foldl (fun t a => t.limitInput a n false) s
  else s

def execInputKnown (n : Nat) (samples : List Bool) (s : State) : Answer := s.command fun s => s.senseKnown n samples

/-- What the filter holds once the samples up to `now` have passed without a command. -/
def SenseHist.upTo (h : SenseHist) (now : Nat) : SenseHist :=
  let k := now / 200 + 1
  if h.last.isEmpty then h else { count := max k h.count, last := (h.gap (k - h.count) ++ h.last).take 7 }

/-- An input becomes unknown (R337, R339); its samples stay. -/
def Inp.forget (i : Inp) (n now : Nat) : Inp :=
  { i with lvl := mapSet i.lvl n false, known := mapSet i.known n false, samp := Bank.set i.samp n ((i.hist n).upTo now) }

/-! ### Step/direction pairs (R186) -/

/-- A count modulo 2^32 goes up or down. -/
def countStep (w : Word) (up : Bool) : Word := if up then w + 1 else w - 1

/-- STP_EDGE: DIR high counts up, or down with DIR_INV. -/
def State.stepEdge (s : State) (n : Nat) (dirHigh : Bool) : State :=
  let cfg := s.inp.stepCfgOf n
  if decide (n < s.variant.pairs) && bit cfg 0 then
    { s with inp := { s.inp with stepCnt := Bank.set s.inp.stepCnt n (countStep (Bank.get 0 s.inp.stepCnt n) (dirHigh != bit cfg 2)) } }
  else s

def execStpEdge (n : Nat) (dirHigh : Bool) (s : State) : Answer := s.command fun s => s.stepEdge n dirHigh

/-! ### Encoders (R73 to R76, R343) -/

/-- REF_SRC selects encoder `n` or line input `n`. -/
def Ref.isEnc (r : Ref) (n : Nat) : Bool := decide (fld r.src 0 4 = 1) && decide (fld r.src 4 4 = n)
def Ref.isLine (r : Ref) (n : Nat) : Bool := decide (fld r.src 0 4 = 2) && decide (fld r.src 4 4 = n)

/-- The tracker and the RC at an edge of the encoder source, `up` with INV_DIR applied (R74, R75). A held RC stands. -/
def Ref.encEdge (r : Ref) (dt : Nat) (up : Bool) : Ref :=
  let m : Int := (if up then (1 : Int) else -1) * ((2 ^ 40 / max 1 (dt - r.encDt) : Nat) : Int)
  let rate := if up = r.encUp then r.encRate + (m - r.encRate) / 2 ^ (fld r.encCfg 0 3 + 1) else m
  let n := r.rc / 2 ^ 40
  let rc := if up then (n + 1) % 2 ^ 40 * 2 ^ 40 else (n + 2 ^ 40 - 1) % 2 ^ 40 * 2 ^ 40 + encFracMax
  { r with encRate := rate, encUp := up, encDt := dt, rc := if r.run then rc else r.rc }

/-- The count of the encoder that is the RC source is loaded: the RC integer and the count are one (R74, R81; log entry 35). -/
def State.loadCount (s : State) (v : Nat) : State :=
  if fld s.ref.src 0 4 = 1 then { s with inp := { s.inp with encCnt := Bank.set s.inp.encCnt (fld s.ref.src 4 4) (wd (v / 2 ^ 40)) } } else s

/-- The filter time of an encoder in DT counts (R343, R345). -/
def Inp.encFilt (i : Inp) (n : Nat) : Nat :=
  match fld (i.encCfgOf n) 4 2 with
  | 0 => 2
  | 1 => 4
  | 2 => 8
  | _ => 12

/-- A channel that changed last at a DT has been stable for the filter time. -/
def stableSince (last : Option Nat) (now filt : Nat) : Bool := last.elim true fun t => decide (t + filt ≤ now)

/-- An edge of A or B: of the other channel than the last one where the sense is the same, and of the same channel where it turns; `both` changes
both. Answers whether the filters accept it (R343), and what they then hold. -/
def EncSeen.edge (e : EncSeen) (up both : Bool) (now filt : Nat) : Bool × EncSeen :=
  if both then (stableSince e.atA now filt && stableSince e.atB now filt, { e with atA := some now, atB := some now })
  else
    let b := if up = e.up then !e.chanB else e.chanB
    (stableSince (if b then e.atB else e.atA) now filt,
      { e with chanB := b, up := up, atA := if b then e.atA else some now, atB := if b then some now else e.atB })

/-- What the filters of an encoder hold. -/
def Inp.encSeenOf (i : Inp) (n : Nat) : EncSeen := Bank.get EncSeen.reset i.encSeen n

/-- An accepted edge counts in the sense of the RC, which INV_DIR reverses (R73, R187), and moves the RC where the encoder is its source; a change
of both channels counts nothing and raises ENC_ERR (R76). -/
def State.encCount (s : State) (n : Nat) (up both : Bool) : State :=
  if bit (s.inp.encCfgOf n) 0 then
    if both then
      ({ s with ref := { s.ref with flags := s.ref.flags ||| bw true 4 } }).fault srcEncErr (wd n) .none
    else
      let up := up != bit s.ref.encCfg 4
      let s := { s with inp := { s.inp with encCnt := Bank.set s.inp.encCnt n (countStep (Bank.get 0 s.inp.encCnt n) up) } }
      if s.ref.isEnc n then
        let s := { s with ref := s.ref.encEdge s.dt up }
        if s.ref.run then s.loadCount s.ref.rc else s
      else s
  else s

/-- ENCODER_EDGE, `up` by the phase of the channels: a change that follows another of its channel by less than the filter time is none (R343). -/
def State.encEdge (s : State) (n : Nat) (up both : Bool) : State :=
  let r := (s.inp.encSeenOf n).edge up both s.dt (s.inp.encFilt n)
  if decide (n < s.variant.encoders) && r.1 then
    ({ s with inp := { s.inp with encSeen := Bank.set s.inp.encSeen n r.2 } }).encCount n up both
  else s

def execEncoderEdge (n : Nat) (up both : Bool) (s : State) : Answer := s.command fun s => s.encEdge n up both

/-- ENCODER_INDEX_EDGE: each rising edge of the index latches the count, whether or not the encoder is enabled to count (R343). Between two of
them each level has been stable for the filter time. -/
def State.encIndex (s : State) (n : Nat) : State :=
  let e := s.inp.encSeenOf n
  if decide (n < s.variant.encoders) && stableSince e.idx s.dt (2 * s.inp.encFilt n) then
    { s with inp := { s.inp with encIdx := Bank.set s.inp.encIdx n (Bank.get 0 s.inp.encCnt n)
                                 encSeen := Bank.set s.inp.encSeen n { e with idx := some s.dt } } }
  else s

def execEncoderIndexEdge (n : Nat) (s : State) : Answer := s.command fun s => s.encIndex n

/-- ENCODER_RATE_TIMEOUT (R75). -/
def State.encTimeout (s : State) (n : Nat) : State :=
  if s.ref.isEnc n && decide (65536 ≤ s.dt - s.ref.encDt) then { s with ref := { s.ref with encRate := 0 } } else s

def execEncoderRateTimeout (n : Nat) (s : State) : Answer := s.command fun s => s.encTimeout n

/-! ### Register writes of the INP block with rows of their own are carried out by these changes -/

/-- INP_SAFE_CLR (R341): a latch bit is cleared where its input is known and inactive. -/
def State.safeClr (s : State) (j : Nat) (v : Word) : State :=
  (List.range 32).foldl (fun t i =>
    let n := 32 * j + i
    if bit v i && decide (n < t.variant.senses) && t.inp.isKnown n &&
        decide (t.inp.level n ≠ t.inp.safeAct.getLsbD n) then
      { t with inp := { t.inp with latch := mapSet t.inp.latch n false } }
    else t) s

/-- A pair is enabled: its count is cleared and it takes its two inputs (R185, R339); when it is disabled they are unknown. -/
def State.pairOn (s : State) (n : Nat) : State :=
  ({ s with inp := { ((s.inp.forget (2 * n) s.dt).forget (2 * n + 1) s.dt) with stepCnt := Bank.set s.inp.stepCnt n 0 } }).safetyScan

def State.pairOff (s : State) (n : Nat) : State :=
  ({ s with inp := (s.inp.forget (2 * n) s.dt).forget (2 * n + 1) s.dt }).safetyScan

/-- An encoder is enabled: its count is cleared (R343), and with it the integer of an RC that it advances (R74; log entry 35). -/
def State.encOn (s : State) (n : Nat) : State :=
  { s with inp := { s.inp with encCnt := Bank.set s.inp.encCnt n 0 }
           ref := if s.ref.isEnc n && s.ref.run then { s.ref with rc := 0 } else s.ref }

/-- INP_FILT is written: the inputs whose bit changes become unknown (R337). -/
def State.filtWrite (s : State) (j : Nat) (v : Word) : State :=
  let s := (List.range 32).foldl (fun t i =>
    let n := 32 * j + i
    if t.inp.filt.getLsbD n = bit v i then t
    else { t with inp := { (t.inp.forget n t.dt) with filt := mapSet t.inp.filt n (bit v i) } }) s
  s.safetyScan

end Sys2Proof.Machine
end

