-- ==== Sys2Proof/Machine/RefClock.lean ====
section
/-! DEFINITION. The line source (R77, R78), the start of the RC (R80, R81), the reference outputs (R91, R92), temperature compensation
(R117 to R119) and the oscillators (R113 to R116). -/

namespace Sys2Proof.Machine

def srcOscSwitch : Nat := 0x014
def srcOscBkpFail : Nat := 0x015
def srcLineLost : Nat := 0x00D
def srcLineUnlock : Nat := 0x00E
def srcClkLost : Nat := 0x000

/-! ### The line PLL (R77, R78) -/

/-- The nominal cycle period in DT counts, and the nominal rate in 2^-40 RC unit per DT count. -/
def Ref.linePeriodNom (r : Ref) : Nat := fld r.lineNom 0 24 * 200
def Ref.lineRateNom (r : Ref) : Nat := 4096 * 2 ^ 40 / max 1 r.linePeriodNom

/-- The rates between which the PLL may choose at an edge with phase error `e` behind a cycle of `gap` DT counts (R77): 0.9 to 1.1 times the
nominal rate; and, so that the phase error falls towards 0, at most the rate of the line where the RC is ahead and at least that rate where
it is behind. -/
def Ref.pllLimits (r : Ref) (gap : Nat) (e : Int) : Nat × Nat :=
  let lo := r.lineRateNom * 9 / 10
  let hi := r.lineRateNom * 11 / 10
  let line := max lo (min hi (4096 * 2 ^ 40 / max 1 gap))
  (if e ≤ 0 then line else lo, if 0 ≤ e then line else hi)

/-- The rate that the PLL takes at an edge: the spec gives its limits, its sense and its bandwidth, and the value between them is free
(log entries 2, 36). -/
def Ref.pllRate (r : Ref) (n gap : Nat) (e : Int) : Nat :=
  let l := r.pllLimits gap e
  l.1 + (Config.linePllRate n (fld r.lineCfg 4 2) e).toNat % (l.2 - l.1 + 1)

/-- The phase error at an edge (R77). -/
def phaseError (i : Nat) : Int := ((i + 2048) % 4096 : Nat) - 2048

/-- The state after an edge, with the runs of good and bad edges (R78). Answers whether the lock was lost. -/
def Ref.lineLock (r : Ref) (e : Int) : Ref × Bool :=
  let near := decide (e.natAbs ≤ 4)
  let far := decide (32 < e.natAbs)
  match r.lock with
  | .locked =>
    if far && decide (1 ≤ r.lineBad) then ({ r with lock := .acquiring, lineGood := 0, lineBad := 0 }, true)
    else ({ r with lineBad := if far then r.lineBad + 1 else 0 }, false)
  | .holdover =>
    if near then ({ r with lock := .locked, lineGood := 0, lineBad := 0 }, false)
    else ({ r with lock := .acquiring, lineGood := 0, lineBad := 0 }, false)
  | .lost =>
    if !near then ({ r with lock := .acquiring, lineGood := 0, lineBad := 0 }, false)
    else if 7 ≤ r.lineGood then ({ r with lock := .locked, lineGood := 0, lineBad := 0 }, false)
    else ({ r with lineGood := r.lineGood + 1 }, false)
  | .acquiring =>
    if !near then ({ r with lineGood := 0 }, false)
    else if 7 ≤ r.lineGood then ({ r with lock := .locked, lineGood := 0, lineBad := 0 }, false)
    else ({ r with lineGood := r.lineGood + 1 }, false)
  | .none => (r, false)

/-- An edge of the polarity that starts a cycle, whose time is that of the first of its FILT samples (R344). The period since the last such
edge, or behind the start of the RC the time since then, is the current cycle period (DESIGN CHOICE, log entry 36). In Lost the RC goes on at its
last rate, and in Acquiring it goes at the nominal rate until the next edge (R78). -/
def State.lineEdgeAt (s : State) (n : Nat) : State :=
  if s.ref.isLine n && s.ref.run && bit (s.inp.lineCfgOf n) 0 then
    let at_ := s.dt - 200 * (fld (s.inp.lineCfgOf n) 8 8 - 1)
    let i := rcBefore s.ref s.str (s.dt - at_) / 2 ^ 40
    let e := phaseError i
    let r := s.ref.lineLock e
    let x := r.1
    let gap := at_ - s.ref.lineDt
    let s := ({ s with ref := { x with linePeriod := gap, lineDt := at_, flags := x.flags ||| bw r.2 3,
                                        lineRate := if x.lock = LockState.lost then x.lineRate
                                          else if x.lock = LockState.acquiring ∧ s.ref.lock ≠ LockState.acquiring then x.lineRateNom
                                          else x.pllRate s.fresh gap e } }).spend
    if r.2 then s.fault srcLineUnlock (wd n) .none else s
  else s

/-- The filter of a line input may qualify an edge to a level now (R344): at a sample, FILT samples or more behind the last edge. -/
def State.lineQualifies (s : State) (n : Nat) (level : Bool) : Bool :=
  let filt := fld (s.inp.lineCfgOf n) 8 8
  decide (n < s.variant.lines) && decide (s.dt % 200 = 0) &&
    (match Bank.get none s.inp.lineLast n with
     | none => decide (200 * (filt - 1) ≤ s.dt)
     | some p => (p.2 != level) && decide (p.1 + 200 * filt ≤ s.dt))

/-- LINE_EDGE: a qualified edge to a level. REF_LINE_CFG.EDGE picks the edges that start a cycle (R77). -/
def State.lineEdge (s : State) (n : Nat) (level : Bool) : State :=
  if s.lineQualifies n level then
    let s := { s with inp := { s.inp with lineLast := Bank.set s.inp.lineLast n (some (s.dt, level)) } }
    if level = bit s.ref.lineCfg 0 then s else s.lineEdgeAt n
  else s

def execLineEdge (e : LineEdge) (s : State) : Answer := s.command fun s => s.lineEdge e.n e.level

/-- LINE_HOLDOVER: no edge within 1.5 times the cycle period. -/
def State.lineHold (s : State) (n : Nat) : State :=
  if s.ref.isLine n && s.ref.run && decide (s.ref.lock = .acquiring ∨ s.ref.lock = .locked) &&
      decide (3 * s.ref.linePeriod ≤ 2 * (s.dt - s.ref.lineDt)) then
    { s with ref := { s.ref with lock := .holdover, lineGood := 0, lineBad := 0, flags := s.ref.flags ||| bw true 2 } }
  else s

def execLineHoldover (n : Nat) (s : State) : Answer := s.command fun s => s.lineHold n

/-- LINE_LOST: Holdover has lasted HOLD_CYC cycle periods. -/
def State.lineGone (s : State) (n : Nat) : State :=
  if s.ref.isLine n && s.ref.run && decide (s.ref.lock = .holdover) &&
      decide ((3 + 2 * fld s.ref.lineCfg 8 8) * s.ref.linePeriod ≤ 2 * (s.dt - s.ref.lineDt)) then
    ({ s with ref := { s.ref with lock := .lost } }).fault srcLineLost (wd n) .none
  else s

def execLineLost (n : Nat) (s : State) : Answer := s.command fun s => s.lineGone n

/-! ### The start of the RC (R80, R81) -/

/-- The value of PRESET in 2^-40 RC unit. -/
def Ref.preset (r : Ref) : Nat := (r.rcSetHi.toNat * 2 ^ 32 + r.rcSetLo.toNat) * 2 ^ 16

/-- The value with which the RC starts. -/
def Ref.startValue (r : Ref) : Nat := if bit r.ctrl 2 then r.preset else r.rc

/-- RC_START: the RC starts to advance at the boundary that has come; the count of the encoder source is loaded from its integer part (R74,
R81; log entry 35), its tracked rate is that of its edges so far (R75), and a MARK output sees no change. -/
def State.rcBegin (s : State) : State :=
  if s.ref.startDue then
    let v := s.ref.startValue
    let line := decide (fld s.ref.src 0 4 = 2)
    let s := s.loadCount v
    { s with ref := { s.ref with
        run := true, startPend := false, startDue := false, rc := v, rcLast := v, markFrom := v / 2 ^ 40
        encRate := if s.ref.encDt + 65536 ≤ s.dt then 0 else s.ref.encRate
        lock := if line then .acquiring else .none
        lineRate := s.ref.lineRateNom, lineGood := 0, lineBad := 0, lineDt := s.dt, linePeriod := s.ref.linePeriodNom } }
  else s

def execRcStart (s : State) : Answer := s.command State.rcBegin

/-- The RC is held: in Sealed, in Configure, and while REF_CTRL.EN is 0 (R80). -/
def Ref.halt (r : Ref) : Ref := { r with run := false, startPend := false, startDue := false }

/-! ### Reference outputs (R91, R92) -/

def Ref.outCfgOf (r : Ref) (n : Nat) : Word := Bank.get 0x00C80000 r.outCfg n
def Ref.outDivOf (r : Ref) (n : Nat) : Word := Bank.get 0x00000001 r.outDiv n
def Ref.outOf (r : Ref) (n : Nat) : RefOut := Bank.get RefOut.reset r.outs n

/-- The device is in a mode in which the outputs follow their configuration. -/
def State.outputsLive (s : State) : Bool := !s.inReset && decide (s.glb.mode ≠ .sealed ∧ s.glb.mode ≠ .configure)

/-- A pulse of an output is in progress. -/
def State.pulsing (s : State) (n : Nat) : Bool := (s.ref.outOf n).pulse.elim false fun t => decide (s.dt < t)

/-- A pulse of WIDTH DT counts begins, unless one is active. -/
def State.outPulse (s : State) (n : Nat) : State :=
  if s.pulsing n then s
  else { s with ref := { s.ref with outs := Bank.set s.ref.outs n { pulse := some (s.dt + fld (s.ref.outCfgOf n) 16 16) } } }

/-- The level of REFOUTn. -/
def State.outLevel (s : State) (n : Nat) : Bool :=
  let cfg := s.ref.outCfgOf n
  let div := fld (s.ref.outDivOf n) 0 24
  let on : Bool := match fld cfg 0 3 with
    | 1 => s.pulsing n
    | 2 => decide (s.dt < s.periodStart + 1000)
    | 3 => s.pulsing n
    | 4 => s.ref.run && decide (s.ref.rc / 2 ^ 40 % div < div / 2)
    | _ => false
  s.outputsLive && (on != bit cfg 4)

/-- A 40-bit count has changed from `a` to `b`, by the shorter way, onto a multiple of `d` or across one (R91). The multiples are those of the
integer part, of which 0 is one. -/
def crosses (a b d : Nat) : Bool :=
  let up := (b + 2 ^ 40 - a % 2 ^ 40) % 2 ^ 40
  if up = 0 then false
  else if up < 2 ^ 39 then decide (2 ^ 40 ≤ a + up) || decide (a / d < (a + up) / d)
  else
    let down := 2 ^ 40 - up
    if a < down then decide (0 < a) || decide (b ≤ (2 ^ 40 - 1) / d * d)
    else decide ((b + d - 1) / d < (a + d - 1) / d)

/-- REFOUT_MARK: the RC integer has changed onto a multiple of DIV, or across one, at this DT count. A HALFDIV output follows the RC by itself. -/
def State.outMark (s : State) (n : Nat) : State :=
  if decide (n < 2) && s.outputsLive && s.ref.run && decide (fld (s.ref.outCfgOf n) 0 3 = 1) &&
      crosses s.ref.markFrom (s.ref.rc / 2 ^ 40) (fld (s.ref.outDivOf n) 0 24) then s.outPulse n else s

def execRefoutMark (n : Nat) (s : State) : Answer := s.command fun s => s.outMark n

/-- REFOUT_PULSE_END. -/
def State.outEnd (s : State) (n : Nat) : State :=
  if s.pulsing n then s else { s with ref := { s.ref with outs := Bank.set s.ref.outs n { pulse := none } } }

def execRefoutPulseEnd (n : Nat) (s : State) : Answer := s.command fun s => s.outEnd n

/-- A planning tick boundary begins a pulse of each output in TICK mode. -/
def State.outTicks (s : State) : State :=
  (List.range 2).foldl (fun t n => if t.outputsLive && decide (fld (t.ref.outCfgOf n) 0 3 = 3) then t.outPulse n else t) s

/-! ### Temperature compensation (R117 to R119, R349) -/

/-- TEMP, PPB and GAIN of a point. -/
def Ref.tcTemp (r : Ref) (i : Nat) : Int := signed 16 (fld (Bank.get 0 r.tcPt i) 16 16)
def Ref.tcPpb (r : Ref) (i : Nat) : Int := signed 16 (fld (Bank.get 0 r.tcPt i) 0 16)
def Ref.tcVrGain (r : Ref) (i : Nat) : Int := signed 16 (fld (Bank.get 0 r.tcVr i) 0 16)

/-- The TEMP values rise strictly (R118). -/
def Ref.tcRises (r : Ref) : Bool := (List.range 15).all fun i => decide (r.tcTemp i < r.tcTemp (i + 1))

/-- A value between two points (R119). -/
def tcBetween (a b t0 t1 t : Int) : Int := a + (b - a) * (t - t0) / (t1 - t0)

/-- A value of the table at a temperature, the end point beyond the ends. -/
def Ref.tcValue (r : Ref) (f : Nat → Int) (t : Int) : Int :=
  if t ≤ r.tcTemp 0 then f 0
  else match (List.range 15).find? fun i => decide (t < r.tcTemp (i + 1)) with
    | some i => tcBetween (f i) (f (i + 1)) (r.tcTemp i) (r.tcTemp (i + 1)) t
    | none => f 15

/-- DIE_TEMP_UPDATE: the median of the tile temperatures, and the compensation that follows it. -/
def State.dieTemp (s : State) : State :=
  let t := median2 (s.allTiles.map fun t => (s.thmTile t).temp) / 2
  let s := { s with thm := { s.thm with dieT := t } }
  if bit s.ref.ctrl 1 && decide (s.variant = .zm4812) then
    { s with ref := { s.ref with tcNext := if s.glb.bkpActive then none else some (s.ref.tcValue s.ref.tcPpb t)
                                 tcGain := s.ref.tcValue s.ref.tcVrGain t } }
  else s

def execDieTempUpdate (s : State) : Answer := s.command State.dieTemp

/-- A correction takes effect at a period boundary. -/
def Ref.tcApply (r : Ref) : Ref :=
  match r.tcNext with
  | some c => { r with tcC := c, tcAct := true, tcNext := none }
  | none => r

/-- The correction of the oscillator is off or suspended (R72, R113). -/
def Ref.tcOff (r : Ref) : Ref := { r with tcC := 0, tcAct := false, tcNext := none }

/-! ### Oscillators (R113 to R116) -/

/-- OSC_SWITCH: the PLL runs from the backup, and compensation is suspended. The deviation that GLB_CLK.DEV reports is a measured value,
and free. -/
def State.oscSwitch (s : State) : State :=
  if s.glb.bkpActive then s
  else
    let dev := Config.backupDeviation s.fresh
    let s := ({ s with glb := { s.glb with bkpActive := true, bkpOk := true, priOk := false, clkDev := dev }, ref := s.ref.tcOff }).spend.spareIn
    s.fault srcOscSwitch (wd dev.toNat) .none

/-- The primary is found to have failed: the detection counts in its wear counter (R495). While the backup is in use the primary is merely no
longer good (R116). -/
def State.primaryFails (s : State) : State :=
  if !s.glb.bkpActive then (s.wear 6).oscSwitch
  else if s.glb.priOk then { (s.wear 6) with glb := { (s.wear 6).glb with priOk := false } }
  else s

def execOscSwitch (s : State) : Answer := s.command State.primaryFails

/-- PRIMARY_OSC_GOOD: the primary runs within limits, and the backup is measured and trimmed against it. The deviation that GLB_CLK.DEV
reports is a measured value, and free. -/
def State.primaryGood (s : State) : State :=
  ({ s with glb := { s.glb with priOk := true, bkpOk := true, trimOk := true, clkDev := Config.backupDeviation s.fresh } }).spend

def execPrimaryOscGood (s : State) : Answer := s.command State.primaryGood

/-- RETURN_TO_PRIMARY: with RETURN set, once the primary has been good for 1 s. -/
def State.oscReturn (s : State) : State :=
  if s.glb.clkReturn && s.glb.bkpActive && s.glb.priOk then { s with glb := { s.glb with bkpActive := false } } else s

def execReturnToPrimary (s : State) : Answer := s.command State.oscReturn

/-- OSC_BKP_FAIL: the backup fails while the primary is good, in use or not, which its wear counter counts (R495). -/
def State.bkpFail (s : State) : State :=
  if s.glb.bkpActive && !s.glb.priOk then s
  else (({ s with glb := { s.glb with bkpOk := false, trimOk := false } }).wear 7).fault srcOscBkpFail 0 .none

def execOscBkpFail (s : State) : Answer := s.command State.bkpFail

/-- CLK_LOST: both oscillators have failed; every leg goes to Hi-Z, and the event is of class LOCK. -/
def State.clockLost (s : State) : State :=
  (({ s with glb := { s.glb with priOk := false, bkpOk := false } }).allHiz .hiz).fault srcClkLost 0 .none

def execClkLost (s : State) : Answer := s.command State.clockLost

end Sys2Proof.Machine
end

