-- ==== Sys2Proof/Machine/Link.lean ====
section
/-! DEFINITION. The Valsia strait (R94 to R112): SYNC frames and the follower's RC, faults on the chain, training. -/

namespace Sys2Proof.Machine

def srcStraitLost : Nat := 0x00F
def srcStraitFaultRx : Nat := 0x010
def srcStraitStep : Nat := 0x011
def srcStraitLong : Nat := 0x012
def srcStraitCrc : Nat := 0x013

/-- REF_STR_CTRL.ROLE: reference island, follower island (R111). -/
def Strait.isRef (t : Strait) : Bool := decide (fld t.ctrl 0 2 = 1)
def Strait.isFollower (t : Strait) : Bool := decide (fld t.ctrl 0 2 = 2)

/-- A change of the strait. -/
def State.updStr (s : State) (f : Strait → Strait) : State := { s with str := f s.str }

/-- The link state of a port changes. -/
def Strait.setLink (t : Strait) (port v : Nat) : Strait := if port = 0 then { t with link0 := v } else { t with link1 := v }

/-- The device sends and repeats frames: in every mode except Sealed (R102). -/
def State.straitLive (s : State) : Bool := decide (s.glb.mode ≠ .sealed)

/-- A frame leaves on a port whose transmitter is on. -/
def State.sendFrame (s : State) (port : Nat) (f : List Byte) : State :=
  if s.portOn port && s.straitLive then s.emit (.frame port f) else s

/-! ### Classes on the chain (R108, R109) -/

/-- The class in force on the island itself: the highest class of its records that are not acknowledged, or LOCK while LOCKED (DESIGN CHOICE,
log entry 37: R108 does not say when a class is in force). -/
def State.ownClass (s : State) : Nat :=
  let held := (s.flt.hist.filter fun e => !e.ack).foldl (fun m e => max m e.topClass.fltCode) 0
  if s.glb.locked then 3 else held

/-- The highest class known, with its origin. -/
def State.knownFlt (s : State) : Nat :=
  if s.str.belowClass ≤ s.ownClass then fltByte s.ownClass (if s.ownClass = 0 then 0 else s.str.island)
  else fltByte s.str.belowClass s.str.belowOrigin

/-- FLT of a frame raised to the island's own class where that is higher (R101). -/
def State.raiseFlt (s : State) (b : Nat) : Nat := if b / 32 < s.ownClass then fltByte s.ownClass s.str.island else b

/-- The class of STRAIT_FAULT_RX for a class received (R109). -/
def Strait.reactClass (t : Strait) (code : Nat) : FClass :=
  match fld t.ctrl 6 2 with
  | 0 => .log
  | 1 => .halt
  | _ => if code = 1 then .halt else .trip

/-- A class and origin received for the first time raise STRAIT_FAULT_RX once. A pair counts as recorded until reset, and an FLT with the island's
own number as its origin is passed over (DESIGN CHOICE, log entry 82). -/
def State.receiveFlt (s : State) (b : Nat) : State :=
  let code := b / 32
  let origin := b % 32
  if code = 0 ∨ 3 < code ∨ origin = s.str.island ∨ (code, origin) ∈ s.str.seen then s
  else
    let s := s.updStr fun t => { t with seen := t.seen ++ [(code, origin)], flags := t.flags ||| bw true 3 }
    (s.raiseAs srcStraitFaultRx (s.str.reactClass code) (wd (origin + code * 2 ^ 8)) false .none).settle

/-! ### Discarded frames (R99, R512, R523) -/

/-- An injection is armed for the frame check of a port; it acts on this frame. -/
def State.frameInjected (s : State) (port : Nat) : Bool :=
  s.flt.injArmed && decide (s.flt.injTarget = 4) && decide (s.flt.injUnit % 2 = port)

/-- A frame is discarded: it is counted, and STRAIT_CRC is raised once per port and tick. -/
def State.discardFrame (s : State) (port : Nat) (good : Bool) : State :=
  let inj := good && s.frameInjected port
  let s := if s.frameInjected port then { s with flt := { s.flt with injArmed := false } } else s
  let n := Bank.get 0 s.str.disc port + 1
  let done := Bank.get false s.str.discTick port
  let s := s.updStr fun t => { t with discCnt := satAdd 65535 t.discCnt 1, flags := t.flags ||| bw true 2, disc := Bank.set t.disc port n }
  if done then s
  else
    let d := wd (port + min 255 n * 2 ^ 8)
    let s := (s.raiseAs srcStraitCrc (s.classOf srcStraitCrc) d inj .none).settle
    if s.flt.hist.any fun e => decide (e.src = srcStraitCrc) && decide (e.dt = s.dt) && decide (e.detail = d) then
      s.updStr fun t => { t with disc := Bank.set t.disc port 0, discTick := Bank.set t.discTick port true }
    else s

/-- A frame received on a port: whether it is taken, and whether its discard is an injected one. -/
def State.frameTaken (s : State) (port type : Nat) (f : List Byte) : Bool :=
  frameGood f && decide (frameByte f 1 = type) && !s.frameInjected port

/-! ### SYNC (R95, R100, R101, R104, R106) -/

/-- The SYNC frame of the reference island for the period begun. -/
def State.syncFrame (s : State) : List Byte :=
  let b18 := fld s.ref.src 0 4 + (match s.ref.lock with
    | .none => 0
    | .acquiring => 1
    | .locked => 2
    | .holdover => 3
    | .lost => 4) * 16 + b2n s.glb.bkpActive * 128
  mkFrame (leBytes 1 frameSync ++ leBytes 1 0 ++ leBytes 1 s.str.seq ++ leBytes 8 (s.ref.rcLast / 2 ^ 16) ++ leBytes 4 s.ref.rate.toNat ++
    leBytes 2 0 ++ leBytes 1 b18 ++ leBytes 1 s.knownFlt ++ leBytes 4 0)

/-- SYNC_SEND. A reference island whose RC is held sends none (R80). -/
def State.syncSend (s : State) : State := if s.str.isRef && s.ref.run then s.sendFrame 1 s.syncFrame else s

def execSyncSend (s : State) : Answer := s.command State.syncSend

/-- The body of a repeated SYNC frame: HOP, DLY and FLT changed. -/
def State.repeatBody (s : State) (f : List Byte) : List Byte :=
  let b := (f.drop 1).take 23
  b.take 1 ++ leBytes 1 (frameByte f 2 + 1) ++ (b.drop 2).take 13 ++ leBytes 2 (frameNum f 16 2 + s.str.dly + 96) ++ (b.drop 17).take 1 ++
    leBytes 1 (s.raiseFlt (frameByte f 19)) ++ b.drop 19

/-- A SYNC frame is repeated downstream; one with a wrong CRC goes on with its CRC inverted, and HOP 31 is not repeated. -/
def State.repeatSync (s : State) (f : List Byte) (good : Bool) : State :=
  if frameByte f 2 = 31 then s
  else s.sendFrame 1 (if good then mkFrame (s.repeatBody f) else mkBadFrame (s.repeatBody f))

/-- 2.5 ns ticks from the reference island's boundary to the arrival of a SYNC frame. -/
def Strait.arrival (t : Strait) (f : List Byte) : Nat := 400 + frameNum f 16 2 + t.dly

/-- The boundary is placed at its computed instant: set directly after training, else slipped by one DT count (R104). -/
def State.align (s : State) (f : List Byte) : State :=
  if s.str.link0 ≠ 2 then s
  else if !s.str.aligned then
    let b := (s.dt + 2000000 - s.str.arrival f / 2) % 2000
    { s with ref := { s.ref with phase := b }, str := { s.str with aligned := true, sinceSlip := 0 } }
  else
    let e := wrapS 80 (((2 * (s.dt - s.bdt) : Nat) : Int) - s.str.arrival f)
    let e := (e + 2000) % 4000 - 2000
    if 2 < e.natAbs ∧ 8 ≤ s.str.sinceSlip then
      { s with
        ref := { s.ref with phase := (s.ref.phase + (if 0 < e then 1 else 1999)) % 2000, flags := s.ref.flags ||| bw true 0 }
        str := { s.str with sinceSlip := 0 } }
    else s

/-- A value in 2^-40 unit as a signed 40.8 value saturated to 32 bits. -/
def sat408 (e : Int) : Word := iwd (max (-2 ^ 31) (min (2 ^ 31 - 1) (e / 2 ^ 32)))

/-- The follower's RC is corrected or stepped (R106). While the RC is held no e is formed (DESIGN CHOICE, log entry 37). -/
def State.correct (s : State) (f : List Byte) : State :=
  let rate := signed 32 (frameNum f 12 4)
  let rc : Int := (frameNum f 4 8 * 2 ^ 16 : Nat)
  let s := s.updStr fun t => { t with syncRate := rate }
  if !s.ref.run || decide (fld s.ref.src 0 4 ≠ 3) then s
  else
    let e := wrapS 80 (rc + rate * 2 ^ 24 * s.str.arrival f / 4000 - s.ref.rc)
    let s := s.updStr fun t => { t with err := sat408 e }
    if e.natAbs ≤ fld s.str.ctrl 8 8 * 2 ^ 36 then s.updStr fun t => { t with slew := e / 2000, slewLeft := 2000 }
    else
      let s := s.updStr fun t => { t with loadRc := some (((rc + rate * 2 ^ 24) % 2 ^ 80).toNat), slew := 0, slewLeft := 0 }
      ({ s with ref := { s.ref with flags := s.ref.flags ||| bw true 1 } }).fault srcStraitStep (sat408 e) .none

/-- A missing SYNC frame is counted, and the fourth in a row loses the strait (R107). -/
def State.missSync (s : State) : State :=
  let s := s.updStr fun t => { t with missCnt := satAdd 65535 t.missCnt 1, missRun := t.missRun + 1, goodRun := 0 }
  if s.str.missRun = 4 ∧ !s.str.extrap then
    (s.updStr fun t => { t with extrap := true, flags := t.flags ||| bw true 1 }).fault srcStraitLost 0 .none
  else s

/-- A good SYNC frame on port 0 of a follower. -/
def State.takeSync (s : State) (f : List Byte) : State :=
  let hop := frameByte f 2
  let seq := frameByte f 3
  if hop = 31 then
    (s.updStr fun t => { t with link0 := 0, long := true, training := false, flags := t.flags ||| bw true 4 }).fault srcStraitLong 0 .none
  else
    let skip := s.str.lastSeq.elim false fun q => decide ((q + 1) % 256 ≠ seq)
    let s := if skip then s.missSync else s
    let b := frameByte f 18
    let s := s.updStr fun t =>
      { t with island := hop + 1, depth := max t.depth (hop + 1), lastSeq := some seq, srcRef := b % 16, lockRef := b / 16 % 8
               missRun := 0, goodRun := t.goodRun + 1 }
    let s := (s.align f).receiveFlt (frameByte f 19)
    if s.str.extrap && decide (s.str.goodRun < 2) then s
    else (s.updStr fun t => { t with extrap := false }).correct f

/-- SYNC_RECEIVE. A port that is held down receives none (R95). -/
def State.syncReceive (s : State) (f : List Byte) : State :=
  if s.str.isFollower && !s.str.long then
    let ok := s.frameTaken 0 frameSync f
    let s := s.repeatSync f ok
    if ok then s.takeSync f else s.discardFrame 0 (frameGood f)
  else s

def execSyncReceive (f : List Byte) (s : State) : Answer := s.command fun s => s.syncReceive f

/-- SYNC_MISSING: the frame expected counts as missing, and SEQ goes on. -/
def State.syncMissing (s : State) : State :=
  if s.str.isFollower then
    (s.updStr fun t => { t with lastSeq := t.lastSeq.map fun q => (q + 1) % 256 }).missSync
  else s

def execSyncMissing (s : State) : Answer := s.command State.syncMissing

/-- The RC of a follower at a period boundary is loaded after a step (R106). -/
def State.loadStep (s : State) : State :=
  match s.str.loadRc with
  | some v => { s with ref := { s.ref with rc := if s.ref.run then v else s.ref.rc }, str := { s.str with loadRc := none } }
  | none => s

/-! ### FAULT and UPSTATUS (R108) -/

/-- A FAULT frame goes on in the direction in which it travels. -/
def State.repeatFault (s : State) (port : Nat) (f : List Byte) (good : Bool) : State :=
  let b := (f.drop 1).take 23
  let body := b.take 18 ++ leBytes 1 (s.raiseFlt (frameByte f 19)) ++ b.drop 19
  s.sendFrame (1 - port) (if good then mkFrame body else mkBadFrame body)

/-- A class that a FAULT frame brings from below is known until an UPSTATUS frame says what is in force there (R108). -/
def Strait.noteBelow (t : Strait) (b : Nat) : Strait :=
  if t.belowClass < b / 32 then { t with belowClass := b / 32, belowOrigin := b % 32 } else t

/-- FAULT_FRAME_RECEIVE. A port 0 that is held down takes and repeats FAULT frames, as it still sends (DESIGN CHOICE, log entry 82). -/
def State.faultFrame (s : State) (port : Nat) (f : List Byte) : State :=
  if s.portUsed port then
    let ok := s.frameTaken port frameFault f
    let s := s.repeatFault port f ok
    if ok then
      let s := if port = 1 then s.updStr fun t => t.noteBelow (frameByte f 19) else s
      s.receiveFlt (frameByte f 19)
    else s.discardFrame port (frameGood f)
  else s

def execFaultFrameReceive (port : Nat) (f : List Byte) (s : State) : Answer := s.command fun s => s.faultFrame port f

/-- The UPSTATUS frame of an island (R108). -/
def State.upFrame (s : State) : List Byte :=
  mkFrame (leBytes 1 frameUpstatus ++ leBytes 1 s.str.island ++ leBytes 1 s.str.seq ++ List.replicate 8 0 ++ leBytes 1 s.str.below ++
    List.replicate 5 0 ++ leBytes 1 0 ++ leBytes 1 s.knownFlt ++ leBytes 4 0)

/-- A follower sends UPSTATUS upstream once per period. -/
def State.upSend (s : State) : State := if s.str.isFollower && s.onChain then s.sendFrame 0 s.upFrame else s

/-- UPSTATUS_RECEIVE: the class and the depth below are known. DEPTH is the highest number known so far and does not fall (DESIGN CHOICE, log
entry 82). -/
def State.upReceive (s : State) (f : List Byte) : State :=
  if s.portUsed 1 then
    if s.frameTaken 1 frameUpstatus f then
      let b := frameByte f 19
      let deep := max (frameByte f 2) (frameByte f 12)
      (s.updStr fun t => { t with belowClass := b / 32, belowOrigin := b % 32, below := deep, depth := max t.depth deep }).receiveFlt b
    else s.discardFrame 1 (frameGood f)
  else s

def execUpstatusReceive (f : List Byte) (s : State) : Answer := s.command fun s => s.upReceive f

/-! ### Alignment and training (R103) -/

/-- A training run of the upstream link begins. -/
def Strait.train (t : Strait) : Strait := { t with training := true, reqNo := 0, results := [], link0 := 1 }

/-- A follower retrains its upstream link, unless that is held down (R95). -/
def State.retrain (s : State) : State := if s.str.isFollower && !s.str.long then s.updStr Strait.train else s

/-- LINK_ALIGNMENT_GAINED: the upstream link trains; the downstream link is up. -/
def State.alignGained (s : State) (port : Nat) : State :=
  if s.portUsed port then
    if port = 0 then s.retrain else s.updStr fun t => t.setLink port 2
  else s

def execLinkAlignmentGained (port : Nat) (s : State) : Answer := s.command fun s => s.alignGained port

/-- STRAIT_ALIGNMENT_LOST. -/
def State.alignLost (s : State) (port : Nat) : State :=
  if s.portUsed port && !(decide (port = 0) && s.str.long) then
    s.updStr fun t => { (t.setLink port 3) with training := t.training && decide (port ≠ 0) }
  else s

def execStraitAlignmentLost (port : Nat) (s : State) : Answer := s.command fun s => s.alignLost port

/-- TRAIN_REQ_SEND: one of the 64 requests of a run. -/
def State.reqSend (s : State) : State :=
  if s.str.isFollower && s.str.training && decide (s.str.reqNo < 64) then
    (s.sendFrame 0 (mkFrame (leBytes 1 frameTrainReq ++ leBytes 1 s.str.island ++ leBytes 1 s.str.reqNo ++ List.replicate 20 0))).updStr fun t =>
      { t with reqNo := t.reqNo + 1 }
  else s

def execTrainReqSend (s : State) : Answer := s.command State.reqSend

/-- TRAIN_REQ_RECEIVE: the echo, with the extra wait. -/
def State.reqReceive (s : State) (port : Nat) (f : List Byte) (wait : Nat) : State :=
  if s.portUsed port then
    if s.frameTaken port frameTrainReq f then
      s.sendFrame port (mkFrame (leBytes 1 frameTrainEcho ++ leBytes 1 s.str.island ++ leBytes 1 (frameByte f 3) ++ leBytes 2 wait ++
        List.replicate 18 0))
    else s.discardFrame port (frameGood f)
  else s

def execTrainReqReceive (port : Nat) (f : List Byte) (wait : Nat) (s : State) : Answer := s.command fun s => s.reqReceive port f wait

/-- One round trip in ticks: (RTT - 400 ns - WAIT) / 2, truncated. -/
def linkDelay (rtt wait : Nat) : Nat := (rtt - 160 - wait) / 2

/-- The median of the delays measured. -/
def medianNat (l : List Nat) : Nat := (median2 (l.map Int.ofNat) / 2).toNat

/-- TRAIN_ECHO_RECEIVE: after 64 results the delay is set. A run of which an echo is discarded or never comes stays unfinished (DESIGN CHOICE,
log entry 82). -/
def State.echoReceive (s : State) (f : List Byte) (rtt : Nat) : State :=
  if s.str.isFollower && s.str.training then
    if s.frameTaken 0 frameTrainEcho f then
      let l := s.str.results ++ [linkDelay rtt (frameNum f 4 2)]
      if l.length < 64 then s.updStr fun t => { t with results := l }
      else s.updStr fun t =>
        { t with results := [], training := false, dly := medianNat l % 2 ^ 16, link0 := 2, aligned := false, flags := t.flags ||| bw true 0 }
    else s.discardFrame 0 (frameGood f)
  else s

def execTrainEchoReceive (f : List Byte) (rtt : Nat) (s : State) : Answer := s.command fun s => s.echoReceive f rtt

end Sys2Proof.Machine
end

