-- ==== Sys2Proof/Machine/Rings.lean ====
section
/-! DEFINITION. Rings (R377 to R382, R389, R396, R408), the streamers of table windows (R193, R395) and the host link (R364, R397). -/

namespace Sys2Proof.Machine

def srcRingErr : Nat := 0x060
def srcHostLinkDown : Nat := 0x00A
def srcHostLinkErr : Nat := 0x00B

/-! ### Errors of a ring (R378, R396) -/

/-- The codes of HOST_RING_STAT.ERR (R403). -/
def errDbRange : Nat := 1
def errDbBack : Nat := 2
def errFetch : Nat := 3
def errLink : Nat := 4

/-- A ring enters ERROR: it fetches and takes up nothing, and its prefetched descriptors are discarded. -/
def Ring.fail (x : Ring) (code : Nat) : Ring :=
  { x with state := .error, err := code, flags := x.flags ||| bw true 2, pref := [], reads := [], wait := 0 }

/-- RING_ERR is raised (R398). -/
def State.ringError (s : State) (r code : Nat) : State :=
  ((s.updRing r fun x => x.fail code).unask r).fault (srcRingErr + r) (wd (r + code * 2 ^ 8)) .none

/-! ### Doorbells and prefetch (R373, R378, R382, R389) -/

/-- A new producer index is accepted, or the code of its error. -/
def Ring.judge (x : Ring) (pi : Nat) : Option Nat :=
  if 2 ^ x.log < sub32 pi x.ci then some errDbRange
  else if sub32 pi x.ci < sub32 pi x.fi then some errDbBack
  else none

/-- Descriptors that outstanding reads bring. -/
def Ring.reading (x : Ring) : Nat := x.reads.sum

/-- Descriptors that a ring may fetch now but for its credit: what is still being read has its place in the buffer kept. -/
def Ring.room (x : Ring) : Nat := min (16 - (x.pref.length + x.reading)) (sub32 x.pi x.fi)

/-- The quota of a ring; 0 sets no limit. -/
def Ring.quotaOf (x : Ring) : Nat := fld x.quota 0 16

/-- Descriptors that one prefetch reads. -/
def Ring.fetchSize (x : Ring) : Nat := if x.quotaOf = 0 then x.room else min x.room x.credit

/-- The runs of `n` descriptors from FI, one read each: two where the run crosses the end of the ring. -/
def Ring.runs (x : Ring) (n : Nat) : List Nat :=
  let first := min n (2 ^ x.log - x.fi % 2 ^ x.log)
  if first < n then [first, n - first] else [n]

/-- The read requests of `n` descriptors from FI. -/
def Ring.requests (x : Ring) (n : Nat) : List Output :=
  (x.runs n).zipIdx.map fun p => .readRequest (if p.2 = 0 then x.slot x.fi else x.base) (32 * p.1)

/-- A ring with descriptors to fetch and no credit left waits for quota (R389). -/
def Ring.quotaStall (x : Ring) : Ring :=
  if x.room ≠ 0 ∧ x.fetchSize = 0 then { x with wait := if x.wait = 0 then 1 else x.wait, flags := x.flags ||| bw true 1, quotaWait := true }
  else x

/-- The ring lies where the device may reach it (R369). -/
def State.ringReached (s : State) (x : Ring) : Bool := s.host.inWindow x.base (32 * 2 ^ x.log)

/-- The prefetch of a ring in state RUN; nothing is fetched from a ring that the device may not reach. -/
def State.prefetch (s : State) (r : Nat) : State :=
  let x := s.ring r
  if x.state ≠ .run ∨ !s.ringReached x then s
  else
    let n := x.fetchSize
    if n = 0 then
      if x.room = 0 then s.setRing r { x with wait := if x.wait = 1 then 0 else x.wait }
      else s.setRing r x.quotaStall
    else
      let s := s.setRing r { x with
        reads := x.reads ++ x.runs n, fi := (x.fi + n) % 2 ^ 32, credit := if x.quotaOf = 0 then x.credit else x.credit - n
        wait := if x.wait = 1 then 0 else x.wait }
      (x.requests n).foldl (fun t o => t.request (.ring r) o) s

/-- The playback of a table window. -/
def Motion.playOf (m : Motion) (w : Nat) : Option Play :=
  match m.play with
  | some p => if p.win = w then some p else none
  | none => m.later.findSome? fun l => match l with
    | .play p => if p.win = w then some p else none
    | .follow _ => none

/-- Reads for a purpose that are outstanding and whose result is still wanted. -/
def State.wanted (s : State) : ReadSrc → Nat
  | .doorbell => b2n s.host.dbOut
  | .ring r => (s.ring r).reads.length
  | .param r => ((s.ring r).pref.filter fun f => !f.ready).length
  | .table w =>
    match (s.twin w).busy with
    | none => 0
    | some (k, n) => ((s.motion k n).playOf w).elim 0 fun p => b2n (p.reading && decide (p.absentTo = 0))

/-- The oldest read for a purpose is answered: whether its result is still wanted. -/
def State.answer (s : State) (src : ReadSrc) : Bool × State := (!s.host.discarded src (s.wanted src), s.answered src)

/-- DOORBELL_READ_COMPLETE: each ring in state RUN takes its producer index or enters ERROR, and prefetch follows. -/
def State.doorbell (s : State) (pis : List Word) : State :=
  let a := s.answer .doorbell
  let s := a.2
  if a.1 && s.host.dbOut then
    let s := { s with host := { s.host with dbOut := false, dbStale := 0 } }
    let s := s.allRings.foldl (fun t r =>
      let x := t.ring r
      match pis[r]? with
      | none => t
      | some w =>
        if x.state ≠ .run then t
        else match x.judge w.toNat with
          | some c => t.ringError r c
          | none => t.setRing r { x with pi := w.toNat }) s
    s.allRings.foldl State.prefetch s
  else s

def execDoorbellReadComplete (pis : List Word) (s : State) : Answer := s.command fun s => s.doorbell pis

/-- The further read that a descriptor asks for (R408): its profile record, or words 8 to 15 of its OSB. None is made at an address that is
misaligned or outside the managed window. -/
def State.paramRead (s : State) (d : Desc) : Option Output :=
  let a := addr64 d.w2 d.w3
  if op d = 0x10 then (if a % 32 = 0 ∧ s.host.inWindow a 32 then some (.readRequest a 32) else none)
  else if isLong (op d) then (if a % 64 = 0 ∧ s.host.inWindow a 64 then some (.readRequest (a + 32) 32) else none)
  else none

/-- The descriptors of a read enter the prefetch buffer, and what they name beside themselves is read. -/
def State.takeIn (s : State) (r : Nat) (ds : List Desc) (rest : List Nat) : State :=
  let x := s.ring r
  let fs : List Fetched := ds.map fun d => { d := d, ready := (s.paramRead d).isNone, dt := s.dt }
  let s := s.setRing r { x with reads := rest, pref := x.pref ++ fs }.quotaStall
  ds.foldl (fun t d => match t.paramRead d with
    | some o => t.request (.param r) o
    | none => t) s

/-- PREFETCH_COMPLETE: the oldest outstanding read of the ring completes. -/
def State.prefetched (s : State) (r : Nat) (ok : Bool) (ds : List Desc) : State :=
  let a := s.answer (.ring r)
  let s := a.2
  match (s.ring r).state, (if a.1 then (s.ring r).reads else []) with
  | .run, n :: rest =>
    if ok then s.takeIn r ((ds.take n).map fun (d : Desc) => { d with param := [] }) rest
    else s.ringError r errFetch
  | _, _ => s

def execPrefetchComplete (r : Nat) (ok : Bool) (ds : List Desc) (s : State) : Answer := s.command fun s => s.prefetched r ok ds

/-- The oldest descriptor that waits for its parameters takes them. -/
def takeParam (param : List Word) (dt : Nat) : List Fetched → List Fetched
  | [] => []
  | f :: r => if f.ready then f :: takeParam param dt r else { d := { f.d with param := param.take 8 }, ready := true, dt := dt } :: r

/-- PARAMETER_READ_COMPLETE (R408). -/
def State.paramDone (s : State) (r : Nat) (ok : Bool) (param : List Word) : State :=
  let a := s.answer (.param r)
  let s := a.2
  let x := s.ring r
  if a.1 && x.pref.any fun f => !f.ready then
    if ok then s.setRing r { x with pref := takeParam param s.dt x.pref } else s.ringError r errFetch
  else s

def execParameterReadComplete (r : Nat) (ok : Bool) (param : List Word) (s : State) : Answer := s.command fun s => s.paramDone r ok param

/-- What CREDIT reads with a full quota: 0xFFFF where the quota sets no limit (R389). -/
def fullCredit (quota : Nat) : Nat := if quota = 0 then 0xFFFF else quota

/-- QUOTA_REFILL (R389): at each DT congruent to PHASE modulo 200,000 every ring's CREDIT is its QUOTA. -/
def State.refillQuota (s : State) : State :=
  let s := s.pass (s.untilNext 200000 none)
  s.each s.allRings fun r t => t.updRing r fun x => { x with credit := fullCredit x.quotaOf }

def execQuotaRefill (s : State) : Answer := s.command State.refillQuota

/-! ### Rings that stop (R381) -/

/-- A ring is disabled, or the device enters Configure: prefetched descriptors are discarded, and the ring drains. -/
def Ring.drain (x : Ring) : Ring :=
  if x.state = .off then x
  else { x with state := if x.outst = [] then .off else .drain, pref := [], reads := [], fi := x.ti, wait := 0
                flags := x.flags ||| bw (x.pref.any Fetched.ready) 0 }

/-- The device enters Configure: a ring drains, but for one in ERROR, which only EN = 0 takes out of it (R396). -/
def Ring.pause (x : Ring) : Ring := if x.state = .error then x else x.drain

/-- A ring whose EN is 1 restarts as the device leaves Configure, from OFF or while it still drains (R381). Done again it changes nothing. -/
def Ring.restart (x : Ring) : Ring :=
  if bit x.ctrl 0 && (decide (x.state = .off) || decide (x.state = .drain)) then { x with state := .run, fi := x.ti, pi := x.ti, err := 0 } else x

/-! ### Streamers (R193, R395) -/

/-- A change of the playback of a window. -/
def Motion.updPlay (m : Motion) (w : Nat) (f : Play → Play) : Motion :=
  { m with play := m.play.map fun p => if p.win = w then f p else p
           later := m.later.map fun l => match l with
             | .play p => .play (if p.win = w then f p else p)
             | .follow x => .follow x }

/-- The streamer of a window asks for its next samples. -/
def State.streamAsk (s : State) (w : Nat) : State :=
  match (s.twin w).busy with
  | none => s
  | some (k, n) =>
    match (s.motion k n).playOf w with
    | none => s
    | some p =>
      let r := p.ask (s.twin w)
      let s := s.updMotion k n fun m => m.updPlay w fun _ => r.1
      match r.2 with
      | some o => s.request (.table w) o
      | none => s

/-- Samples enter the buffer. -/
def Play.load (p : Play) (bytes : List Byte) : Play :=
  let n := min 256 (p.count - p.nextReq)
  { p with reading := false, retried := false, nextReq := p.nextReq + n, buf := p.buf ++ (bytes ++ List.replicate n 0).take n }

/-- A read has failed: it is retried at the next boundary, and a second failure leaves its samples absent. -/
def Play.loadFail (p : Play) : Play :=
  if p.retried then { p with reading := true, absentTo := p.nextReq + min 256 (p.count - p.nextReq) } else { p with reading := false, retried := true }

/-- STREAM_READ_COMPLETE. Behind samples that are absent nothing further is read: a playback that needs them has underrun. -/
def State.streamed (s : State) (w : Nat) (ok : Bool) (bytes : List Byte) : State :=
  let a := s.answer (.table w)
  let s := a.2
  match (s.twin w).busy with
  | none => s
  | some (k, n) =>
    match (s.motion k n).playOf w with
    | none => s
    | some p =>
      if !a.1 || !p.reading || decide (p.absentTo ≠ 0) then s
      else if ok then (s.updMotion k n fun m => m.updPlay w fun p => p.load bytes).streamAsk w
      else s.updMotion k n fun m => m.updPlay w Play.loadFail

def execStreamReadComplete (w : Nat) (ok : Bool) (bytes : List Byte) (s : State) : Answer := s.command fun s => s.streamed w ok bytes

/-- A read that has not completed within its timeout ends as a failed one (R361, R382, R395, R408); a doorbell read has then ended without its words. -/
def State.readTimeout (s : State) (src : ReadSrc) : State :=
  match src with
  | .doorbell =>
    let a := s.answer .doorbell
    if a.1 then { a.2 with host := { a.2.host with dbOut := false } } else a.2
  | .ring r => s.prefetched r false []
  | .param r => s.paramDone r false []
  | .table w => s.streamed w false []

/-- At a period boundary the reads whose timeout has passed end. -/
def State.readTimeouts (s : State) : State := s.overdue.foldl State.readTimeout s

/-- At a period boundary each streamer retries a failed read, or reads on where its buffer has room again. -/
def State.streamAll (s : State) : State := (s.host.twins.map Prod.fst).foldl State.streamAsk s

/-! ### The link (R364, R397) -/

/-- The device can issue no request any more: every ring that is not OFF enters ERROR with code LINK, one in ERROR included. A link that is
down has its endpoint reset (R364). -/
def State.linkDown (s : State) (cause : Nat) : State :=
  let was := s.canIssue
  let h := s.host
  let h := match cause with
    | 1 => { h.resetEndpoint with linkUp := false, width := 0, speed := 0 }
    | 2 => { h with bme := false }
    | _ => { h with d3 := true }
  let s := { s with host := { h with dbOut := h.dbOut && !was } }
  if was then
    let s := ({ s with host := { s.host with flags := s.host.flags ||| bw true 1 } }).fault srcHostLinkDown (wd cause) .none
    s.allRings.foldl (fun t r =>
      if (t.ring r).state = .off then t else t.ringError r errLink) s
  else s

/-- HOST_LINK_DOWN: 1 the link, 2 Bus Master Enable, 3 D3hot. -/
def execHostLinkDown (cause : Nat) (s : State) : Answer :=
  s.command fun s => if 1 ≤ cause ∧ cause ≤ 3 then s.linkDown cause else s

/-- HOT_RESET: the endpoint's configuration space is at reset, Bus Master Enable and the MSI-X state with it; no BAR0 register changes. -/
def execHotReset (s : State) : Answer :=
  s.command fun s => let t := s.linkDown 2; { t with host := t.host.resetEndpoint }

/-- HOST_LINK_UP: the link is in DL_Active with Bus Master Enable set in D0. The width and the speed are negotiated and the request sizes
programmed by the host, and free within their codes (log entry 87). -/
def State.linkUpNow (s : State) : State :=
  let f := (Config.openDetail s.fresh).toNat
  ({ s with host := { s.host with linkUp := true, bme := true, d3 := false, width := 1 + f % 2, speed := 1 + f / 2 % 3
                                  mps := 128 * (1 + f / 8 % 2), mrrs := 128 * 2 ^ (f / 16 % 6) } }).spend.issueAsked

def execHostLinkUp (s : State) : Answer := s.command State.linkUpNow

end Sys2Proof.Machine
end

