-- ==== Sys2Proof/Machine/Diag.lean ====
section
/-! DEFINITION. The off-state diagnostic DIAG_OFFSTATE (R313 to R317): tests of the legs of a tile, one after another, and their entries. -/

namespace Sys2Proof.Machine

/-! ### Readings and results (R315) -/

/-- The classes of a reading. -/
inductive ReadClass where
  | low
  | high
  | mid
  | open_
deriving DecidableEq, Repr

/-- The class of a reading of 20 mV per LSB; only V2 and the coil reading have the class C. Codes of VM are 20 mV, of VGATE 5 mV per LSB. -/
def DiagLeg.classOf (x : DiagLeg) (mayOpen : Bool) (v : Nat) : ReadClass :=
  if v < 25 then .low
  else if x.vm < v + 50 then .high
  else if mayOpen && decide (x.vg ≤ 4 * v + 400) && decide (4 * v + 100 ≤ x.vg) then .open_
  else .mid

/-- The results of R317. -/
def diagOk : Nat := 0
def diagOpen : Nat := 1
def diagShortVm : Nat := 2
def diagShortGnd : Nat := 3
def diagLeak : Nat := 4
def diagMeasured : Nat := 5
def diagNoSupply : Nat := 6
def diagLatched : Nat := 7

/-- The table of R315. -/
def diagResult (mode : Nat) (a b : ReadClass) : Nat :=
  if mode = 4 then diagMeasured
  else match a, b with
    | .low, .open_ => if mode = 2 ∨ mode = 3 then diagOpen else diagOk
    | .high, .high => if mode = 2 then diagOk else diagShortVm
    | .low, .low => if mode = 3 then diagOk else diagShortGnd
    | _, _ => diagLeak

/-- The result of a leg from its own phases. -/
def DiagLeg.result (x : DiagLeg) (mode : Nat) : Nat :=
  match x.skip with
  | some r => r
  | none => diagResult mode (x.classOf false x.v1) (x.classOf true x.v2)

/-- The result of a coil from its first and second leg's readings. -/
def DiagLeg.coilResult (x : DiagLeg) (vf vs : Nat) : Nat :=
  match x.classOf true vf with
  | .open_ => diagOpen
  | .high => diagLeak
  | .low => if vf < vs + 25 then diagOk else diagLeak
  | .mid => if vf < vs + 25 then diagOk else diagLeak

/-- An entry. -/
def State.diagEntry (s : State) (t : Nat) (x : DiagLeg) (result vs vf : Nat) : List Word :=
  [ wd (0x20 * 2 ^ 24 + t * 2 ^ 20 + x.leg * 2 ^ 16 + (s.leg t x.leg).mode * 2 ^ 12 + result * 2 ^ 8), wd (x.v2 * 2 ^ 16 + x.v1),
    wd (vs * 2 ^ 16 + vf), wd (x.vg * 2 ^ 16 + x.vm) ]

/-! ### The tests of a tile (R314, R316) -/

/-- The result of a leg that is not tested, with the supplies as they stand. -/
def State.diagSkip (s : State) (t l : Nat) : Option Nat :=
  let x := s.tile t
  if x.vmUv || x.vmOv || x.vgUv || x.vgOv || decide (4 * x.vmCode < x.vgCode + 600) then some diagNoSupply
  else if (s.leg t l).latch then some diagLatched
  else none

/-- The test of the next leg of a tile begins. -/
def State.diagNext (s : State) (t : Nat) (d : DiagTile) : DiagTile :=
  match d.legs with
  | [] => { d with cur := none, phase := 0 }
  | l :: rest =>
    { d with legs := rest, phase := 0
             cur := some { leg := l, v1 := 0, v2 := 0, vm := (s.tile t).vmCode, vg := (s.tile t).vgCode, skip := s.diagSkip t l } }

/-- The coil of a leg is tested: both legs are in the mask and the axis is enabled. -/
def State.diagPaired (s : State) (t mask l : Nat) : Bool :=
  decide (mask / 2 ^ (l / 2 * 2) % 4 = 3) && (s.axis (legAxis t l)).m.en

/-- DIAG_OFFSTATE begins on the tiles of its mask. An axis that CHARACTERIZE drives meanwhile goes to Hi-Z where a leg of it is tested: the
switches of a tested leg stay off (R313; log entry 40). -/
def State.diagBegin (s : State) (tiles legs : Nat) : State :=
  let s := { s with diag := (maskBits s.variant.tiles tiles).map fun t =>
      (t, s.diagNext t { mask := legs, legs := maskBits 16 legs, phase := 0, cur := none, first := none, entries := [] }) }
  s.listedAxes.foldl (fun t a => if t.underTest a && (t.axis a).driven then t.axisHiz a .hiz else t) s

/-- Both legs of a coil are final. -/
def State.diagCoil (s : State) (t : Nat) (d : DiagTile) (a b : DiagLeg) (vf vs : Nat) : DiagTile :=
  let ran := a.skip.isNone && b.skip.isNone
  let fin (x : DiagLeg) : Nat :=
    let r := x.result (s.leg t x.leg).mode
    if ran && decide (r = diagOk) then a.coilResult vf vs else r
  let vf := if ran then vf else 0
  let vs := if ran then vs else 0
  { d with first := none, entries := d.entries ++ [s.diagEntry t a (fin a) vs vf, s.diagEntry t b (fin b) vs vf] }

/-- A phase of a tile's test ends with its readings: V1, V2, or the coil's first and second leg. A leg that is not tested takes its time,
and its readings are free (log entry 2). -/
def State.diagPhase (s : State) (t : Nat) (first second : BitVec 12) : State :=
  let d? := s.diag.lookup t
  match d? with
  | none => s
  | some d =>
    match d.cur with
    | none => s
    | some x =>
      let v := if x.skip.isSome then (Config.openDetail s.fresh).toNat % 4096 else first.toNat
      let s := if x.skip.isSome then s.spend else s
      let put (u : State) (d : DiagTile) : State := { u with diag := Bank.set u.diag t d }
      match d.phase with
      | 0 => put s { d with phase := 1, cur := some { x with v1 := v } }
      | 1 =>
        let x := { x with v2 := v }
        if s.diagPaired t d.mask x.leg && decide (x.leg % 2 = 0) then put s (s.diagNext t { d with first := some x })
        else if x.leg % 2 = 1 ∧ d.first.isSome then put s { d with phase := 2, cur := some x }
        else put s (s.diagNext t { d with entries := d.entries ++ [s.diagEntry t x (x.result (s.leg t x.leg).mode) 0 0] })
      | _ =>
        match d.first with
        | some a => put s (s.diagNext t (s.diagCoil t d a x first.toNat second.toNat))
        | none => put s (s.diagNext t d)

/-- DIAG_LEG_PHASE_END (R314). -/
def execDiagLegPhaseEnd (t : Nat) (first second : BitVec 12) (s : State) : Answer :=
  s.command fun s => if s.glb.mode = .diagnose then s.diagPhase t first second else s

/-! ### Entries (R317) -/

/-- The operation that runs. -/
def State.diagOp (s : State) : Option LongOp := s.longOf 0x40 0

/-- Legs to test. -/
def LongOp.diagCount (x : LongOp) : Nat := (maskBits 12 (fld x.w1 0 12)).length * (maskBits 16 (fld x.w1 16 16)).length

/-- The result of an entry is neither OK nor MEASURED. -/
def entryBad (e : List Word) : Bool := decide (fld (e.getD 0 0) 8 4 ≠ diagOk ∧ fld (e.getD 0 0) 8 4 ≠ diagMeasured)

/-- Entries are appended: SUMMARY counts them also where the array is full, PROGRESS only where they are written (R317, R391). -/
def LongOp.diagAppend (x : LongOp) (es : List (List Word)) : LongOp :=
  let y := es.foldl LongOp.append x
  let n := y.count + y.fresh.length
  ({ y with summary := y.summary + wd (es.filter entryBad).length }).advance (65535 * n / max 1 x.diagCount)

/-- At a period boundary the entries that have become final are appended in rising order of tiles; the operation ends when all tiles are
done, or when the device has left Diagnose, into Safe at the planning tick that follows (R508). -/
def State.diagStep (s : State) : State :=
  match s.diagOp with
  | none => { s with diag := [] }
  | some x =>
    if s.unlearned then s
    else if s.glb.mode ≠ .diagnose then ({ s with diag := [] }).endLong x.tag Status.aborted
    else
      let s := s.updLong x.tag fun y => y.diagAppend (s.diag.flatMap fun p => p.2.entries)
      let s := { s with diag := s.diag.map fun (p : Nat × DiagTile) => (p.1, { p.2 with entries := [] }) }
      if s.diag.all fun p => p.2.cur.isNone then ({ s with diag := [] }).endLong x.tag Status.ok else s

end Sys2Proof.Machine
end

