-- ==== Sys2Proof/Machine/Redundant.lean ====
section
/-! DEFINITION. Redundant execution (R467 to R500): the vote, minority events, resynchronization and retirement, the scrub, SRAM, runners and
course engines, and the bringing in of spares. -/

namespace Sys2Proof.Machine

def srcVoterConflict : Nat := 0x001
def srcCoreLoss : Nat := 0x004
def srcVoterLoss : Nat := 0x005
def srcPairDisagree : Nat := 0x006
def srcVoteUnresolved : Nat := 0x007
def srcSramUe : Nat := 0x008
def srcInputPath : Nat := 0x016
def srcVoterDegrade : Nat := 0x018
def srcSramCe : Nat := 0x01A
def srcSramRow : Nat := 0x01C
def srcSramSpareOut : Nat := 0x01E
def srcCoreMinority : Nat := 0x020
def srcDelayParity : Nat := 0x024
def srcLatentDiv : Nat := 0x028
def srcCoreRetired : Nat := 0x02C
def srcCoreResyncFail : Nat := 0x030
def srcCourseEngFail : Nat := 0x0A0
def srcRunnerFail : Nat := 0x140

/-! ### Cores (R467, R476 to R479) -/

/-- A change of the SPR block, and its sticky bits of R499. -/
def State.updSpr (s : State) (f : Spr → Spr) : State := { s with spr := f s.spr }
def State.sprFlag (s : State) (i : Nat) : State := s.updSpr fun p => { p with flags := p.flags ||| bw true i }

/-- The cores that vote, lowest first; the core in a slot; the spare that is available; the slot that no voting core holds. -/
def State.voting (s : State) : List Nat := (List.range 4).filter fun n => decide ((s.core n).st = .voting)
def State.coreAt (s : State) (slot : Nat) : Option Nat := s.voting.find? fun n => decide ((s.core n).slot = slot)
def State.spareCore (s : State) : Option Nat := (List.range 4).find? fun n => decide ((s.core n).st = .spare)
def State.vacantSlot (s : State) : Nat := ((List.range 3).find? fun i => (s.coreAt i).isNone).getD 0

/-- Minority events of a core within the last 1,000 ms (R476, R498). -/
def State.minCount (s : State) (n : Nat) : Nat := ((s.core n).events.filter fun t => decide (s.dt - t < 200000000)).length

/-- The mask of some cores. -/
def coreMask (l : List Nat) : Nat := (l.map fun n => 2 ^ n).sum

/-- The cores that have been retired. -/
def State.retiredCores (s : State) : List Nat := (List.range 4).filter fun n => decide ((s.core n).st = .retired)

/-- Planning ends until a power cycle (R482). -/
def State.coreLoss (s : State) : State :=
  (s.updSpr fun p => { p with lost := true, unres := none, resync := none, resyncWait := [] }).fault srcCoreLoss (wd (coreMask s.retiredCores)) .none

/-- A resynchronization of a core into a slot begins, and planning pauses (R478). -/
def State.resyncStart (s : State) (n slot : Nat) (inPlace : Bool) : State :=
  (s.pausePlan.setCore n { s.core n with st := .resync, slot := slot }).updSpr fun p => { p with resync := some { target := n, slot := slot, inPlace := inPlace } }

/-- A core stops for good (R477); `spare` says whether a spare is brought in for it. -/
def State.coreStop (s : State) (n slot : Nat) (spare : Bool) : State :=
  ((s.setCore n { s.core n with st := .retired, slot := 0 }).sprFlag 3).fault (srcCoreRetired + n)
    (wd (n + b2n spare * 16 + slot * 2 ^ 8)) .none

/-- What follows a retirement: the spare is resynchronized into the vacant slot, stands reserved, or is missing (R477). A single core
left over ends planning. -/
def State.coreReplace (s : State) (slot : Nat) : State :=
  match s.spareCore with
  | some k =>
    if s.autoSpares then s.resyncStart k slot false
    else if s.voting.length < 2 then s.coreLoss
    else s.updSpr fun p => { p with corePend := true, pair := true }
  | none => if s.voting.length < 2 then s.coreLoss else s.updSpr fun p => { p with pair := true }

/-- A core is retired (R477). -/
def State.coreRetire (s : State) (n : Nat) : State :=
  let slot := (s.core n).slot
  let s := s.updSpr fun p => { p with resync := none }
  (s.coreStop n slot (s.spareCore.isSome && s.autoSpares)).coreReplace slot

/-- An unresolved vote (R471, R480): planning stops at once; the source is raised once for the episode. -/
def State.unresolved (s : State) : State :=
  if s.spr.unres.isSome then s
  else
    ((s.pausePlan.updSpr fun p => { p with unres := some { since := s.dt, cores := s.voting, testing := false, uid := 0 } }).sprFlag 6).fault
      srcVoteUnresolved (wd (coreMask s.voting)) .none

/-- The event is counted for a core, unless it was injected (R476, R484). -/
def State.countMinority (s : State) (n : Nat) (inj : Bool) : State :=
  let s := s.sprFlag 4
  if inj then s
  else
    let c := s.core n
    (s.setCore n { c with events := (c.events.filter fun t => decide (s.dt - t < 200000000)) ++ [s.dt] }).wear n

/-- A resynchronization in place that has waited begins, once none runs and the votes are resolved. -/
def State.resyncNext (s : State) : State :=
  if s.spr.resync.isSome || s.spr.unres.isSome || s.spr.lost then s
  else match s.spr.resyncWait with
    | [] => s
    | n :: rest =>
      let s := s.updSpr fun p => { p with resyncWait := rest }
      if (s.core n).st = .voting then s.resyncStart n (s.core n).slot true else s

/-- The hardware action of a minority event (R476): retirement at the third, else a resynchronization in place. While a resynchronization
runs, and in pair mode, the two copies that count no longer agree, and the vote is unresolved (R471). An injected event retires no core and
leaves no vote unresolved: its core is resynchronized in place (R524). -/
def State.minorityAct (s : State) (n : Nat) (inj : Bool) : State :=
  if inj then (s.updSpr fun p => { p with resyncWait := p.resyncWait ++ [n] }).resyncNext
  else if s.spr.resync.isSome then s.unresolved
  else if decide (3 ≤ s.minCount n) then s.coreRetire n
  else if s.spr.pair then s.unresolved
  else s.resyncStart n (s.core n).slot true

/-- The resynchronization in place that an injected event has begun for a core is taken back, as the event turns out to be a real one (R525). -/
def State.resyncBack (s : State) (n : Nat) : State :=
  let s := s.updSpr fun p => { p with resyncWait := p.resyncWait.filter fun m => decide (m ≠ n) }
  match s.spr.resync with
  | some r => if r.target = n ∧ r.inPlace then (s.setCore n { s.core n with st := .voting, slot := r.slot }).updSpr fun p => { p with resync := none } else s
  | none => s

/-- A minority event of a core with the source that it raises (R469, R470, R483). Where a real and an injected event of the source fall in one cycle,
the hardware action is that of the real one (R525). -/
def State.minority (s : State) (n src detail : Nat) (inj : Bool) : State :=
  let twin := (s.twinEvent (src + n) inj).isSome
  let s := s.countMinority n inj
  let d := detail + n + (s.core n).slot * 2 ^ 8
  let s := (s.raiseAs (src + n) (s.classOf (src + n)) (wd d) inj .none).settle
  if twin && inj then s
  else if twin then (s.resyncBack n).minorityAct n false
  else s.minorityAct n inj

/-- The COUNT field of a minority source's detail word, this event included. -/
def State.countField (s : State) (n : Nat) (inj : Bool) : Nat := min 255 (s.minCount n + b2n (!inj)) * 2 ^ 16

/-! ### The vote (R469 to R475) -/

/-- The voter copies disagree on a write (R475): whether the write may still be carried out, and the state. -/
def State.votersDiffer (s : State) : Bool × State :=
  let p := s.spr
  if !(p.aIn && p.bIn) then (true, s)
  else if p.aPass && !p.bPass then
    (true, (((s.updSpr fun p => { p with bIn := false }).sprFlag 3).wear 5).fault (srcVoterDegrade + 1) 1 .none)
  else if p.bPass && !p.aPass then
    (true, (((s.updSpr fun p => { p with aIn := false }).sprFlag 3).wear 4).fault srcVoterDegrade 0 .none)
  else (false, s.fault srcVoterConflict 0 .none)

/-- The vote over the copies of the voting slots (R469, R471): the majority write, and the slot whose copy differs from it; none where the vote is
unresolved. -/
def ballot (copies : List (Nat × BusCopy)) : Option (BusCopy × Option Nat) :=
  match copies with
  | [] => none
  | [_] => none
  | _ => (copies.find? fun p => decide (2 ≤ (copies.filter fun q => decide (q.2 = p.2)).length)).map fun m =>
      (m.2, (copies.find? fun p => decide (p.2 ≠ m.2)).map Prod.fst)

/-- The core of a slot has lost a vote. -/
def State.lostVote (s : State) (slot : Nat) (inj : Bool) : State :=
  match s.coreAt slot with
  | some n => s.minority n srcCoreMinority (s.countField n inj) inj
  | none => s

/-- A vote: the majority write is carried out once, and a core in the minority is dropped; an unresolved vote carries out nothing. -/
def State.vote (s : State) (copies : List (Nat × BusCopy)) : State :=
  match ballot copies with
  | none => s.unresolved
  | some (m, none) => s.emit (.busWrite m)
  | some (m, some i) => (s.emit (.busWrite m)).lostVote i false

/-- The copies of the slots in which a core votes. -/
def State.copies (s : State) (c0 c1 c2 : Option BusCopy) : List (Nat × BusCopy) :=
  ([(0, c0), (1, c1), (2, c2)]).filterMap fun p =>
    match p.2, s.coreAt p.1 with
    | some c, some _ => some (p.1, c)
    | _, _ => none

/-- An injected voter compare is armed for a slot that takes part in the write (R522, R523). -/
def State.voteInjected (s : State) (copies : List (Nat × BusCopy)) : Bool :=
  s.flt.injArmed && decide (s.flt.injTarget = 3) && copies.any fun p => decide (p.1 = s.flt.injUnit % 4)

/-- BUS_WRITE_VOTE: the copies by slot, and whether the voter copies' outputs agree. The armed injection inverts bit 0 of its slot's copy: the write is
voted over the true copies, and the core of the slot is in the minority of the inverted ones (R523), with one real event where it is so in the true
ones as well (R525). -/
def State.busVote (s : State) (c0 c1 c2 : Option BusCopy) (agree : Bool) : State :=
  if s.spr.lost || !(s.spr.aIn || s.spr.bIn) then s
  else
    let copies := s.copies c0 c1 c2
    let hit := s.voteInjected copies
    let slot := s.flt.injUnit % 4
    let s := if hit then { s with flt := { s.flt with injArmed := false } } else s
    let r := if agree then (true, s) else s.votersDiffer
    let s := if r.1 then r.2.vote copies else r.2
    if hit && !(r.1 && decide ((ballot copies).bind Prod.snd = some slot)) then s.lostVote slot true else s

def execBusWriteVote (c0 c1 c2 : Option BusCopy) (agree : Bool) (s : State) : Answer := s.command fun s => s.busVote c0 c1 c2 agree

/-- DELAY_PARITY (R470, R523): the next datum of a slot's delay line is checked, and has an error of its own where `real`. With an injection armed
for the line the check fails in any case; with an error of its own the event is the real one (R525). -/
def State.parity (s : State) (slot : Nat) (writeSide real : Bool) : State :=
  if s.spr.lost then s
  else match s.coreAt slot with
    | none => s
    | some n =>
      let inj := s.flt.injArmed && decide (s.flt.injTarget = 1) && decide (s.flt.injUnit % 4 = slot) &&
        decide (writeSide = decide (s.flt.injUnit / 16 % 2 = 1))
      let s := if inj then { s with flt := { s.flt with injArmed := false } } else s
      if inj || real then s.minority n srcDelayParity (b2n writeSide * 2 ^ 12) (!real) else s

def execDelayParity (slot : Nat) (check : DelayCheck) (s : State) : Answer := s.command fun s => s.parity slot check.writeSide check.real

/-! ### Resynchronization (R478) -/

/-- RESYNC_COMPLETE: the target's signature matches or differs. -/
def State.resyncDone (s : State) (good : Bool) : State :=
  match s.spr.resync with
  | none => s
  | some r =>
    if s.spr.unres.isSome then s
    else
      let s := s.updSpr fun p => { p with resync := none }
      if good then
        let s := s.setCore r.target { s.core r.target with st := .voting, slot := r.slot }
        let s := s.updSpr fun p => { p with pair := decide (s.voting.length = 2) }
        (if r.inPlace then s else s.spareIn).resyncNext
      else if r.inPlace then
        (s.setCore r.target { s.core r.target with st := .voting, slot := r.slot }).countMinority r.target false |>.minorityAct r.target false
      else
        let s := s.fault (srcCoreResyncFail + r.target) (wd r.target) .none
        (s.coreStop r.target 0 false).coreReplace r.slot

def execResyncComplete (good : Bool) (s : State) : Answer := s.command fun s => s.resyncDone good

/-! ### An unresolved vote (R480) -/

/-- REPETITION_PASSED: the episode ends. -/
def State.repeated (s : State) : State :=
  match s.spr.unres with
  | some u => if u.testing then s else (s.updSpr fun p => { p with unres := none }).resyncNext
  | none => s

def execRepetitionPassed (s : State) : Answer := s.command State.repeated

/-- PAIR_DISAGREE: 2 ms after the first disagreement. The cores that pass are not known yet, and its record names them once the test has
ended. -/
def State.pairFails (s : State) : State :=
  match s.spr.unres with
  | none => s
  | some u =>
    if u.testing || decide (s.dt < u.since + 400000) then s
    else
      let c := s.classOf srcPairDisagree
      let r := s.record srcPairDisagree c 0 false
      let s := (r.1.react c .none r.2 false none).settle
      s.updSpr fun p => { p with unres := some { u with testing := true, uid := r.2 } }

def execPairDisagree (s : State) : Answer := s.command State.pairFails

/-- KNOWN_ANSWER_TEST_END: cores that fail are retired; with exactly one left and a spare at hand the spare is resynchronized from it into the
slot of the first that failed (R467), else planning ends. -/
def State.katEnd (s : State) (passed : List Nat) : State :=
  match s.spr.unres with
  | none => s
  | some u =>
    if !u.testing then s
    else
      let ok := u.cores.filter fun n => decide (n ∈ passed)
      let s := { s with flt := { s.flt with hist := s.flt.hist.map fun (e : Entry) =>
        if e.uid = u.uid ∧ e.src = srcPairDisagree ∧ e.detail = 0 then { e with detail := wd (coreMask ok) } else e } }
      let lost := (u.cores.filter fun n => decide (n ∉ passed)) ++ (s.spr.resync.elim [] fun r => if r.inPlace then [r.target] else [])
      let back := if ok.length = 1 ∧ s.autoSpares ∧ s.spareCore.isSome then lost.head? else none
      let slot := back.elim 0 fun n => (s.core n).slot
      let s := lost.foldl (fun t n => t.coreStop n (t.core n).slot (decide (back = some n))) s
      let s := s.updSpr fun p => { p with unres := none, resync := none, pair := true }
      match s.spareCore, back with
      | some k, some _ => s.resyncStart k slot false
      | _, _ => s.coreLoss

def execKnownAnswerTestEnd (passed : List Nat) (s : State) : Answer := s.command fun s => s.katEnd passed

/-! ### The scrub of the cores (R483) -/

/-- The signatures of the voting cores are compared. -/
def State.scrubCompare (s : State) (sigs : List Word) : State :=
  let v := s.voting.map fun n => (n, sigs.getD n 0)
  match v.find? fun p => decide (2 * (v.filter fun q => decide (q.2 = p.2)).length > v.length) with
  | none => if v.length < 2 then s else s.unresolved
  | some m =>
    match v.find? fun p => decide (p.2 ≠ m.2) with
    | none => s
    | some p => (s.sprFlag 5).minority p.1 srcLatentDiv (s.countField p.1 false) false

/-- CORE_SCRUB: at the next DT congruent to PHASE modulo 2,000,000. -/
def execCoreScrub (sigs : List Word) (s : State) : Answer :=
  s.command fun s =>
    let s := s.pass (s.untilNext 2000000 none)
    if s.spr.lost then s else s.scrubCompare sigs

/-! ### SRAM (R485 to R487) -/

def State.row (s : State) (r : Nat) : SramRow := Bank.get SramRow.reset s.spr.rows r
def State.setRow (s : State) (r : Nat) (x : SramRow) : State := s.updSpr fun p => { p with rows := Bank.set p.rows r x }

/-- Rows of 2 KiB, 512 in a MiB. -/
def rowMib (r : Nat) : Nat := r / 512

/-- Rows of a MiB that stand reserved. -/
def State.rowsPend (s : State) (mib : Nat) : Nat := (s.spr.rows.filter fun p => p.2.pend && decide (rowMib p.1 = mib)).length

/-- A spare row of the MiB is at hand. -/
def State.rowSpare (s : State) (mib : Nat) : Bool := decide (Bank.get 0 s.spr.rowsUsed mib + s.rowsPend mib < 32)

/-- The copy of a row into a spare row begins. -/
def State.rowCopy (s : State) (r : Nat) : State :=
  (s.setRow r { s.row r with copying := true, pend := false }).updSpr fun p =>
    { p with rowsUsed := Bank.set p.rowsUsed (rowMib r) (Bank.get 0 p.rowsUsed (rowMib r) + 1) }

/-- A failing row is spared, stands reserved, or stays in use for want of a spare row. -/
def State.rowFails (s : State) (r : Nat) : State :=
  let x := s.row r
  let m := rowMib r
  if x.copying || x.pend || x.stuck then s
  else if s.rowSpare m then
    let s := if s.autoSpares then s.rowCopy r else s.setRow r { x with pend := true }
    s.fault (srcSramRow + m) (wd (2048 * r)) .none
  else (s.setRow r { x with stuck := true }).fault (srcSramSpareOut + m) (wd m) .none

/-- The structures that contain a word which cannot be corrected are marked (R487). -/
def State.markSram (s : State) (w : Nat) : State :=
  let u := Config.sramUse w
  let n := fld u 0 28
  match fld u 28 4 with
  | 1 => s.updMotion .axis (n / 16 % s.variant.axes) fun m => { m with profBad := m.profBad ++ [n % 16] }
  | 2 => s.updMotion .course (n / 16 % s.variant.courses) fun m => { m with profBad := m.profBad ++ [n % 16] }
  | 3 =>
    let a := n % s.variant.axes
    s.setBase a 261 (setFld ((s.axis a).baseEntry 261) 31 1 0)
  | 4 => { s with camBad := s.camBad ++ [2 * n % s.variant.camWords, (2 * n + 1) % s.variant.camWords] }
  | _ => s

/-- The scrubber has come to the 8-byte word `w`: it reads every word in ascending order, over and over, and those that lie between its last place
and this one were read without an error (R485). -/
def State.scrubTo (s : State) (w : Nat) : State :=
  let n := 131072 * s.variant.mibs
  let from_ := s.spr.scrubAt
  let passed (y : Nat) : Bool := decide ((y + n - from_) % n < (w + n - from_) % n)
  s.updSpr fun p =>
    { p with
      scrubAt := (w + 1) % n
      rows := p.rows.map fun q => (q.1, { q.2 with words := q.2.words.filter fun y => !passed y }) }

/-- SRAM_SCRUB_READ: the word at 8-byte address `w`. -/
def State.sramRead (s : State) (w : Nat) (f : SramFinding) : State :=
  let r := w / 256
  let m := rowMib r
  if s.variant.mibs ≤ m then s
  else
    let s := s.scrubTo w
    let x := s.row r
    match f with
    | .good => s.setRow r { x with words := x.words.filter fun y => decide (y ≠ w) }
    | .corrected =>
      let again := decide (w ∈ x.words)
      let s := s.setRow r { x with errs := x.errs + 1, words := if again then x.words else x.words ++ [w] }
      let s := ((s.sprFlag 1).wear (8 + m)).fault (srcSramCe + m) (wd (8 * w)) .none
      if again ∨ 8 ≤ x.errs + 1 then s.rowFails r else s
    | .uncorrectable =>
      let s := (s.sprFlag 0).updSpr fun p => { p with ue := satAdd 255 p.ue 1 }
      ((s.markSram w).fault srcSramUe (wd (8 * w)) .none).rowFails r

def execSramScrubRead (w : Nat) (f : SramFinding) (s : State) : Answer := s.command fun s => s.sramRead w f

/-- ROW_SPARE_COPY_COMPLETE: the row's address is redirected to the spare row. -/
def State.rowDone (s : State) (r : Nat) : State :=
  if (s.row r).copying then (s.setRow r SramRow.reset).spareIn else s

def execRowSpareCopyComplete (r : Nat) (s : State) : Answer := s.command fun s => s.rowDone r

/-- The injected check of the reserved test word, at the first period boundary after arming (R523): it marks nothing and counts
nothing. The test word is the last word of its MiB (the spec gives no address). -/
def State.sramInject (s : State) : State :=
  if s.flt.injArmed && decide (s.flt.injTarget = 0) then
    let m := s.flt.injUnit % 2
    let d := wd ((m + 1) * 2 ^ 20 - 8)
    let s := { s with flt := { s.flt with injArmed := false } }
    if s.flt.injUnit / 256 % 2 = 1 then ((s.sprFlag 0).raiseAs srcSramUe (s.classOf srcSramUe) d true .none).settle
    else ((s.sprFlag 1).raiseAs (srcSramCe + m) (s.classOf (srcSramCe + m)) d true .none).settle
  else s

/-! ### Runners and course engines (R488 to R491) -/

/-- The spare slots that are free. -/
def State.freeSlots (s : State) : List Nat :=
  (List.range s.variant.spareSlots).filter fun i =>
    let x := Bank.get SpareSlot.reset s.spr.slots i
    !x.used && !x.retired

/-- The spare slot that serves next. -/
def State.freeSlotOf (s : State) : Option Nat := s.freeSlots.head?

/-- Axes that await a spare slot. -/
def State.runPending (s : State) : List Nat := (s.spr.runPend.filter fun p => p.2).map Prod.fst

/-- The spare slot serves the axis from now on. -/
def State.serveRunner (s : State) (i a : Nat) : State :=
  (s.updSpr fun p => { p with slots := Bank.set p.slots i { used := true, retired := false, axis := a }, runPend := Bank.set p.runPend a false }).spareIn

/-- The runner that serves an axis is retired, at the boundary whose check failed (R488 to R490): the state of the axis is the checkpoint of the boundary
before, since the failed period is not carried out; a spare repeats it from there. Under POLICY 1 the axis awaits a spare slot. -/
def State.runnerFails (s : State) (a : Nat) : State :=
  if !decide (a < s.variant.axes) || !s.runnerOk a then s
  else
    let s := match s.spr.slotOf a with
      | some i => (s.updSpr fun p => { p with slots := Bank.set p.slots i { used := true, retired := true, axis := a } }).wear (0x010 + 48 + i)
      | none => (s.updSpr fun p => { p with runRetired := Bank.set p.runRetired a true }).wear (0x010 + a)
    let s := s.sprFlag 3
    let src := srcRunnerFail + a
    match if s.autoSpares then s.freeSlotOf else none with
    | some i => (s.serveRunner i a).fault src (wd (a + i * 2 ^ 8)) (.axis a)
    | none =>
      let s := s.updSpr fun p => { p with runPend := Bank.set p.runPend a (!s.autoSpares) }
      let c := s.classOf src
      let r := s.record src c (wd (a + 15 * 2 ^ 8)) false
      ((r.1.react c (.axis a) r.2 false none).isoAxis a r.2).settle c

/-- A member of a course whose engine has failed is detached; a member course stops at its own CRS_QSTOP_DECEL, as one that is detached under
POLICY 1 does (R178, R491; DEDUCED, log entry 57). -/
def State.detachMember (s : State) (c slot : Nat) : State :=
  let mb := (s.course c).member slot
  let a := ((s.beneath 8 c).head?).getD 0
  let s := s.detach c slot
  if mb.state = .bound ∧ mb.kind = .course then s.updMotion .course mb.index fun m => m.postStop .hiz (some (slot, a)) else s

/-- A course engine is retired, and its failed period is not carried out (R488, R491). Its descriptors complete at the next planning tick (R508). -/
def State.engineFails (s : State) (n : Nat) : State :=
  if !decide (n < s.variant.courses) || Bank.get false s.spr.engRetired n then s
  else
    let s := ((s.updSpr fun p => { p with engRetired := Bank.set p.engRetired n true }).wear (0x050 + n)).sprFlag 3
    let src := srcCourseEngFail + n
    let c := s.classOf src
    let r := s.record src c (wd n) false
    let s := r.1.updMotion .course n fun m => if m.en then (m.postStop .hiz none).fall else m
    let s := (((s.beneath 8 n).foldl (fun t a => t.isoAxis a r.2) s).react c (.course n) r.2 false none).settle c
    let s := ((s.course n).members.map Prod.fst).foldl (fun t i => t.detachMember n i) s
    let s := match (s.course n).parent with
      | some (p, i) => s.detach p i
      | none => s
    s.updCourse n fun x => { x with ctrl := setFld x.ctrl 0 1 0, m := { x.m with en := false, mode := .off } }

/-! ### Input paths (R473) -/

/-- An input of the independent class. -/
def State.isIndependent (s : State) (d : InputDiffer) : Bool :=
  match d.kind with
  | 0 => decide (d.index = 0)
  | 1 => decide (d.index < s.variant.senses) && s.inp.safe.getLsbD d.index
  | 2 => decide (d.index < s.variant.tiles)
  | 3 => decide (d.index < s.variant.tiles)
  | _ => false

/-- The run of one input after a boundary. -/
def PathRun.after (x : PathRun) (differs : Bool) : PathRun :=
  if differs then { x with differ := x.differ + 1, agree := 0 } else { x with differ := 0, agree := x.agree + 1 }

/-- A boundary: the third disagreement in a row raises INPUT_PATH, and again only after three agreeing boundaries. -/
def State.inputPaths (s : State) (ds : List InputDiffer) : State :=
  let ds := ds.filter fun d => s.isIndependent d
  let new := (ds.filter fun d => (s.spr.paths.lookup (d.kind, d.index)).isNone).map fun d => ((d.kind, d.index), PathRun.mk 0 0 false)
  let runs := (s.spr.paths ++ new).map fun p => (p.1, p.2.after (ds.any fun d => decide ((d.kind, d.index) = p.1)))
  let hits := ds.filter fun d => runs.any fun p => decide (p.1 = (d.kind, d.index)) && decide (p.2.differ = 3) && !p.2.raised
  let runs := runs.map fun p => (p.1, { p.2 with raised := p.2.raised || decide (3 ≤ p.2.differ) })
  let s := s.updSpr fun p => { p with paths := runs.filter fun p => decide (p.2.agree < 3) }
  hits.foldl (fun t d => (t.sprFlag 7).fault srcInputPath (wd (d.index + d.kind * 2 ^ 6 + d.cores * 2 ^ 8)) .none) s

/-- The cores' samples of an input differ at this boundary: its resolved value is the safe-side one. -/
def State.pathDiffers (s : State) (kind index : Nat) : Bool :=
  match s.spr.paths.lookup (kind, index) with
  | some p => decide (p.differ ≠ 0)
  | none => false

/-! ### Voter self-checks (R474, R475) -/

/-- The self-check after a planning tick boundary. -/
def State.voterCheck (s : State) (o : TickObs) : State :=
  if s.spr.lost then s
  else
    let p := s.spr
    let badA := p.aIn && !o.aPass
    let badB := p.bIn && !o.bPass
    let s := s.updSpr fun p => { p with aPass := o.aPass, bPass := o.bPass, checks := (p.checks + 1) % 65536 }
    let s := if badA then s.wear 4 else s
    let s := if badB then s.wear 5 else s
    if (badA || badB) && !(p.aIn && !badA) && !(p.bIn && !badB) then
      ((s.updSpr fun p => { p with aIn := p.aIn && !badA, bIn := p.bIn && !badB, lost := true }).sprFlag 3).fault srcVoterLoss 0 .none
    else if badA then ((s.updSpr fun p => { p with aIn := false }).sprFlag 3).fault srcVoterDegrade 0 .none
    else if badB then ((s.updSpr fun p => { p with bIn := false }).sprFlag 3).fault (srcVoterDegrade + 1) 1 .none
    else s

/-! ### Approval of spares (R418, R493, R494) -/

/-- The spare planning core goes to the vacant slot, and no longer awaits its approval (R477, R499). -/
def State.approveCore (s : State) : State :=
  match s.spareCore with
  | some k =>
    if s.spr.corePend && s.spr.resync.isNone && s.spr.unres.isNone then
      (s.updSpr fun p => { p with corePend := false }).resyncStart k s.vacantSlot false
    else s
  | none => s

/-- A spare runner slot is loaded for an axis. -/
def State.approveRunner (s : State) (a : Nat) : State :=
  match s.freeSlotOf with
  | some i => if Bank.get false s.spr.runPend a then s.serveRunner i a else s
  | none => s

/-- The spare comparator of a tile is steered. -/
def State.approveCmp (s : State) (t : Nat) : State := if (s.tile t).cmpPend then s.steer t (s.tile t).steerK else s

/-- Every pending row is copied. -/
def State.approveRows (s : State) : State :=
  (s.spr.rows.filter fun p => p.2.pend).foldl (fun t p => t.rowCopy p.1) s

/-- Spare segments of a driver that await approval: one for each active segment that has been retired without a successor (R288, R493). -/
def GateSw.reserved (g : GateSw) : Nat :=
  if g.pend then min ([14, 15].filter fun i => !g.active.getLsbD i && !g.retired.getLsbD i).length (14 - g.capacity) else 0

/-- The drivers of the spare segments that await approval. -/
def State.segPend (s : State) : List (Nat × Nat × Switch) :=
  s.listedLegs.flatMap fun p =>
    List.replicate (s.leg p.1 p.2).hi.reserved (p.1, p.2, .high) ++ List.replicate (s.leg p.1 p.2).lo.reserved (p.1, p.2, .low)

/-- POLICY_AUTOMATIC: every reserved spare is brought in, in the order of R494. -/
def State.policyAuto (s : State) : State :=
  if s.autoSpares then
    let s := s.approveCore
    let s := s.runPending.foldl State.approveRunner s
    let s := (s.tiles.map Prod.fst).foldl State.approveCmp s
    let s := s.segPend.foldl (fun t p => t.approveSeg p.1 p.2.1 p.2.2) s
    s.approveRows
  else s

def execPolicyAutomatic (s : State) : Answer := s.command State.policyAuto

/-- KIND, INDEX and SWITCH of a SPARE_APPROVE (R415). -/
def apKind (w : Word) : Nat := fld w 0 4
def apIndex (w : Word) : Nat := fld w 8 8
def apSwitch (w : Word) : Switch := if bit w 16 then .high else .low

/-- A spare awaits approval for the unit. -/
def State.awaits (s : State) (w : Word) : Bool :=
  let i := apIndex w
  match apKind w with
  | 1 => ((s.leg (i / 16) (i % 16)).sw (apSwitch w)).pend
  | 2 => (s.tile i).cmpPend
  | 3 => s.spr.corePend
  | 4 => Bank.get false s.spr.runPend i && s.freeSlotOf.isSome
  | _ => s.spr.rows.any fun p => p.2.pend

/-- The spare of the unit is brought in. -/
def State.approve (s : State) (w : Word) : State :=
  let i := apIndex w
  match apKind w with
  | 1 => if s.awaits w then s.approveSeg (i / 16) (i % 16) (apSwitch w) else s
  | 2 => s.approveCmp i
  | 3 => s.approveCore
  | 4 => s.approveRunner i
  | _ => s.approveRows

/-- The spare of the unit is not yet in service. -/
def State.approving (s : State) (w : Word) : Bool :=
  match apKind w with
  | 3 => s.spr.corePend && s.spareCore.isSome || s.spr.resync.any fun r => !r.inPlace
  | 5 => s.spr.rows.any fun p => p.2.copying
  | _ => false

/-- One SPARE_APPROVE at a period boundary: it brings its spare in, and completes once the spare is in service. A spare core that fails its
resynchronization has been retired, and none is then pending. -/
def State.approveStep (s : State) (x : Approve) : State :=
  let s := if x.begun && decide (apKind x.word1 ≠ 3) then s else s.approve x.word1
  if s.approving x.word1 then
    s.updSpr fun p => { p with approve := p.approve.map fun y => if y.tag = x.tag then { y with begun := true } else y }
  else
    let st := if apKind x.word1 = 3 ∧ s.spr.pair then Status.notPending else Status.ok
    let s := s.updSpr fun p => { p with approve := p.approve.filter fun y => decide (y.tag ≠ x.tag) }
    s.complete x.tag (s.mkRecord x.word0 [] 0 st)

/-- The SPARE_APPROVEs at a period boundary. -/
def State.approveAll (s : State) : State := s.spr.approve.foldl State.approveStep s

end Sys2Proof.Machine
end

