-- ==== Sys2Proof/Machine/Flags.lean ====
section
/-! DEFINITION. The status words: every flag that a status register of the register map reports, each computed from the state by the
rule that names it. -/

namespace Sys2Proof.Machine

/-- A word with bit `i` set for each number of a list that a test picks. -/
def mask (l : List Nat) (p : Nat → Bool) : Nat := l.foldl (fun w i => w + b2n (p i) * 2 ^ i) 0

/-! ### GLB, REF -/

/-- GLB_CLK (R116). -/
def State.glbClk (s : State) : Word :=
  wd (s.glb.clkDev.toNat * 2 ^ 16 + b2n s.glb.clkReturn * 2 ^ 4 + b2n s.glb.trimOk * 2 ^ 3 + b2n s.glb.bkpOk * 2 ^ 2 +
    b2n s.glb.priOk * 2 + b2n s.glb.bkpActive)

/-- LOCK_ST of the own line PLL (R78). -/
def LockState.code (l : LockState) : Nat :=
  match l with
  | .none => 0
  | .acquiring => 1
  | .locked => 2
  | .holdover => 3
  | .lost => 4

/-- REF_STAT (R121); a follower shows the reference island's source and lock. -/
def State.refStat (s : State) : Word :=
  let src := if s.str.isFollower then s.str.srcRef else fld s.ref.src 0 4
  let lock := if s.str.isFollower then s.str.lockRef else s.ref.lock.code
  wd (src * 2 ^ 20 + lock * 2 ^ 16 + b2n s.ref.run * 2 ^ 11 + b2n s.glb.bkpActive * 2 ^ 10 + b2n s.ref.tcAct * 2 ^ 9 +
    b2n (s.str.isFollower && s.str.extrap) * 2 ^ 8 + fld s.ref.flags 0 5)

/-- REF_STR_STAT (R112). -/
def Strait.stat (t : Strait) : Word :=
  wd (t.depth * 2 ^ 24 + t.island * 2 ^ 16 + t.link0 * 2 ^ 12 + t.link1 * 2 ^ 8 + fld t.flags 0 5)

/-! ### Axes and courses -/

/-- Bits 27:24 and 22:0 that AX_STAT and CRS_STAT share (R163, R182). -/
def Motion.statBits (m : Motion) : Nat :=
  (match m.stopping with
   | some st => if st.begun then st.cause.code else m.stopCause
   | none => m.stopCause) * 2 ^ 24 + m.depth * 2 ^ 16 + b2n m.posUnc * 2 ^ 15 + b2n m.ret.isSome * 2 ^ 14 +
  b2n (match m.ret with | some r => r.isVel | none => false) * 2 ^ 13 + b2n m.held * 2 ^ 12 +
  b2n (match m.start with | .dwell _ _ => true | _ => false) * 2 ^ 11 + b2n m.halting * 2 ^ 10 +
  b2n m.dwell.isSome * 2 ^ 9 + b2n m.neg * 2 ^ 8 + b2n (decide (m.v ≠ 0)) * 2 ^ 7 + b2n m.wrapped * 2 ^ 6 + m.mode.code

/-- AX_STAT (R163). -/
def State.axStat (s : State) (a : Nat) : Word := wd (s.axis a).m.statBits

/-- CRS_STAT (R182). -/
def State.crsStat (s : State) (c : Nat) : Word :=
  let x := s.course c
  wd (x.faultMem * 2 ^ 28 + b2n x.memFlt * 2 ^ 23 + x.m.statBits)

/-- AX_STALL_STAT (R275). -/
def State.stallStat (s : State) (a : Nat) : Word :=
  let x := s.axis a
  wd (x.stall.la * 2 ^ 24 + x.unarm.stall.qcnt * 2 ^ 20 + (s.limitState a true).code * 2 ^ 18 + (s.limitState a false).code * 2 ^ 16 +
    b2n x.stallArmed * 2 ^ 12 + b2n x.watch.on * 2 ^ 11 + b2n x.baseValid * 2 ^ 10 + b2n x.baseStale * 2 ^ 9 +
    b2n (x.home.elim false Home.started) * 2 ^ 8 + fld x.stall.flags 0 5)

/-- Half a word of AX_COIL (R232): sign in bit 15, I12 in bits 11:0. -/
def CoilSt.word (c : CoilSt) : Nat := b2n (c.neg && decide (c.i12 ≠ 0)) * 2 ^ 15 + c.i12

/-- AX_COIL, AX_ANGLE (R232): 0 while the axis is disabled. -/
def Axis.coilWord (x : Axis) : Word := if x.m.en then wd (x.coilB.word * 2 ^ 16 + x.coilA.word) else 0
def Axis.angleWord (x : Axis) : Word := if x.m.en then wd x.theta else 0

/-- The members a course holds, bound or binding; a detached member has no parent (R174, R181). -/
def Course.memberCount (c : Course) : Nat := (c.members.filter fun p => decide (p.2.state = .binding ∨ p.2.state = .bound)).length

/-- CRS_LEVEL (R181). -/
def State.crsLevel (s : State) (c : Nat) : Word :=
  let x := s.course c
  wd ((match x.parent with | some (p, _) => p | none => 0x3F) * 2 ^ 16 + x.memberCount * 2 ^ 8 +
    (if x.m.en then s.level 8 c else 0))

def MemState.code (m : MemState) : Nat :=
  match m with
  | .empty => 0
  | .binding => 1
  | .bound => 2
  | .detached => 3

def kindCode (k : UnitKind) : Nat :=
  match k with
  | .axis => 0
  | .course => 1

/-- CRS_MEM_INFO, CRS_MEM_PARAM (R181, R183). -/
def Member.info (m : Member) : Word :=
  wd (m.index * 2 ^ 8 + kindCode m.kind * 2 ^ 5 + b2n m.cam * 2 ^ 4 + m.state.code)
def Member.paramWord (m : Member) : Word := if m.cam then wd (fld m.param 0 15) else m.param

/-! ### Legs and tiles -/

def SolPhase.code (p : SolPhase) : Nat :=
  match p with
  | .idle => 0
  | .pullIn => 1
  | .hold => 2
  | .fin => 3

/-- A pulse start of the leg is held by the budget, or waits for the throttle dwell (R322). -/
def Leg.startHeld (x : Leg) : Bool :=
  match x.solWait with
  | [] => false
  | d :: _ => d.held
def Leg.startDwells (x : Leg) : Bool :=
  match x.solWait with
  | [] => false
  | d :: _ => d.dwellLeft.isSome

/-- LEG_STAT (R322). -/
def State.legStat (s : State) (t l : Nat) : Word :=
  let x := s.leg t l
  wd (x.cause * 2 ^ 28 + x.solPhase.code * 2 ^ 26 + b2n x.startHeld * 2 ^ 25 + b2n x.startDwells * 2 ^ 24 + b2n x.latch * 2 ^ 15 +
    b2n (x.latch && s.tripActive t l) * 2 ^ 14 + b2n x.bstOk * 2 ^ 13 + b2n (!x.hi.cmd && !x.lo.cmd) * 2 ^ 12 + fld x.flags 4 4 * 2 ^ 4)

/-- LEG_SEG_H and LEG_SEG_L (R324). -/
def GateSw.segWord (g : GateSw) (hiz : Bool) : Word :=
  wd (g.retired.toNat * 2 ^ 16 + g.capacity * 2 ^ 12 + b2n g.pend * 2 ^ 8 + (if hiz then 0 else g.nOff * 2 ^ 4 + g.nOn))

/-- LEG_TSW (R319). -/
def Leg.tswWord (x : Leg) : Word := wd (x.hi.tswOn * 2 ^ 24 + x.hi.tswOff * 2 ^ 16 + x.lo.tswOn * 2 ^ 8 + x.lo.tswOff)

/-- LEG_PWM_STAT (R237). -/
def Leg.pwmStat (x : Leg) : Word :=
  wd (x.skipCnt * 2 ^ 16 + b2n x.adcDrop * 2 ^ 3 + b2n x.clamp * 2 ^ 2 + b2n x.armedSet * 2 + b2n (x.driveOn && !x.precharge))

/-- TILE_STAT (R323). -/
def Tile.stat (x : Tile) : Word :=
  wd (b2n x.vgUv * 2 ^ 15 + b2n x.vgOv * 2 ^ 14 + b2n x.vmUv * 2 ^ 13 + b2n x.vmOv * 2 ^ 12 + b2n x.iso * 2 ^ 8 + fld x.flags 0 4)

/-- TILE_CMP_STAT (R359). -/
def State.cmpStat (s : State) (t : Nat) : Word :=
  let x := s.tile t
  wd (x.failed.toNat * 2 ^ 24 + b2n x.spareOk * 2 ^ 11 + b2n x.cmpPend * 2 ^ 10 + b2n x.steered * 2 ^ 9 +
    b2n (s.checking t || x.confirming) * 2 ^ 8 + x.steerK * 2 ^ 4 + (s.checkCoil t).getD x.shadowK)

/-! ### HOST -/

/-- HOST_STAT (R400): WIDTH and SPEED read 0 while the link is down. -/
def HostB.stat (h : HostB) : Word :=
  wd ((if h.linkUp then h.width * 2 ^ 24 + h.speed * 2 ^ 20 else 0) + b2n h.linkUp * 2 ^ 15 + b2n h.bme * 2 ^ 14 + fld h.flags 0 4)

def RingState.code (r : RingState) : Nat :=
  match r with
  | .off => 0
  | .run => 1
  | .drain => 2
  | .error => 3

/-- HOST_RING_STAT (R403). -/
def Ring.stat (x : Ring) : Word :=
  wd (x.state.code * 2 ^ 30 + x.err * 2 ^ 26 + min 256 x.outst.length * 2 ^ 17 + min 16 (x.pref.filter Fetched.ready).length * 2 ^ 12 + x.wait * 2 ^ 8 +
    fld x.flags 0 3)

/-- HOST_TILE_BUDGET.USED (R390): bookings at the last boundary in 10 mA, rounded up. The spec states no value where they exceed
the 16 bits of the field: a free value stands there (log entry 2). -/
def State.usedField (s : State) (t : Nat) : Nat :=
  let u := ceilDiv (Bank.get 0 s.host.used t) 10
  if u < 65536 then u else (Config.openDetail s.dt).toNat % 65536

/-! ### FLT, THM, SPR -/

/-- FLT_STAT (R460). -/
def Flt.stat (f : Flt) : Word := wd (f.hist.length * 2 ^ 24 + fld f.flags 0 3)

/-- FLT_SEV of a source (R461); 0 for an unassigned number. -/
def State.sevWord (s : State) (src : Nat) : Word :=
  match srcInfo s.variant src with
  | none => 0
  | some r => wd (r.dflt.code * 2 ^ 24 + r.mx.code * 2 ^ 20 + r.mn.code * 2 ^ 16 + (s.classOf src).code)

/-- THM_LVL (R356). -/
def State.thmLvl (s : State) : Word :=
  wd (s.allTiles.foldl (fun w t =>
    let x := s.thmTile t
    w + (if x.throt then 2 else if x.warn then 1 else 0) * 4 ^ t) 0)

/-- THM_BROKEN (R356). -/
def State.thmBroken (s : State) : Word :=
  wd (s.allTiles.foldl (fun w t => w + (b2n (s.thmTile t).broken0 + 2 * b2n (s.thmTile t).broken1) * 4 ^ t) 0)

/-- THM_STAT (R358). -/
def State.thmStat (s : State) : Word :=
  wd (b2n s.thm.shut * 2 ^ 31 + b2n s.nvBlock * 2 ^ 30 + fld s.thm.flags 16 3 * 2 ^ 16 + mask s.allTiles fun t => (s.thmTile t).fast)

/-- SPR_STAT (R499). -/
def State.sprStat (s : State) : Word :=
  wd (coreMask s.voting * 2 ^ 24 + coreMask s.retiredCores * 2 ^ 20 + b2n s.spr.corePend * 2 ^ 18 + b2n s.spr.pair * 2 ^ 17 +
    b2n s.spr.resync.isSome * 2 ^ 16 + b2n s.spr.unres.isSome * 2 ^ 15 + b2n s.spr.lost * 2 ^ 14 + fld s.spr.flags 0 8)

def CoreSt.code (c : CoreSt) : Nat :=
  match c with
  | .voting => 0
  | .spare => 1
  | .resync => 2
  | .retired => 3

/-- SPR_CORE (R498). -/
def State.sprCore (s : State) : Word :=
  wd ((List.range 4).foldl (fun w n =>
    w + ((s.core n).st.code * 4 + (if (s.core n).st = .voting then (s.core n).slot % 4 else 0)) * 256 ^ n) 0)

/-- SPR_MIN_CNT (R476, R498). -/
def State.sprMin (s : State) : Word := wd ((List.range 4).foldl (fun w n => w + min 255 (s.minCount n) * 256 ^ n) 0)

/-- SPR_VOTER (R498). -/
def Spr.voterWord (p : Spr) : Word :=
  wd (p.checks % 65536 * 2 ^ 16 + b2n p.bPass * 8 + b2n p.aPass * 4 + b2n p.bIn * 2 + b2n p.aIn)

/-- SPR_RUN (R498). -/
def Spr.runWord (p : Spr) : Word :=
  wd ((List.range 4).foldl (fun w i =>
    let x := Bank.get SpareSlot.reset p.slots i
    w + (b2n x.used * 128 + b2n x.retired * 64 + x.axis % 64) * 256 ^ i) 0)

/-- The 48-bit map of axes that await a spare slot (R498). -/
def State.runPendMap (s : State) : Nat := mask s.allAxes fun a => Bank.get false s.spr.runPend a

/-- SPR_SRAM (R498). -/
def State.sprSram (s : State) : Word :=
  wd (min 32 (Bank.get 0 s.spr.rowsUsed 1) * 2 ^ 26 + min 32 (Bank.get 0 s.spr.rowsUsed 0) * 2 ^ 20 +
    min 255 (s.rowsPend 0 + s.rowsPend 1) * 2 ^ 8 + min 255 s.spr.ue)

/-- A wear index names a present unit (R495). -/
def wearOk (v : Variant) (i : Nat) : Bool :=
  decide (i < 8) || (decide (8 ≤ i) && decide (i < 8 + v.mibs)) || (decide (0x10 ≤ i) && decide (i < 0x10 + v.axes)) ||
  (decide (0x40 ≤ i) && decide (i < 0x40 + v.spareSlots)) || (decide (0x50 ≤ i) && decide (i < 0x50 + v.courses)) ||
  (decide (0x100 ≤ i) && decide (i < 0x100 + 2 * v.legs)) || (decide (0x280 ≤ i) && decide (i < 0x280 + 9 * v.tiles)) ||
  (decide (0x2F0 ≤ i) && decide (i < 0x2F0 + 2 * v.tiles))

/-! ### INP -/

/-- Half of the 64 sense bits. -/
def half (b : BitVec 64) (j : Nat) : Word := wd (b.toNat / 2 ^ (32 * j))

/-- A map with the bits of inputs that a pair takes, or that the variant lacks, at 0 (R339). -/
def State.senseMap (s : State) (b : BitVec 64) : BitVec 64 :=
  BitVec.ofNat 64 (mask (List.range s.variant.senses) fun i => b.getLsbD i && !s.inp.taken i)

end Sys2Proof.Machine
end

