-- ==== Sys2Proof/Machine/Regs.lean ====
section
/-! DEFINITION. The register map (R24, R458): the place of an offset, the fields that software writes and where the state holds them
(R25, R26), and the configuration set (R446, R447). -/

namespace Sys2Proof.Machine

/-- The place of a register: its block or unit, and its offset there. -/
inductive Loc where
  | glb (o : Nat)
  | ref (o : Nat)
  | host (o : Nat)
  | budget (t : Nat)
  | twin (w o : Nat)
  | ring (r o : Nat)
  | flt (o : Nat)
  | thm (o : Nat)
  | spr (o : Nat)
  | inp (o : Nat)
  | unit (k : UnitKind) (n o : Nat)
  | cam (o : Nat)
  | tile (t o : Nat)
  | leg (t l o : Nat)
  | tbl (w : Nat)
  | cfg (o : Nat)
deriving DecidableEq, Repr

/-! ### The map -/

/-- The offsets of each block that hold a register. -/
def glbOffs : List Nat := [0x00, 0x04, 0x08, 0x0C, 0x10, 0x20, 0x24, 0x30, 0x34, 0x40, 0x44, 0x50]
def refOffs : List Nat :=
  [0x00, 0x04, 0x08, 0x10, 0x14, 0x18, 0x1C, 0x20, 0x24, 0x28, 0x2C, 0x30, 0x34, 0x38, 0x3C, 0x40, 0x48, 0x4C, 0x50, 0x54]
def straitOffs : List Nat := [0x60, 0x64, 0x68, 0x6C, 0x70]
def hostOffs : List Nat := [0x00, 0x04, 0x08, 0x0C, 0x10, 0x14, 0x18]
def fltOffs : List Nat :=
  [0x00, 0x04, 0x08, 0x0C, 0x10, 0x14, 0x20, 0x40, 0x44, 0x48, 0x4C, 0x50, 0x54, 0x58, 0x5C, 0x60, 0x64, 0x68, 0x70]
def thmOffs : List Nat := [0x00, 0x04, 0x08, 0x10, 0x14, 0x18]
def sprOffs : List Nat := [0x00, 0x04, 0x08, 0x0C, 0x10, 0x14, 0x18, 0x1C, 0x20, 0x28, 0x2C]
def inpPairs : List Nat := [0x08, 0x10, 0x18, 0x20, 0x28, 0x30, 0x40, 0x48]
def motionOffs : List Nat :=
  [0x00, 0x10, 0x18, 0x1C, 0x20, 0x24, 0x28, 0x2C, 0x30, 0x40, 0x44, 0x48, 0x50, 0x58,
   0x60, 0x64, 0x68, 0x6C, 0x70, 0x74, 0x78, 0x7C]
def axisOffs : List Nat :=
  [0x08, 0x0C, 0x4C, 0x80, 0x84, 0x88, 0x8C, 0x90, 0x94, 0x98, 0x9C, 0xA0, 0xA4, 0xA8, 0xAC, 0xB0, 0xB4, 0xB8]
def courseOffs : List Nat := [0x04, 0x08, 0x0C, 0x14, 0x34, 0x38]
def tileOffs : List Nat := [0x00, 0x10, 0x14, 0x20, 0x40, 0x44, 0x50, 0x54]
def legOffs : List Nat := [0x00, 0x04, 0x08, 0x0C, 0x10, 0x14, 0x18, 0x1C, 0x20, 0x24, 0x28, 0x2C, 0x30, 0x34, 0x38]
def cfgOffs : List Nat := [0x00, 0x04, 0x08, 0x0C, 0x10, 0x14, 0x20, 0x24, 0x28, 0x2C]

/-- A place where a condition holds. -/
def locIf (b : Bool) (l : Loc) : Option Loc := if b then some l else none

/-- The registers of the REF block (R112, R117, R120). -/
def refLoc (v : Variant) (o : Nat) : Option Loc :=
  locIf (decide (o ∈ refOffs) || (decide (o ∈ straitOffs) && decide (v.ports ≠ 0)) ||
    (decide (0x100 ≤ o) && decide (o < 0x180) && decide (v = .zm4812))) (.ref o)

/-- The registers of the HOST block (R399). -/
def hostLoc (v : Variant) (o : Nat) : Option Loc :=
  if o < 0x40 then locIf (decide (o ∈ hostOffs)) (.host o)
  else if o < 0x80 then locIf (decide ((o - 0x40) / 4 < v.tiles)) (.budget ((o - 0x40) / 4))
  else if o < 0x180 then locIf (decide ((o - 0x80) / 16 < v.windows)) (.twin ((o - 0x80) / 16) (o % 16))
  else if o < 0x200 then none
  else locIf (decide ((o - 0x200) / 32 < v.rings)) (.ring ((o - 0x200) / 32) (o % 32))

/-- The registers of the THM block (R356). -/
def thmLoc (v : Variant) (o : Nat) : Option Loc :=
  locIf (decide (o ∈ thmOffs) || (decide (0x40 ≤ o) && decide (o < 0x40 + 4 * v.tiles)) ||
    (decide (0x80 ≤ o) && decide (o < 0x80 + 4 * v.tiles))) (.thm o)

/-- The registers of the INP block (R185, R345). -/
def inpLoc (v : Variant) (o : Nat) : Option Loc :=
  locIf (decide (o = 0) || decide (o ∈ inpPairs) || (decide (o - 4 ∈ inpPairs) && decide (4 ≤ o) && decide (32 < v.senses)) ||
    (decide (0x100 ≤ o) && decide (o < 0x100 + 4 * v.pairs)) || (decide (0x140 ≤ o) && decide (o < 0x140 + 4 * v.pairs)) ||
    (decide (0x180 ≤ o) && decide (o < 0x180 + 4 * v.encoders)) || (decide (0x190 ≤ o) && decide (o < 0x190 + 4 * v.encoders)) ||
    (decide (0x1A0 ≤ o) && decide (o < 0x1A0 + 4 * v.encoders)) || (decide (0x1B0 ≤ o) && decide (o < 0x1B0 + 4 * v.lines))) (.inp o)

/-- The registers of the AX and CRS blocks and of the cam pool (R162, R181, R184, R232, R271). -/
def unitLoc (v : Variant) (off : Nat) : Option Loc :=
  if off < 0xC000 then
    locIf (decide ((off - 0x8000) / 256 < v.axes) && (decide (off % 256 ∈ motionOffs) || decide (off % 256 ∈ axisOffs)))
      (.unit .axis ((off - 0x8000) / 256) (off % 256))
  else if off < 0xC800 then
    locIf (decide ((off - 0xC000) / 128 < v.courses) && (decide (off % 128 ∈ motionOffs) || decide (off % 128 ∈ courseOffs)))
      (.unit .course ((off - 0xC000) / 128) (off % 128))
  else locIf (decide (off = 0xC800 ∨ off = 0xC804 ∨ off = 0xC808)) (.cam (off - 0xC800))

/-- The registers of a tile and of its legs (R319). -/
def tileLoc (v : Variant) (off : Nat) : Option Loc :=
  let t := (off - 0x10000) / 4096
  let o := off % 4096
  if t < v.tiles then
    if o < 0x100 then locIf (decide (o ∈ tileOffs)) (.tile t o)
    else if o < 0x500 then locIf (decide (o % 64 ∈ legOffs)) (.leg t ((o - 0x100) / 64) (o % 64))
    else none
  else none

/-- The place of a BAR0 offset; none for an absent unit or an unused offset (R8, R458). -/
def locOf (v : Variant) (off : Nat) : Option Loc :=
  if off % 4 ≠ 0 then none
  else if off < 0x1000 then locIf (decide (off ∈ glbOffs)) (.glb off)
  else if off < 0x2000 then refLoc v (off - 0x1000)
  else if off < 0x3000 then hostLoc v (off - 0x2000)
  else if off < 0x4000 then locIf (decide (off - 0x3000 ∈ fltOffs)) (.flt (off - 0x3000))
  else if off < 0x5000 then thmLoc v (off - 0x4000)
  else if off < 0x6000 then locIf (decide (off - 0x5000 ∈ sprOffs)) (.spr (off - 0x5000))
  else if off < 0x7000 then inpLoc v (off - 0x6000)
  else if off < 0x8000 then none
  else if off < 0x10000 then unitLoc v off
  else if off < 0x20000 then tileLoc v off
  else if off < 0x20400 then some (.tbl ((off - 0x20000) / 4))
  else if off < 0x30000 then none
  else locIf (decide (off - 0x30000 ∈ cfgOffs)) (.cfg (off - 0x30000))

/-- An unused offset, which stands for a unit that no variant has. -/
def noOff : Nat := 0x7000

/-- The BAR0 offset of the register of number `n` of `count` at a stride (R458). -/
def instOff (base stride count n o : Nat) : Nat := if n < count then base + stride * n + o else noOff

/-- The BAR0 offset of a register of a unit, a tile, a leg, a ring (R458). -/
def unitReg (k : UnitKind) (n o : Nat) : Nat :=
  match k with
  | .axis => instOff 0x8000 0x100 48 n o
  | .course => instOff 0xC000 0x80 16 n o
def unitOff (k : UnitKind) (n : Nat) : Nat := unitReg k n 0
def tileReg (t o : Nat) : Nat := instOff 0x10000 0x1000 12 t o
def tileOff (t : Nat) : Nat := tileReg t 0
def legReg (t l o : Nat) : Nat := if l < 16 then tileReg t (0x100 + 0x40 * l + o) else noOff
def ringReg (r o : Nat) : Nat := instOff 0x2200 0x20 64 r o

/-! ### What software writes (R25, R438) -/

/-- The WM field bits of a register; 0 for a register that is not WM. -/
def Loc.wmBits (l : Loc) : Nat :=
  match l with
  | .flt 0x10 => 10
  | .flt 0x20 => 5
  | .spr 0x28 => 10
  | .unit _ _ 0x58 => 4
  | .unit .course _ 0x04 => 4
  | .unit .axis _ 0xB0 => 9
  | _ => 0

/-- The RW bits of the REF block by offset. -/
def refMask (o : Nat) : Nat :=
  match o with
  | 0x00 => 0x7
  | 0x04 => 0xFF
  | 0x28 => 0xFFFFFFFF
  | 0x2C => 0xFFFFFFFF
  | 0x38 => 0x17
  | 0x3C => 0xFF31
  | 0x40 => 0xFFFFFF
  | 0x48 => 0xFFFF0017
  | 0x4C => 0xFFFF0017
  | 0x50 => 0xFFFFFF
  | 0x54 => 0xFFFFFF
  | 0x60 => 0xFFCF
  | _ => if o < 0x100 then 0 else if o < 0x140 then 0xFFFFFFFF else 0xFFFF

/-- The RW bits of the AX block by offset. -/
def axisMask (o : Nat) : Nat :=
  match o with
  | 0x00 => 0x3
  | 0x08 => 0xFFFFFFFF
  | 0x0C => 0xFFFF
  | 0x40 => 0xFFFFFFFF
  | 0x44 => 0xFFFFFFFF
  | 0x48 => 0xFFFF
  | 0x4C => 0xFFFF
  | 0x80 => 0x000330FF
  | 0x84 => 0x000103FF
  | 0x88 => 0x0F1000FF
  | 0x8C => 0x1F1F1F1F
  | 0xA0 => 0xBFFFFFFF
  | 0xA4 => 0x80FFF0FF
  | 0xA8 => 0xFFFF0000
  | 0xB4 => 0xFFFFFFFF
  | _ => if 0x60 ≤ o ∧ o ≤ 0x7C then 0xFFFFFFFF else 0

/-- The RW bits of the CRS block by offset. -/
def courseMask (o : Nat) : Nat :=
  match o with
  | 0x00 => 0x11
  | 0x40 => 0xFFFFFFFF
  | 0x44 => 0xFFFFFFFF
  | 0x48 => 0xFFFF
  | _ => if 0x60 ≤ o ∧ o ≤ 0x7C then 0xFFFFFFFF else 0

/-- The RW bits of a leg's sub-block by offset. -/
def legMask (o : Nat) : Nat :=
  match o with
  | 0x00 => 0x7
  | 0x04 => 0x0FF0FF7F
  | 0x08 => 0xFF1F3F0F
  | 0x0C => 0xFFFF00FF
  | 0x20 => 0xFF000300
  | 0x24 => 0xFFFFFFFF
  | 0x28 => 0x000FFFFF
  | 0x2C => 0xFFFFFFFF
  | _ => 0

/-- The RW bits of the HOST block by offset. -/
def hostMask (o : Nat) : Nat :=
  match o with
  | 0x00 => 0x1
  | 0x08 => 0xF
  | 0x10 => 0xFFF00000
  | 0x14 => 0xFFFFFFFF
  | 0x18 => 0x3F
  | _ => 0

def twinMask (o : Nat) : Nat :=
  match o with
  | 0x0 => 0xFFFFF000
  | 0x4 => 0xFFFFFFFF
  | 0x8 => 0x7FFFF
  | _ => 0

def ringMask (o : Nat) : Nat :=
  match o with
  | 0x00 => 0x00F11F01
  | 0x04 => 0xFFFF3F03
  | 0x08 => 0xFFFFF000
  | 0x0C => 0xFFFFFFFF
  | 0x10 => 0xFFFFFFFF
  | 0x14 => 0xFFFF
  | _ => 0

/-- The RW bits of the INP block by offset. -/
def inpMask (o : Nat) : Nat :=
  match o with
  | 0x00 => 0x1
  | 0x08 => 0xFFFFFFFF
  | 0x0C => 0xFFFFFFFF
  | 0x10 => 0xFFFFFFFF
  | 0x14 => 0xFFFFFFFF
  | 0x18 => 0xFFFFFFFF
  | 0x1C => 0xFFFFFFFF
  | _ =>
    if 0x100 ≤ o ∧ o < 0x140 then 0x37
    else if 0x180 ≤ o ∧ o < 0x190 then 0x31
    else if 0x1B0 ≤ o then 0xFF01
    else 0

/-- The bits of a register that are RW or W1 (R25). -/
def Loc.rwMask (l : Loc) : Nat :=
  match l with
  | .glb 0x30 => 0xFFFFF000
  | .glb 0x34 => 0xFFFFFFFF
  | .glb 0x50 => 0x10
  | .glb _ => 0
  | .ref o => refMask o
  | .host o => hostMask o
  | .budget _ => 0xFFFF
  | .twin _ o => twinMask o
  | .ring _ o => ringMask o
  | .flt 0x00 => 0x03FF0001
  | .flt 0x08 => 0x1
  | .flt 0x0C => 0xFFFF0700
  | .flt 0x14 => 0x7
  | .flt _ => 0
  | .thm 0x00 => 0x1
  | .thm 0x04 => 0xFFFFFF00
  | .thm _ => 0
  | .spr 0x00 => 0x101
  | .spr _ => 0
  | .inp o => inpMask o
  | .unit .axis _ o => axisMask o
  | .unit .course _ o => courseMask o
  | .cam 0 => 0x7FFF
  | .cam 4 => 0xFFFFFFFF
  | .cam _ => 0
  | .tile _ 0x00 => 0x1
  | .tile _ 0x20 => 0xFFFF
  | .tile _ _ => 0
  | .leg _ _ o => legMask o
  | .tbl _ => 0xFFFFFFFF
  | .cfg 0x08 => 0xFFFFFFFF
  | .cfg 0x10 => 0x7
  | .cfg _ => 0

/-! ### Where the state holds it -/

/-- The word of a profile by its place (R122). -/
def Profile.word (p : Profile) (i : Nat) : Word := p.words.getD i 0
def Profile.setWord (p : Profile) (i : Nat) (v : Word) : Profile := Profile.ofWords (p.words.set i v)

/-- The selected profile of a unit (R127). -/
def Motion.selProf (m : Motion) : Profile := Bank.get Profile.reset m.profs m.profSel

/-- What software has written to a register of the REF block. -/
def State.refStored (s : State) (o : Nat) : Word :=
  match o with
  | 0x00 => s.ref.ctrl
  | 0x04 => s.ref.src
  | 0x28 => s.ref.rcSetLo
  | 0x2C => s.ref.rcSetHi
  | 0x38 => s.ref.encCfg
  | 0x3C => s.ref.lineCfg
  | 0x40 => s.ref.lineNom
  | 0x48 => s.ref.outCfgOf 0
  | 0x4C => s.ref.outCfgOf 1
  | 0x50 => s.ref.outDivOf 0
  | 0x54 => s.ref.outDivOf 1
  | 0x60 => s.str.ctrl
  | _ =>
    if o < 0x100 then 0
    else if o < 0x140 then Bank.get 0 s.ref.tcPt ((o - 0x100) / 4)
    else Bank.get 0 s.ref.tcVr ((o - 0x140) / 4)

def State.refStore (s : State) (o : Nat) (v : Word) : State :=
  match o with
  | 0x00 => { s with ref := { s.ref with ctrl := v } }
  | 0x04 => { s with ref := { s.ref with src := v } }
  | 0x28 => { s with ref := { s.ref with rcSetLo := v } }
  | 0x2C => { s with ref := { s.ref with rcSetHi := v } }
  | 0x38 => { s with ref := { s.ref with encCfg := v } }
  | 0x3C => { s with ref := { s.ref with lineCfg := v } }
  | 0x40 => { s with ref := { s.ref with lineNom := v } }
  | 0x48 => { s with ref := { s.ref with outCfg := Bank.set s.ref.outCfg 0 v } }
  | 0x4C => { s with ref := { s.ref with outCfg := Bank.set s.ref.outCfg 1 v } }
  | 0x50 => { s with ref := { s.ref with outDiv := Bank.set s.ref.outDiv 0 v } }
  | 0x54 => { s with ref := { s.ref with outDiv := Bank.set s.ref.outDiv 1 v } }
  | 0x60 => { s with str := { s.str with ctrl := v } }
  | _ =>
    if o < 0x100 then s
    else if o < 0x140 then { s with ref := { s.ref with tcPt := Bank.set s.ref.tcPt ((o - 0x100) / 4) v } }
    else { s with ref := { s.ref with tcVr := Bank.set s.ref.tcVr ((o - 0x140) / 4) v } }

/-- What software has written to a register of an axis that a course lacks. -/
def Axis.stored (x : Axis) (o : Nat) : Word :=
  match o with
  | 0x00 => x.regs.ctrl
  | 0x08 => x.regs.posSetLo
  | 0x0C => x.regs.posSetHi
  | 0x40 => x.regs.blend
  | 0x44 => x.regs.qstop
  | 0x48 => x.regs.rev
  | 0x4C => x.regs.book
  | 0x58 => wd x.m.profSel
  | 0x80 => x.regs.cur
  | 0x84 => x.regs.comm
  | 0x88 => x.regs.chop
  | 0x8C => x.regs.decay
  | 0xA0 => x.regs.stallCfg
  | 0xA4 => x.regs.dispCfg
  | 0xA8 => x.regs.limit
  | 0xB0 => wd x.baseSel
  | 0xB4 => x.baseEntry x.baseSel
  | _ => if 0x60 ≤ o ∧ o ≤ 0x7C then x.m.selProf.word ((o - 0x60) / 4) else 0

/-- The bits of a baseline entry that are named (R242); the others read 0. -/
def baseMask (i : Nat) : Nat := if i < 260 then 0xFFFF else if i = 261 then 0x800300FF else 0xFFFFFFFF

/-- The profile word of a unit's selected slot is written; writing a slot ends the mark that SRAM_UE left on it (R487). -/
def Motion.setProfWord (m : Motion) (i : Nat) (v : Word) : Motion :=
  { m with profs := Bank.set m.profs m.profSel (m.selProf.setWord i v), profBad := m.profBad.filter fun k => decide (k ≠ m.profSel) }

def Axis.store (x : Axis) (o : Nat) (v : Word) : Axis :=
  match o with
  | 0x00 => { x with regs := { x.regs with ctrl := v } }
  | 0x08 => { x with regs := { x.regs with posSetLo := v } }
  | 0x0C => { x with regs := { x.regs with posSetHi := v } }
  | 0x40 => { x with regs := { x.regs with blend := v } }
  | 0x44 => { x with regs := { x.regs with qstop := v } }
  | 0x48 => { x with regs := { x.regs with rev := v } }
  | 0x4C => { x with regs := { x.regs with book := v } }
  | 0x58 => { x with m := { x.m with profSel := v.toNat } }
  | 0x80 => Axis.unarm { x with regs := { x.regs with cur := v } }
  | 0x84 => { x with regs := { x.regs with comm := v } }
  | 0x88 => Axis.unarm { x with regs := { x.regs with chop := v } }
  | 0x8C => Axis.unarm { x with regs := { x.regs with decay := v } }
  | 0xA0 => Axis.unarm { x with regs := { x.regs with stallCfg := v } }
  | 0xA4 => { x with regs := { x.regs with dispCfg := v } }
  | 0xA8 => { x with regs := { x.regs with limit := v } }
  | 0xB0 => { x with baseSel := v.toNat }
  | 0xB4 => Axis.unarm { x with base := Bank.set x.base x.baseSel (v &&& wd (baseMask x.baseSel)) }
  | _ => if 0x60 ≤ o ∧ o ≤ 0x7C then { x with m := x.m.setProfWord ((o - 0x60) / 4) v } else x

def Course.stored (x : Course) (o : Nat) : Word :=
  match o with
  | 0x00 => x.ctrl
  | 0x04 => x.memSel
  | 0x40 => x.blend
  | 0x44 => x.qstop
  | 0x48 => x.rev
  | 0x58 => wd x.m.profSel
  | _ => if 0x60 ≤ o ∧ o ≤ 0x7C then x.m.selProf.word ((o - 0x60) / 4) else 0

def Course.store (x : Course) (o : Nat) (v : Word) : Course :=
  match o with
  | 0x00 => { x with ctrl := v }
  | 0x04 => { x with memSel := v.toNat }
  | 0x40 => { x with blend := v }
  | 0x44 => { x with qstop := v }
  | 0x48 => { x with rev := v }
  | 0x58 => { x with m := { x.m with profSel := v.toNat } }
  | _ => if 0x60 ≤ o ∧ o ≤ 0x7C then { x with m := x.m.setProfWord ((o - 0x60) / 4) v } else x

def Leg.stored (x : Leg) (o : Nat) : Word :=
  match o with
  | 0x00 => wd x.mode
  | 0x04 => x.gd
  | 0x08 => x.prot
  | 0x0C => x.sol
  | 0x20 => x.ctl
  | 0x24 => wd (x.shadow.ph * 2 ^ 16 + x.shadow.per)
  | 0x28 => wd x.shadow.duty
  | 0x2C => wd (x.shadow.cmp1 * 2 ^ 16 + x.shadow.cmp0)
  | _ => 0

/-- Under a new NMAX a capacity that does not lie below it is no longer reported low (R288). -/
def GateSw.newMax (g : GateSw) (n : Nat) : GateSw := { g with capLow := g.capLow && decide (g.capacity < n) }

def Leg.store (x : Leg) (o : Nat) (v : Word) : Leg :=
  match o with
  | 0x00 => { x with mode := v.toNat }
  | 0x04 => { x with gd := v, hi := x.hi.newMax (fld v 24 4), lo := x.lo.newMax (fld v 24 4) }
  | 0x08 => { x with prot := v }
  | 0x0C => { x with sol := v }
  | 0x20 => { x with ctl := v }
  | 0x24 => { x with shadow := { x.shadow with per := fld v 0 16, ph := fld v 16 16 } }
  | 0x28 => { x with shadow := { x.shadow with duty := v.toNat } }
  | 0x2C => { x with shadow := { x.shadow with cmp0 := fld v 0 16, cmp1 := fld v 16 16 } }
  | _ => x

def Ring.stored (x : Ring) (o : Nat) : Word :=
  match o with
  | 0x00 => x.ctrl
  | 0x04 => x.scope
  | 0x08 => x.baseLo
  | 0x0C => x.baseHi
  | 0x10 => x.start
  | 0x14 => wd x.quota
  | _ => 0

def Ring.store (x : Ring) (o : Nat) (v : Word) : Ring :=
  match o with
  | 0x00 => { x with ctrl := v }
  | 0x04 => { x with scope := v }
  | 0x08 => { x with baseLo := v }
  | 0x0C => { x with baseHi := v }
  | 0x10 => { x with start := v }
  | 0x14 => { x with quota := v.toNat }
  | _ => x

def TWin.stored (x : TWin) (o : Nat) : Word :=
  match o with
  | 0x0 => x.baseLo
  | 0x4 => x.baseHi
  | 0x8 => x.size
  | _ => 0

def TWin.store (x : TWin) (o : Nat) (v : Word) : TWin :=
  match o with
  | 0x0 => { x with baseLo := v }
  | 0x4 => { x with baseHi := v }
  | 0x8 => { x with size := v }
  | _ => x

def HostB.stored (h : HostB) (o : Nat) : Word :=
  match o with
  | 0x00 => h.ctrl
  | 0x08 => h.irqCfg
  | 0x10 => h.winLo
  | 0x14 => h.winHi
  | 0x18 => h.winSize
  | _ => 0

def HostB.store (h : HostB) (o : Nat) (v : Word) : HostB :=
  match o with
  | 0x00 => { h with ctrl := v }
  | 0x08 => { h with irqCfg := v }
  | 0x10 => { h with winLo := v }
  | 0x14 => { h with winHi := v }
  | 0x18 => { h with winSize := v }
  | _ => h

/-- Half of a 64-bit map replaced. -/
def setHalf (b : BitVec 64) (j : Nat) (v : Word) : BitVec 64 :=
  BitVec.ofNat 64 (if j = 0 then b.toNat / 2 ^ 32 * 2 ^ 32 + v.toNat else b.toNat % 2 ^ 32 + v.toNat * 2 ^ 32)

def Inp.stored (i : Inp) (o : Nat) : Word :=
  match o with
  | 0x00 => i.ctrl
  | 0x08 => half i.filt 0
  | 0x0C => half i.filt 1
  | 0x10 => half i.safe 0
  | 0x14 => half i.safe 1
  | 0x18 => half i.safeAct 0
  | 0x1C => half i.safeAct 1
  | _ =>
    if 0x100 ≤ o ∧ o < 0x140 then i.stepCfgOf ((o - 0x100) / 4)
    else if 0x180 ≤ o ∧ o < 0x190 then i.encCfgOf ((o - 0x180) / 4)
    else if 0x1B0 ≤ o then i.lineCfgOf ((o - 0x1B0) / 4)
    else 0

def Inp.store (i : Inp) (o : Nat) (v : Word) : Inp :=
  match o with
  | 0x00 => { i with ctrl := v }
  | 0x08 => { i with filt := setHalf i.filt 0 v }
  | 0x0C => { i with filt := setHalf i.filt 1 v }
  | 0x10 => { i with safe := setHalf i.safe 0 v }
  | 0x14 => { i with safe := setHalf i.safe 1 v }
  | 0x18 => { i with safeAct := setHalf i.safeAct 0 v }
  | 0x1C => { i with safeAct := setHalf i.safeAct 1 v }
  | _ =>
    if 0x100 ≤ o ∧ o < 0x140 then { i with stepCfg := Bank.set i.stepCfg ((o - 0x100) / 4) v }
    else if 0x180 ≤ o ∧ o < 0x190 then { i with encCfg := Bank.set i.encCfg ((o - 0x180) / 4) v }
    else if 0x1B0 ≤ o then { i with lineCfg := Bank.set i.lineCfg ((o - 0x1B0) / 4) v }
    else i

/-- What the RW, W1 and WM fields of a register hold. -/
def State.stored (s : State) (l : Loc) : Word :=
  match l with
  | .glb 0x30 => s.glb.anchorLo
  | .glb 0x34 => s.glb.anchorHi
  | .glb 0x50 => bw s.glb.clkReturn 4
  | .glb _ => 0
  | .ref o => s.refStored o
  | .host o => s.host.stored o
  | .budget t => wd (Bank.get 0xFFFF s.host.budget t)
  | .twin w o => (s.twin w).stored o
  | .ring r o => (s.ring r).stored o
  | .flt 0x00 => s.flt.ctrl
  | .flt 0x08 => bw s.flt.level 0
  | .flt 0x0C => wd (s.flt.injUnit * 2 ^ 16 + s.flt.injTarget * 2 ^ 8)
  | .flt 0x10 => wd s.flt.sevSel
  | .flt 0x14 => wd (s.classOf s.flt.sevSel).code
  | .flt 0x20 => wd s.flt.histSel
  | .flt _ => 0
  | .thm 0x00 => s.thm.ctrl
  | .thm 0x04 => s.thm.cfg
  | .thm _ => 0
  | .spr 0x00 => s.spr.ctrl
  | .spr 0x28 => wd s.spr.wearSel
  | .spr _ => 0
  | .inp o => s.inp.stored o
  | .unit .axis n o => (s.axis n).stored o
  | .unit .course n o => (s.course n).stored o
  | .cam 0 => wd s.camAddr
  | .cam 4 => Memory.readWord s.cam s.camAddr
  | .cam _ => 0
  | .tile t 0x00 => (s.tile t).ctrl
  | .tile t 0x20 => (s.tile t).sup
  | .tile _ _ => 0
  | .leg t l o => (s.leg t l).stored o
  | .tbl w => s.tblWord (w / 64) (w % 64)
  | .cfg 0x08 => s.cfg.ref
  | .cfg 0x10 => s.cfg.lock
  | .cfg _ => 0

/-- The fields of a register take a value. -/
def State.store (s : State) (l : Loc) (v : Word) : State :=
  match l with
  | .glb 0x30 => { s with glb := { s.glb with anchorLo := v } }
  | .glb 0x34 => { s with glb := { s.glb with anchorHi := v } }
  | .glb 0x50 => { s with glb := { s.glb with clkReturn := bit v 4 } }
  | .glb _ => s
  | .ref o => s.refStore o v
  | .host o => { s with host := s.host.store o v }
  | .budget t => { s with host := { s.host with budget := Bank.set s.host.budget t v.toNat } }
  | .twin w o => s.setTwin w ((s.twin w).store o v)
  | .ring r o => s.updRing r fun x => x.store o v
  | .flt 0x00 => { s with flt := { s.flt with ctrl := v } }
  | .flt 0x08 => { s with flt := { s.flt with level := bit v 0 } }
  | .flt 0x0C => { s with flt := { s.flt with injUnit := fld v 16 16, injTarget := fld v 8 3 } }
  | .flt 0x10 => { s with flt := { s.flt with sevSel := v.toNat } }
  | .flt 0x14 =>
    match FClass.ofCode v.toNat with
    | some c => { s with flt := { s.flt with sev := Bank.set s.flt.sev s.flt.sevSel c } }
    | none => s
  | .flt 0x20 => { s with flt := { s.flt with histSel := v.toNat } }
  | .flt _ => s
  | .thm 0x00 => { s with thm := { s.thm with ctrl := v } }
  | .thm 0x04 => { s with thm := { s.thm with cfg := v } }
  | .thm _ => s
  | .spr 0x00 => s.updSpr fun p => { p with ctrl := v }
  | .spr 0x28 => s.updSpr fun p => { p with wearSel := v.toNat }
  | .spr _ => s
  | .inp o => { s with inp := s.inp.store o v }
  | .unit .axis n o => s.updAxis n fun x => x.store o v
  | .unit .course n o => s.updCourse n fun x => x.store o v
  | .cam 0 => { s with camAddr := v.toNat }
  | .cam 4 => { s with cam := Memory.writeWord s.cam s.camAddr v, camBad := s.camBad.filter fun a => decide (a ≠ s.camAddr) }
  | .cam _ => s
  | .tile t 0x00 => s.updTile t fun x => { x with ctrl := v }
  | .tile t 0x20 => s.updTile t fun x => { x with sup := v }
  | .tile _ _ => s
  | .leg t l o => s.updLeg t l fun x => x.store o v
  | .tbl w => { s with tbl := Bank.set s.tbl w v }
  | .cfg 0x08 => { s with cfg := { s.cfg with ref := v } }
  | .cfg 0x10 => { s with cfg := { s.cfg with lock := v, lockWritten := true } }
  | .cfg _ => s

/-- The value that a write gives the fields of a register: RW and W1 bits from the word, WM bits where the mask picks them. -/
def State.merged (s : State) (l : Loc) (v : Word) : Word :=
  let old := s.stored l
  if l.wmBits = 0 then (old &&& ~~~ wd l.rwMask) ||| (v &&& wd l.rwMask)
  else
    let m := (v >>> 16) &&& wd (2 ^ l.wmBits - 1)
    (old &&& ~~~ m) ||| (v &&& m)

/-! ### The configuration set (R446, R447) -/

/-- The bits of a register of the set that contribute (R446): its RW bits without its enable bit and without LEG_CTRL.MODE; 0 for a
register outside the set. -/
def Loc.setMask (l : Loc) : Nat :=
  match l with
  | .glb 0x50 => 0x10
  | .glb _ => 0
  | .ref 0x00 => 0x6
  | .ref o => refMask o
  | .flt 0x00 => 0x03FF0000
  | .flt 0x14 => 0x7
  | .flt _ => 0
  | .thm 0x04 => 0xFFFFFF00
  | .thm _ => 0
  | .spr 0x00 => 0x100
  | .spr _ => 0
  | .inp 0x00 => 0
  | .inp o => inpMask o
  | .unit .axis _ 0x00 => 0x2
  | .unit .axis _ o => if (0x60 ≤ o ∧ o ≤ 0x7C) ∨ o = 0xB4 then 0 else axisMask o
  | .unit .course _ 0x00 => 0x10
  | .unit .course _ o => if 0x60 ≤ o ∧ o ≤ 0x7C then 0 else courseMask o
  | .tile _ 0x20 => 0xFFFF
  | .tile _ _ => 0
  | .leg _ _ 0x00 => 0
  | .leg _ _ o => if o ≤ 0x0C then legMask o else 0
  | .tbl _ => 0xFFFFFFFF
  | .host _ => 0
  | .budget _ => 0
  | .twin _ _ => 0
  | .ring _ _ => 0
  | .cam _ => 0
  | .cfg _ => 0

/-- The registers of the set in ascending BAR0 offset but for FLT_SEV, in the blocks before it and behind it. -/
def setBefore (v : Variant) : List Loc :=
  [.glb 0x50, .ref 0x00, .ref 0x04, .ref 0x28, .ref 0x2C, .ref 0x38, .ref 0x3C, .ref 0x40, .ref 0x48, .ref 0x4C, .ref 0x50, .ref 0x54] ++
  (if v.ports = 0 then [] else [.ref 0x60]) ++
  (if v = .zm4812 then (List.range 32).map fun i => .ref (0x100 + 4 * i) else []) ++ [.flt 0x00]

def setInp (v : Variant) : List Loc :=
  let two := decide (32 < v.senses)
  [.inp 0x00] ++ ([0x08, 0x10, 0x18].flatMap fun o => if two then [.inp o, .inp (o + 4)] else [.inp o]) ++
  ((List.range v.pairs).map fun n => .inp (0x100 + 4 * n)) ++ ((List.range v.encoders).map fun n => .inp (0x180 + 4 * n)) ++
  ((List.range v.lines).map fun n => .inp (0x1B0 + 4 * n))

def setAxisOffs : List Nat := [0x00, 0x08, 0x0C, 0x40, 0x44, 0x48, 0x4C, 0x80, 0x84, 0x88, 0x8C, 0xA0, 0xA4, 0xA8]

def setAfter (v : Variant) : List Loc :=
  [.thm 0x00, .thm 0x04, .spr 0x00] ++ setInp v ++
  ((List.range v.axes).flatMap fun a => setAxisOffs.map fun o => .unit .axis a o) ++
  ((List.range v.courses).flatMap fun c => [0x00, 0x40, 0x44, 0x48].map fun o => .unit .course c o) ++
  ((List.range v.tiles).flatMap fun t =>
    [.tile t 0x00, .tile t 0x20] ++ (List.range 16).flatMap fun l => [0x00, 0x04, 0x08, 0x0C].map fun o => .leg t l o) ++
  (List.range 256).map .tbl

/-- CFG_SET_LEN (R446): FLT_SEV counts 1,024 words. -/
def setLen (v : Variant) : Nat := (setBefore v).length + 1024 + (setAfter v).length

/-- The contribution of a register to the set. -/
def State.contrib (s : State) (l : Loc) : Word := s.stored l &&& wd l.setMask

/-- FLT_SEV's word of a source (R446): its CLASS; 0 for an unassigned source. -/
def State.sevContrib (s : State) (n : Nat) : Word :=
  if (srcInfo s.variant n).isSome then wd (s.classOf n).code else 0

/-- The words of the set, as the CRC reads them (R446). -/
def State.setWords (s : State) : List Word :=
  (setBefore s.variant).map s.contrib ++ (List.range 1024).map s.sevContrib ++ (setAfter s.variant).map s.contrib

/-- The configuration CRC (R447). -/
def State.cfgCrc (s : State) : Word := crc32c s.setWords

end Sys2Proof.Machine
end

