-- ==== Sys2Proof/Machine/RegRead.lean ====
section
/-! DEFINITION. Reads of the register map: full reads with their side effects (R25, R69, R436, R437), narrow reads (R432), absent units
(R8), and the window of the cam pool (R184). -/

namespace Sys2Proof.Machine

/-! ### The NV slots as CFG reports them (R454, R455, R465) -/

def NvSlot.word (x : NvSlot) (i : Nat) : Word := x.image.getD i 0

/-- The CRC of an image: every word but word 3 (R454). -/
def imageCrc (ws : List Word) : Word := crc32c (ws.take 3 ++ ws.drop 4)

/-- A slot is valid (R455). -/
def NvSlot.valid (v : Variant) (x : NvSlot) : Bool :=
  decide (x.word 0 = 0x5A540001) && decide (32 ≤ (x.word 2).toNat) && decide ((x.word 2).toNat ≤ 28672) &&
  decide (x.word 3 = imageCrc (x.image.take ((x.word 2).toNat / 4))) && decide (fld (x.word 4) 16 16 = v.part) &&
  decide ((x.word 6).toNat = setLen v)

/-- The newer valid slot (R455): false is slot A, true slot B. -/
def State.nvNewer (s : State) : Option Bool :=
  let a := s.cfg.nvA.valid s.variant
  let b := s.cfg.nvB.valid s.variant
  if a && b then
    some (decide (s.cfg.nvA.word 1 ≠ s.cfg.nvB.word 1) && atOrAfter32 (s.cfg.nvB.word 1).toNat (s.cfg.nvA.word 1).toNat)
  else if a then some false
  else if b then some true
  else none

/-- The slot of a name. -/
def CfgB.slot (c : CfgB) (b : Bool) : NvSlot := if b then c.nvB else c.nvA

/-- A slot that a load has found valid, or that NV_COMMIT has written since (R453, R465). -/
def State.nvKnown (s : State) (b : Bool) : Bool := s.cfg.nvSeen && (s.cfg.slot b).valid s.variant

/-- CFG_NV_STAT (R465). -/
def State.nvStat (s : State) : Word :=
  wd (b2n (s.nvKnown false) * 2 ^ 31 + b2n (s.nvKnown true) * 2 ^ 30 + s.cfg.loaded * 2 ^ 28 +
    b2n s.cfg.nvWrite.isSome * 2 ^ 27 + b2n s.nvBlock * 2 ^ 26 +
    (match if s.cfg.nvSeen then s.nvNewer else none with
     | some b => ((s.cfg.slot b).word 2).toNat
     | none => 0))

/-- CFG_STAT (R463). -/
def CfgB.stat (c : CfgB) : Word :=
  wd (b2n c.committed * 2 ^ 15 + b2n c.commitPend * 2 ^ 14 + b2n c.crcOk * 2 ^ 13 + b2n c.crcErr * 2 ^ 12 + fld c.flags 1 5 * 2)

/-! ### What a register reads -/

/-- The GLB block (R3 to R7, R52, R459). -/
def State.glbRead (s : State) (o : Nat) : Word :=
  let v := s.variant
  match o with
  | 0x00 => wd (v.part * 2 ^ 16 + 0xB0)
  | 0x04 => wd (v.axes * 2 ^ 24 + v.legs * 2 ^ 16 + v.rings * 2 ^ 8 + v.tiles * 2 ^ 4 + v.mibs)
  | 0x08 => wd (v.courses * 2 ^ 24 + v.pairs * 2 ^ 16 + v.encoders * 2 ^ 12 + v.lines * 2 ^ 8 + v.senses)
  | 0x0C => wd (2 * v.axes * 2 ^ 24 + v.tiles * 2 ^ 16 + 3 * 2 ^ 12 + 1 * 2 ^ 8 + v.spareSlots * 2 ^ 4)
  | 0x10 => wd (v.pick 0 1 2 * 2 ^ 16 + v.windows * 2 ^ 8 + v.pick 1 0 0 * 2 ^ 4 + v.pick 1 1 0 * 2 ^ 3 + v.ports * 2 + v.pick 1 0 0)
  | 0x20 => s.modeWord s.settling
  | 0x40 => s.glb.acc
  | 0x44 => s.glb.accAddr
  | 0x50 => s.glbClk
  | _ => 0

/-- The REF block (R69, R71, R112, R120, R121): RC_HI, DT_HI and the SNAP pair read their shadows. -/
def State.refRead (s : State) (o : Nat) : Word :=
  match o with
  | 0x08 => s.refStat
  | 0x10 => wd s.ref.rc64
  | 0x14 => wd (s.ref.rc64 / 2 ^ 32)
  | 0x18 => wd s.dt
  | 0x1C => wd (s.dt / 2 ^ 32)
  | 0x20 => Bank.get 0 s.shadows 0x1020
  | 0x24 => Bank.get 0 s.shadows 0x1024
  | 0x30 => s.ref.rate
  | 0x34 => wd s.ref.phase
  | 0x64 => s.str.stat
  | 0x68 => wd s.str.dly
  | 0x6C => wd (s.str.missCnt * 2 ^ 16 + s.str.discCnt)
  | 0x70 => s.str.err
  | _ => s.refStored o

/-- The HOST block (R399 to R403). -/
def State.ringRead (s : State) (r o : Nat) : Word :=
  let x := s.ring r
  match o with
  | 0x14 => wd (x.credit * 2 ^ 16 + x.quota)
  | 0x18 => x.stat
  | 0x1C => wd x.ci
  | _ => x.stored o

def State.hostRead (s : State) (o : Nat) : Word :=
  match o with
  | 0x04 => s.host.stat
  | 0x0C => wd s.host.dbMiss
  | _ => s.host.stored o

/-- The THM, SPR and INP blocks (R345, R356, R498). -/
def State.thmRead (s : State) (o : Nat) : Word :=
  match o with
  | 0x00 => s.thm.ctrl
  | 0x04 => s.thm.cfg
  | 0x08 => iwd (s.thm.dieT % 65536)
  | 0x10 => s.thmStat
  | 0x14 => s.thmLvl
  | 0x18 => s.thmBroken
  | _ =>
    if o < 0x80 then iwd ((s.thmTile ((o - 0x40) / 4)).temp % 65536)
    else iwd ((s.thmTile ((o - 0x80) / 4)).s1 % 65536 * 65536 + (s.thmTile ((o - 0x80) / 4)).s0 % 65536)

def State.sprRead (s : State) (o : Nat) : Word :=
  match o with
  | 0x00 => s.spr.ctrl
  | 0x04 => s.sprStat
  | 0x08 => s.sprCore
  | 0x0C => s.sprMin
  | 0x10 => s.spr.voterWord
  | 0x14 => s.spr.runWord
  | 0x18 => wd s.runPendMap
  | 0x1C => wd (s.runPendMap / 2 ^ 32)
  | 0x20 => s.sprSram
  | 0x28 => wd s.spr.wearSel
  | 0x2C => wd (Bank.get 0 s.spr.wear s.spr.wearSel)
  | _ => 0

def State.inpRead (s : State) (o : Nat) : Word :=
  let j := o / 4 % 2
  if 0x20 ≤ o ∧ o < 0x28 then half (s.senseMap (s.inp.lvl &&& s.inp.known)) j
  else if 0x28 ≤ o ∧ o < 0x30 then half (s.senseMap s.inp.known) j
  else if 0x30 ≤ o ∧ o < 0x38 then half s.inp.edge (b2n (decide (o = 0x34)))
  else if 0x40 ≤ o ∧ o < 0x48 then half s.inp.latch (b2n (decide (o = 0x44)))
  else if 0x140 ≤ o ∧ o < 0x180 then Bank.get 0 s.inp.stepCnt ((o - 0x140) / 4)
  else if 0x190 ≤ o ∧ o < 0x1A0 then Bank.get 0 s.inp.encCnt ((o - 0x190) / 4)
  else if 0x1A0 ≤ o ∧ o < 0x1B0 then Bank.get 0 s.inp.encIdx ((o - 0x1A0) / 4)
  else s.inp.stored o

/-- The FLT block (R460, R461). -/
def State.fltRead (s : State) (o : Nat) : Word :=
  match o with
  | 0x00 => s.flt.ctrl
  | 0x04 => s.flt.stat
  | 0x08 => wd (b2n s.nfault * 2 ^ 31 + b2n s.flt.level)
  | 0x0C => wd (s.flt.injUnit * 2 ^ 16 + s.flt.injTarget * 2 ^ 8 + b2n s.flt.injArmed * 2)
  | 0x10 => wd s.flt.sevSel
  | 0x14 => s.sevWord s.flt.sevSel
  | 0x20 => wd s.flt.histSel
  | _ => if 0x40 ≤ o ∧ o < 0x6C then s.flt.latch.getD ((o - 0x40) / 4) 0 else 0

/-- The registers that an axis and a course share (R162, R181). -/
def Motion.read (m : Motion) (o : Nat) : Word :=
  let tgt := if m.mode = .velocity then m.pos else m.tgt
  match o with
  | 0x18 => posLo m.pos
  | 0x1C => posHi m.pos
  | 0x20 => posLo tgt
  | 0x24 => posHi tgt
  | 0x28 => (retWords m.ret).1
  | 0x2C => (retWords m.ret).2
  | 0x30 => wd (m.v.natAbs / 2 ^ 16)
  | _ => 0

/-- Registers that only the motion answers. -/
def motionRead (o : Nat) : Bool := decide (0x18 ≤ o) && decide (o ≤ 0x30)

/-- The AX block (R162, R163, R232, R271): POS_SET_HI bits 31:16 read as copies of bit 15 (R15). -/
def State.axisRead (s : State) (a o : Nat) : Word :=
  let x := s.axis a
  if motionRead o then x.m.read o
  else
    match o with
    | 0x0C => iwd (signed 16 x.regs.posSetHi.toNat)
    | 0x10 => s.axStat a
    | 0x90 => wd (x.liveTbl * 2 ^ 12 + x.liveRun)
    | 0x94 => x.coilWord
    | 0x98 => x.angleWord
    | 0x9C => wd (x.coilB.ton * 2 ^ 16 + x.coilA.ton)
    | 0xAC => s.stallStat a
    | 0xB8 => wd (x.watch.b.shift * 2 ^ 8 + x.watch.a.shift)
    | _ => x.stored o

/-- The CRS block (R181 to R183). -/
def State.courseRead (s : State) (c o : Nat) : Word :=
  let x := s.course c
  let mb := x.member x.memSel
  match o with
  | 0x08 => mb.info
  | 0x0C => mb.paramWord
  | 0x10 => s.crsStat c
  | 0x14 => s.crsLevel c
  | 0x34 => posLo (mb.offset / 2 ^ 32)
  | 0x38 => posHi (mb.offset / 2 ^ 32)
  | _ => if motionRead o then x.m.read o else x.stored o

/-- The TILE block and its legs (R235, R238, R319, R359). -/
def State.tileRead (s : State) (t o : Nat) : Word :=
  let x := s.tile t
  match o with
  | 0x00 => x.ctrl
  | 0x10 => x.stat
  | 0x20 => x.sup
  | 0x40 => wd (x.vgCode * 2 ^ 16 + x.vmCode)
  | 0x44 => wd x.drop
  | 0x50 => s.cmpStat t
  | 0x54 => wd x.misCnt
  | _ => 0

def State.legRead (s : State) (t l o : Nat) : Word :=
  let x := s.leg t l
  match o with
  | 0x10 => s.legStat t l
  | 0x14 => x.hi.segWord x.hiz
  | 0x18 => x.lo.segWord x.hiz
  | 0x1C => x.tswWord
  | 0x30 => x.pwmStat
  | 0x34 => x.res
  | _ => x.stored o

/-- The CFG block (R463 to R465). -/
def State.cfgRead (s : State) (o : Nat) : Word :=
  match o with
  | 0x00 => s.cfg.stat
  | 0x08 => s.cfg.ref
  | 0x0C => s.cfg.run
  | 0x10 => s.cfg.lock
  | 0x14 => wd (setLen s.variant)
  | 0x20 => s.nvStat
  | 0x24 => if s.nvKnown false then s.cfg.nvA.word 1 else 0
  | 0x28 => if s.nvKnown true then s.cfg.nvB.word 1 else 0
  | 0x2C => if s.cfg.nvSeen then wd (min 0xFFFF s.cfg.nvB.erases * 2 ^ 16 + min 0xFFFF s.cfg.nvA.erases) else 0
  | _ => 0

/-- The present contents of a register, shadows apart; write-only fields read 0 (R25). -/
def State.readLoc (s : State) (l : Loc) : Word :=
  match l with
  | .glb 0x30 => s.glb.anchorLo
  | .glb 0x34 => s.glb.anchorHi
  | .glb o => s.glbRead o
  | .ref o => s.refRead o
  | .host o => s.hostRead o
  | .budget t => wd (s.usedField t * 2 ^ 16 + Bank.get 0xFFFF s.host.budget t)
  | .twin w 0xC => bw (s.twin w).busy.isSome 0
  | .twin w o => (s.twin w).stored o
  | .ring r o => s.ringRead r o
  | .flt o => s.fltRead o
  | .thm o => s.thmRead o
  | .spr o => s.sprRead o
  | .inp o => s.inpRead o
  | .unit .axis a o => s.axisRead a o
  | .unit .course c o => s.courseRead c o
  | .cam 8 => wd s.variant.camWords
  | .cam o => s.stored (.cam o)
  | .tile t o => s.tileRead t o
  | .leg t l o => s.legRead t l o
  | .tbl w => s.tblWord (w / 64) (w % 64)
  | .cfg o => s.cfgRead o

/-! ### _LO and _HI pairs (R69, R436) -/

/-- The offset of the _HI register of a _LO register, REF_RC and REF_SNAP_DT apart. -/
def Loc.isLo (l : Loc) : Bool :=
  match l with
  | .glb 0x30 => true
  | .ref 0x18 => true
  | .ref 0x28 => true
  | .host 0x10 => true
  | .twin _ 0x0 => true
  | .ring _ 0x08 => true
  | .spr 0x18 => true
  | .unit .axis _ 0x08 => true
  | .unit _ _ 0x18 => true
  | .unit _ _ 0x20 => true
  | .unit _ _ 0x28 => true
  | .unit .course _ 0x34 => true
  | _ => false

/-- A _HI register of such a pair: it reads the shadow. -/
def State.isHi (s : State) (off : Nat) : Bool :=
  decide (4 ≤ off) && (match locOf s.variant (off - 4) with
  | some l => l.isLo || decide (l = .ref 0x10)
  | none => false)

/-- What a register at an offset holds (R436): a _HI register its shadow, kept under the offset of its _LO. -/
def State.held (s : State) (off : Nat) : Word :=
  match locOf s.variant off with
  | none => 0
  | some l => if s.isHi off then Bank.get 0 s.shadows (off - 4) else s.readLoc l

/-- What a read of a register returns: before boot completes, what the register holds at reset (R544). -/
def State.value (s : State) (off : Nat) : Word := if s.bootDone then s.held off else ({ State.reset with variant := s.variant }).held off

/-! ### What a full read clears or latches (R25, R437) -/

def clearWord (w : Word) (lo n : Nat) : Word := setFld w lo n 0

/-- The ROC fields of a register return to their reset value. -/
def State.clearRoc (s : State) (l : Loc) : State :=
  match l with
  | .glb 0x40 => { s with glb := { s.glb with acc := 0 } }
  | .ref 0x08 => { s with ref := { s.ref with flags := 0 } }
  | .ref 0x64 => { s with str := { s.str with flags := 0 } }
  | .ref 0x6C => { s with str := { s.str with missCnt := 0, discCnt := 0 } }
  | .host 0x04 => { s with host := { s.host with flags := 0 } }
  | .host 0x0C => { s with host := { s.host with dbMiss := 0 } }
  | .ring r 0x18 => s.updRing r fun x => { x with flags := 0 }
  | .flt 0x04 => { s with flt := { s.flt with flags := 0 } }
  | .thm 0x10 => { s with thm := { s.thm with flags := 0 } }
  | .spr 0x04 => s.updSpr fun p => { p with flags := 0 }
  | .inp 0x30 => { s with inp := { s.inp with edge := setHalf s.inp.edge 0 0 } }
  | .inp 0x34 => { s with inp := { s.inp with edge := setHalf s.inp.edge 1 0 } }
  | .unit .axis a 0x10 => s.updAxis a fun x => { x with m := { x.m with wrapped := false } }
  | .unit .axis a 0xAC => s.updAxis a fun x => { x with stall := { x.stall with flags := 0 } }
  | .unit .course c 0x10 => s.updCourse c fun x => { x with memFlt := false, m := { x.m with wrapped := false } }
  | .tile t 0x10 => s.updTile t fun x => { x with flags := 0 }
  | .tile t 0x44 => s.updTile t fun x => { x with drop := 0 }
  | .tile t 0x54 => s.updTile t fun x => { x with misCnt := 0 }
  | .leg t k 0x10 => s.updLeg t k fun x => { x with flags := 0 }
  | .leg t k 0x30 => s.updLeg t k fun x => { x with skipCnt := 0, adcDrop := false, clamp := false }
  | .leg t k 0x34 => s.updLeg t k fun x => { x with res := clearWord (clearWord x.res 31 1) 15 1 }
  | .cfg 0x00 => { s with cfg := { s.cfg with flags := 0 } }
  | _ => s

/-- A full read of a _LO register latches the shadow of its pair; REF_RC_LO latches the DT as well. -/
def State.latchShadow (s : State) (off : Nat) (l : Loc) : State :=
  if l = .ref 0x10 then
    { s with shadows := Bank.set (Bank.set (Bank.set s.shadows 0x1010 (s.readLoc (.ref 0x14))) 0x1020 (wd s.dt)) 0x1024 (wd (s.dt / 2 ^ 32)) }
  else if l.isLo then
    match locOf s.variant (off + 4) with
    | some h => { s with shadows := Bank.set s.shadows off (s.readLoc h) }
    | none => s
  else s

/-- The address of the cam pool after an access to CRS_CAM_DATA (R184). -/
def State.camNext (s : State) : State := { s with camAddr := (s.camAddr + 1) % s.variant.camWords }

/-- A full read; the MSI-X structures follow their own rules (R365). Before boot completes it only returns a reset value (R544). -/
def State.fullRead (s : State) (off : Nat) : State :=
  if msixOff off then { s with rdata := s.host.msixRead off }
  else
    match locOf s.variant off with
    | none => { s with rdata := 0 }
    | some l =>
      let r := { s with rdata := s.value off }
      if s.bootDone then
        let s' := (r.latchShadow off l).clearRoc l
        if l = .cam 4 then s'.camNext else s'
      else r

/-- GLB_ACC and GLB_ACC_ADDR note an access (R459). -/
def State.noteAccess (s : State) (bitNo kind off : Nat) : State :=
  { s with glb := { s.glb with acc := s.glb.acc ||| bw true bitNo, accAddr := wd (kind * 2 ^ 30 + off % 2 ^ 18) } }

/-- The bytes of a word that a narrow access enables. -/
def byteMask (be : BitVec 4) : Word := wd ((List.range 4).foldl (fun m i => m + (if be.getLsbD i then 255 * 256 ^ i else 0)) 0)

/-- A narrow read (R432). -/
def State.narrowRead (s : State) (off : Nat) (be : BitVec 4) : State :=
  if be = 15 then s.fullRead off
  else if be = 0 then { s with rdata := 0 }
  else if msixOff off then { s with rdata := s.host.msixRead off &&& byteMask be }
  else
    let r := { s with rdata := s.value off &&& byteMask be }
    if s.bootDone then r.noteAccess 0 1 off else r

/-! ### Requests (R431, R434, R435) -/

/-- The words that `n` bytes from a byte address on touch, in ascending order. -/
def touched (addr n : Nat) : List Nat := (List.range ((addr % 4 + n + 3) / 4)).map fun i => addr / 4 * 4 + 4 * i

/-- The byte enables of the word at an offset under a request from `addr` on. -/
def enabled (addr : Nat) (en : List Bool) (off : Nat) : BitVec 4 :=
  BitVec.ofNat 4 (((List.range 4).map fun i => b2n (decide (addr ≤ off + i) && en.getD (off + i - addr) false) * 2 ^ i).sum)

/-- A read request to BAR0 from a byte address on, with its byte enables: its words are read in ascending order, full or narrow. What a request of
several words returns goes out as a whole, and the last of them is left as the word read. -/
def State.readRequest (s : State) (addr : Nat) (en : List Bool) : State :=
  let r := (touched addr en.length).foldl (fun (q : State × List Word) w =>
    let t := q.1.narrowRead w (enabled addr en w)
    (t, q.2 ++ [t.rdata])) (s, [])
  if 1 < r.2.length then { r.1 with out := r.1.out ++ [.readData r.2] } else r.1

/-! ### The commands that read -/

/-- REF_RC_LO_READ (R69). -/
def execRefRcLoRead (s : State) : Answer := s.command fun s => s.fullRead 0x1010

/-- LO_REGISTER_READ (R436). -/
def execLoRegisterRead (off : Nat) (s : State) : Answer := s.command fun s => s.fullRead off

/-- ROC_READ (R437). -/
def execRocRead (off : Nat) (s : State) : Answer := s.command fun s => s.fullRead off

/-- NARROW_READ (R432). -/
def execNarrowRead (addr : Nat) (en : List Bool) (s : State) : Answer := s.command fun s => s.readRequest addr en

end Sys2Proof.Machine
end

