-- ==== Sys2Proof/Machine/RegCheck.lean ====
section
/-! DEFINITION. How a full write is judged (R441): locks (R439, R440, R442 to R445), ranges, and the conditions of the owning chapters. -/

namespace Sys2Proof.Machine

/-! ### Locks -/

/-- The fields of a register that CFG_LOCK holds (R440, R464): CFGSET the set's fields and CFG_CRC_REF, SPR the policy, SEV the classes and the
pulse width. -/
def State.heldMask (s : State) (l : Loc) : Nat :=
  let cfgset := if bit s.cfg.lock 2 then (if l = .cfg 0x08 then 0xFFFFFFFF else l.setMask) else 0
  let spr := if bit s.cfg.lock 1 ∧ l = .spr 0x00 then 0x101 else 0
  let sev := if bit s.cfg.lock 0 then (if l = .flt 0x14 then 0x7 else if l = .flt 0x00 then 0x03FF0000 else 0) else 0
  cfgset ||| spr ||| sev

/-- A unit is effectively enabled (R442): its enable bit reads 1, or has been cleared since the last period boundary; in Configure no
unit is (R49). -/
def State.effective (s : State) (ctrl : Word) (off : Nat) : Bool :=
  decide (s.glb.mode ≠ .configure) && (bit ctrl 0 || decide (off ∈ s.cfg.clearing))

def State.refOn (s : State) : Bool := s.effective s.ref.ctrl 0x1000
def State.hostOn (s : State) : Bool := s.effective s.host.ctrl 0x2000
def State.fltOn (s : State) : Bool := s.effective s.flt.ctrl 0x3000
def State.thmOn (s : State) : Bool := s.effective s.thm.ctrl 0x4000
def State.sprOn (s : State) : Bool := s.effective s.spr.ctrl 0x5000
def State.inpOn (s : State) : Bool := s.effective s.inp.ctrl 0x6000
def State.axisOn (s : State) (a : Nat) : Bool := s.effective (s.axis a).regs.ctrl (unitOff .axis a)
def State.courseOn (s : State) (c : Nat) : Bool := s.effective (s.course c).ctrl (unitOff .course c)
def State.tileOn (s : State) (t : Nat) : Bool := s.effective (s.tile t).ctrl (tileOff t)

/-- An enabled axis uses a table slot (R200). -/
def State.tblUsed (s : State) (k : Nat) : Bool :=
  s.listedAxes.any fun a => s.axisOn a && (decide (fld (s.axis a).regs.cur 12 2 = k) || decide ((s.axis a).liveTbl = k))

/-- The bits that a write changes. -/
def changes (old new : Word) (m : Nat) : Bool := decide ((old ^^^ new) &&& wd m ≠ 0)

/-- The enable lock, or the state of the owner, discards a write (R442, R444; R200, R371, R399). -/
def State.lockHolds (s : State) (l : Loc) (old new : Word) : Bool :=
  match l with
  | .glb 0x30 => decide (s.glb.mode ≠ .sealed ∧ s.glb.mode ≠ .configure)
  | .glb 0x34 => decide (s.glb.mode ≠ .sealed ∧ s.glb.mode ≠ .configure)
  | .glb 0x50 => decide (s.glb.mode ≠ .sealed ∧ s.glb.mode ≠ .configure)
  | .glb _ => false
  | .ref 0x00 => s.refOn && changes old new 0x6
  | .ref o => s.refOn && decide (refMask o ≠ 0)
  | .host 0x00 => false
  | .host _ => s.hostOn && changes old new 0xFFFFFFFF
  | .budget _ => false
  | .twin _ _ => false
  | .ring r 0x00 => decide ((s.ring r).state ≠ .off) && changes old new 0x00F01F00
  | .ring _ 0x14 => false
  | .ring r _ => decide ((s.ring r).state ≠ .off) && changes old new 0xFFFFFFFF
  | .flt 0x00 => s.fltOn && changes old new 0x03FF0000
  | .flt 0x14 => s.fltOn
  | .flt _ => false
  | .thm 0x04 => s.thmOn
  | .thm _ => false
  | .spr 0x00 => s.sprOn && changes old new 0x100
  | .spr _ => false
  | .inp 0x00 => false
  | .inp o => s.inpOn && decide (inpMask o ≠ 0)
  | .unit .axis a 0x00 => s.axisOn a && changes old new 0x2
  | .unit .axis a o => s.axisOn a && decide (axisMask o ≠ 0)
  | .unit .course c 0x00 => s.courseOn c && changes old new 0x10
  | .unit .course c o => s.courseOn c && decide (courseMask o ≠ 0)
  | .cam _ => false
  | .tile t 0x20 => s.tileOn t
  | .tile _ _ => false
  | .leg t _ o => s.tileOn t && decide (o = 0x04 ∨ o = 0x08 ∨ o = 0x0C)
  | .tbl w => s.tblUsed (w / 64)
  | .cfg _ => false

/-! ### Ranges and conditions -/

/-- What becomes of a write (R441). -/
inductive Verdict where
  | ok
  | absent
  | locked
  | viol
  | bad (src : Nat)
deriving DecidableEq, Repr

/-- The first check that fails decides. -/
def verdict : List (Bool × Verdict) → Verdict
  | [] => .ok
  | (b, v) :: r => if b then v else verdict r

/-- A number lies outside a range. -/
def outside (n lo hi : Nat) : Bool := decide (n < lo) || decide (hi < n)

/-- The REF block (R79 to R83, R93, R111, R118, R120). -/
def State.refBad (s : State) (o : Nat) (old v : Word) : Verdict :=
  let bad := Verdict.bad srcRefCfgBad
  match o with
  | 0x00 =>
    let en := bit v 0
    let role := fld s.str.ctrl 0 2
    let src := fld s.ref.src 0 4
    verdict [(bit v 1 && decide (s.variant ≠ .zm4812), .absent),
             (bit old 0 && !en && decide (s.glb.mode ≠ .configure), .bad srcRefEnBusy),
             (en && ((decide (role = 2) && decide (src ≠ 3)) || (decide (role = 1) && decide (src = 3))), bad),
             (bit v 1 && !s.ref.tcRises, bad)]
  | 0x04 =>
    let src := fld v 0 4
    let idx := fld v 4 4
    verdict [(decide (3 < src), bad), (decide (src = 0 ∨ src = 3) && decide (idx ≠ 0), bad),
             (decide (src = 1) && decide (3 < idx), bad), (decide (src = 2) && decide (1 < idx), bad),
             (decide (src = 1) && decide (s.variant.encoders ≤ idx), .absent), (decide (src = 2) && decide (s.variant.lines ≤ idx), .absent),
             (decide (src = 3) && decide (s.variant.ports = 0), .absent)]
  | 0x3C => verdict [(decide (fld v 8 8 = 0), bad), (decide (fld v 4 2 = 3), bad)]
  | 0x40 => verdict [(outside (fld v 0 24) 200 1000000, bad)]
  | 0x48 => verdict [(decide (fld v 16 16 = 0), bad), (decide (4 < fld v 0 3), bad)]
  | 0x4C => verdict [(decide (fld v 16 16 = 0), bad), (decide (4 < fld v 0 3), bad)]
  | 0x50 => verdict [(decide (fld v 0 24 = 0), bad)]
  | 0x54 => verdict [(decide (fld v 0 24 = 0), bad)]
  | 0x60 =>
    verdict [(decide (fld v 8 8 = 0), bad), (decide (fld v 6 2 = 3), bad), (decide (fld v 0 2 = 3), bad),
             (decide (fld v 0 2 = 1) && decide (s.variant ≠ .zm4812), bad), (bit v 3 && decide (s.variant.ports < 2), .absent)]
  | _ => .ok

/-- The HOST block (R369, R394, R399). -/
def State.hostBad (s : State) (o : Nat) (v : Word) : Verdict :=
  let bad := Verdict.bad srcHostCfgBad
  match o with
  | 0x00 =>
    verdict [(bit v 0 && !s.host.winOk, bad),
             (!bit v 0 && (s.host.rings.any (fun p => decide (p.2.state ≠ .off)) || s.host.twins.any (fun p => p.2.busy.isSome)),
               .bad srcHostEnBusy)]
  | 0x08 => verdict [(decide (5 < fld v 0 4), bad)]
  | 0x18 => verdict [(decide (fld v 0 6 ≠ 0) && outside (fld v 0 6) 20 34, bad)]
  | _ => .ok

/-- A table window (R394). -/
def State.twinBad (s : State) (w o : Nat) (v : Word) : Verdict :=
  let x := s.twin w
  let bad := Verdict.bad srcHostCfgBad
  match o with
  | 0x0 => verdict [(x.busy.isSome, .bad srcTwinBusy), (decide (x.size ≠ 0), bad)]
  | 0x4 => verdict [(x.busy.isSome, .bad srcTwinBusy), (decide (x.size ≠ 0), bad)]
  | 0x8 =>
    verdict [(x.busy.isSome, .bad srcTwinBusy), (decide (262144 < fld v 0 19), bad),
             (decide (fld v 0 19 ≠ 0) && !s.host.withinWindow x.base (4096 * fld v 0 19), bad)]
  | _ => .ok

/-- A ring's scope (R10, R402): an INDEX above the count of its kind names an absent unit; a service ring has INDEX 0. -/
def State.scopeBad (s : State) (v : Word) : Verdict :=
  let bad := Verdict.bad srcHostCfgBad
  let i := fld v 8 6
  match fld v 0 2 with
  | 0 => verdict [(decide (i ≠ 0), bad)]
  | 1 => verdict [(decide (s.variant.axes ≤ i), .absent)]
  | 2 => verdict [(decide (s.variant.courses ≤ i), .absent)]
  | _ => verdict [(decide (s.variant.tiles ≤ i), .absent), (decide (fld v 16 16 = 0), bad)]

/-- A ring (R380, R389, R401): every write of EN = 1 to a ring that is OFF is judged by R380, also where EN reads 1 already. -/
def State.ringBad (s : State) (r o : Nat) (old v : Word) : Verdict :=
  let x := s.ring r
  let bad := Verdict.bad srcHostCfgBad
  match o with
  | 0x00 =>
    let log := fld v 8 5
    let enables := bit v 0 && decide (x.state = .off)
    verdict [(decide (fld v 20 4 = 15), bad), (decide (log ≠ 0) && outside log 4 20, bad), (bit v 0 && decide (log = 0), bad),
             (bit v 0 && !bit old 0 && decide (x.state ≠ .off), bad),
             (enables && !(s.host.enabled && s.host.inWindow x.base (32 * 2 ^ log)), bad),
             (enables && decide (s.scopeBad x.scope ≠ .ok), bad)]
  | 0x04 => s.scopeBad v
  | 0x14 => verdict [(decide (16384 < fld v 0 16), bad)]
  | _ => .ok

/-- An injection names a checker (R10, R522, R523). -/
def State.injBad (s : State) (v : Word) : Verdict :=
  let bad := Verdict.bad srcFltCfgBad
  let u := fld v 16 16
  match fld v 8 3 with
  | 0 => verdict [(decide (u % 256 > 1) || decide (u / 512 ≠ 0), bad), (decide (s.variant.mibs ≤ u % 2), .absent)]
  | 1 => verdict [(decide (u % 16 > 2) || decide (u / 32 ≠ 0), bad)]
  | 2 => verdict [(decide (u ≠ 0), bad)]
  | 3 => verdict [(decide (2 < u), bad)]
  | 4 => verdict [(decide (1 < u), bad), (decide (s.variant.ports ≤ u), .absent)]
  | _ => bad

/-- The FLT block (R460, R461, R511, R522). -/
def State.fltBad (s : State) (o : Nat) (raw v : Word) : Verdict :=
  let bad := Verdict.bad srcFltCfgBad
  match o with
  | 0x00 => verdict [(outside (fld v 16 10) 1 1000, bad)]
  | 0x0C => if s.flt.injArmed then verdict [(bit raw 0, bad)] else s.injBad v
  | 0x14 =>
    match FClass.ofCode (fld v 0 3) with
    | some c => verdict [(!sevAllowed s.variant s.flt.sevSel c, bad)]
    | none => bad
  | _ => .ok

/-- The THM, SPR and INP blocks (R10, R345, R357, R495). -/
def thmBad (o : Nat) (v : Word) : Verdict :=
  if o = 0x04 then
    verdict [(outside (fld v 24 8) 1 100 || outside (fld v 16 8) 100 140 || outside (fld v 8 8) 85 125 ||
      decide (fld v 16 8 < fld v 8 8 + 5), .bad srcThmCfgBad)]
  else .ok

def State.inpBad (s : State) (o : Nat) (raw v : Word) : Verdict :=
  let past (w : Word) : Bool := decide (w.toNat / 2 ^ (s.variant.senses - 32 * (o / 4 % 2)) ≠ 0)
  if decide (0x08 ≤ o) && decide (o < 0x20) then verdict [(past v, .absent)]
  else if o = 0x48 ∨ o = 0x4C then verdict [(past raw, .absent)]
  else if 0x1B0 ≤ o then verdict [(decide (fld v 8 8 = 0), .bad srcInpCfgBad)]
  else .ok

/-- A limit of AX_LIMIT (R258). -/
def State.limitBad (s : State) (v : Word) (neg : Bool) : Verdict :=
  let i := limitIn v neg
  verdict [(limitEn v neg && decide (s.variant.senses ≤ i), .absent), (limitEn v neg && s.inp.taken i, .bad srcAxCfgBad)]

/-- The range of a word of a profile by its place (R122): V1 lies from VSTART to VMAX of its slot, and VSTOP is at most V1. -/
def Profile.wordBad (p : Profile) (i : Nat) (v : Word) : Bool :=
  let n := v.toNat
  match i with
  | 0 => outside n 0x100 0xFFFF
  | 2 => outside n p.vstart.toNat p.vmax.toNat
  | 4 => outside n 0x100 0x400000
  | 7 => outside n 0x100 0xFFFF || decide (p.v1.toNat < n)
  | _ => decide (n = 0)

/-- The ranges that an axis and a course share (R162, R181). -/
def Motion.regBad (m : Motion) (o : Nat) (v : Word) : Bool :=
  match o with
  | 0x40 => decide (0x00400000 < v.toNat)
  | 0x44 => decide (v = 0)
  | 0x48 => decide (10000 < fld v 0 16)
  | _ => decide (0x60 ≤ o ∧ o ≤ 0x7C) && (Bank.get Profile.reset m.profs m.profSel).wordBad ((o - 0x60) / 4) v

/-- The legs of an axis slot are free (R64). -/
def State.slotFree (s : State) (a : Nat) : Bool := (axisLegs a).all fun l => decide ((s.leg (axisTile a) l).mode = 0)

/-- The AX block (R64, R162, R180, R232, R244, R258, R271). -/
def State.axisBad (s : State) (a o : Nat) (old v : Word) : Verdict :=
  let bad := Verdict.bad srcAxCfgBad
  match o with
  | 0x00 =>
    verdict [(bit v 0 && !bit old 0 && !s.slotFree a, .bad srcLegConflict), (!bit v 0 && s.isBound .axis a, bad)]
  | 0x80 => verdict [(decide (fld v 16 2 = 3), bad)]
  | 0x88 => verdict [(decide (fld v 0 8 = 255), bad)]
  | 0x8C => verdict [(decide (16 < fld v 0 5) || decide (16 < fld v 8 5) || decide (16 < fld v 16 5) || decide (16 < fld v 24 5), bad)]
  | 0xA0 => verdict [(decide (fld v 28 2 = 3) || decide (fld v 8 4 = 0) || decide (fld v 0 8 = 0), bad)]
  | 0xA4 => verdict [(decide (fld v 12 4 = 0) || decide (fld v 0 8 = 0), bad)]
  | 0xA8 => verdict [(decide (s.limitBad v true ≠ .ok), s.limitBad v true), (decide (s.limitBad v false ≠ .ok), s.limitBad v false)]
  | 0xB0 => verdict [(decide (263 < v.toNat), bad)]
  | _ => verdict [((s.axis a).m.regBad o v, bad)]

/-- A course with a bound member or a parent (R180). -/
def State.courseTied (s : State) (c : Nat) : Bool :=
  (s.course c).parent.isSome || (s.course c).members.any fun p => decide (p.2.state = .bound)

/-- The CRS block (R180, R181, R491). -/
def State.courseBad (s : State) (c o : Nat) (v : Word) : Verdict :=
  let bad := Verdict.bad srcCrsCfgBad
  match o with
  | 0x00 => verdict [(bit v 0 && Bank.get false s.spr.engRetired c, bad), (!bit v 0 && s.courseTied c, bad)]
  | _ => verdict [((s.course c).m.regBad o v, bad)]

/-- A word of the cam pool belongs to a record that a bound or binding member uses (R184). -/
def State.camInUse (s : State) (w : Nat) : Bool :=
  s.courses.any fun p => p.2.members.any fun q =>
    let a := fld q.2.param 0 15
    q.2.cam && decide (q.2.state = .bound ∨ q.2.state = .binding) && decide (a ≤ w) && decide (w < a + 4 + (s.camRec a).p)

def State.camBadWrite (s : State) (o : Nat) (v : Word) : Verdict :=
  match o with
  | 0 => verdict [(decide (s.variant.camWords ≤ v.toNat), .bad srcCrsCfgBad)]
  | 4 => verdict [(s.camInUse s.camAddr, .bad srcCrsCfgBad)]
  | _ => .ok

/-- A tile (R319). -/
def State.tileBad (s : State) (t o : Nat) (old v : Word) : Verdict :=
  match o with
  | 0x00 =>
    verdict [(bit old 0 && !bit v 0 && decide (s.glb.mode ≠ .configure) &&
      (s.tile t).legs.any (fun p => decide (p.2.mode ≠ 0)), .bad srcTileEnBusy)]
  | 0x20 =>
    verdict [(outside (fld v 8 8) 20 140 || outside (fld v 0 8) 12 128 || decide (fld v 8 8 < fld v 0 8 + 4), .bad srcTileCfgBad)]
  | _ => .ok

/-- An axis claims a leg (R64): it is enabled, or AX_CTRL.EN reads 1 and has not taken effect. -/
def State.claimed (s : State) (t l : Nat) : Bool :=
  let x := s.axis (legAxis t l)
  x.m.en || bit x.regs.ctrl 0

/-- A leg (R64, R226, R235, R319 to R321). -/
def State.legBad (s : State) (t l o : Nat) (raw v : Word) : Verdict :=
  let x := s.leg t l
  let bad := Verdict.bad srcTileCfgBad
  let pwm := Verdict.bad srcPwmCfgBad
  let conflict := Verdict.bad srcLegConflict
  match o with
  | 0x00 =>
    verdict [(decide (4 < v.toNat), bad), (decide (v = 1) || s.claimed t l || x.solCur.isSome, conflict)]
  | 0x04 =>
    verdict [(outside (fld v 24 4) 1 14 || outside (fld v 20 4) 1 (fld v 24 4) || outside (fld v 8 8) 8 200 || decide (95 < fld v 0 7), bad)]
  | 0x08 =>
    verdict [(decide (fld v 24 8 = 0) || outside (fld v 16 4) 1 14 || (bit v 20 && !decide (l = 0 ∨ l = 8)), bad)]
  | 0x20 =>
    verdict [((bit v 8 && decide (11 < fld v 24 4)) || (bit v 9 && decide (11 < fld v 28 4)), pwm),
             (if bit raw 0 then decide (x.mode ≠ 4) else outside x.mode 2 4, conflict)]
  | 0x24 => verdict [(decide (fld v 0 16 < 2000) || decide (fld v 16 16 = 65535), pwm), (decide (x.mode ≠ 4), conflict)]
  | 0x28 => verdict [(decide (16 * x.shadow.per < v.toNat), pwm), (decide (x.mode ≠ 4), conflict)]
  | 0x2C => verdict [(outside x.mode 2 4, conflict)]
  | 0x38 => .ok
  | _ => .ok

/-- Step 6 of R441, and the owner's sources of step 5: a field would take an unused code or an out-of-range value, or a condition of the owning
chapter fails. `old` and `v` are the fields before and after the write, `raw` the word written. -/
def State.judge6 (s : State) (l : Loc) (raw old v : Word) : Verdict :=
  match l with
  | .glb _ => .ok
  | .ref o => s.refBad o old v
  | .host o => s.hostBad o v
  | .budget _ => .ok
  | .twin w o => s.twinBad w o v
  | .ring r o => s.ringBad r o old v
  | .flt o => s.fltBad o raw v
  | .thm o => thmBad o v
  | .spr 0x28 => verdict [(!wearOk s.variant v.toNat, .bad srcSprCfgBad)]
  | .spr _ => .ok
  | .inp o => s.inpBad o raw v
  | .unit .axis a 0x50 => verdict [(bit raw 0 && !(s.axis a).m.still, .bad srcAxCfgBad)]
  | .unit .axis a o => s.axisBad a o old v
  | .unit .course c 0x50 => verdict [(bit raw 0 && !(s.course c).m.still, .bad srcCrsCfgBad)]
  | .unit .course c o => s.courseBad c o v
  | .cam o => s.camBadWrite o v
  | .tile t o => s.tileBad t o old v
  | .leg t l o => s.legBad t l o raw v
  | .tbl _ => .ok
  | .cfg _ => .ok

/-- The registers that Sealed accepts (R441 step 3). -/
def sealedOk (l : Loc) : Bool := decide (l = .glb 0x24 ∨ l = .glb 0x30 ∨ l = .glb 0x34)

/-- Where the boot checks have not passed the fault history can be read at the history port, whose selector is then written in Sealed as well (R543;
DEDUCED, log entry 86). -/
def State.sealedOk (s : State) (l : Loc) : Bool := Machine.sealedOk l || (decide (l = .flt 0x20) && s.bootDone && !s.bootPassed)

/-- A write would change what CFG_LOCK holds, or a W1 register that has been written (R439, R440). -/
def State.lockViolated (s : State) (l : Loc) (raw old v : Word) : Bool :=
  (decide (l = .cfg 0x10) && s.cfg.lockWritten) || changes old v (s.heldMask l) ||
  (decide (l = .cfg 0x04) && bit s.cfg.lock 2 && (bit raw 0 || bit raw 1))

/-- A write at an offset whose register is present (R441 steps 3 to 6). -/
def State.judgeWrite (s : State) (l : Loc) (raw : Word) : Verdict :=
  let old := s.stored l
  let v := s.merged l raw
  verdict [(decide (l = .flt 0x14) && (srcInfo s.variant s.flt.sevSel).isNone, .absent),
           (decide (s.glb.mode = .sealed) && !s.sealedOk l, .locked),
           (s.lockViolated l raw old v, .viol),
           (s.lockHolds l old v, .locked),
           (true, s.judge6 l raw old v)]

end Sys2Proof.Machine
end

