-- ==== Sys2Proof/Machine/RegWrite.lean ====
section
/-! DEFINITION. What an accepted write does (R441 step 7), the enabling and disabling of axes and courses (R63, R152), and the commands that
write registers. -/

namespace Sys2Proof.Machine

/-! ### Enabling (R63, R201, R442, R462) -/

/-- AX_CTRL.EN or CRS_CTRL.EN. -/
def State.unitBit (s : State) (k : UnitKind) (n : Nat) : Bool :=
  match k with
  | .axis => bit (s.axis n).regs.ctrl 0
  | .course => bit (s.course n).ctrl 0

/-- A position in the format of R15, as a signed 48-bit value. -/
def pos48 (lo hi : Word) : Int := signed 48 (lo.toNat + fld hi 0 16 * 2 ^ 32)

/-- AX_CTRL.EN takes effect as 1: the axis claims its four legs, loads its live values and, with PRESET, its position, and stands in Target
position mode. -/
def State.enableAxis (s : State) (a : Nat) : State :=
  let s := (axisLegs a).foldl (fun t l => t.updLeg (axisTile a) l fun x => { x.toHiz with mode := 1 }) s
  (s.updAxis a fun x =>
    let p := pos48 x.regs.posSetLo x.regs.posSetHi
    let x := x.loadLive
    { x with
      driven := false, hizzed := false
      m := { x.m with
        en := true, disPend := false, disDue := false, mode := .target
        x := if bit x.regs.ctrl 1 then p * 2 ^ 32 else x.m.x
        tgt := if bit x.regs.ctrl 1 then p else x.m.pos
        v := 0, queue := [], plan := [], cruise := none, start := .none, stopping := none, held := false } }).power a

/-- CRS_CTRL.EN takes effect as 1. -/
def State.enableCourse (s : State) (c : Nat) : State :=
  s.updMotion .course c fun m =>
    { m with en := true, disPend := false, disDue := false, mode := .target, tgt := m.pos, v := 0, queue := [], plan := [], cruise := none,
             start := .none, stopping := none, held := false }

def State.enableUnit (s : State) (k : UnitKind) (n : Nat) : State :=
  match k with
  | .axis => s.enableAxis n
  | .course => s.enableCourse n

/-! ### Disabling (R152) -/

/-- The legs of an axis slot go to Hi-Z and read MODE 0x0 (R63). -/
def State.releaseLegs (s : State) (a : Nat) : State :=
  (axisLegs a).foldl (fun t l => t.updLeg (axisTile a) l fun x => { x.toHiz with mode := 0 }) s

/-- A long operation of the axis ends with STOPPED (R152, R248, R269). -/
def State.endLongs (s : State) (a : Nat) : State :=
  let s := match (s.axis a).home with
    | some h => if h.started then s.homeWatch a else s.updHome a fun h => { h with failing := some (Status.stopped, StopCause.disabled.homeReason) }
    | none => s
  match (s.axis a).char with
  | some h => if h.begun then s.charWatch a else s.updChar a fun h => { h with part := 9, timer := Status.stopped }
  | none => s

/-- The unit stops dead: the move in progress completes with STOPPED, the lookahead with CANCELLED, and nothing is retained. -/
def State.disableUnit (s : State) (k : UnitKind) (n : Nat) : State :=
  let s := s.updMotion k n fun m => { (m.postStop .disabled none) with ret := none, posUnc := m.posUnc || decide (k = .axis) }
  let s := if (s.motion k n).suspended then s.updMotion k n fun m => { m with suspended := false } else s
  let s : State := match k with
    | .axis => s.endLongs n
    | .course => s
  let s := ((s.beginStop k n).finishStop k n).cancelLater k n
  let s := s.updMotion k n fun m =>
    { m with en := false, disPend := false, disDue := false, mode := .off, v := 0, queue := [], plan := [], cruise := none, dwell := none,
             start := .none, held := false, ret := none, booked := 0, bookLeft := none }
  match k with
  | .course => s
  | .axis =>
    let s := (s.releaseLegs n).updAxis n fun x =>
      { x.undrive with hizzed := false, powerDue := false, m := { x.m with posUnc := true }, watch := { x.watch with on := false, settle := 0 },
                       stall := { x.stall with acc := 0, n := 0, qcnt := 0 } }
    (s.homeStep n).charStep n

/-- DISABLE_TAKES_EFFECT (R152): at the first period boundary after the clearing write. Where the bit has been set again since that boundary,
the unit is enabled anew. -/
def State.disableNow (s : State) (k : UnitKind) (n : Nat) : State :=
  if s.present k n && (s.motion k n).disDue then
    (if s.unitBit k n then (s.disableUnit k n).enableUnit k n else s.disableUnit k n)
  else s

def execDisableTakesEffect (k : UnitKind) (n : Nat) (s : State) : Answer := s.command fun s => s.disableNow k n

/-! ### Changes of the set (R451) -/

/-- A word of the set changes, which was `ws`: a pass in progress may or may not have read the change (R448). -/
def CfgB.setChanged (c : CfgB) (ws : List Word) : CfgB := { c with pass := c.pass.map fun p => { p with seen := p.seen ++ [ws] } }

/-- The commit is withdrawn (R449): a pass in progress is not compared (R450). -/
def CfgB.withdraw (c : CfgB) : CfgB :=
  { c with committed := false, commitPend := false, crcOk := false, pass := c.pass.map fun p => { p with compared := false } }

/-- An accepted write that changes the contribution of a register to the set (R451). -/
def CfgB.dirty (c : CfgB) (ws : List Word) : CfgB :=
  if c.committed then { c.withdraw.setChanged ws with flags := c.flags ||| bw true 5 } else c.setChanged ws

/-! ### Effects -/

/-- An enable bit is cleared outside Configure: the lock holds to the next period boundary (R442). -/
def State.clearing (s : State) (off : Nat) (old v : Word) : State :=
  if bit old 0 && !bit v 0 && decide (s.glb.mode ≠ .configure) then
    { s with cfg := { s.cfg with clearing := off :: s.cfg.clearing } }
  else s

/-- GLB_MODE_REQ (R53, R57): the request replaces one not yet judged. -/
def State.noteMode (s : State) (v : Word) : State := { s with glb := { s.glb with modeReq := some (fld v 0 4), reqRes := 1 } }

/-- GLB_ANCHOR_HI written after GLB_ANCHOR_LO (R371): in Sealed the address takes effect, in Configure at the next tick boundary. -/
def State.anchorHiWritten (s : State) : State :=
  if s.glb.loWritten then
    let a := addr64 s.glb.anchorLo s.glb.anchorHi
    if s.glb.mode = .sealed then { s with glb := { s.glb with loWritten := false, anchor := some a } }
    else { s with glb := { s.glb with loWritten := false, anchorNext := some a } }
  else s

/-- REF_CTRL is written (R80): EN = 1 outside Configure schedules the start; TCOMP_EN = 0 ends the compensation. -/
def State.refCtrlWritten (s : State) (old v : Word) : State :=
  let s := if bit v 0 && !bit old 0 && decide (s.glb.mode ≠ .configure) then { s with ref := { s.ref with startPend := true } } else s
  if bit v 1 then s else { s with ref := s.ref.tcOff }

/-- The strait takes a new role (R95, R112): the role gives the island number until a frame gives it, port 0 is no longer held down, and
nothing is extrapolated. -/
def Strait.newRole (t : Strait) (role : Nat) : Strait :=
  { t with island := if role = 1 then 0 else 0xFF, long := false, extrap := false, missRun := 0, goodRun := 0, aligned := false }

/-- REF_STR_CTRL is written (R30, R95, R103, R112): a device that is no follower has PHASE 0, and TRAIN retrains. -/
def State.strCtrlWritten (s : State) (raw old v : Word) : State :=
  let role := fld v 0 2
  let s := if fld old 0 2 = role then s
    else { s with str := s.str.newRole role, ref := { s.ref with phase := if role = 2 then s.ref.phase else 0 } }
  if bit raw 5 then s.retrain else s

/-- HOST_RING_CTRL is written (R380, R381, R396). A ring enabled in Configure enters RUN as the device leaves it (R49); one whose EN stays 1
there keeps its indices, since R381 does not reload HOST_RING_START (log entry 78). EN written 0 drains the ring, also out of ERROR. -/
def State.ringCtrlWritten (s : State) (r : Nat) (old v : Word) : State :=
  if bit v 0 && !bit old 0 then
    s.updRing r fun x =>
      let i := x.start.toNat
      { x with ci := i, ti := i, fi := i, pi := i, outst := [], pref := [], reads := [], err := 0, wait := 0,
               state := if s.glb.mode = .configure then .off else .run }
  else if !bit v 0 then (s.updRing r Ring.drain).unask r
  else s

/-- CREDIT after a write of QUOTA (R389): cut at once to a lower quota. -/
def quotaWritten (credit quota : Nat) : Nat := if quota = 0 then 0xFFFF else min credit quota

/-- FLT_INJ is written while nothing is armed (R522). -/
def State.injWritten (s : State) (raw : Word) : State := if bit raw 0 then { s with flt := { s.flt with injArmed := true } } else s

/-- AX_CTRL or CRS_CTRL is written (R49, R152, R442): outside Configure an enable takes effect at once and a disable at the next boundary. A
set bit withdraws a clearing that has not yet taken effect (log entry 43). -/
def State.unitCtrlWritten (s : State) (k : UnitKind) (n : Nat) (old v : Word) : State :=
  if s.glb.mode = .configure then s
  else if bit v 0 && !bit old 0 then
    (if (s.motion k n).en then s.updMotion k n fun m => { m with disPend := false } else s.enableUnit k n)
  else if bit old 0 && !bit v 0 then s.updMotion k n fun m => { m with disPend := true }
  else s

/-- LEG_CTRL.MODE is written (R62, R309): the leg stands idle at Hi-Z. -/
def Leg.modeWritten (x : Leg) (old : Nat) : Leg :=
  if x.mode = old then x else { x.toHiz with solPhase := .idle, solLeft := 0, dither := 0 }

/-- CLR_UNC of a unit (R155). -/
def State.clearUnc (s : State) (k : UnitKind) (n : Nat) (raw : Word) : State :=
  if bit raw 0 then s.updMotion k n fun m => { m with posUnc := false } else s

/-- CLR_TRIP (R306). -/
def State.clearTrip (s : State) (t l : Nat) (raw : Word) : State :=
  if bit raw 0 && !((s.leg t l).latch && s.tripActive t l) then s.updLeg t l fun x => { x with latch := false, cause := 0 } else s

/-- CLR_ISO (R307); a tile isolated for life stays so (R520). -/
def State.clearIso (s : State) (t : Nat) (raw : Word) : State :=
  s.updTile t fun x => if bit raw 0 && !x.vgUv && !x.vgOv && !x.isoLife then { x with iso := false } else x

/-- CFG_COMMIT (R449): UNCOMMIT prevails. -/
def CfgB.commitWrite (c : CfgB) (raw : Word) : CfgB :=
  if bit raw 1 then c.withdraw else if bit raw 0 then { c with commitPend := true } else c

/-- The effect of an accepted write on everything but the fields it stores. `old` and `v` are the fields before and after. -/
def State.wrote (s : State) (l : Loc) (off : Nat) (raw old v : Word) : State :=
  match l with
  | .glb 0x24 => s.noteMode raw
  | .glb 0x30 => { s with glb := { s.glb with loWritten := true } }
  | .glb 0x34 => s.anchorHiWritten
  | .glb _ => s
  | .ref 0x00 => s.refCtrlWritten old v
  | .ref 0x04 => if fld v 0 4 = 2 then s else { s with ref := { s.ref with lock := .none } }
  | .ref 0x60 => s.strCtrlWritten raw old v
  | .ref _ => s
  | .host 0x00 => s.clearing off old v
  | .host _ => s
  | .budget _ => s
  | .twin _ _ => s
  | .ring r 0x00 => s.ringCtrlWritten r old v
  | .ring r 0x14 => s.updRing r fun x => { x with credit := quotaWritten x.credit x.quota }
  | .ring _ _ => s
  | .flt 0x00 => s.clearing off old v
  | .flt 0x0C => s.injWritten raw
  | .flt 0x20 => if fld raw 16 5 = 0 then s else s.latchEntry s.flt.histSel
  | .flt 0x70 => if bit raw 0 then s.ackLatch else s
  | .flt _ => s
  | .thm 0x00 => s.clearing off old v
  | .thm _ => s
  | .spr 0x00 => s.clearing off old v
  | .spr _ => s
  | .inp 0x00 => s.clearing off old v
  | .inp 0x48 => s.safeClr 0 raw
  | .inp 0x4C => s.safeClr 1 raw
  | .inp o =>
    if 0x10 ≤ o ∧ o < 0x20 then s.safetyScan
    else if 0x100 ≤ o ∧ o < 0x140 then
      (if bit v 0 && !bit old 0 then s.pairOn ((o - 0x100) / 4) else if bit old 0 && !bit v 0 then s.pairOff ((o - 0x100) / 4) else s)
    else if 0x180 ≤ o ∧ o < 0x190 then (if bit v 0 && !bit old 0 then s.encOn ((o - 0x180) / 4) else s)
    else s
  | .unit k n 0x00 => (s.clearing off old v).unitCtrlWritten k n old v
  | .unit k n 0x50 => s.clearUnc k n raw
  | .unit _ _ _ => s
  | .cam _ => s
  | .tile _ 0x00 => s.clearing off old v
  | .tile t 0x14 => s.clearIso t raw
  | .tile _ _ => s
  | .leg t k 0x00 => s.updLeg t k fun x => x.modeWritten old.toNat
  | .leg t k 0x20 => if bit raw 0 then s.updLeg t k fun x => { x with armedSet := true } else s
  | .leg t k 0x24 => s.updLeg t k fun x => { x with armedSet := true }
  | .leg t k 0x38 => s.clearTrip t k raw
  | .leg _ _ _ => s
  | .tbl _ => s
  | .cfg 0x04 => { s with cfg := s.cfg.commitWrite raw }
  | .cfg 0x08 => { s with cfg := s.cfg.withdraw }
  | .cfg _ => s

/-- The fields of a register take their new value; a write of FLT_INJ while an injection is armed disarms it and changes nothing else (R522),
and one of INP_FILT makes the inputs it changes unknown (R337). -/
def State.putLoc (s : State) (l : Loc) (v : Word) : State :=
  match l with
  | .flt 0x0C => if s.flt.injArmed then { s with flt := { s.flt with injArmed := false } } else s.store l v
  | .inp 0x08 => s.filtWrite 0 v
  | .inp 0x0C => s.filtWrite 1 v
  | _ => s.store l v

/-- The write is carried out. -/
def State.carryOut (s : State) (l : Loc) (off : Nat) (raw : Word) : State :=
  let old := s.stored l
  let v := s.merged l raw
  let armed := decide (l = .flt 0x0C) && s.flt.injArmed
  let s := if changes old v l.setMask then { s with cfg := s.cfg.dirty s.setWords } else s
  let s := s.putLoc l v
  if armed then s else s.wrote l off raw old v

/-! ### A full write (R441) -/

/-- Step 1 fails (R9, R10). -/
def State.absentWrite (s : State) (off : Nat) : State := (s.noteAccess 2 3 off).fault srcAbsentAccess (wd off) .none

/-- A lock discards a write (R443). -/
def State.lockedWrite (s : State) (off : Nat) : State :=
  ({ s with cfg := { s.cfg with flags := s.cfg.flags ||| bw true 1 } }).fault srcCfgWrLocked (wd (off % 2 ^ 18)) .none

/-- A held or write-once field discards a write (R439). -/
def State.violWrite (s : State) (off : Nat) : State :=
  ({ s with cfg := { s.cfg with flags := s.cfg.flags ||| bw true 2 } }).fault srcCfgLockViol (wd off) .none

/-- A write is judged and carried out or discarded. -/
def State.writeLoc (s : State) (l : Loc) (off : Nat) (raw : Word) : State :=
  match s.judgeWrite l raw with
  | .ok => s.carryOut l off raw
  | .absent => s.absentWrite off
  | .locked => s.lockedWrite off
  | .viol => s.violWrite off
  | .bad src => s.fault src (wd off) .none

/-- A full write of a word at a BAR0 offset. The MSI-X structures follow their own rules (R365), a WM write with an all-zero mask changes nothing and
raises nothing (R438), and CRS_CAM_DATA advances its address whatever becomes of the write (R184). -/
def State.fullWrite (s : State) (off : Nat) (raw : Word) : State :=
  if msixOff off then s.msixWrite off raw
  else
    match locOf s.variant off with
    | none => s.absentWrite off
    | some l =>
      if decide (l.wmBits ≠ 0) && decide (fld raw 16 l.wmBits = 0) then s
      else
        let s' := s.writeLoc l off raw
        if l = .cam 4 then s'.camNext else s'

/-- A narrow write (R433): discarded, absent units first. The MSI-X structures take whole words alone (log entry 39). -/
def State.narrowWrite (s : State) (off : Nat) (be : BitVec 4) (raw : Word) : State :=
  if be = 15 then s.fullWrite off raw
  else if be = 0 then s
  else if msixOff off then s
  else
    match locOf s.variant off with
    | none => s.absentWrite off
    | some l =>
      if decide (l = .flt 0x14) && (srcInfo s.variant s.flt.sevSel).isNone then s.absentWrite off
      else (s.noteAccess 1 2 off).fault srcAccNarrow (wd off) .none

/-! ### The commands that write -/

/-- GLB_MODE_REQ_WRITE (R57). -/
def execGlbModeReqWrite (v : Word) (s : State) : Answer := s.command fun s => s.fullWrite 0x24 v

/-- ANCHOR_SET (R371): a write of GLB_ANCHOR_HI. -/
def execAnchorSet (v : Word) (s : State) : Answer := s.command fun s => s.fullWrite 0x34 v

/-- The word at an offset that the bytes of a request from `addr` on make up; a byte that is not enabled counts as 0. -/
def wordOf (addr : Nat) (bytes : List (Option Byte)) (off : Nat) : Word :=
  wd (((List.range 4).map fun i => if addr ≤ off + i then ((bytes.getD (off + i - addr) none).getD 0).toNat * 256 ^ i else 0).sum)

/-- A write request to BAR0 from a byte address on, with its enabled bytes: its words are written in ascending order, the full ones carried out and
the narrow ones discarded (R431, R433, R434). -/
def State.writeRequest (s : State) (addr : Nat) (bytes : List (Option Byte)) : State :=
  (touched addr bytes.length).foldl (fun t w => t.narrowWrite w (enabled addr (bytes.map Option.isSome) w) (wordOf addr bytes w)) s

/-- The bytes of a write request that its byte enables let through. -/
def lanes (en : List Bool) (bytes : List Byte) : List (Option Byte) := List.zipWith (fun e b => if e then some b else none) en bytes

/-- NARROW_WRITE (R433). -/
def execNarrowWrite (addr : Nat) (en : List Bool) (bytes : List Byte) (s : State) : Answer := s.command fun s => s.writeRequest addr (lanes en bytes)

/-- REGISTER_WRITE (R441). -/
def execRegisterWrite (off : Nat) (v : Word) (s : State) : Answer := s.command fun s => s.fullWrite off v

/-- CRS_CAM_DATA_ACCESS (R184): a full write where a word is given, else a full read. -/
def execCrsCamDataAccess (v : Option Word) (s : State) : Answer :=
  s.command fun s => match v with
    | some w => s.fullWrite 0xC804 w
    | none => s.fullRead 0xC804

/-- FLT_HIST_SEL_WRITE (R515). -/
def execFltHistSelWrite (v : Word) (s : State) : Answer := s.command fun s => s.fullWrite 0x3020 v

/-- FLT_ACK (R515, R519). -/
def execFltAck (v : Word) (s : State) : Answer := s.command fun s => s.fullWrite 0x3070 v

/-- FLT_INJ_ARM and FLT_INJ_DISARM (R522): writes of FLT_INJ with ARM = 1 and ARM = 0. -/
def execFltInjArm (v : Word) (s : State) : Answer := s.command fun s => s.fullWrite 0x300C (v ||| 1)
def execFltInjDisarm (v : Word) (s : State) : Answer := s.command fun s => s.fullWrite 0x300C (v &&& ~~~ (1 : Word))

/-- FLT_PIN_LEVEL (R521). -/
def execFltPinLevel (v : Word) (s : State) : Answer := s.command fun s => s.fullWrite 0x3008 v

/-- CLR_UNC (R155). -/
def execClrUnc (k : UnitKind) (n : Nat) (v : Word) (s : State) : Answer := s.command fun s => s.fullWrite (unitReg k n 0x50) v

/-- CLR_TRIP (R306). -/
def execClrTrip (t l : Nat) (v : Word) (s : State) : Answer := s.command fun s => s.fullWrite (legReg t l 0x38) v

/-- CLR_ISO (R307). -/
def execClrIso (t : Nat) (v : Word) (s : State) : Answer := s.command fun s => s.fullWrite (tileReg t 0x14) v

/-- INP_SAFE_CLR (R341). -/
def execInpSafeClr (j : Nat) (v : Word) (s : State) : Answer := s.command fun s => s.fullWrite (instOff 0x6048 4 2 j 0) v

/-- TRAIN (R103): a write of REF_STR_CTRL with TRAIN = 1. -/
def execTrain (v : Word) (s : State) : Answer := s.command fun s => s.fullWrite 0x1060 (v ||| 0x20)

/-- ARM (R221): a write of LEG_PWM_CTL with ARM = 1. -/
def execArm (t l : Nat) (v : Word) (s : State) : Answer := s.command fun s => s.fullWrite (legReg t l 0x20) (v ||| 1)

/-- LEG_PWM_PER_WRITE (R221). -/
def execLegPwmPerWrite (t l : Nat) (v : Word) (s : State) : Answer := s.command fun s => s.fullWrite (legReg t l 0x24) v

/-- COMMIT and UNCOMMIT (R449): writes of CFG_COMMIT. -/
def execCommit (v : Word) (s : State) : Answer := s.command fun s => s.fullWrite 0x30004 (v ||| 1)
def execUncommit (v : Word) (s : State) : Answer := s.command fun s => s.fullWrite 0x30004 (v ||| 2)

/-- CFG_CRC_REF_WRITE (R449). -/
def execCfgCrcRefWrite (v : Word) (s : State) : Answer := s.command fun s => s.fullWrite 0x30008 v

/-- CFG_LOCK_WRITE (R440). -/
def execCfgLockWrite (v : Word) (s : State) : Answer := s.command fun s => s.fullWrite 0x30010 v

/-- UNIT_ENABLE (R63) and UNIT_DISABLE (R152, R180): writes of AX_CTRL or CRS_CTRL with EN = 1 and EN = 0. -/
def execUnitEnable (k : UnitKind) (n : Nat) (v : Word) (s : State) : Answer := s.command fun s => s.fullWrite (unitOff k n) (v ||| 1)
def execUnitDisable (k : UnitKind) (n : Nat) (v : Word) (s : State) : Answer :=
  s.command fun s => s.fullWrite (unitOff k n) (v &&& ~~~ (1 : Word))

/-- REF_ENABLE (R80), REF_DISABLE (R82), TCOMP_EN_WRITE (R118): writes of REF_CTRL. -/
def execRefEnable (v : Word) (s : State) : Answer := s.command fun s => s.fullWrite 0x1000 (v ||| 1)
def execRefDisable (v : Word) (s : State) : Answer := s.command fun s => s.fullWrite 0x1000 (v &&& ~~~ (1 : Word))
def execTcompEnWrite (v : Word) (s : State) : Answer := s.command fun s => s.fullWrite 0x1000 (v ||| 2)

/-- HOST_ENABLE and HOST_DISABLE (R369): writes of HOST_CTRL. -/
def execHostEnable (v : Word) (s : State) : Answer := s.command fun s => s.fullWrite 0x2000 (v ||| 1)
def execHostDisable (v : Word) (s : State) : Answer := s.command fun s => s.fullWrite 0x2000 (v &&& ~~~ (1 : Word))

/-- RING_ENABLE (R380) and RING_DISABLE (R381): writes of HOST_RING_CTRL. -/
def execRingEnable (r : Nat) (v : Word) (s : State) : Answer := s.command fun s => s.fullWrite (ringReg r 0) (v ||| 1)
def execRingDisable (r : Nat) (v : Word) (s : State) : Answer := s.command fun s => s.fullWrite (ringReg r 0) (v &&& ~~~ (1 : Word))

/-- HOST_RING_QUOTA_WRITE (R389). -/
def execHostRingQuotaWrite (r : Nat) (v : Word) (s : State) : Answer := s.command fun s => s.fullWrite (ringReg r 0x14) v

/-- HOST_TILE_BUDGET_WRITE (R390). -/
def execHostTileBudgetWrite (t : Nat) (v : Word) (s : State) : Answer := s.command fun s => s.fullWrite (instOff 0x2040 4 12 t 0) v

/-- TILE_CTRL_EN_WRITE (R319). -/
def execTileCtrlEnWrite (t : Nat) (v : Word) (s : State) : Answer := s.command fun s => s.fullWrite (tileOff t) v

/-- LEG_MODE_WRITE (R64). -/
def execLegModeWrite (t l : Nat) (v : Word) (s : State) : Answer := s.command fun s => s.fullWrite (legReg t l 0) v

/-- STEP_PAIR_ENABLE (R185) and STEP_PAIR_DISABLE (R339): writes of INP_STEP_CFG. -/
def execStepPairEnable (n : Nat) (v : Word) (s : State) : Answer := s.command fun s => s.fullWrite (instOff 0x6100 4 16 n 0) (v ||| 1)
def execStepPairDisable (n : Nat) (v : Word) (s : State) : Answer := s.command fun s => s.fullWrite (instOff 0x6100 4 16 n 0) (v &&& ~~~ (1 : Word))

/-- ENCODER_ENABLE (R343). -/
def execEncoderEnable (n : Nat) (v : Word) (s : State) : Answer := s.command fun s => s.fullWrite (instOff 0x6180 4 4 n 0) (v ||| 1)

/-- INP_FILT_WRITE (R337). -/
def execInpFiltWrite (j : Nat) (v : Word) (s : State) : Answer := s.command fun s => s.fullWrite (instOff 0x6008 4 2 j 0) v

end Sys2Proof.Machine
end

