-- ==== Sys2Proof/Machine/Nv.lean ====
section
/-! DEFINITION. The check of the configuration set (R448 to R450) and the NV store (R453 to R457, R355, R429). -/

namespace Sys2Proof.Machine

def srcCfgCrc : Nat := 0x009

/-! ### Passes of the configuration CRC (R448 to R450, R523) -/

/-- An injection into the configuration CRC is armed. -/
def Flt.injCrc (f : Flt) : Bool := f.injArmed && decide (f.injTarget = 2)

/-- The set as a pass has read it: of each word one of the values that it had during the pass. A change made during the pass may or may not be
included, which is free for each word (log entry 2). -/
def State.passWords (s : State) (p : Pass) : List Word :=
  s.setWords.zipIdx.map fun q =>
    let had := q.1 :: p.seen.map fun ws => ws.getD q.2 0
    had.getD (Config.passRead s.fresh q.2 % had.length) q.1

/-- The result of a pass: the CRC of the set as it has read it. -/
def State.passResult (s : State) (p : Pass) : Word := if p.seen.isEmpty then s.cfgCrc else crc32c (s.passWords p)

/-- A compared pass ends with a result (R450): a match or a mismatch, reported once per episode; an armed injection compares once more
against the inverted reference (R523), and makes one record with a real report of the same cycle (R525). -/
def State.comparePass (s : State) (run : Word) : State :=
  let inj := s.flt.injCrc
  let good := decide (run = s.cfg.ref)
  let real := !good && !s.cfg.episode
  let bad := decide (run ≠ ~~~s.cfg.ref)
  let flag := !good || (inj && bad)
  let s := { s with
    cfg := { s.cfg with
      crcOk := good, crcErr := !good, episode := !good && (s.cfg.episode || real)
      flags := s.cfg.flags ||| bw flag 4 }
    flt := { s.flt with injArmed := s.flt.injArmed && !inj } }
  if real then s.fault srcCfgCrc run .none
  else if inj && bad then (s.raiseAs srcCfgCrc (s.classOf srcCfgCrc) run true .none).settle
  else s

/-- The pass in progress ends. -/
def State.passEnd (s : State) : State :=
  match s.cfg.pass with
  | none => s
  | some p =>
    let run := s.passResult p
    let s := if p.seen.isEmpty then s else s.spend
    let s := { s with cfg := { s.cfg with run := run, flags := s.cfg.flags ||| bw true 3, pass := none } }
    if p.compared then s.comparePass run else s

/-- CRC_PASS_END (R450). -/
def execCrcPassEnd (s : State) : Answer := s.command State.passEnd

/-- CRC_PASS_START (R448, R449): at the next DT congruent to PHASE modulo 200,000 a pass begins, and a pending commit becomes COMMITTED. A
pass before it has ended by then. -/
def State.passBegin (s : State) : State :=
  let s := s.passEnd
  let s := s.pass (s.untilNext 200000 none)
  let c := s.cfg.committed || s.cfg.commitPend
  { s with cfg := { s.cfg with committed := c, commitPend := false, pass := some { compared := c, seen := [] } } }

def execCrcPassStart (s : State) : Answer := s.command State.passBegin

/-! ### The image (R454) -/

/-- The bits of a register of the set that an image keeps: those of the set, and the enable bit or LEG_CTRL.MODE. -/
def Loc.nvMask (l : Loc) : Nat :=
  match l with
  | .ref 0x00 => l.setMask ||| 1
  | .flt 0x00 => l.setMask ||| 1
  | .thm 0x00 => 1
  | .spr 0x00 => l.setMask ||| 1
  | .inp 0x00 => 1
  | .unit _ _ 0x00 => l.setMask ||| 1
  | .tile _ 0x00 => 1
  | .leg _ _ 0x00 => 7
  | _ => l.setMask

/-- The word that an image keeps of a register: MODE 0x1 is stored as 0x0. -/
def State.nvWord (s : State) (l : Loc) : Word :=
  let w := s.stored l &&& wd l.nvMask
  match l with
  | .leg _ _ 0x00 => if w = 1 then 0 else w
  | _ => w

/-- SET. -/
def State.nvSet (s : State) : List Word :=
  (setBefore s.variant).map s.nvWord ++ (List.range 1024).map s.sevContrib ++ (setAfter s.variant).map s.nvWord

/-- The units whose profile slots an image holds, axes first, and their slots. -/
def profUnits (v : Variant) : List (UnitKind × Nat) :=
  (List.range v.axes).map (fun a => (.axis, a)) ++ (List.range v.courses).map fun c => (.course, c)

/-- Every profile slot of the device in the order of INDEX. -/
def State.profSlots (s : State) : List Profile :=
  (profUnits s.variant).flatMap fun u => (List.range 16).map fun i => Bank.get Profile.reset (s.motion u.1 u.2).profs i

/-- The distinct profiles of a list but the default one, in the order in which they first stand. -/
def distinctProfs (l : List Profile) : List Profile :=
  l.foldl (fun acc p => if p = Profile.reset ∨ p ∈ acc then acc else acc ++ [p]) []

/-- The halfword of INDEX for a profile. -/
def profCode (ds : List Profile) (p : Profile) : Nat := if p = Profile.reset then 0 else (ds.idxOf p) + 1

/-- Halfwords packed into words, the first in the low half. -/
def packHalves : List Nat → List Word
  | [] => []
  | [a] => [wd a]
  | a :: b :: r => wd (a + b * 65536) :: packHalves r

/-- The image of the set and of profile memory with a sequence number. -/
def State.image (s : State) (seq : Word) : List Word :=
  let slots := s.profSlots
  let ds := distinctProfs slots
  let body := s.nvSet ++ packHalves (slots.map (profCode ds)) ++ ds.flatMap Profile.words
  let head (crc : Word) : List Word :=
    [0x5A540001, seq, wd (4 * (8 + body.length)), crc, s.glbRead 0x00, s.cfgCrc, wd (setLen s.variant), wd ds.length]
  let crc := imageCrc (head 0 ++ body)
  head crc ++ body

/-! ### NV_COMMIT (R429, R456) -/

def CfgB.setSlot (c : CfgB) (b : Bool) (x : NvSlot) : CfgB := if b then { c with nvB := x } else { c with nvA := x }

/-- The slot that a commit writes (R456): not the newer valid one, or A. -/
def State.nvTarget (s : State) : Bool := (s.nvNewer.map fun b => !b).getD false

/-- The sequence number of the next image. -/
def State.nvSeq (s : State) : Word :=
  match s.nvNewer with
  | some b => (s.cfg.slot b).word 1 + 1
  | none => 1

/-- The steps of a write: one erase, the pages of 256 bytes, one verify. -/
def NvWrite.steps (w : NvWrite) : Nat := 2 + ceilDiv (4 * w.image.length) 256

/-- A write is given up: the slot being written is invalid (R355, R535). -/
def CfgB.abandon (c : CfgB) : CfgB :=
  match c.nvWrite with
  | none => c
  | some w => { c.setSlot w.slotB { c.slot w.slotB with image := [] } with nvWrite := none }

/-- The operation of a write ends with a status. -/
def State.nvEnd (s : State) (status : Nat) : State :=
  match s.longOf 0x43 0 with
  | some x => s.endLong x.tag status
  | none => s

/-- A write is aborted by R354 or by THERM_SHUTDOWN (R355). -/
def State.nvAbort (s : State) : State :=
  if s.cfg.nvWrite.isSome then ({ s with cfg := s.cfg.abandon }).nvEnd Status.tempRange else s

/-- THERMAL_SAMPLE: an NV write in progress is aborted where the sample brings THERM_SHUTDOWN (R355). -/
def State.thermalStep (s : State) (t : Nat) (a b : BitVec 16) : State :=
  let u := s.thermal t a b
  if u.thm.shut then u.nvAbort else u

def execThermalSample (t : Nat) (a b : BitVec 16) (s : State) : Answer := s.command fun s => s.thermalStep t a b

/-- The entry of a successful write (R429). -/
def NvWrite.entry (w : NvWrite) : List Word :=
  [wd (0x30 * 2 ^ 24 + b2n w.slotB), w.image.getD 1 0, w.image.getD 2 0, w.image.getD 3 0]

/-- NV_STEP_COMPLETE: the erase leaves the slot invalid; the pages are programmed; the verification ends the operation. R354 is checked
before each erase and program step. -/
def State.nvStep (s : State) (ok : Bool) : State :=
  match s.cfg.nvWrite with
  | none => s
  | some w =>
    if s.thm.shut then s.nvAbort
    else
      let n := w.done + 1
      let x := s.cfg.slot w.slotB
      let c := if n = 1 then s.cfg.setSlot w.slotB { image := [], erases := satAdd 65535 x.erases 1 } else s.cfg
      let s := { s with cfg := { c with nvWrite := some { w with done := n } } }
      let s := match s.longOf 0x43 0 with
        | some y => s.updLong y.tag fun z => z.advance (65535 * n / w.steps)
        | none => s
      if n < w.steps then (if decide (n + 1 < w.steps) && s.nvBlock then s.nvAbort else s)
      else if ok then
        let x := s.cfg.slot w.slotB
        let s := { s with cfg := { s.cfg.setSlot w.slotB { x with image := w.image } with nvWrite := none } }
        match s.longOf 0x43 0 with
        | some y =>
          let s := s.updLong y.tag fun z => { z.append w.entry with summary := wd (b2n w.slotB) }
          s.endLong y.tag Status.ok
        | none => s
      else ({ s with cfg := s.cfg.abandon }).nvEnd Status.nvFail

def execNvStepComplete (ok : Bool) (s : State) : Answer := s.command fun s => s.nvStep ok

/-- NV_COMMIT is accepted: its image is built, and the erase of the target slot begins (R456). -/
def State.nvBegin (s : State) : State :=
  let img := s.image s.nvSeq
  if 28672 < 4 * img.length then s.nvEnd Status.nvFail
  else { s with cfg := { s.cfg with nvWrite := some { slotB := s.nvTarget, done := 0, image := img } } }

/-! ### The load (R457) -/

/-- A word of an image goes to its register, the enable bits with it. -/
def State.loadWord (s : State) (l : Loc) (w : Word) : State :=
  let keep := s.stored l &&& ~~~ wd l.nvMask
  match l with
  | .inp 0x08 => s.filtWrite 0 w
  | .inp 0x0C => s.filtWrite 1 w
  | .leg t k 0x00 => s.updLeg t k fun x => { x with mode := fld w 0 3 }
  | _ => s.store l (keep ||| (w &&& wd l.nvMask))

/-- A word of FLT_SEV: the class of its source. -/
def State.loadSev (s : State) (n : Nat) (w : Word) : State :=
  match FClass.ofCode (fld w 0 3) with
  | some c => if (srcInfo s.variant n).isSome then { s with flt := { s.flt with sev := Bank.set s.flt.sev n c } } else s
  | none => s

/-- The set of an image is written to its registers, and what depends on them follows: the role of the strait, the step pairs and encoders
that are enabled, the safety inputs. -/
def State.loadSet (s : State) (ws : List Word) : State :=
  let b := setBefore s.variant
  let a := setAfter s.variant
  let s := (b.zip ws).foldl (fun t p => t.loadWord p.1 p.2) s
  let ws := ws.drop b.length
  let s := ((List.range 1024).zip ws).foldl (fun t p => t.loadSev p.1 p.2) s
  let ws := ws.drop 1024
  let was := s.inp
  let s := (a.zip ws).foldl (fun t p => t.loadWord p.1 p.2) s
  let s := s.updStr fun t => { t with island := if fld t.ctrl 0 2 = 1 then 0 else 0xFF }
  let s := (List.range s.variant.pairs).foldl (fun t n =>
    if bit (Bank.get 0x10 t.inp.stepCfg n) 0 && !bit (Bank.get 0x10 was.stepCfg n) 0 then t.pairOn n else t) s
  let s := (List.range s.variant.encoders).foldl (fun t n =>
    if bit (Bank.get 0x10 t.inp.encCfg n) 0 && !bit (Bank.get 0x10 was.encCfg n) 0 then t.encOn n else t) s
  s.safetyScan

/-- A halfword of a list of words. -/
def halfAt (ws : List Word) (i : Nat) : Nat := fld (ws.getD (i / 2) 0) (16 * (i % 2)) 16

/-- The profile slots are written from INDEX and PROF. -/
def State.loadProfs (s : State) (index profs : List Word) : State :=
  (profUnits s.variant).zipIdx.foldl (fun t u =>
    t.updMotion u.1.1 u.1.2 fun m =>
      (List.range 16).foldl (fun (m : Motion) i =>
        let n := halfAt index (16 * u.2 + i)
        let p := if n = 0 then Profile.reset else Profile.ofWords ((profs.drop (8 * (n - 1))).take 8)
        { m with profs := Bank.set m.profs i p, profBad := m.profBad.filter fun j => decide (j ≠ i) }) m) s

/-- The load of the newer valid slot at the transition from Sealed to Configure (R457). -/
def State.nvLoad (s : State) : State :=
  let va := s.cfg.nvA.valid s.variant
  let vb := s.cfg.nvB.valid s.variant
  let was := s.setWords
  let s : State := match s.nvNewer with
    | none => { s with cfg := { s.cfg with loaded := 0, nvSeen := true } }
    | some b =>
      let img := (s.cfg.slot b).image
      let len := setLen s.variant
      let idx := 8 * (s.variant.axes + s.variant.courses)
      let s := s.loadSet ((img.drop 8).take len)
      let s := s.loadProfs ((img.drop (8 + len)).take idx) (img.drop (8 + len + idx))
      { s with cfg := { s.cfg.setChanged was with ref := img.getD 5 0, commitPend := true, loaded := if b then 2 else 1, nvSeen := true } }
  if va && vb then s else s.fault srcCfgNvLoad (wd (b2n va + 2 * b2n vb + s.cfg.loaded * 16)) .none

end Sys2Proof.Machine
end

