-- ==== Sys2Proof/Machine/SelfTest.lean ====
section
/-! DEFINITION. SELF_TEST (R430). One selected test runs in each planning tick; what a test of a structure outside the model finds (the ROM, the
SRAM, the voter copies, the tile converters) is free (log entry 2). -/

namespace Sys2Proof.Machine

/-- What a test found for one unit: the unit, RESULT, MEAS, LIMIT and DETAIL. -/
structure Finding where
  unit : Nat
  result : Nat
  meas : Word
  limit : Word
  detail : Word
deriving DecidableEq, Repr

/-- The unit number of a device-wide test. -/
def wholeDevice : Nat := 0xFFFF

/-- What a check found, as pass or fail. -/
def finding (unit : Nat) (pass : Bool) (meas limit detail : Word) : Finding :=
  { unit := unit, result := b2n (!pass), meas := meas, limit := limit, detail := if pass then 0 else detail }

/-- The tests that use free values: the CRC of the ROM and the active patches against the stored value, the count of uncorrectable errors, the
finding on the voter copies, and the conversions of the internal references. -/
def freeFinding (test unit n : Nat) : Finding :=
  let a := Config.selfTestWord n
  let b := Config.selfTestWord (n + 1)
  let c := Config.selfTestWord (n + 2)
  match test with
  | 0 => finding unit (decide (a = b)) a b c
  | 1 => finding unit (decide (a = 0)) a 0 c
  | _ => finding unit (bit c 0) a b 0

/-- The NV test of a slot: only a valid slot is checked (R455). -/
def State.nvFinding (s : State) (b : Bool) : Finding :=
  let x := s.cfg.slot b
  let found := imageCrc (x.image.take ((x.word 2).toNat / 4))
  if x.valid s.variant then finding (b2n b) (decide (found = x.word 3)) found (x.word 3) 0
  else { unit := b2n b, result := 2, meas := 0, limit := 0, detail := 0 }

/-- The sensors of a tile are good and lie within 15 °C of each other. -/
def State.sensorFinding (s : State) (t : Nat) : Finding :=
  let x := s.thmTile t
  let d := (x.s0 - x.s1).natAbs
  finding t (!x.broken0 && !x.broken1 && decide (d ≤ 240)) (wd d) 240 0

/-- The clock test. -/
def State.clockFinding (s : State) : Finding :=
  finding wholeDevice (decide (s.glb.clkDev.toInt.natAbs ≤ 500) && s.glb.priOk && s.glb.bkpOk) (iwd s.glb.clkDev.toInt) 500 0

/-- The findings of a test, and the free values that it uses. -/
def State.findings (s : State) (test : Nat) : List Finding × Nat :=
  match test with
  | 3 => ([finding wholeDevice (decide (s.cfgCrc = s.cfg.ref)) s.cfgCrc s.cfg.ref 0], 0)
  | 4 => ([s.nvFinding false, s.nvFinding true], 0)
  | 5 => (s.allTiles.map fun t => freeFinding 5 t (s.fresh + 3 * t), 3 * s.variant.tiles)
  | 6 => (s.allTiles.map s.sensorFinding, 0)
  | 7 => ([s.clockFinding], 0)
  | k => ([freeFinding k wholeDevice s.fresh], 3)

/-- The entry of a finding. -/
def Finding.entry (f : Finding) (test : Nat) : List Word :=
  [wd (0x40 * 2 ^ 24 + test * 2 ^ 20 + f.result * 2 ^ 16 + f.unit), f.meas, f.limit, f.detail]

/-- The tests selected, in ascending order. -/
def LongOp.tests (x : LongOp) : List Nat := maskBits 8 (fld x.w1 0 8)

/-- The number of tests done, as PROGRESS tells it: 65,535 n / T. -/
def LongOp.testsDone (x : LongOp) : Nat := ceilDiv (x.progress * x.tests.length) 65535

/-- One test is done: its entries, the test's bit of SUMMARY where one of them reports a failure, and PROGRESS. -/
def LongOp.tested (x : LongOp) (test : Nat) (fs : List Finding) : LongOp :=
  let n := x.testsDone + 1
  let y := (fs.map fun f => f.entry test).foldl LongOp.append x
  ({ y with summary := y.summary ||| bw (fs.any fun f => decide (f.result = 1)) test }).advance (65535 * n / max 1 x.tests.length)

/-- SELF_TEST in a planning tick after its take-up. -/
def State.selfTestStep (s : State) : State :=
  match s.longOf 0x44 0 with
  | none => s
  | some x =>
    match x.tests[x.testsDone]? with
    | none => s.endLong x.tag Status.ok
    | some test =>
      let f := s.findings test
      let y := x.tested test f.1
      let s := { (s.updLong x.tag fun _ => y) with fresh := s.fresh + f.2 }
      if y.testsDone < y.tests.length then s
      else s.endLong y.tag (if y.summary = 0 then Status.ok else Status.testFail)

/-- The device-wide operations that may not run in Configure end as the device enters it (R424). -/
def State.endDeviceLongs (s : State) : State :=
  let s := match s.longOf 0x44 0 with
    | some x => s.endLong x.tag Status.aborted
    | none => s
  if (s.longOf 0x43 0).isSome then ({ s with cfg := s.cfg.abandon }).nvEnd Status.aborted else s

end Sys2Proof.Machine
end

