-- ==== Sys2Proof/Machine/Begin.lean ====
section
/-! DEFINITION. What may begin at a period boundary (R87, R90, R136, R140, R156 to R161, R565): REPLACE moves, readiness and the release of starts
over all units, and what Hold takes back. -/

namespace Sys2Proof.Machine

/-- The units that the state lists: the others are at reset, disabled. -/
def State.units (s : State) : List (UnitKind × Nat) :=
  (s.listedAxes.map fun a => (UnitKind.axis, a)) ++ (s.courses.map fun p => (UnitKind.course, p.1))

/-- A change of every listed unit in turn. -/
def State.eachUnit (s : State) (f : State → UnitKind → Nat → State) : State := s.units.foldl (fun t p => f t p.1 p.2) s

/-! ### REPLACE (R140) -/

/-- The REPLACE move that takes effect now: the last of those whose plan is ready. -/
def Motion.replacing (m : Motion) (now : Nat) : Option Move :=
  (m.look.filter fun v => v.replace && decide (v.from_ ≤ now)).getLast?

/-- No descriptor of another kind stands before a place in the order of take-up. -/
def State.firstToGo (s : State) (k : UnitKind) (n ord : Nat) : Bool :=
  (s.items k n).all fun p => decide (p.2 = .move) || decide (ord < p.1)

/-- A REPLACE move takes effect: the move in progress completes with REPLACED, those behind it with CANCELLED. A moving unit is planned anew
from its present state; a unit in its reversal dwell goes on with it, and the move of that dwell is the one in progress (DESIGN CHOICE, log
entry 75); a unit that stands starts afresh. -/
def State.replaceStep (s : State) (k : UnitKind) (n : Nat) : State :=
  let m := s.motion k n
  if m.en && !m.disDue && m.stopping.isNone && decide (s.glb.mode = .run) && m.follow.isNone && m.play.isNone && !s.longRuns k n && !s.isBound k n then
    match m.replacing s.dt with
    | none => s
    | some v =>
      if !s.firstToGo k n v.ord then s
      else
        let stands := m.v = 0 && m.dwell.isNone
        let s := if m.suspended then s.updMotion k n fun m => { m with restarted := false } else s
        let s := s.completeAct k n Status.replaced
        let s := (m.look.filter fun w => decide (w.ord < v.ord)).foldl (fun t w => t.completeMove k n w Status.cancelled) s
        let rest := m.look.filter fun w => decide (v.ord < w.ord)
        if stands then
          s.updMotion k n fun m =>
            { m.clear with look := { v with replace := false } :: rest, suspended := false, start := .none, held := false }
        else if m.dwell.isSome then s.updMotion k n fun m => ({ m with look := rest }).take v
        else (s.updMotion k n fun m => ({ m with look := rest }).take v).go k n
  else s

/-! ### Starts that can no longer begin (R87, R161, R565) -/

/-- A start that waits under a window completes with WINDOW_MISSED once the boundary sample is after. -/
def State.lapse (s : State) (k : UnitKind) (n : Nat) : State :=
  let m := s.motion k n
  let gone (g : Option Gate) : Bool := match g with
    | some (.window o c) => decide (winClass s.ref.bound408 o c = .after)
    | _ => false
  if m.start = .none || m.suspended then s
  else
    match s.nextItem k n, m.look, m.later with
    | .move, v :: _, _ => if gone v.gate then s.refuseHead k n Status.windowMissed false else s
    | .later, _, .follow f :: _ => if gone f.gate then s.dropItem k n Status.windowMissed else s
    | _, _, _ => s

/-- The held start of a solenoid leg likewise. -/
def State.lapseLeg (s : State) (t l : Nat) : State :=
  match (s.leg t l).solWait with
  | [] => s
  | d :: _ =>
    match d.gate with
    | some (.window o c) =>
      if d.heldSince.isSome && decide (winClass s.ref.bound408 o c = .after) then s.refusePulse t l Status.windowMissed else s
    | _ => s

/-! ### All starts -/

/-- The starts of a boundary: windows that have closed, REPLACE moves, readiness, and every start that is admitted and has not been held;
a held one, and that of an axis which this boundary energizes, is marked, and begins with START_RELEASE. -/
def State.startsAll (s : State) : State :=
  if (s.glb.mode = .run ∨ s.glb.mode = .diagnose) ∧ !s.spr.freeze then
    let s := s.eachUnit State.lapse
    let s := s.listedLegs.foldl (fun t p => t.lapseLeg p.1 p.2) s
    let s := s.eachUnit State.replaceStep
    let s := s.listedAxes.foldl (fun t a => if (t.axis a).powerDue then t.reenterAxis a else t) s
    let s := s.eachUnit fun t k n => t.readiness k n 66
    let first (w : Waiter) : Bool := match w.who with
      | .unit .axis n => !(s.motion .axis n).held && !(s.axis n).powerDue
      | .unit .course n => !(s.motion .course n).held
      | .leg _ _ => false
    s.release first s.waiters []
  else s

/-! ### Outside Run (R90, R157) -/

/-- A waiting start of a unit is given back, and its condition counts as evaluated for the first time when it is evaluated next. -/
def Motion.unready (m : Motion) : Motion :=
  { m with
    start := .none
    held := false
    look := m.look.map fun v => { v with armed := false, met := false, late := false }
    later := m.later.map fun l => match l with
      | .follow f => .follow { f with armed := false, met := false, late := false }
      | .play p => .play p }

/-- The same for a solenoid leg. -/
def Leg.unready (x : Leg) : Leg :=
  { x with solWait := x.solWait.map fun d => { d with armed := false, late := false, heldSince := none, dwellLeft := none, held := false, due := false } }

/-- No start is evaluated in the present mode. -/
def State.unreadyAll (s : State) : State :=
  if s.glb.mode = .run ∨ s.glb.mode = .diagnose then s
  else
    let s := s.eachUnit fun t k n => t.updMotion k n Motion.unready
    s.listedLegs.foldl (fun t p => t.updLeg p.1 p.2 Leg.unready) s

end Sys2Proof.Machine
end

