-- ==== Sys2Proof/Machine/Modes.lean ====
section
/-! DEFINITION. Requested mode transitions (R52 to R58): how a request is judged, what a transition brings to the units, the reference coordinate
and the rings, and the way from Sealed to Configure (R545). -/

namespace Sys2Proof.Machine

/-! ### How a request is judged (R54, R55, R57) -/

/-- The transitions that a request may make (R54). -/
def DevMode.permits (a b : DevMode) : Bool :=
  match a, b with
  | .configure, .diagnose => true
  | .configure, .run => true
  | .diagnose, .configure => true
  | .diagnose, .run => true
  | .run, .hold => true
  | .hold, .run => true
  | .hold, .diagnose => true
  | .hold, .configure => true
  | .safe, .configure => true
  | .safe, .hold => true
  | _, _ => false

/-- EN as the device resolves it: high at its pin, and no core's sample differs (R55, R473). -/
def State.enHigh (s : State) : Bool := s.glb.enIn && !s.pathDiffers 0 0

/-- VM and VGATE of a tile are above their rising thresholds, as the cores resolve it (R54, R292, R296, R473). -/
def State.supplied (s : State) (t : Nat) : Bool :=
  !(s.tile t).vmUv && !(s.tile t).vgUv && !s.pathDiffers 2 t && !s.pathDiffers 3 t

/-- A tile has an enabled axis or leg. -/
def State.tileUsed (s : State) (t : Nat) : Bool :=
  (tileAxes t).any (fun a => s.unitBit .axis a) || (s.tile t).legs.any fun p => decide (p.2.mode ≠ 0)

/-- Every tile with an enabled axis or leg is supplied. -/
def State.suppliesOk (s : State) : Bool := s.allTiles.all fun t => !s.tileUsed t || s.supplied t

/-- Diagnose, Run and Hold ask for EN high, and for planning that has not ended (R55, R482). -/
def State.driveOk (s : State) : Bool := s.enHigh && !s.spr.lost

/-- The conditions of a permitted transition (R54, R55). -/
def State.modeConditions (s : State) (b : DevMode) : Bool :=
  match s.glb.mode, b with
  | .configure, .diagnose => s.driveOk && s.cfg.crcOk && !s.flt.unacked .trip
  | .configure, .run => s.driveOk && s.cfg.crcOk && !s.flt.unacked .trip && s.suppliesOk
  | .diagnose, .run => s.driveOk && s.diagOp.isNone && s.suppliesOk
  | .run, .hold => s.driveOk
  | .hold, .run => s.driveOk && !s.flt.unackedOf .halt && !s.settling
  | .hold, .diagnose => s.driveOk && !s.settling
  | .hold, .configure => !s.settling
  | .safe, .configure => s.enHigh && !s.flt.unackedOf .trip
  | .safe, .hold => s.driveOk && !s.flt.unackedOf .trip && s.suppliesOk
  | _, _ => true

/-- The REQ_RES with which a request is refused, when it is (R54). A request that R54's table does not hold answers 0x3 also while EN is low,
then a locked device 0x5, then a condition that does not hold 0x4, that of R55 among them (DESIGN CHOICE, log entry 74). -/
def State.refusal (s : State) (target : Nat) : Option Nat :=
  match DevMode.ofCode target with
  | none => some 3
  | some b =>
    if !s.glb.mode.permits b then some 3
    else if s.glb.locked then some 5
    else if s.modeConditions b then none
    else some 4

/-! ### What a transition brings -/

/-- The enables that the registers hold take effect: a unit whose bit is 1 and that is not enabled is enabled, one whose bit is 0 is
disabled (R49, R63, R442). -/
def State.syncUnit (s : State) (k : UnitKind) (n : Nat) : State :=
  let on := s.unitBit k n
  let m := s.motion k n
  if on && !m.en then s.enableUnit k n
  else if !on && m.en && !m.disPend && !m.disDue then s.disableUnit k n
  else s

def State.syncUnits (s : State) : State :=
  let s := s.listedAxes.foldl (fun t a => t.syncUnit .axis a) s
  (s.courses.map Prod.fst).foldl (fun t c => t.syncUnit .course c) s

/-- The device leaves Configure (R80, R381, R442): enables take effect, the RC starts when REF_CTRL.EN is 1, and the rings run. -/
def State.leaveConfigure (s : State) : State :=
  let s := s.syncUnits
  let s := { s with cfg := { s.cfg with clearing := [] }
                    ref := { s.ref with startDue := bit s.ref.ctrl 0 && !s.ref.run } }
  s.allRings.foldl (fun t r => t.updRing r Ring.restart) s

/-- A LOCK event has taken the device from Configure to Safe: what leaving Configure brings follows at the next boundary. Done again it changes
nothing. -/
def State.leftByLock (s : State) : State :=
  if s.glb.mode = .safe ∧ s.glb.prev = .configure then
    let s := s.syncUnits
    let s := { s with ref := { s.ref with startDue := bit s.ref.ctrl 0 && !s.ref.run } }
    s.allRings.foldl (fun t r => t.updRing r Ring.restart) s
  else s

/-- The device enters Configure (R54, R80, R92, R381): the RC is held, a REFOUT pulse ends, the device-wide operations end, and the rings
drain. -/
def State.enterConfigure (s : State) : State :=
  let s := s.diagStep.endDeviceLongs
  let s := { s with ref := { s.ref.halt with outs := [] } }
  s.allRings.foldl (fun t r => (t.updRing r Ring.pause).unask r) s

/-- Every enabled axis is energized at run current at its last known position (R58, R308). -/
def State.powerAll (s : State) : State := s.listedAxes.foldl State.power s

/-- Every leg goes to Hi-Z as the mode is left for Configure or Diagnose (R58, R149, R153); in Diagnose only a driven axis has legs that
go. -/
def State.unpowerAll (s : State) (was : DevMode) : State :=
  if was = .hold then (s.allHiz .modeLeft).settle.payOwed
  else if was = .diagnose then s.listedAxes.foldl (fun t a => if (t.axis a).driven then t.axisHiz a .modeLeft else t) s
  else s

/-- A unit that Hold by request brings to standstill (R56, R153, R189): it moves, or something of it is in progress. -/
def Motion.stopsForHold (m : Motion) : Bool := m.en && (!m.still || m.act.isSome || m.follow.isSome || m.play.isSome || m.dwell.isSome)

def State.holdAll (s : State) : State :=
  let s := s.listedAxes.foldl (fun t a =>
    if (t.axis a).m.stopsForHold && !(t.axis a).m.suspended then t.postStop .axis a .holdReq else t) s
  (s.courses.map Prod.fst).foldl (fun t c =>
    if (t.course c).m.stopsForHold && !(t.course c).m.suspended then t.postStop .course c .holdReq else t) s

/-- A requested transition takes effect (R52, R56): the effects of leaving one mode and entering another. At the boundary of the return to Run
a REPLACE takes the place of the suspended move (R140); start conditions are evaluated again from the boundary after it on (R90, R153). -/
def State.changeMode (s : State) (b : DevMode) (cause : Nat) : State :=
  let was := s.glb.mode
  let s := { s with glb := { s.glb.enter b cause with reqRes := 2, freshRun := decide (b = .run) } }
  let s := if was = .configure then s.leaveConfigure else s
  let s : State := match b with
    | .configure => s.unpowerAll was
    | .diagnose => s.unpowerAll was
    | .run => if was = .hold then s.eachUnit State.replaceStep else s.powerAll
    | .hold => if was = .run then s.holdAll.unreadyAll else s.powerAll
    | _ => s
  if was = .diagnose ∧ b ≠ .configure then s.diagStep else s

/-- A request is judged and carried out or refused; a SET_MODE completes, and then the effects on the rings follow (R417). -/
def State.takeRequest (s : State) (target cause : Nat) (g : Option Tag) : State :=
  match s.refusal target, DevMode.ofCode target with
  | none, some b =>
    let s := s.changeMode b cause
    let s := match g with
      | some g => s.answerMode g Status.ok
      | none => s
    if b = .configure then s.enterConfigure else s
  | some r, _ =>
    let s := { s with glb := { s.glb with reqRes := r } }
    (match g with
     | some g => s.answerMode g Status.modeRefused
     | none => s)
  | none, none => s

/-- At most one request is judged in a period (R57): a register request first, else the oldest SET_MODE. -/
def State.modeStep (s : State) : State :=
  if s.glb.reqDue then
    let s := { s with glb := { s.glb with reqDue := false } }
    match s.glb.modeReq with
    | some target => ({ s with glb := { s.glb with modeReq := none } }).takeRequest target 1 none
    | none =>
      match s.glb.setMode with
      | [] => s
      | (target, g) :: rest => ({ s with glb := { s.glb with setMode := rest } }).takeRequest target 2 (some g)
  else s

/-- MODE_REQUEST_TAKEN (R54 to R57). -/
def execModeRequestTaken (s : State) : Answer := s.command State.modeStep

/-- The tick that took a SET_MODE up lies before this boundary (R417). -/
def State.setModeDue (s : State) : Bool :=
  match s.glb.setMode with
  | [] => false
  | (_, g) :: _ => ((s.ring g.ring).outst.find? fun o => decide (o.index = g.index)).elim true fun o => decide (o.takeDt < s.dt)

/-! ### From Sealed to Configure (R54, R545) -/

/-- The boot checks have passed and a non-zero anchor is in effect. -/
def State.mayConfigure (s : State) : Bool :=
  decide (s.glb.mode = .sealed) && s.bootDone && s.bootPassed && (match s.glb.anchor with
    | some a => decide (a / 4096 ≠ 0)
    | none => false)

/-- SEALED_TO_CONFIGURE: the newer valid slot is loaded, and at the first period boundary after the load the device enters Configure with
CAUSE 0x07. A request noted in Sealed is not judged by it, and an EXTEST in force is carried out as BYPASS from there on (R540). -/
def State.sealedOpen (s : State) : State :=
  if s.mayConfigure then
    let s := s.nvLoad
    let s := s.pass (s.untilNext 2000 s.lastPeriod)
    { s with glb := s.glb.enter .configure 7, tap := if s.tap.instr = .extest then { s.tap with instr := .bypass } else s.tap }
  else s

def execSealedToConfigure (s : State) : Answer := s.command State.sealedOpen

end Sys2Proof.Machine
end

