-- ==== Sys2Proof/Machine/Package.lean ====
section
/-! DEFINITION. The packages and their balls (R21, R526 to R530): where each signal of the device comes out. -/

namespace Sys2Proof.Machine

/-! ### Packages (R526, R527) -/

/-- A full square array of balls; body and pitch in tenths of a millimetre. -/
structure Package where
  grid : Nat
  body : Nat
  pitch : Nat
  diameter : Nat
  height : Nat
deriving DecidableEq, Repr

def Variant.package (v : Variant) : Package :=
  { grid := v.pick 38 28 22, body := v.pick 380 290 230, pitch := 10, diameter := 6, height := v.pick 34 32 30 }

def Package.balls (p : Package) : Nat := p.grid * p.grid

/-- The letters that name rows: I, O, Q, S, X and Z are never used. -/
def rowLetters : List String :=
  ["A", "B", "C", "D", "E", "F", "G", "H", "J", "K", "L", "M", "N", "P", "R", "T", "U", "V", "W", "Y"]

/-- The name of row k, from 1: the sequence goes on behind Y with A before each letter. -/
def rowName (k : Nat) : String :=
  if k ≤ 20 then rowLetters.getD (k - 1) "" else "A" ++ rowLetters.getD (k - 21) ""

/-- The place of a ball: its row and its column, each from 1. -/
structure Ball where
  row : Nat
  col : Nat
deriving DecidableEq, Repr

/-! ### Tile balls (R528, R529) -/

/-- The balls of a tile by what they carry; `i` counts those of a kind that has several. -/
inductive TileBall where
  | bst (l : Nat)
  | gh (l : Nat)
  | sh (l : Nat)
  | gl (l : Nat)
  | sn (slot : Nat) (c : Coil)
  | gs (l : Nat)
  | vms
  | vgate (i : Nat)
  | pgnd (i : Nat)
deriving DecidableEq, Repr

/-- A ball of leg l: pattern row 1 + l div 2, the columns of an odd leg mirrored. -/
def legBall (l c : Nat) : Ball := ⟨1 + l / 2, if l % 2 = 0 then c else 9 - c⟩

/-- The pattern positions of VGATE and PGND. -/
def vgateBalls : List Ball := [⟨11, 1⟩, ⟨11, 3⟩, ⟨11, 6⟩, ⟨11, 8⟩, ⟨12, 2⟩, ⟨12, 7⟩]
def pgndBalls : List Ball :=
  [⟨10, 2⟩, ⟨10, 3⟩, ⟨10, 5⟩, ⟨10, 6⟩, ⟨10, 7⟩, ⟨11, 2⟩, ⟨11, 4⟩, ⟨11, 5⟩, ⟨11, 7⟩] ++
  [⟨12, 1⟩, ⟨12, 3⟩, ⟨12, 4⟩, ⟨12, 5⟩, ⟨12, 6⟩, ⟨12, 8⟩]

/-- The pattern position of a ball of a tile. -/
def TileBall.pattern : TileBall → Ball
  | .bst l => legBall l 1
  | .gh l => legBall l 2
  | .sh l => legBall l 3
  | .gl l => legBall l 4
  | .sn s .A => ⟨9, 2 * s + 1⟩
  | .sn s .B => ⟨9, 2 * s + 2⟩
  | .gs l => ⟨10, if l = 0 then 1 else 8⟩
  | .vms => ⟨10, 4⟩
  | .vgate i => vgateBalls.getD i ⟨0, 0⟩
  | .pgnd i => pgndBalls.getD i ⟨0, 0⟩

/-- Where the block of a tile begins, and whether it is transposed. -/
def tileOrigin (v : Variant) (t : Nat) : Ball × Bool :=
  match v with
  | .zm4812 => (⟨[1, 14, 27].getD (t / 4) 0, [1, 9, 23, 31].getD (t % 4) 0⟩, false)
  | .zm2406 => (⟨[1, 17].getD (t / 3) 0, [1, 9, 21].getD (t % 3) 0⟩, false)
  | .zm1203 => if t = 2 then (⟨15, 6⟩, true) else (⟨1, if t = 0 then 1 else 15⟩, false)

/-- Where a ball of a tile lies on the package. -/
def tileBall (v : Variant) (t : Nat) (b : TileBall) : Ball :=
  let o := tileOrigin v t
  let p := b.pattern
  if o.2 then ⟨o.1.row + p.col - 1, o.1.col + p.row - 1⟩ else ⟨o.1.row + p.row - 1, o.1.col + p.col - 1⟩

/-! ### Global balls (R530) -/

/-- The global signals of a device. -/
inductive GlobalBall where
  | si (n : Nat)
  | enc (n ch : Nat)
  | line (n : Nat)
  | refout (n : Nat)
  | en
  | nReset
  | nFault
  /-- TCK, TMS, TDI, TDO -/
  | dbg (i : Nat)
  /-- XTAL_IN, XTAL_OUT -/
  | xtal (i : Nat)
  /-- STX+, STX-, SRX+, SRX- of a port -/
  | strait (port i : Nat)
  /-- PETp0 to PERn1 in their order, then REFCLK+ and REFCLK- -/
  | pcie (i : Nat)
deriving DecidableEq, Repr

/-- Where a global signal of the variant comes out; an absent unit has no ball. -/
def globalBall (v : Variant) (b : GlobalBall) : Option Ball :=
  let has (p : Bool) (x : Ball) : Option Ball := if p then some x else none
  let mid := v.pick 18 18 10
  match b with
  | .si n =>
    let h := v.senses / 2
    has (decide (n < v.senses)) ⟨n % h + 1, if n < h then v.pick 17 17 9 else v.pick 22 20 14⟩
  | .enc n ch => has (decide (n < v.encoders) && decide (ch < 3)) ⟨3 * n + ch + 1, mid⟩
  | .line n => has (decide (n < v.lines)) ⟨v.pick 13 7 4 + n, mid⟩
  | .refout n => has (decide (n < 2)) ⟨v.pick 15 9 5 + n, mid⟩
  | .en => some ⟨v.pick 17 11 7, mid⟩
  | .nReset => some ⟨v.pick 18 12 8, mid⟩
  | .nFault => some ⟨v.pick 19 13 9, mid⟩
  | .dbg i => has (decide (i < 4)) ⟨v.pick 20 14 1 + i, v.pick 18 18 11⟩
  | .xtal i => has (decide (i < 2)) ⟨v.pick 24 18 10 + i, mid⟩
  | .strait p i => has (decide (p < v.ports) && decide (i < 4)) ⟨4 * p + i + 1, v.pick 21 19 0⟩
  | .pcie i => has (decide (i < 10)) ⟨v.pick 9 5 1 + i, v.pick 21 19 13⟩

/-- The logic supplies, and the balls that carry each: a list of columns with their first and last rows. -/
inductive Supply where
  | vdd
  | vaux
  | vio
deriving DecidableEq, Repr

def supplyCols (v : Variant) : Supply → List (Nat × Nat × Nat)
  | .vdd => v.pick [(19, 1, 20), (20, 1, 20)] [(17, 17, 28), (20, 17, 28)] [(11, 5, 12), (12, 1, 8)]
  | .vaux => v.pick [(21, 19, 30)] [(19, 15, 22)] [(12, 9, 12)]
  | .vio => v.pick [(18, 26, 37)] [(18, 20, 27)] [(9, 9, 12), (14, 9, 12)]

def supplyBalls (v : Variant) (p : Supply) : List Ball :=
  (supplyCols v p).flatMap fun c => (List.range (c.2.2 + 1 - c.2.1)).map fun i => ⟨c.2.1 + i, c.1⟩

/-- Every ball that lies in no tile, carries no global signal and no logic supply is ground. -/
def allTileBalls : List TileBall :=
  ((List.range 16).flatMap fun l => [.bst l, .gh l, .sh l, .gl l]) ++
  ((List.range 4).flatMap fun s => [.sn s .A, .sn s .B]) ++ [.gs 0, .gs 8, .vms] ++ (List.range 6).map .vgate ++ (List.range 15).map .pgnd

def allGlobalBalls : List GlobalBall :=
  (List.range 64).map .si ++ ((List.range 4).flatMap fun n => (List.range 3).map fun c => .enc n c) ++ (List.range 2).map .line ++
  (List.range 2).map .refout ++ [.en, .nReset, .nFault] ++ (List.range 4).map .dbg ++ (List.range 2).map .xtal ++
  ((List.range 2).flatMap fun p => (List.range 4).map fun i => .strait p i) ++ (List.range 10).map .pcie

/-- The balls of a variant that carry something other than ground, tile by tile, then the global ones. -/
def usedBalls (v : Variant) : List Ball :=
  ((List.range v.tiles).flatMap fun t => allTileBalls.map (tileBall v t)) ++ allGlobalBalls.filterMap (globalBall v) ++
  supplyBalls v .vdd ++ supplyBalls v .vaux ++ supplyBalls v .vio

def isGround (v : Variant) (b : Ball) : Bool :=
  decide (1 ≤ b.row) && decide (b.row ≤ v.package.grid) && decide (1 ≤ b.col) && decide (b.col ≤ v.package.grid) && decide (b ∉ usedBalls v)

/-! ### The monitors of the logic supplies (R533) -/

/-- The falling and the rising threshold in millivolts. -/
def Supply.thresholds : Supply → Nat × Nat
  | .vdd => (800, 820)
  | .vaux => (1580, 1620)
  | .vio => (2850, 2950)

/-- A supply counts as failed: below the falling threshold, and inside the band as it was before (R292). -/
def Supply.failed (p : Supply) (millivolts : Nat) (was : Bool) : Bool :=
  decide (millivolts < p.thresholds.1) || (was && decide (millivolts ≤ p.thresholds.2))

end Sys2Proof.Machine
end

