-- ==== Sys2Proof/Machine/Startup.lean ====
section
/-! DEFINITION. Reset and boot (R535 to R544), and the debug port (R453, R540). -/

namespace Sys2Proof.Machine

/-! ### Internal reset (R535, R537) -/

/-- What the NV store keeps without power (R453). -/
def CfgB.stored (c : CfgB) : CfgB :=
  let d := c.abandon
  { CfgB.reset with nvA := d.nvA, nvB := d.nvB, patches := d.patches }

/-- INTERNAL_RESET: every leg goes to Hi-Z, the device is held, and a write of the NV store ends with its slot invalid. -/
def State.enterReset (s : State) : State :=
  let s := s.listedLegs.foldl (fun t p => t.updLeg p.1 p.2 Leg.toHiz) s
  let s := s.listedAxes.foldl (fun t a => t.updAxis a Axis.undrive) s
  { s with inReset := true, cfg := s.cfg.abandon, tap := { s.tap with instr := .bypass } }

def execInternalReset (s : State) : Answer := s.command State.enterReset

/-- LOGIC_SUPPLY_FAIL: the device loses everything but the contents of the NV store, and is held in reset. -/
def State.powerLost (s : State) : State :=
  { State.reset with inReset := true, variant := s.variant, cfg := s.cfg.stored, fresh := s.fresh, pending := s.pending }

def execLogicSupplyFail (s : State) : Answer := .next s.powerLost

/-- What only a power cycle clears (R52, R348, R353, R477, R482, R491) stays through a reset without one. -/
def State.latched (s : State) (t : State) : State :=
  { t with
    glb := { t.glb with locked := s.glb.locked }
    thm := { t.thm with
      shut := s.thm.shut
      tiles := (s.thm.tiles.filter fun p => p.2.broken0 || p.2.broken1).map fun (p : Nat × ThmTile) =>
        (p.1, { ThmTile.reset with broken0 := p.2.broken0, broken1 := p.2.broken1 }) }
    spr := { t.spr with
      lost := s.spr.lost, engRetired := s.spr.engRetired
      cores := (s.retiredCores.map fun n => (n, { CoreU.reset n with st := .retired, slot := 0 })) }
    tiles := (s.tiles.filter fun p => p.2.isoLife || !p.2.spareOk).map fun (p : Nat × Tile) =>
      (p.1, { Tile.reset with iso := p.2.isoLife, isoLife := p.2.isoLife, spareOk := p.2.spareOk }) }

/-- The release of nRESET: DT starts at 0, the device enters Sealed with every register at its reset value, and the NV store keeps its
contents. EN is taken as it stands, which is no fall (R546). On the backup oscillator OSC_SWITCH is raised (R539). -/
def State.release0 (s : State) (en primaryGood : Bool) : State :=
  let t : State := { State.reset with variant := s.variant, cfg := s.cfg.stored, fresh := s.fresh, pending := s.pending }
  let t := s.latched { t with glb := { t.glb with enIn := en } }
  if primaryGood then t else t.oscSwitch

/-- RESET_RELEASE (R537, R542). -/
def execResetRelease (en primaryGood : Bool) (s : State) : Answer :=
  .next (if s.inReset then s.release0 en primaryGood else { s with out := [] })

/-! ### Boot (R542, R543) -/

/-- A core fails its known-answer test: it is retired, and its detail word says whether the spare fills its slot. -/
def State.bootRetire (s : State) (n : Nat) (spare : Bool) : State :=
  s.coreStop n (if n < 3 then n else 0) spare

/-- The known-answer tests: each failing core is retired, and the passing core that holds no slot fills the lowest vacant one. -/
def State.bootCores (s : State) (pass : List Bool) : State :=
  let ok (n : Nat) : Bool := pass.getD n false && decide ((s.core n).st ≠ .retired)
  let vacant := (List.range 3).filter fun n => !ok n
  let fills := ok 3 && !vacant.isEmpty
  let failing := (List.range 4).filter fun n => !pass.getD n false && decide ((s.core n).st ≠ .retired)
  let t := failing.foldl (fun u n => u.bootRetire n (fills && decide (vacant.head? = some n))) s
  let t : State := match vacant with
    | i :: _ => if fills then (t.setCore 3 { t.core 3 with st := .voting, slot := i }).spareIn else t
    | [] => t
  if t.voting.length < 2 then t.coreLoss else t.updSpr fun p => { p with pair := decide (t.voting.length = 2) }

/-- The signature of a voting core differs once its TCM is loaded: a minority event of that core without a source (R478). -/
def State.tcmDiffers (s : State) (n : Nat) : State :=
  if (s.core n).st = .voting then (s.countMinority n false).minorityAct n false else s

/-- BOOT_COMPLETE: the checks in the order of R542. With a bad ROM no core starts, and CORE_LOSS carries 0xF. -/
def State.boot (s : State) (o : BootObs) : State :=
  if s.bootDone then s
  else if !o.romGood then
    ({ (s.updSpr fun p => { p with lost := true }) with bootDone := true, bootPassed := false }).fault srcCoreLoss 0xF .none
  else
    let s := { s with cfg := { s.cfg with active := (s.cfg.patches.filter fun (p : Nat × List Word) => o.patchGood.getD p.1 false).map Prod.fst } }
    let s := o.rowFail.foldl (fun t r => if rowMib r < t.variant.mibs then t.rowFails r else t) s
    let s := s.bootCores o.corePass
    let s := s.voterCheck { aPass := o.aPass, bPass := o.bPass }
    let s := o.tcmDiffer.foldl State.tcmDiffers s
    let s := o.runnerFail.foldl State.runnerFails s
    let s := o.engineFail.foldl State.engineFails s
    let s := o.lineFail.foldl (fun t p => t.parity p.1 p.2 true) s
    let passed := decide (2 ≤ s.voting.length) && (s.spr.aIn || s.spr.bIn) && !s.spr.lost
    { (s.updSpr fun p => { p with lost := p.lost || !passed }) with bootDone := true, bootPassed := passed }

def execBootComplete (o : BootObs) (s : State) : Answer := s.command fun s => s.boot o

/-! ### The debug port (R453, R540) -/

/-- The boundary-scan chain: the global signal balls of the variant and no tile ball. Their order is the model's (log entry 88). -/
def Variant.chain (v : Variant) : List GlobalBall := allGlobalBalls.filter fun b => (globalBall v b).isSome

/-- The level at which the device's own function leaves a ball; a ball to which the model gives no level has a free one (log entry 88). -/
def State.ballLevel (s : State) (b : GlobalBall) : Bool :=
  match b with
  | .si n => s.inp.lvl.getLsbD n
  | .refout n => s.outLevel n
  | .en => s.glb.enIn
  | .nReset => !s.inReset
  | .nFault => !s.nfault
  | _ => Config.ballLevel ((s.variant.chain).idxOf b) s.dt

/-- The signals that the device drives. -/
def GlobalBall.driven : GlobalBall → Bool
  | .refout _ => true
  | .nFault => true
  | .strait _ i => decide (i < 2)
  | _ => false

/-- The level of a ball: under EXTEST the cells of the chain drive the outputs. -/
def State.pinLevel (s : State) (b : GlobalBall) : Bool :=
  if s.tap.instr = .extest ∧ b.driven then s.tap.cells.getD ((s.variant.chain).idxOf b) false else s.ballLevel b

/-- A scan of the chain: the levels that it has captured go out, and its cells take what is shifted in. -/
def State.tapScan (s : State) (cells : List Bool) : State :=
  { s with tap := { s.tap with cells := cells }, out := s.out ++ [.scan ((s.variant.chain).map s.pinLevel)] }

/-- DBG_TAP_INSTRUCTION: EXTEST is accepted in Sealed only and is BYPASS elsewhere; the signed update of a patch slot is accepted in Sealed only; a
scan goes through the chain under SAMPLE/PRELOAD and EXTEST; five edges of DBG_TCK with DBG_TMS high reset the port's controller. -/
def State.tapLoad (s : State) (i : TapInstr) : State :=
  let here := decide (s.glb.mode = .sealed)
  let load (i : TapInstr) : State := { s with tap := { s.tap with instr := i } }
  match i with
  | .testReset => load .bypass
  | .bypass => load .bypass
  | .samplePreload => load .samplePreload
  | .extest => load (if here then .extest else .bypass)
  | .scan cells => if s.tap.instr = .samplePreload ∨ s.tap.instr = .extest then s.tapScan cells else s
  | .patchUpdate slot image =>
    if here && decide (slot < 4) then
      { s with tap := { s.tap with instr := .patchUpdate slot image }, cfg := { s.cfg with patches := Bank.set s.cfg.patches slot image } }
    else s

def execDbgTapInstruction (i : TapInstr) (s : State) : Answer := s.command fun s => s.tapLoad i

end Sys2Proof.Machine
end

