-- ==== Sys2Proof/Machine/TakeUp.lean ====
section
/-! DEFINITION. Taking up descriptors (R383, R385, R388, R407, R415, R418, R429, R430): the one operation by which a ring gives up the
descriptor at its TI, what each opcode begins, and the rows of the table that name one opcode each. -/

namespace Sys2Proof.Machine

/-! ### FENCE and WAIT_RC (R388, R415) -/

/-- A descriptor of which only word 0 is kept. -/
def bareDesc (w0 : Word) : Desc := { w0 := w0, w1 := 0, w2 := 0, w3 := 0, w4 := 0, w5 := 0, w6 := 0, w7 := 0, param := [] }

/-- A descriptor of a ring that carries no values of its own completes OK, late or not. -/
def State.ringDone (s : State) (r idx : Nat) (late : Bool) : State :=
  match (s.ring r).outst.find? fun o => decide (o.index = idx) with
  | none => s
  | some o =>
    s.complete ⟨r, idx⟩ (s.mkRecord o.word0 [] (b2n late + s.uncFlag ((s.ring r).target (bareDesc o.word0))) Status.ok)

/-- The rings and indices that a FENCE waits for: its own ring up to itself, and each present ring of its mask up to that ring's TI. -/
def State.fenceList (s : State) (r idx : Nat) (d : Desc) : List (Nat × Nat) :=
  (r, idx) :: ((s.allRings.filter fun j => decide (j ≠ r) && decide (addr64 d.w1 d.w2 / 2 ^ j % 2 = 1)).map fun j => (j, (s.ring j).ti))

/-- Every descriptor below the recorded indices has been written back; a ring that is OFF counts as written back. -/
def State.fenceMet (s : State) (l : List (Nat × Nat)) : Bool :=
  l.all fun p => decide ((s.ring p.1).state = .off) || decide (sub32 (s.ring p.1).ci p.2 < 2 ^ 31)

/-- The FENCE of a ring at a take-up pass. -/
def State.fenceCheck (s : State) (r : Nat) : State :=
  match (s.ring r).fence with
  | none => s
  | some (idx, l) => if s.fenceMet l then (s.ringDone r idx false).updRing r fun x => { x with fence := none } else s

/-- FENCE. -/
def State.takeFence (s : State) (g : Tag) (d : Desc) : State :=
  (s.updRing g.ring fun x => { x with fence := some (g.index, s.fenceList g.ring g.index d) }).fenceCheck g.ring

/-- WAIT_RC: it is evaluated on the boundary samples after its take-up. -/
def State.takeWait (s : State) (g : Tag) (d : Desc) : State :=
  s.updRing g.ring fun x => { x with waitRc := some (g.index, startE d, false) }

/-- The WAIT_RC of a ring at a boundary sample; with the first sample evaluated the completion carries START_LATE. -/
def State.waitRcStep (s : State) (r : Nat) : State :=
  match (s.ring r).waitRc with
  | none => s
  | some (idx, e, seen) =>
    if atOrAfter s.ref.bound408 e then (s.ringDone r idx (!seen)).updRing r fun x => { x with waitRc := none }
    else s.updRing r fun x => { x with waitRc := some (idx, e, true) }

/-! ### Device operations (R313, R418, R429, R430) -/

/-- DIAG_OFFSTATE. -/
def State.takeDiag (s : State) (g : Tag) (d : Desc) : State :=
  (s.acceptLong (newLong g d 0)).diagBegin (fld d.w1 0 12) (fld d.w1 16 16)

/-- NV_COMMIT: the configuration is committed and its CRC matches, and temperature permits a write (R354, R429). -/
def State.takeNv (s : State) (g : Tag) (d : Desc) : State :=
  if !(s.cfg.committed && s.cfg.crcOk) then s.refuseWith g d .device Status.crcMismatch
  else if s.nvBlock then s.refuseWith g d .device Status.tempRange
  else (s.acceptLong (newLong g d 0)).nvBegin

/-- SELF_TEST: its tests run in the ticks that follow. -/
def State.takeSelfTest (s : State) (g : Tag) (d : Desc) : State := s.acceptLong (newLong g d 0)

/-- SPARE_APPROVE (R418). -/
def State.takeApprove (s : State) (g : Tag) (d : Desc) : State :=
  if s.awaits d.w1 then s.updSpr fun p => { p with approve := p.approve ++ [{ tag := g, word0 := d.w0, word1 := d.w1, begun := false }] }
  else s.refuseWith g d .device Status.notPending

/-! ### What an opcode begins -/

/-- A descriptor that has passed the checks of R407 is carried out, or begins to wait for its effect; `p` is the copy of the slot that a move
names. -/
def State.carryNow (s : State) (g : Tag) (d : Desc) (t : Target) (p : Profile) : State :=
  match op d, t with
  | 0x00, _ => s.ringDone g.ring g.index false
  | 0x01, _ => s.takeFence g d
  | 0x02, _ => s.takeWait g d
  | 0x10, .unit k n => s.takeProfile g d k n
  | 0x11, .unit k n => s.takeMove g d k n p
  | 0x12, .unit k n => s.takeMove g d k n p
  | 0x13, .unit k n => s.takeMove g d k n p
  | 0x14, .unit k n => s.takeStop g d k n
  | 0x15, .unit k n => s.takeStop g d k n
  | 0x16, .unit k n => s.takeResume g d k n
  | 0x17, .unit _ n => s.takeCurrent g d n
  | 0x20, .unit _ n => s.takeHome g d n
  | 0x21, .unit _ n => s.takeChar g d n
  | 0x28, .unit k n => s.takePlay g d k n
  | 0x29, .unit k n => s.takeFollow g d k n
  | 0x30, .unit _ n => s.takeBind g d n
  | 0x31, .unit k n => s.takeUnbind g d k n
  | 0x38, .legs i m => s.takeSol g d i m
  | 0x39, .legs i m => s.takeSol g d i m
  | 0x40, _ => s.takeDiag g d
  | 0x41, _ => s.takeHistory g d
  | 0x42, _ => s.takeMode g d
  | 0x43, _ => s.takeNv g d
  | 0x44, _ => s.takeSelfTest g d
  | 0x45, _ => s.takeApprove g d
  | _, _ => s

/-- Motion descriptors whose order on a unit is the order of their take-up (R138, R150). -/
def ordered (o : Nat) : Bool := decide (o ∈ [0x11, 0x12, 0x13, 0x16, 0x20, 0x21, 0x28, 0x29])

/-- A RESUME taken up during a stop waits for standstill, where it is judged, and what is taken up behind it waits with it (R150, R154). -/
def State.carry (s : State) (g : Tag) (d : Desc) (t : Target) : State :=
  match t with
  | .unit k n =>
    let m := s.motion k n
    if ordered (op d) && (!m.deferred.isEmpty || (decide (op d = 0x16) && m.stopping.isSome)) then
      s.updMotion k n fun m => { m with deferred := m.deferred ++ [(g, d, s.moveSlot d k n)] }
    else s.carryNow g d t (s.moveSlot d k n)
  | _ => s.carryNow g d t Profile.reset

/-- A unit has come to standstill: the cores carry out the descriptors that have waited for it, and plan them for the tick that follows (R33,
R46). -/
def State.carryDeferred (s : State) (k : UnitKind) (n : Nat) : State :=
  let m := s.motion k n
  if m.deferred.isEmpty || m.stopping.isSome || !s.planning then s
  else
    m.deferred.foldl (fun (t : State) (q : Tag × Desc × Profile) => t.carryNow q.1 q.2.1 (.unit k n) q.2.2)
      (s.updMotion k n fun m => { m with deferred := [] })

/-! ### Take-up (R383) -/

/-- HOST_RING_STAT.WAIT for a descriptor at a ring's TI: 0 when nothing makes it wait. -/
def State.waitReason (s : State) (r : Nat) (d : Desc) : Nat :=
  let x := s.ring r
  let full : Bool := match x.target d with
    | .unit k n => entersLook (op d) && s.present k n && decide (64 ≤ (s.motion k n).depth)
    | _ => false
  if x.fence.isSome then 2
  else if x.waitRc.isSome then 3
  else if s.host.longs.any fun o => decide (o.tag.ring = r) && !o.ended then 5
  else if 256 ≤ x.outst.length then 6
  else if full then 4
  else if isLong (op d) ∧ 16 ≤ (s.host.longs.filter fun o => !o.ended).length then 7
  else 0

/-- The ring gives up the descriptor at its TI, which leaves the prefetch buffer. -/
def Ring.advance (x : Ring) (w0 : Word) (now : Nat) : Ring :=
  let ti := (x.ti + 1) % 2 ^ 32
  { x with
    ti := ti
    fi := if x.pref.isEmpty then ti else x.fi
    pi := if x.pref.isEmpty ∧ x.pi = x.ti then ti else x.pi
    pref := x.pref.drop 1
    outst := x.outst ++ [{ index := x.ti, word0 := w0, takeDt := now, record := none, doneDt := 0 }]
    wait := if x.wait = 1 then 1 else 0 }

/-- A descriptor is taken up: it completes with the status of the first check that fails, or it is carried out. -/
def State.takeUp (s : State) (r : Nat) (d : Desc) : State :=
  let x := s.ring r
  let g : Tag := ⟨r, x.ti⟩
  let s := s.setRing r (x.advance d.w0 s.tickDt)
  match s.check x d with
  | some b => s.refuse g d (x.target d) b
  | none => s.carry g d (x.target d)

/-- Rings run and the cores plan: planning is not paused, the first tick behind a pause has refilled the queues (R46, R47), and the mode is
Diagnose, Run, Hold or Safe (R373). -/
def State.ringsRun (s : State) : Bool :=
  !s.paused && !s.host.refill &&
  (match s.glb.mode with
   | .sealed => false
   | .configure => false
   | .diagnose => true
   | .run => true
   | .hold => true
   | .safe => true)

/-- A ring takes up descriptors. -/
def State.ringTakes (s : State) (r : Nat) : Bool :=
  s.ringsRun && decide (r < s.variant.rings) && decide ((s.ring r).state = .run)

/-- The descriptor stands at the ring's TI: at the head of the prefetch buffer, completely read before the tick; or nothing is
prefetched or being read, and the command itself brings the descriptor (log entry 31). -/
def Ring.offers (x : Ring) (d : Desc) (now : Nat) : Bool :=
  match x.pref with
  | [] => decide (x.reading = 0) && decide (x.fi = x.ti)
  | f :: _ => decide (f.d = d) && f.ready && decide (f.dt < now)

/-- One descriptor of a ring at a take-up pass: taken up, or left waiting for the reason of R383. -/
def State.takeOne (s : State) (r : Nat) (d : Desc) : State :=
  let w := s.waitReason r d
  if w = 0 then s.takeUp r d else s.updRing r fun x => { x with wait := w }

/-- A row of the table that names an opcode: the descriptor at the ring's TI has that opcode and is taken up. -/
def State.takeRow (s : State) (o r : Nat) (d : Desc) : State :=
  if decide (op d = o) && s.ringTakes r && (s.ring r).offers d s.tickDt then s.takeOne r d else s

/-- A ring's take-up in a tick: descriptors in index order until one must wait, or none is left that was prefetched in time. -/
def State.takeRing (s : State) (r : Nat) : Nat → State
  | 0 => s
  | fuel + 1 =>
    match (s.ring r).pref with
    | [] => s
    | f :: _ =>
      if s.ringTakes r && f.ready && decide (f.dt < s.tickDt) then
        if s.waitReason r f.d = 0 then (s.takeUp r f.d).takeRing r fuel else s.takeOne r f.d
      else s

/-- The take-up pass (R383, R388): ring by ring in ascending number. A ring holds at most 16 prefetched descriptors (R382). -/
def State.takePass (s : State) : State := s.each s.allRings fun r t => (t.fenceCheck r).takeRing r 16

/-! ### The rows -/

def execNop (ring : Nat) (d : Desc) (s : State) : Answer := s.command fun s => s.takeRow 0x00 ring d
def execFence (ring : Nat) (d : Desc) (s : State) : Answer := s.command fun s => s.takeRow 0x01 ring d
def execWaitRc (ring : Nat) (d : Desc) (s : State) : Answer := s.command fun s => s.takeRow 0x02 ring d
def execSetProfile (ring : Nat) (d : Desc) (s : State) : Answer := s.command fun s => s.takeRow 0x10 ring d
def execMoveTo (ring : Nat) (d : Desc) (s : State) : Answer := s.command fun s => s.takeRow 0x11 ring d
def execMoveBy (ring : Nat) (d : Desc) (s : State) : Answer := s.command fun s => s.takeRow 0x12 ring d
def execVelocity (ring : Nat) (d : Desc) (s : State) : Answer := s.command fun s => s.takeRow 0x13 ring d
def execStop (ring : Nat) (d : Desc) (s : State) : Answer := s.command fun s => s.takeRow 0x14 ring d
def execQstop (ring : Nat) (d : Desc) (s : State) : Answer := s.command fun s => s.takeRow 0x15 ring d
def execResume (ring : Nat) (d : Desc) (s : State) : Answer := s.command fun s => s.takeRow 0x16 ring d
def execSetCurrent (ring : Nat) (d : Desc) (s : State) : Answer := s.command fun s => s.takeRow 0x17 ring d
def execHome (ring : Nat) (d : Desc) (s : State) : Answer := s.command fun s => s.takeRow 0x20 ring d
def execCharacterize (ring : Nat) (d : Desc) (s : State) : Answer := s.command fun s => s.takeRow 0x21 ring d
def execPlayTable (ring : Nat) (d : Desc) (s : State) : Answer := s.command fun s => s.takeRow 0x28 ring d
def execFollowSteps (ring : Nat) (d : Desc) (s : State) : Answer := s.command fun s => s.takeRow 0x29 ring d
def execBindCourse (ring : Nat) (d : Desc) (s : State) : Answer := s.command fun s => s.takeRow 0x30 ring d
def execUnbindCourse (ring : Nat) (d : Desc) (s : State) : Answer := s.command fun s => s.takeRow 0x31 ring d
def execSolPulse (ring : Nat) (d : Desc) (s : State) : Answer := s.command fun s => s.takeRow 0x38 ring d
def execSolHold (ring : Nat) (d : Desc) (s : State) : Answer := s.command fun s => s.takeRow 0x39 ring d
def execDiagOffstate (ring : Nat) (d : Desc) (s : State) : Answer := s.command fun s => s.takeRow 0x40 ring d
def execReadHistory (ring : Nat) (d : Desc) (s : State) : Answer := s.command fun s => s.takeRow 0x41 ring d
def execSetMode (ring : Nat) (d : Desc) (s : State) : Answer := s.command fun s => s.takeRow 0x42 ring d
def execNvCommit (ring : Nat) (d : Desc) (s : State) : Answer := s.command fun s => s.takeRow 0x43 ring d
def execSelfTest (ring : Nat) (d : Desc) (s : State) : Answer := s.command fun s => s.takeRow 0x44 ring d
def execSpareApprove (ring : Nat) (d : Desc) (s : State) : Answer := s.command fun s => s.takeRow 0x45 ring d

end Sys2Proof.Machine
end

