-- ==== Sys2Proof/Machine/Period.lean ====
section
/-! DEFINITION. The interpolation period (R30 to R36, R39, R43, R44, R71, R87, R140, R157, R175, R176, R195, R201, R250 to R257, R368, R373): what comes
about at a period boundary. What the table gives a row of its own is marked as due here and carried out by that row, or, where the row has not
come, at the opening of the next period (log entry 10). -/

namespace Sys2Proof.Machine

/-! ### The boundary (R30, R68, R71, R80, R81, R106, R119) -/

/-- SETTLE milliseconds of standstill have passed. -/
def Axis.settled (x : Axis) : Bool := x.watchable && !x.watch.on && decide (100 * fld x.regs.dispCfg 0 8 < x.watch.settle)

/-- DISPLACEMENT_WATCH_START (R255). -/
def State.watchStart (s : State) (a : Nat) : State :=
  if (s.axis a).settled then s.updAxis a fun x => { x with watch := { x.watch.fresh with on := true } } else s

def execDisplacementWatchStart (a : Nat) (s : State) : Answer := s.command fun s => s.watchStart a

/-- What the last boundary has left due, at its own DT. -/
def State.catchUp (s : State) : State :=
  let s := s.modeStep
  let s := s.eachUnit State.disableNow
  let s := s.rcBegin
  let s := s.eachUnit State.revEnd
  let s := s.eachUnit State.dwellOver
  let s := s.listedAxes.foldl State.powerAtBoundary s
  let s := s.eachUnit fun t k n => t.beginDue (.unit k n)
  let s := s.listedAxes.foldl State.watchStart s
  s.listedLegs.foldl (fun t p => t.pulseCommand p.1 p.2) s

/-- DT counts from now to the next period boundary. An alignment that places its first boundary too early for the period that runs lets that
period end where it would have ended, and the period behind it is the one that lasts 1,000 to 3,000 counts (R104). -/
def State.untilBoundary (s : State) : Nat :=
  match s.lastPeriod with
  | some t =>
    if s.dt ≤ s.boundaryAfter t then s.boundaryAfter t - s.dt
    else if s.dt ≤ t + 2000 then t + 2000 - s.dt
    else s.untilNext 2000 s.lastPeriod
  | none => s.untilNext 2000 s.lastPeriod

/-- The clock comes to the next period boundary. -/
def State.toBoundary (s : State) : State := s.pass s.untilBoundary

/-- The RC advance over the period just ended, in 2^-40 RC unit. -/
def State.advance (s : State) : Int := if s.ref.run then wrapS 80 ((s.ref.rc : Int) - s.ref.rcLast) else 0

/-- The boundary sample: REF_RATE, a step of the follower's RC, the correction that is due, and the start of the RC that is scheduled. The
step, which makes the sample of this boundary, is no advance over the period just ended (R71, R106; DESIGN CHOICE, log entry 81). -/
def State.sample (s : State) : State :=
  let rate := iwd (s.advance / 2 ^ 24)
  let s := s.loadStep
  let r := s.ref.tcApply
  { s with
    lastPeriod := some s.dt
    ref := { r with rate := rate, rcLast := if r.startPend then r.startValue else r.rc, startDue := r.startDue || r.startPend, startPend := false }
    str := { s.str with seq := (s.str.seq + 1) % 256, sinceSlip := s.str.sinceSlip + 1 }
    cfg := { s.cfg with clearing := [] }
    glb := { s.glb with freshRun := false }
    host := { s.host with pauseS := s.host.pauseS || s.paused } }

/-- The boundary is a tick boundary (R31). -/
def State.atTick (s : State) : Bool := decide (s.dt % 50000 = s.ref.phase % 50000)

/-! ### The period that ends (R39, R175, R176, R188, R191) -/

/-- The unit goes dead at this boundary: it runs no further period (R149). -/
def Motion.dies (m : Motion) : Bool := m.stopping.elim false Stopping.atOnce

/-- A stop ramp of the unit runs. -/
def Motion.stopRuns (m : Motion) : Bool := m.stopping.elim false Stopping.begun

/-- A period of the segment queue. -/
def State.queuePeriod (s : State) (k : UnitKind) (n : Nat) : State × Motion.PeriodEnd :=
  let r := (s.motion k n).period
  (s.updMotion k n fun _ => r.1, r.2)

/-- A period of a playback: the demanded position of the boundary sample, its end, or an underrun (R191 to R193). -/
def State.playPeriod (s : State) (k : UnitKind) (n : Nat) (p : Play) (adv : Int) : State :=
  if 256 * 2 ^ p.q * 2 ^ 40 < adv.natAbs then s.playUnderrun k n p
  else
    match p.locate s.ref.bound408 with
    | .before => s.trackUnit k n p.base
    | .done =>
      if p.bufFirst + p.buf.length < p.count then s.playUnderrun k n p
      else (s.trackUnit k n p.endPos).playOver k n Status.ok
    | .at i f =>
      if p.has i then
        (s.updMotion k n fun m => { m with play := m.play.map fun x => x.trim i }).trackUnit k n (p.demand i f)
      else s.playUnderrun k n p

/-- A period of a unit that no bond governs: its step follower, its streamer or its segments. -/
def State.ownPeriod (s : State) (k : UnitKind) (n : Nat) (adv : Int) : State × Motion.PeriodEnd :=
  let m := s.motion k n
  if !m.en || s.isBound k n || m.dies then (s, .none)
  else if m.stopRuns then s.queuePeriod k n
  else
    match m.follow, m.play with
    | some f, _ =>
      let r := f.period (s.followCount f)
      ((s.updMotion k n fun m => { m with follow := some r.1 }).trackUnit k n r.2, .none)
    | none, some p => if p.fin.isSome then s.queuePeriod k n else (s.playPeriod k n p adv, .none)
    | none, none => s.queuePeriod k n

/-- A bound course takes its coordinate from its parent's (R166, R176). -/
def State.courseBond (s : State) (c : Nat) : State :=
  match s.parentOf .course c with
  | none => s
  | some (p, slot) =>
    if s.isBound .course c then
      let y := s.bond ((s.course p).member slot) (s.course p).m.x
      s.updMotion .course c fun m => m.follow1 y
    else s

/-- The bound axes of a course follow their bonds. -/
def State.memberAxes (s : State) (c : Nat) : State :=
  (s.course c).members.foldl (fun t p =>
    if p.2.state = .bound ∧ p.2.kind = .axis ∧ !(t.axis p.2.index).m.dies then
      t.trackAxis p.2.index (t.bond p.2 (t.course c).m.x)
    else t) s

/-- What the ended period leaves to each unit, beside the state. -/
abbrev Ends := List ((UnitKind × Nat) × Motion.PeriodEnd)

/-- A course of a level. -/
def State.coursePeriod (s : State) (c : Nat) (adv : Int) : State × Motion.PeriodEnd :=
  let r := s.ownPeriod .course c adv
  ((r.1.courseBond c).memberAxes c, r.2)

/-- The period of every unit: courses from the top level down, each with its member axes, then the axes that no bond governs (R176). -/
def State.integrate (s : State) (adv : Int) : State × Ends :=
  let r := (List.range 8).foldl (fun (r : State × Ends) lvl =>
    (s.courses.map Prod.fst).foldl (fun (r : State × Ends) c =>
      if (r.1.course c).m.en && decide (r.1.level 8 c = lvl + 1) then
        let q := r.1.coursePeriod c adv
        (q.1, r.2 ++ [((.course, c), q.2)])
      else r) r) (s, [])
  s.listedAxes.foldl (fun (r : State × Ends) a =>
    let q := r.1.ownPeriod .axis a adv
    (q.1, r.2 ++ [((.axis, a), q.2)])) r

/-- The ends of the period: first what completes, then what starves. -/
def State.periodEnds (s : State) (l : Ends) : State :=
  let s := l.foldl (fun t p => t.periodEnd p.1.1 p.1.2 p.2) s
  (l.filter fun p => p.2.dry).foldl (fun t p => t.starve p.1.1 p.1.2) s

/-! ### The stall unit at a boundary (R250 to R254) -/

/-- The reaction to a declared stall outside stall homing (R253). The stall of a bound axis is a member event at every class, and POLICY acts on it
below HALT (R177). -/
def State.stallReact (s : State) (a : Nat) : State :=
  let x := s.axis a
  let src := 0x1C0 + a
  let c := s.classOf src
  let r := s.record src c (wd (a + x.stall.la * 2 ^ 8)) false
  let s := if s.isBound .axis a then r.1.memberReport a else r.1
  let s := (s.react c (.axis a) r.2 false none).settle c
  let bound := s.isBound .axis a
  match fld x.regs.stallCfg 28 2 with
  | 0 => if bound && c.policy then s.memberEvent a none else s
  | 1 =>
    let s := s.updMotion .axis a fun m => { m with posUnc := true }
    if !bound then s.postStop .axis a .stall
    else if c.policy then s.memberEvent a (some .stall) else s
  | _ => (s.isoAxis a r.2).settle c

/-- The angle of the boundary reaches the stall unit, and a stall latches the home point or is reacted to. -/
def State.stallStep (s : State) (a : Nat) : State :=
  if (s.axis a).m.en then
    let s := s.updAxis a fun x => { x with theta := thetaOf x.regs.comm x.m.pos }
    let r := s.stallBoundary a (s.axis a).stallThr
    if !r.2 then r.1
    else if (r.1.axis a).homeStalls then r.1.homeStall a
    else r.1.stallReact a
  else s

/-! ### Stops (R44, R149, R150) -/

/-- The cores complete what a unit owes whose legs were lost. A course whose engine has failed is disabled, and what waits on it is cancelled (R491). -/
def State.fallen (s : State) (k : UnitKind) (n : Nat) : State :=
  let s := s.beginStop k n
  if (s.motion k n).en then s else (s.cancelLater k n).updMotion k n fun m => { m with mode := .off }

/-- A stop that has reached a unit begins. A bound member follows its course, and only the loss of its legs stops it (R178). A unit whose legs
are lost stands from this boundary on, and what it owes is completed at the next planning tick (R508). -/
def State.stopStep (s : State) (k : UnitKind) (n : Nat) : State :=
  match (s.motion k n).stopping with
  | none => s
  | some st =>
    if st.atOnce && decide (st.cause = .hiz) then
      let s := if st.begun then s else s.updMotion k n Motion.fall
      if s.aftermath then s.fallen k n else s
    else if st.begun && !st.sweep then s
    else if s.isBound k n && !st.cause.dead then s.updMotion k n fun m => { m with stopping := none }
    else if s.spr.freeze && !st.cause.dead then s
    else s.beginStop k n

/-! ### Plans that change (R33, R46, R47, R60, R136, R139) -/

/-- At the end of a tick in which planning was paused what waited for its plan waits for the tick after the first one behind the pause. -/
def State.postpone (s : State) : State :=
  let next := if s.paused then s.dt + 100000 else s.dt + 50000
  let late (t : Nat) : Nat := if s.dt ≤ t then max t next else t
  let s := s.eachUnit fun t k n => t.updMotion k n fun m =>
    { m with own := m.own.map fun q => (q.1, late q.2)
             look := m.look.map fun v => { v with from_ := late v.from_ }
             later := m.later.map fun l => match l with
               | .follow f => .follow { f with from_ := late f.from_ }
               | .play p => .play { p with from_ := late p.from_ } }
  let s := s.listedAxes.foldl (fun t a => t.updAxis a fun x =>
    { x with home := x.home.map fun h => { h with from_ := late h.from_ }
             char := x.char.map fun h => { h with fromTick := late h.fromTick }
             setCur := x.setCur.map fun q => (q.1, q.2.1, late q.2.2.1, q.2.2.2) }) s
  { s with host := { s.host with binds := s.host.binds.map fun b => { b with from_ := late b.from_ } } }

/-- The cores have planned in the tick that ends at this boundary, and no pause has come since (R33, R46). -/
def State.tickPlanned (s : State) : Bool := s.atTick && s.host.planned && !s.paused

/-- What the cores have planned in the tick that ends is in the queues at its end, before the last period of it is over (R33, R40). -/
def State.feedAll (s : State) : State :=
  if s.tickPlanned then s.eachUnit fun t k n => if (t.motion k n).en then t.updMotion k n Motion.feed else t else s

/-- The plan of a moving unit takes in the moves that have joined its lookahead, and its queue is filled. -/
def State.extendStep (s : State) (k : UnitKind) (n : Nat) : State :=
  if (s.motion k n).en && !s.isBound k n then
    let p := s.mparam k n
    s.updMotion k n fun m => (m.extend p).feed
  else s

/-- The motions that operations have asked for begin. -/
def State.ownStep (s : State) (k : UnitKind) (n : Nat) : State :=
  match k with
  | .axis => s.ownStart n
  | .course => s

/-- A VELOCITY that has completed still runs (R136). -/
def Motion.velocityRuns (m : Motion) : Bool :=
  match m.act with
  | none => false
  | some a => a.silent && a.isVel && decide (a.opcode ≠ 0) && decide (a.opcode ≠ 0x30) && decide (m.v ≠ 0) && m.stopping.isNone && m.dwell.isNone

/-- What comes next for a unit in Velocity mode: an ungated move takes the motion over; what needs standstill completes with AXIS_MOVING
(R60, R146). -/
def State.velocityStep (s : State) (k : UnitKind) (n : Nat) : State :=
  let m := s.motion k n
  if m.en && m.velocityRuns && decide (s.glb.mode = .run) && !s.longRuns k n then
    match s.nextItem k n with
    | .move =>
      match m.look with
      | v :: rest =>
        if v.gate.isNone && !v.replace && decide (v.from_ ≤ s.dt) then (s.updMotion k n fun m => ({ m with look := rest }).take v).go k n else s
      | [] => s
    | .later =>
      match m.later with
      | l :: _ => if l.from_ ≤ s.dt then s.dropItem k n Status.axisMoving else s
      | [] => s
    | .home => if (s.axis n).home.elim false fun h => decide (h.from_ ≤ s.dt) then s.dropItem k n Status.axisMoving else s
    | .char => if (s.axis n).char.elim false fun h => decide (h.fromTick ≤ s.dt) then s.dropItem k n Status.axisMoving else s
    | .none => s
    | .bind => s
  else s

/-- A FOLLOW_STEPS or PLAY_TABLE that waits ends with the mode it waits in. -/
def State.laterWatch (s : State) (k : UnitKind) (n : Nat) : State :=
  if s.glb.mode = .run ∨ s.glb.mode = .hold ∨ s.unlearned then s
  else
    let st := s.glb.mode.leftStatus.1
    let s := (s.motion k n).later.foldl (fun t l => match l with
      | .follow f => t.complete f.tag (t.motionRecord k n f.word0 f.late false 0 none false st)
      | .play p => (t.complete p.tag (t.motionRecord k n p.word0 false false 0 none false st)).freeWindow k n) s
    s.updMotion k n fun m => { m with later := [] }

/-! ### Bookings and dwells (R145, R157, R160, R390) -/

/-- Something of the unit is in progress, for which its booking counts. -/
def State.inProgress (s : State) (k : UnitKind) (n : Nat) : Bool :=
  let m := s.motion k n
  !m.still || (m.act.isSome && !m.suspended) || m.dwell.isSome || m.follow.isSome || m.play.isSome || s.longRuns k n

/-- The booking of an axis: it counts one period beyond the standstill of the axis, or of the course that has started it. -/
def State.bookStep (s : State) (a : Nat) : State :=
  let busy := s.inProgress .axis a || (match (s.path 8 .axis a).getLast? with
    | some (c, _) => s.inProgress .course c
    | none => false)
  s.updMotion .axis a fun m =>
    if m.booked = 0 then m
    else if busy then { m with bookLeft := none }
    else match m.bookLeft with
      | none => { m with bookLeft := some 0 }
      | some 0 => { m with booked := 0, bookLeft := none }
      | some (b + 1) => { m with bookLeft := some b }

/-- A period of a reversal dwell has passed; with none left REV_DWELL_END is due for the move in progress, and a descriptor that has only waited is
evaluated at this boundary (R145, R419). -/
def Motion.dwellPeriod (m : Motion) : Motion :=
  { m with dwell := if m.act.isNone ∧ m.dwell.elim false (fun n => decide (n ≤ 1)) then none else m.dwell.map fun n => n - 1
           rest := m.rest - 1 }

/-- The budgets that writes have set come into force. -/
def State.budgets (s : State) : State := { s with host := { s.host with inForce := s.host.budget } }

/-- The bookings at the boundary. -/
def State.usedAtBoundary (s : State) : State :=
  { s with host := { s.host with used := s.allTiles.map fun t => (t, s.bookedIn t) } }

/-! ### Current and chopper (R195, R201, R210, R255) -/

/-- The SET_CURRENTs of an axis whose tick has come take effect and complete; the displacement watch settles anew. -/
def State.currentStep (s : State) (a : Nat) : State :=
  let due := (s.axis a).setCur.filter fun q => decide (q.2.2.1 ≤ s.dt)
  if due = [] then s
  else
    let s := s.updAxis a fun x =>
      let y := due.foldl (fun (x : Axis) q => { x with liveTbl := q.1.getD x.liveTbl, liveRun := q.2.1.getD x.liveRun }) x
      Axis.unarm { y with setCur := x.setCur.filter (fun q => !decide (q.2.2.1 ≤ s.dt)), watch := y.watch.stop }
    due.foldl (fun t q => t.complete q.2.2.2.1 (t.mkRecord q.2.2.2.2 [] (t.uncFlag (.unit .axis a)) Status.ok)) s

/-- The generator delivers the set-points of an enabled axis, and its coils commutate. -/
def State.deliverStep (s : State) (a : Nat) : State :=
  if (s.axis a).m.en then
    let s := s.deliver a
    if (s.axis a).driven then (s.commutate a .A).commutate a .B else s
  else s

/-- The displacement watch counts its settle time at standstill, or ends. -/
def State.watchStep (s : State) (a : Nat) : State :=
  s.updAxis a fun x =>
    if x.watchable then { x with watch := { x.watch with settle := if x.watch.on then x.watch.settle else x.watch.settle + 1 } }
    else { x with watch := x.watch.stop }

/-! ### The host link at a boundary (R368, R373, R374, R415) -/

/-- The doorbell read of a boundary, or a read that is skipped. -/
def State.doorbellStep (s : State) : State :=
  match s.glb.mode, s.glb.anchor with
  | .sealed, _ => s
  | .configure, _ => s
  | _, none => s
  | _, some a =>
    let h := s.host
    let h : HostB := { h with dbStale := min 101 (h.dbStale + 1) }
    let s : State :=
      if h.dbOut then
        { s with host := { h with dbMiss := satAdd 65535 h.dbMiss 1, flags := h.flags ||| bw true 3 } }
      else if s.canIssue then ({ s with host := { h with dbOut := true } }).request .doorbell (.readRequest a (4 * s.variant.rings))
      else { s with host := h }
    if s.host.dbStale = 100 then
      ({ s with host := { s.host with flags := s.host.flags ||| bw true 2 } }).fault srcHostLinkErr (wd s.host.dbMiss) .none
    else s

/-- Vector 15 is sent at most once in a planning tick, which begins at its boundary. -/
def State.vector15 (s : State) : State :=
  let sent := s.host.v15Sent && !s.atTick
  if s.host.v15Due && !sent then
    ({ s with host := { s.host with v15Due := false, v15Sent := true } }).sendVector 15
  else { s with host := { s.host with v15Sent := sent } }

/-- The WAIT_RCs of rings that run are evaluated on the boundary sample. -/
def State.waitRcs (s : State) : State :=
  if s.glb.mode = .sealed ∨ s.glb.mode = .configure then s else s.allRings.foldl State.waitRcStep s

/-! ### The whole boundary -/

/-- A mode request is due, and would take the device out of Run: no start begins (R157). -/
def State.leavesRun (s : State) : Bool :=
  decide (s.glb.mode = .run) && s.glb.reqDue &&
  (match s.glb.modeReq, s.glb.setMode with
   | some t, _ => (s.refusal t).isNone
   | none, (t, _) :: _ => (s.refusal t).isNone
   | none, [] => false)

/-- What rows of their own carry out at this boundary is marked as due (R56, R152, R308). -/
def State.markDue (s : State) : State :=
  let s := { s with glb := { s.glb with reqDue := s.glb.modeReq.isSome || s.setModeDue } }
  let s := s.eachUnit fun t k n => t.updMotion k n fun m => { m with disDue := m.disDue || m.disPend, disPend := false }
  s.listedAxes.foldl (fun t a => t.updAxis a fun x =>
    { x with powerDue := decide (t.glb.mode = .run ∨ t.glb.mode = .hold) && t.mayEnergize a }) s

/-- A unit that is to be disabled at this boundary starts nothing. -/
def State.withhold (s : State) : State :=
  s.eachUnit fun t k n => if (t.motion k n).disDue then t.updMotion k n fun m => { m with start := .none, held := false } else t

/-- The units at a boundary: the runners and engines whose check has failed, which do not carry the period out (R488), the ended period, stops, plans,
starts and operations. -/
def State.unitsAtBoundary (s : State) (adv : Int) (o : PeriodObs) : State :=
  let frozen := s.spr.freeze
  let s := if frozen then s else s.eachUnit fun t k n => t.updMotion k n Motion.dwellPeriod
  let s := o.runnerFail.foldl State.runnerFails s
  let s := o.engineFail.foldl State.engineFails s
  let r := if frozen then (s, []) else s.feedAll.integrate adv
  let s := r.1.periodEnds r.2
  let s := if frozen then s else s.listedAxes.foldl State.stallStep s
  let s := s.listedAxes.foldl (fun t a => (t.homeWatch a).charWatch a) s
  let s := s.eachUnit State.stopStep
  let s := s.eachUnit State.carryDeferred
  let s := s.eachUnit State.laterWatch
  let s := s.unreadyAll
  let s := s.listedAxes.foldl State.currentStep s
  let s := s.budgets
  let s := s.listedAxes.foldl State.bookStep s
  let s := s.listedLegs.foldl (fun t p => t.legTick p.1 p.2) s
  let s := s.markDue.withhold
  if frozen then s
  else
    let s := if s.tickPlanned then (s.eachUnit State.extendStep).eachUnit State.ownStep else s
    let s := s.eachUnit State.velocityStep
    let s := s.bonds
    let s := s.eachUnit State.dwellTick
    let s := if s.leavesRun then s else s.startsAll
    s.listedAxes.foldl (fun t a => (t.homeStep a).charStep a) s

/-- The current generators and the watches at a boundary. -/
def State.coilsAtBoundary (s : State) : State :=
  if s.spr.freeze then s
  else
    let s := s.listedAxes.foldl State.deliverStep s
    s.listedAxes.foldl State.watchStep s

/-- INTERPOLATION_PERIOD. -/
def State.interpolate (s : State) (o : PeriodObs) : State :=
  let s := s.catchUp.toBoundary
  let adv := s.advance
  let s := s.sample.leftByLock.answerOvertaken
  let s := if s.aftermath then s.payOwed else s
  let s := (s.inputPaths o.differ).sramInject.policyAuto
  let s := if s.atTick && (s.paused || !s.host.planned) then s.postpone else s
  let s := s.unitsAtBoundary adv o
  let s := { s with host := { s.host with planned := if s.atTick then !s.paused else s.host.planned } }
  let s := s.coilsAtBoundary.diagStep.approveAll
  let s := if s.cfg.nvWrite.isSome && s.thm.shut then s.nvAbort else s
  let s := (s.each s.allTiles fun t u => u.updTile t Tile.supplySlots).usedAtBoundary
  let s := if s.spr.freeze then s.waitRcs else s.waitRcs.streamAll
  s.readTimeouts.doorbellStep.vector15.upSend

def execInterpolationPeriod (o : PeriodObs) (s : State) : Answer := s.command fun s => s.interpolate o

end Sys2Proof.Machine
end

