-- ==== Sys2Proof/Machine/Tick.lean ====
section
/-! DEFINITION. The planning tick (R31 to R33, R40, R47, R366, R367, R371, R374, R375, R381, R383 to R387, R474): take-up, planning, write-backs,
the status area and the completion vectors. -/

namespace Sys2Proof.Machine

/-! ### The status area (R375) -/

/-- The two words of a 64-bit number. -/
def two (n : Nat) : List Word := [wd n, wd (n / 2 ^ 32)]

/-- A tile holds a start back for its budget (R158). -/
def State.tileHolds (s : State) (t : Nat) : Bool :=
  (s.axes.any fun p => p.2.m.held && decide (axisTile p.1 = t)) ||
  (s.courses.any fun p => p.2.m.held && (s.boundAxes 8 p.1).any fun a => decide (axisTile a = t)) ||
  ((s.tile t).legs.any fun p => p.2.startHeld)

/-- HOST_SUM. -/
def State.hostSum (s : State) : Word :=
  wd (mask s.allTiles s.tileHolds * 2 ^ 20 + mask s.allTiles (fun t => (s.thmTile t).throt) * 2 ^ 8 + b2n s.host.pauseS * 2 ^ 7 +
    b2n s.glb.bkpActive * 2 ^ 6 + b2n s.nvBlock * 2 ^ 5)

/-- The highest class among unacknowledged records, 0xF without one. -/
def State.topHeld (s : State) : Nat :=
  match s.flt.hist.filter fun e => !e.ack with
  | [] => 15
  | e :: l => l.foldl (fun m x => max m x.cls.code) e.cls.code

/-- FLT_SUM. -/
def State.fltSum (s : State) : Word :=
  wd (s.flt.hist.length * 2 ^ 24 + s.topHeld * 2 ^ 20 + b2n s.nfault * 2 ^ 16 + s.flt.lastSrc % 1024)

/-- How many of a list a test picks. -/
def count (l : List α) (p : α → Bool) : Nat := (l.filter p).length

/-- Broken temperature sensors. -/
def State.brokenSensors (s : State) : Nat := (s.allTiles.map fun t => b2n (s.thmTile t).broken0 + b2n (s.thmTile t).broken1).sum

/-- Failed coil comparators of a tile whose spare has been steered are in use; the spare itself has failed when it is not good. -/
def State.steered (s : State) : Nat := count s.allTiles fun t => (s.tile t).steered
def State.sparesFailed (s : State) : Nat := count s.allTiles fun t => !(s.tile t).spareOk

/-- Spare runner slots in use. -/
def State.slotsUsed (s : State) : Nat := count s.spr.slots fun p => p.2.used && !p.2.retired

/-- SRAM spare rows in use. -/
def State.rowsInUse (s : State) : Nat := min 32 (Bank.get 0 s.spr.rowsUsed 0) + min 32 (Bank.get 0 s.spr.rowsUsed 1)

/-- SPR_SUM0. -/
def State.sprSum0 (s : State) : Word :=
  wd (s.rowsInUse * 2 ^ 24 + s.brokenSensors * 2 ^ 16 + s.slotsUsed * 2 ^ 12 + s.steered * 2 ^ 8 + coreMask s.retiredCores * 2 ^ 4 + coreMask s.voting)

/-- Gate-driver segments retired, and spare segments in use. -/
def State.segsRetired (s : State) : Nat :=
  (s.listedLegs.map fun p => (s.leg p.1 p.2).hi.retiredCount + (s.leg p.1 p.2).lo.retiredCount).sum
def State.segsSpare (s : State) : Nat :=
  (s.listedLegs.map fun p => (s.leg p.1 p.2).hi.sparesUsed + (s.leg p.1 p.2).lo.sparesUsed).sum

/-- Spares that await SPARE_APPROVE (R493). The field has 8 bits; beyond it the value is free (log entry 2). -/
def State.awaiting (s : State) : Nat :=
  let n := s.segPend.length + (count s.allTiles fun t => (s.tile t).cmpPend) + b2n s.spr.corePend + min s.runPending.length s.freeSlots.length + s.rowsPend 0 + s.rowsPend 1
  if n < 256 then n else (Config.openDetail s.dt).toNat % 256

/-- A spare is in use, or a unit is retired (R492). -/
def State.degraded (s : State) : Bool :=
  decide (s.rowsInUse + s.brokenSensors + s.slotsUsed + s.steered + s.segsRetired + s.segsSpare + s.sparesFailed ≠ 0) ||
  !s.retiredCores.isEmpty || !s.spr.aIn || !s.spr.bIn || s.glb.bkpActive || (s.spr.slots.any fun p => p.2.retired) ||
  (s.spr.runRetired.any fun p => p.2) || (s.spr.engRetired.any fun p => p.2) || (s.tiles.any fun p => decide (p.2.failed ≠ 0))

/-- SPR_SUM1. -/
def State.sprSum1 (s : State) : Word :=
  wd (s.segsRetired * 2 ^ 16 + s.awaiting * 2 ^ 8 + s.sparesFailed * 2 ^ 4 + b2n s.glb.bkpActive * 8 + b2n s.spr.bIn * 4 + b2n s.spr.aIn * 2 +
    b2n s.degraded)

/-- The bytes from 0x104 to 0x1FF: the state at the boundary. -/
def State.statusWords (s : State) : List Word :=
  [s.modeWord s.settling, s.hostSum, 0] ++ two s.ref.rc64 ++ two s.dt ++ [s.fltSum, wd s.flt.seq] ++ two s.flt.lastDt ++ List.replicate 4 0 ++
  [s.sprSum0, s.sprSum1] ++ List.replicate 6 0 ++
  two (mask s.allRings fun r => decide ((s.ring r).state ≠ .off)) ++
  two (mask s.allRings fun r => decide ((s.ring r).state = .error)) ++
  two (mask s.allRings fun r => (s.ring r).quotaWait) ++ two 0 ++
  two (mask s.allAxes fun a => decide ((s.axis a).m.v ≠ 0)) ++
  two (mask s.allAxes fun a => (s.axis a).m.posUnc) ++
  [wd (mask s.allCourses fun c => decide ((s.course c).m.v ≠ 0))] ++ List.replicate 27 0

/-- The status area is written in ascending order: SEQ_HEAD and the state at the boundary, the consumer indices of present rings, the rest
with SEQ_TAIL (R374). -/
def State.writeStatus (s : State) (ws : List Word) : State :=
  match s.glb.mode, s.glb.anchor with
  | .sealed, _ => s
  | _, none => s
  | _, some a =>
    let seq := wd s.host.tickNo
    let s := s.post (.memWrite (a + 0x100) (seq :: ws))
    let s := s.post (.memWrite (a + 0x200) (s.allRings.map fun r => wd (s.ring r).ci))
    s.post (.memWrite (a + 0x300) (List.replicate 63 0 ++ [seq]))

/-! ### Write-backs (R381, R385 to R387, R397) -/

/-- The outstanding descriptors that are written back in the tick of boundary `now`: those from CI on that completed before the boundary, or
that this tick took up. -/
def writable (now : Nat) : List Outst → List Outst
  | [] => []
  | o :: r => if o.record.isSome ∧ (o.doneDt < now ∨ o.takeDt = now) then o :: writable now r else []

/-- The two writes of a write-back: words 0 to 6, then word 7. -/
def State.writeBack (s : State) (r : Nat) (o : Outst) : State :=
  let w := o.record.getD []
  let at_ := (s.ring r).slot o.index
  (s.post (.memWrite at_ (w.take 7))).post (.memWrite (at_ + 28) (w.drop 7))

/-- The write-backs of a ring; a draining ring that has written back its last descriptor is OFF. Answers whether its consumer index differs
from that of the last tick by other than the write-backs of long operations (R367). -/
def State.ringBack (s : State) (r : Nat) : State × Bool :=
  let l := writable s.dt (s.ring r).outst
  let long : Nat := (l.filter fun (o : Outst) => isLong (fld o.word0 0 8)).length
  let moved : Bool := decide (sub32 ((s.ring r).ci + l.length) ((s.ring r).area + long) ≠ 0)
  let s := l.foldl (fun t o => t.writeBack r o) s
  let s := s.updRing r fun x =>
    let out := x.outst.drop l.length
    { x with outst := out
             ci := (x.ci + l.length) % 2 ^ 32
             area := (x.ci + l.length) % 2 ^ 32
             state := if x.state = .drain ∧ out = [] then .off else x.state }
  (s, moved)

/-- The write-backs of all rings, and the rings whose index they moved. -/
def State.writeBacks (s : State) : State × List Nat :=
  s.allRings.foldl (fun (q : State × List Nat) r =>
    let b := q.1.ringBack r
    (b.1, if b.2 then q.2 ++ [r] else q.2)) (s, [])

/-- The completion vectors: each that one or more rings ask for is sent once (R366, R367). -/
def State.vectors (s : State) (rs : List Nat) : State :=
  let asks (v : Nat) : Bool := rs.any fun r => bit (s.ring r).ctrl 16 && decide (fld (s.ring r).ctrl 20 4 = v)
  (List.range 15).foldl (fun t v => if asks v then t.sendVector v else t) s

/-! ### The tick -/

/-- The clock comes to the tick boundary; a new anchor is in effect, and what a tick counts begins anew. -/
def State.toTick (s : State) : State :=
  let s := s.pass (s.untilNext 50000 s.lastTick)
  let k := match s.lastTick with
    | none => (s.dt - s.ref.phase % 50000) / 50000
    | some t => s.host.tickNo + max 1 ((s.dt - t) / 50000)
  let s := { s with
    lastTick := some s.dt
    host := { s.host with tickNo := k }
    str := { s.str with discTick := [] }
    glb := { s.glb with anchor := s.glb.anchorNext.orElse (fun _ => s.glb.anchor), anchorNext := none } }
  s.outTicks

/-- After a pause the cores first refill every queue (R47). A queue that runs dry within the tick is not reached in time (R33). -/
def State.refillAll (s : State) : State :=
  if s.host.refill then
    let s := s.eachUnit fun t k n => if (t.motion k n).en && decide (25 ≤ (t.motion k n).left) then t.updMotion k n Motion.feed else t
    { s with host := { s.host with refill := false } }
  else s

/-- The cores' work of a tick: descriptors are taken up and planned, and what is owed to the host is written in the order of R387. What is planned
for the queues is in them at the end of the tick (R33); the first tick behind a pause fills them before it takes a descriptor up (R47). -/
def State.planTick (s : State) : State :=
  let ws := s.statusWords
  let s := s.refillAll.takePass.selfTestStep.updateOsbs
  let b := s.writeBacks
  let s := (b.1.writeStatus ws).vectors b.2
  { s with host := { s.host with pauseS := false } }

/-- The waits for quota of the tick that begins are noted anew (R375). -/
def State.newWaits (s : State) : State := s.allRings.foldl (fun t r => t.updRing r fun x => { x with quotaWait := false }) s

/-- PLANNING_TICK. -/
def State.tick (s : State) (o : TickObs) : State :=
  let s := s.toTick.voterCheck o
  (if s.paused ∨ s.glb.mode = .sealed then s else s.planTick).newWaits

def execPlanningTick (o : TickObs) (s : State) : Answer := s.command fun s => s.tick o

end Sys2Proof.Machine
end

