-- ==== Sys2Proof/Machine/Dispatch.lean ====
section
/-! DEFINITION. The effect of each command, one arm for each row of the opcode table. -/

namespace Sys2Proof.Machine

def exec (i : Instr) (s : State) : Host.Outcome State Fault Refusal :=
  match i with
  -- descriptor operations: the ring and the descriptor at its TI
  | .nop ring d => Sys2Proof.Machine.execNop ring d s
  | .fence ring d => Sys2Proof.Machine.execFence ring d s
  | .waitRc ring d => Sys2Proof.Machine.execWaitRc ring d s
  | .setProfile ring d => Sys2Proof.Machine.execSetProfile ring d s
  | .moveTo ring d => Sys2Proof.Machine.execMoveTo ring d s
  | .moveBy ring d => Sys2Proof.Machine.execMoveBy ring d s
  | .velocity ring d => Sys2Proof.Machine.execVelocity ring d s
  | .stop ring d => Sys2Proof.Machine.execStop ring d s
  | .qstop ring d => Sys2Proof.Machine.execQstop ring d s
  | .resume ring d => Sys2Proof.Machine.execResume ring d s
  | .setCurrent ring d => Sys2Proof.Machine.execSetCurrent ring d s
  | .home ring d => Sys2Proof.Machine.execHome ring d s
  | .characterize ring d => Sys2Proof.Machine.execCharacterize ring d s
  | .playTable ring d => Sys2Proof.Machine.execPlayTable ring d s
  | .followSteps ring d => Sys2Proof.Machine.execFollowSteps ring d s
  | .bindCourse ring d => Sys2Proof.Machine.execBindCourse ring d s
  | .unbindCourse ring d => Sys2Proof.Machine.execUnbindCourse ring d s
  | .solPulse ring d => Sys2Proof.Machine.execSolPulse ring d s
  | .solHold ring d => Sys2Proof.Machine.execSolHold ring d s
  | .diagOffstate ring d => Sys2Proof.Machine.execDiagOffstate ring d s
  | .readHistory ring d => Sys2Proof.Machine.execReadHistory ring d s
  | .setMode ring d => Sys2Proof.Machine.execSetMode ring d s
  | .nvCommit ring d => Sys2Proof.Machine.execNvCommit ring d s
  | .selfTest ring d => Sys2Proof.Machine.execSelfTest ring d s
  | .spareApprove ring d => Sys2Proof.Machine.execSpareApprove ring d s
  -- register accesses: the BAR0 offset or the number of the unit, and the word written
  | .glbModeReqWrite v => Sys2Proof.Machine.execGlbModeReqWrite v s
  | .modeRequestTaken => Sys2Proof.Machine.execModeRequestTaken s
  | .anchorSet v => Sys2Proof.Machine.execAnchorSet v s
  | .refRcLoRead => Sys2Proof.Machine.execRefRcLoRead s
  | .loRegisterRead off => Sys2Proof.Machine.execLoRegisterRead off s
  | .rocRead off => Sys2Proof.Machine.execRocRead off s
  | .narrowRead addr en => Sys2Proof.Machine.execNarrowRead addr en s
  | .narrowWrite addr en bytes => Sys2Proof.Machine.execNarrowWrite addr en bytes s
  | .registerWrite off v => Sys2Proof.Machine.execRegisterWrite off v s
  | .crsCamDataAccess v => Sys2Proof.Machine.execCrsCamDataAccess v s
  | .fltHistSelWrite v => Sys2Proof.Machine.execFltHistSelWrite v s
  | .fltAck v => Sys2Proof.Machine.execFltAck v s
  | .fltInjArm v => Sys2Proof.Machine.execFltInjArm v s
  | .fltInjDisarm v => Sys2Proof.Machine.execFltInjDisarm v s
  | .fltPinLevel v => Sys2Proof.Machine.execFltPinLevel v s
  | .clrUnc k n v => Sys2Proof.Machine.execClrUnc k n v s
  | .clrTrip t l v => Sys2Proof.Machine.execClrTrip t l v s
  | .clrIso t v => Sys2Proof.Machine.execClrIso t v s
  | .inpSafeClr j v => Sys2Proof.Machine.execInpSafeClr j v s
  | .train v => Sys2Proof.Machine.execTrain v s
  | .arm t l v => Sys2Proof.Machine.execArm t l v s
  | .legPwmPerWrite t l v => Sys2Proof.Machine.execLegPwmPerWrite t l v s
  | .commit v => Sys2Proof.Machine.execCommit v s
  | .uncommit v => Sys2Proof.Machine.execUncommit v s
  | .cfgCrcRefWrite v => Sys2Proof.Machine.execCfgCrcRefWrite v s
  | .cfgLockWrite v => Sys2Proof.Machine.execCfgLockWrite v s
  | .unitEnable k n v => Sys2Proof.Machine.execUnitEnable k n v s
  | .unitDisable k n v => Sys2Proof.Machine.execUnitDisable k n v s
  | .disableTakesEffect k n => Sys2Proof.Machine.execDisableTakesEffect k n s
  | .refEnable v => Sys2Proof.Machine.execRefEnable v s
  | .rcStart => Sys2Proof.Machine.execRcStart s
  | .refDisable v => Sys2Proof.Machine.execRefDisable v s
  | .tcompEnWrite v => Sys2Proof.Machine.execTcompEnWrite v s
  | .hostEnable v => Sys2Proof.Machine.execHostEnable v s
  | .hostDisable v => Sys2Proof.Machine.execHostDisable v s
  | .ringEnable r v => Sys2Proof.Machine.execRingEnable r v s
  | .ringDisable r v => Sys2Proof.Machine.execRingDisable r v s
  | .hostRingQuotaWrite r v => Sys2Proof.Machine.execHostRingQuotaWrite r v s
  | .hostTileBudgetWrite t v => Sys2Proof.Machine.execHostTileBudgetWrite t v s
  | .tileCtrlEnWrite t v => Sys2Proof.Machine.execTileCtrlEnWrite t v s
  | .legModeWrite t l v => Sys2Proof.Machine.execLegModeWrite t l v s
  | .stepPairEnable n v => Sys2Proof.Machine.execStepPairEnable n v s
  | .encoderEnable n v => Sys2Proof.Machine.execEncoderEnable n v s
  | .inpFiltWrite j v => Sys2Proof.Machine.execInpFiltWrite j v s
  | .policyAutomatic => Sys2Proof.Machine.execPolicyAutomatic s
  -- clocked steps and bus completions
  | .interpolationPeriod o => Sys2Proof.Machine.execInterpolationPeriod o s
  | .doorbellReadComplete pis => Sys2Proof.Machine.execDoorbellReadComplete pis s
  | .prefetchComplete ring ok ds => Sys2Proof.Machine.execPrefetchComplete ring ok ds s
  | .parameterReadComplete ring ok param => Sys2Proof.Machine.execParameterReadComplete ring ok param s
  | .planningTick o => Sys2Proof.Machine.execPlanningTick o s
  | .quotaRefill => Sys2Proof.Machine.execQuotaRefill s
  | .crcPassStart => Sys2Proof.Machine.execCrcPassStart s
  | .crcPassEnd => Sys2Proof.Machine.execCrcPassEnd s
  | .coreScrub sigs => Sys2Proof.Machine.execCoreScrub sigs s
  | .sramScrubRead word f => Sys2Proof.Machine.execSramScrubRead word f s
  | .rowSpareCopyComplete row => Sys2Proof.Machine.execRowSpareCopyComplete row s
  | .streamReadComplete w ok bytes => Sys2Proof.Machine.execStreamReadComplete w ok bytes s
  | .revDwellEnd k n => Sys2Proof.Machine.execRevDwellEnd k n s
  | .throttleDwellEnd k n => Sys2Proof.Machine.execThrottleDwellEnd k n s
  | .startRelease k n => Sys2Proof.Machine.execStartRelease k n s
  | .axisEnergize a => Sys2Proof.Machine.execAxisEnergize a s
  | .displacementWatchStart a => Sys2Proof.Machine.execDisplacementWatchStart a s
  | .solPulseStart t l => Sys2Proof.Machine.execSolPulseStart t l s
  | .pullInEnd t l => Sys2Proof.Machine.execPullInEnd t l s
  | .holdEnd t l => Sys2Proof.Machine.execHoldEnd t l s
  | .freewheelEnd t l => Sys2Proof.Machine.execFreewheelEnd t l s
  | .diagLegPhaseEnd t first second => Sys2Proof.Machine.execDiagLegPhaseEnd t first second s
  | .nvStepComplete ok => Sys2Proof.Machine.execNvStepComplete ok s
  | .resetRelease en primaryGood => Sys2Proof.Machine.execResetRelease en primaryGood s
  | .internalReset => Sys2Proof.Machine.execInternalReset s
  | .bootComplete o => Sys2Proof.Machine.execBootComplete o s
  | .sealedToConfigure => Sys2Proof.Machine.execSealedToConfigure s
  | .logicSupplyFail => Sys2Proof.Machine.execLogicSupplyFail s
  -- pins, supplies, comparators and timers
  | .enLow => Sys2Proof.Machine.execEnLow s
  | .vgateUv t => Sys2Proof.Machine.execVgateUv t s
  | .vgateOv t => Sys2Proof.Machine.execVgateOv t s
  | .vmUv t => Sys2Proof.Machine.execVmUv t s
  | .vmOv t => Sys2Proof.Machine.execVmOv t s
  | .bstUv t l => Sys2Proof.Machine.execBstUv t l s
  | .prechargeTimeout t l => Sys2Proof.Machine.execPrechargeTimeout t l s
  | .handshakeConfirm t l sw => Sys2Proof.Machine.execHandshakeConfirm t l sw s
  | .deadTimeEnd t l sw => Sys2Proof.Machine.execDeadTimeEnd t l sw s
  | .gateHsTimeout t l sw => Sys2Proof.Machine.execGateHsTimeout t l sw s
  | .crossCmd t l => Sys2Proof.Machine.execCrossCmd t l s
  | .gateEdgeMeasured t l sw on ticks seg deviates => Sys2Proof.Machine.execGateEdgeMeasured t l sw on ticks seg deviates s
  | .segmentConductsOff t l sw seg => Sys2Proof.Machine.execSegmentConductsOff t l sw seg s
  | .desaturation t l sw => Sys2Proof.Machine.execDesaturation t l sw s
  | .grossDesaturation t l sw => Sys2Proof.Machine.execGrossDesaturation t l sw s
  | .shuntTrip t l => Sys2Proof.Machine.execShuntTrip t l s
  | .reactionWindowEnd rec => Sys2Proof.Machine.execReactionWindowEnd rec s
  | .nfaultPulseEnd => Sys2Proof.Machine.execNfaultPulseEnd s
  | .coilComparatorTrip a c ticks spare => Sys2Proof.Machine.execCoilComparatorTrip a c ticks spare s
  | .blankingEnd a c above spare => Sys2Proof.Machine.execBlankingEnd a c above spare s
  | .onTimeSaturation a c spareTripped => Sys2Proof.Machine.execOnTimeSaturation a c spareTripped s
  | .fastPortionEnd a c => Sys2Proof.Machine.execFastPortionEnd a c s
  | .offTimeEnd a c => Sys2Proof.Machine.execOffTimeEnd a c s
  | .spareTakeover t => Sys2Proof.Machine.execSpareTakeover t s
  | .pwmPeriodBoundary t l => Sys2Proof.Machine.execPwmPeriodBoundary t l s
  | .pwmDriveOn t l => Sys2Proof.Machine.execPwmDriveOn t l s
  | .pwmDriveOff t l => Sys2Proof.Machine.execPwmDriveOff t l s
  | .converterTrigger t l which => Sys2Proof.Machine.execConverterTrigger t l which s
  | .adcConversionDone t code => Sys2Proof.Machine.execAdcConversionDone t code s
  | .senseQualifiedEdge n level earlier => Sys2Proof.Machine.execSenseQualifiedEdge n level earlier s
  | .inputKnown n samples => Sys2Proof.Machine.execInputKnown n samples s
  | .stpEdge n dirHigh => Sys2Proof.Machine.execStpEdge n dirHigh s
  | .encoderEdge n up both => Sys2Proof.Machine.execEncoderEdge n up both s
  | .encoderIndexEdge n => Sys2Proof.Machine.execEncoderIndexEdge n s
  | .encoderRateTimeout n => Sys2Proof.Machine.execEncoderRateTimeout n s
  | .lineEdge e => Sys2Proof.Machine.execLineEdge e s
  | .lineHoldover n => Sys2Proof.Machine.execLineHoldover n s
  | .lineLost n => Sys2Proof.Machine.execLineLost n s
  | .thermalSample t s0 s1 => Sys2Proof.Machine.execThermalSample t s0 s1 s
  | .dieTempUpdate => Sys2Proof.Machine.execDieTempUpdate s
  | .syncSend => Sys2Proof.Machine.execSyncSend s
  | .syncReceive frame => Sys2Proof.Machine.execSyncReceive frame s
  | .syncMissing => Sys2Proof.Machine.execSyncMissing s
  | .faultFrameReceive port frame => Sys2Proof.Machine.execFaultFrameReceive port frame s
  | .upstatusReceive frame => Sys2Proof.Machine.execUpstatusReceive frame s
  | .linkAlignmentGained port => Sys2Proof.Machine.execLinkAlignmentGained port s
  | .trainReqSend => Sys2Proof.Machine.execTrainReqSend s
  | .trainReqReceive port frame wait => Sys2Proof.Machine.execTrainReqReceive port frame wait s
  | .trainEchoReceive frame rtt => Sys2Proof.Machine.execTrainEchoReceive frame rtt s
  | .oscSwitch => Sys2Proof.Machine.execOscSwitch s
  | .returnToPrimary => Sys2Proof.Machine.execReturnToPrimary s
  | .oscBkpFail => Sys2Proof.Machine.execOscBkpFail s
  | .clkLost => Sys2Proof.Machine.execClkLost s
  | .hostLinkDown cause => Sys2Proof.Machine.execHostLinkDown cause s
  | .hotReset => Sys2Proof.Machine.execHotReset s
  | .busWriteVote c0 c1 c2 agree => Sys2Proof.Machine.execBusWriteVote c0 c1 c2 agree s
  | .delayParity slot check => Sys2Proof.Machine.execDelayParity slot check s
  | .resyncComplete matches' => Sys2Proof.Machine.execResyncComplete matches' s
  | .repetitionPassed => Sys2Proof.Machine.execRepetitionPassed s
  | .pairDisagree => Sys2Proof.Machine.execPairDisagree s
  | .knownAnswerTestEnd passed => Sys2Proof.Machine.execKnownAnswerTestEnd passed s
  | .dbgFreeze => Sys2Proof.Machine.execDbgFreeze s
  | .freezeRelease => Sys2Proof.Machine.execFreezeRelease s
  | .coreHold => Sys2Proof.Machine.execCoreHold s
  | .coreHoldRelease => Sys2Proof.Machine.execCoreHoldRelease s
  | .refoutPulseEnd n => Sys2Proof.Machine.execRefoutPulseEnd n s
  | .vgateGood t => Sys2Proof.Machine.execVgateGood t s
  | .vmGood t => Sys2Proof.Machine.execVmGood t s
  | .bootstrapGood t l => Sys2Proof.Machine.execBootstrapGood t l s
  | .enHigh => Sys2Proof.Machine.execEnHigh s
  | .primaryOscGood => Sys2Proof.Machine.execPrimaryOscGood s
  | .hostLinkUp => Sys2Proof.Machine.execHostLinkUp s
  | .straitAlignmentLost port => Sys2Proof.Machine.execStraitAlignmentLost port s
  | .stepPairDisable n v => Sys2Proof.Machine.execStepPairDisable n v s
  | .refoutMark n => Sys2Proof.Machine.execRefoutMark n s
  | .shadowCheckTimeout t => Sys2Proof.Machine.execShadowCheckTimeout t s
  | .dbgTapInstruction ti => Sys2Proof.Machine.execDbgTapInstruction ti s

end Sys2Proof.Machine
end

