-- ==== Sys2Proof/Safety.lean ====
section
/-! DEFINITION. What the statements speak of: the invariant that every command keeps, kinds of commands, the state in which a command
begins, and when a ring gives up a descriptor. -/

namespace Sys2Proof

/-- The rows that write a register (R441), the narrow write and the access to CRS_CAM_DATA among them. -/
def Instr.writesRegister (i : Instr) : Bool :=
  match i with
  | .glbModeReqWrite _ => true
  | .anchorSet _ => true
  | .narrowWrite _ _ _ => true
  | .registerWrite _ _ => true
  | .crsCamDataAccess _ => true
  | .fltHistSelWrite _ => true
  | .fltAck _ => true
  | .fltInjArm _ => true
  | .fltInjDisarm _ => true
  | .fltPinLevel _ => true
  | .clrUnc _ _ _ => true
  | .clrTrip _ _ _ => true
  | .clrIso _ _ => true
  | .inpSafeClr _ _ => true
  | .train _ => true
  | .arm _ _ _ => true
  | .legPwmPerWrite _ _ _ => true
  | .commit _ => true
  | .uncommit _ => true
  | .cfgCrcRefWrite _ => true
  | .cfgLockWrite _ => true
  | .unitEnable _ _ _ => true
  | .unitDisable _ _ _ => true
  | .refEnable _ => true
  | .refDisable _ => true
  | .tcompEnWrite _ => true
  | .hostEnable _ => true
  | .hostDisable _ => true
  | .ringEnable _ _ => true
  | .ringDisable _ _ => true
  | .hostRingQuotaWrite _ _ => true
  | .hostTileBudgetWrite _ _ => true
  | .tileCtrlEnWrite _ _ => true
  | .legModeWrite _ _ _ => true
  | .stepPairEnable _ _ => true
  | .stepPairDisable _ _ => true
  | .encoderEnable _ _ => true
  | .inpFiltWrite _ _ => true
  | _ => false

/-- The rows that begin the device anew: the release of nRESET and the loss of the logic supply (R537). -/
def Instr.beginsAnew (i : Instr) : Bool :=
  match i with
  | .resetRelease _ _ => true
  | .logicSupplyFail => true
  | _ => false

/-- The rows that bring the clock to an instant of their own: the rest happen at the DT count that has been reached. -/
def Instr.takesTime (i : Instr) : Bool :=
  match i with
  | .interpolationPeriod _ => true
  | .planningTick _ => true
  | .quotaRefill => true
  | .crcPassStart => true
  | .coreScrub _ => true
  | .sealedToConfigure => true
  | .resetRelease _ _ => true
  | .logicSupplyFail => true
  | _ => false

end Sys2Proof

namespace Sys2Proof.Machine

/-- What every command keeps, from every state: the cam pool is in canonical form (log entry 4), CRS_CAM_ADDR is below the pool's
length (R184), and CFG_LOCK holds nothing before it is written (R440). -/
def State.Inv (s : State) : Prop :=
  Memory.wf s.cam = true ∧ s.camAddr < s.variant.camWords ∧ (s.cfg.lockWritten = false → s.cfg.lock = 0)

/-- The interlock between the two switches of a leg (R279): a switch that conducts is commanded on, and the other one does not conduct, has
confirmed its handshake and has no dead time running. -/
def interlocked (hi lo : GateSw) : Prop :=
  (hi.on = true → hi.cmd = true ∧ lo.on = false ∧ lo.hs = true ∧ lo.dead = false) ∧
  (lo.on = true → lo.cmd = true ∧ hi.on = false ∧ hi.hs = true ∧ hi.dead = false)

/-- The interlock holds on every leg, and the history queue holds 32 entries at most (R513). -/
def State.Sound (s : State) : Prop :=
  (∀ t l, interlocked (s.leg t l).hi (s.leg t l).lo) ∧ s.flt.hist.length ≤ 32

/-- The state on which a command is carried out: what the command before it has sent out is gone. -/
def State.quiet (s : State) : State := { s with out := [] }

/-! ### Descriptors as commands -/

/-- The row of the table that names an opcode (R409). -/
def descRow (o r : Nat) (d : Desc) : Option Instr :=
  match o with
  | 0x00 => some (.nop r d)
  | 0x01 => some (.fence r d)
  | 0x02 => some (.waitRc r d)
  | 0x10 => some (.setProfile r d)
  | 0x11 => some (.moveTo r d)
  | 0x12 => some (.moveBy r d)
  | 0x13 => some (.velocity r d)
  | 0x14 => some (.stop r d)
  | 0x15 => some (.qstop r d)
  | 0x16 => some (.resume r d)
  | 0x17 => some (.setCurrent r d)
  | 0x20 => some (.home r d)
  | 0x21 => some (.characterize r d)
  | 0x28 => some (.playTable r d)
  | 0x29 => some (.followSteps r d)
  | 0x30 => some (.bindCourse r d)
  | 0x31 => some (.unbindCourse r d)
  | 0x38 => some (.solPulse r d)
  | 0x39 => some (.solHold r d)
  | 0x40 => some (.diagOffstate r d)
  | 0x41 => some (.readHistory r d)
  | 0x42 => some (.setMode r d)
  | 0x43 => some (.nvCommit r d)
  | 0x44 => some (.selfTest r d)
  | 0x45 => some (.spareApprove r d)
  | _ => none

/-- The row of an opcode takes up a descriptor: outside internal reset the descriptor has that opcode, its ring takes up, the descriptor
stands at the ring's TI, and nothing of R383 makes it wait. -/
def State.takesUp (s : State) (o r : Nat) (d : Desc) : Prop :=
  s.inReset = false ∧ op d = o ∧ s.ringTakes r = true ∧ (s.ring r).offers d s.tickDt = true ∧ s.waitReason r d = 0

/-- The state with the descriptor taken from its ring (R382, R385). -/
def State.taken (s : State) (r : Nat) (d : Desc) : State := s.quiet.setRing r ((s.ring r).advance d.w0 s.tickDt)

/-- The descriptor at a ring's TI. -/
def State.headTag (s : State) (r : Nat) : Tag := ⟨r, (s.ring r).ti⟩

/-- The row takes the descriptor up, and every check of R407 that is made at once passes. -/
def State.accepts (s : State) (o r : Nat) (d : Desc) : Prop := s.takesUp o r d ∧ (s.taken r d).check (s.ring r) d = none

/-- The ring holds a record with a status for an index, to be written back (R385, R422). -/
def State.doneWith (s : State) (r idx st : Nat) : Prop :=
  ∃ e ∈ (s.ring r).outst, e.index = idx ∧ ∃ w, e.record = some w ∧ fld (w.getD 7 0) 0 8 = st

/-- The ring holds a descriptor of an index that has not completed (R385). -/
def State.isOpen (s : State) (r idx : Nat) : Prop := ∃ e ∈ (s.ring r).outst, e.index = idx ∧ e.record = none

end Sys2Proof.Machine
end

