-- ==== Sys2Proof/Certificates/Slice0/Obligations.lean ====
section
/-! DEFINITION. The statements, from the numbered rules of spec/. A statement that rests on a choice of the model names its log entry. -/

open Sys2Proof Sys2Proof.Machine

/-! ### The machine -/

/-- The command at the front of the queue is carried out on the state whose queue is the rest. -/
def Obligations.StepRunsTheFrontCommand : Prop :=
  ∀ (c : Instr) (rest : List Instr) (s : State),
    step { s with pending := c :: rest } = exec c { s with pending := rest }

/-- With no command waiting a step is one DT count of device time, in which the RC advances as its source says and nothing else changes;
in internal reset nothing changes at all. The spec has no row for the DT count: DESIGN CHOICE of log entry 5. -/
def Obligations.IdleStepIsOneDtCount : Prop :=
  ∀ s : State, s.pending = [] →
    (s.inReset = true → step s = .next s) ∧
    (s.inReset = false → ∃ t, step s = .next t ∧ t.dt = s.dt + 1 ∧ t.ref.rc = rcAfter s.ref s.str 1 ∧
      t.str.slewLeft = s.str.slewLeft - 1 ∧ t.ref.markFrom = rcAfter s.ref s.str 0 / 2 ^ 40 ∧
      { t with dt := s.dt, ref := { t.ref with rc := s.ref.rc, markFrom := s.ref.markFrom },
               str := { t.str with slewLeft := s.str.slewLeft } } = s)

/-- Every command of the table answers a next state, whatever its operands, from every state: no command ends a run. The spec does not say so
as a whole: that a command whose precondition does not hold changes nothing, and that none faults or is refused, is the model's choice of log
entries 1 and 67. -/
def Obligations.EveryCommandAnswersANextState : Prop :=
  ∀ (c : Instr) (s : State), ∃ t, exec c s = .next t

/-- The state after reset meets both invariants: State.Inv (cam pool in canonical form, CRS_CAM_ADDR within the pool, CFG_LOCK 0 before
its first write), on every variant, and State.Sound (no leg with both switches on, at most 32 history entries). -/
def Obligations.ResetMeetsTheInvariant : Prop :=
  State.reset.Inv ∧ State.reset.Sound ∧ ∀ v : Variant, ({ State.reset with variant := v } : State).Inv

/-- The canonical form of the cam pool, CRS_CAM_ADDR within the pool, and CFG_LOCK at 0 before its first write hold after every step that
began where they held. -/
def Obligations.EveryStepKeepsTheInvariant : Prop :=
  ∀ s t : State, s.Inv → step s = .next t → t.Inv

/-- After every step that began so, no leg has a switch on while the other is on, commanded off without its handshake or within its dead
time (R279), and the history holds at most 32 entries (R513). -/
def Obligations.EveryStepKeepsTheInterlock : Prop :=
  ∀ s t : State, s.Sound → step s = .next t → t.Sound

/-- CFG_LOCK once written keeps its value under every command but the release of nRESET and the loss of the supply, whatever register the
command writes (R440: the hold lasts until the next release of nRESET). -/
def Obligations.ConfigLockHoldsUntilReset : Prop :=
  ∀ (c : Instr) (s t : State), s.cfg.lockWritten = true → c.beginsAnew = false → exec c s = .next t →
    t.cfg.lock = s.cfg.lock ∧ t.cfg.lockWritten = true

/-- No command reaches the queue or the variant; EN, the debug port's instruction and internal reset change by their own events alone,
the instruction also where the seal opens, which ends an EXTEST (R540); device time, the last period boundary and the last tick boundary by the clocked rows and the resets alone. -/
def Obligations.CommandsKeepWhatIsNotTheirs : Prop :=
  ∀ (c : Instr) (s t : State), exec c s = .next t →
    t.pending = s.pending ∧ t.variant = s.variant ∧
    (c.beginsAnew = false → (c ≠ .enLow → c ≠ .enHigh → t.glb.enIn = s.glb.enIn) ∧
      (c ≠ .internalReset → c ≠ .sealedToConfigure → (∀ i, c ≠ .dbgTapInstruction i) → t.tap = s.tap) ∧ (c ≠ .internalReset → t.inReset = s.inReset)) ∧
    (c.takesTime = false → t.dt = s.dt ∧ t.lastPeriod = s.lastPeriod ∧ t.lastTick = s.lastTick)

/-- The bytes of the cam pool change by register writes and resets alone; so do the microstep tables, which the NV load of
SEALED_TO_CONFIGURE writes as well. -/
def Obligations.TablesChangeByWritesAlone : Prop :=
  ∀ (c : Instr) (s t : State), c.writesRegister = false → c.beginsAnew = false → exec c s = .next t →
    (∀ a, Memory.read t.cam a = Memory.read s.cam a) ∧
    (c ≠ .sealedToConfigure → ∀ w, Bank.get 0 t.tbl w = Bank.get 0 s.tbl w)

/-! ### Reset and boot -/

/-- The release of nRESET: DT starts at 0, the device is in Sealed with the reference coordinate, units and history at reset, EN as it
stands and on the backup oscillator where the primary has not qualified; the NV store, the LOCK latch and a core loss stay (R537, R66,
R546, R539). While the device is not in internal reset nothing happens. That the RC reads 0 is the model's choice of log entry 3, and that
the cam pool reads 0 that of entry 4. -/
def Obligations.ResetReleaseBeginsAnew : Prop :=
  ∀ (en primaryGood : Bool) (s : State),
    (s.inReset = true → ∃ t, exec (.resetRelease en primaryGood) s = .next t ∧
      t.inReset = false ∧ t.dt = 0 ∧ t.glb.mode = .sealed ∧ t.glb.enIn = en ∧ t.glb.bkpActive = !primaryGood ∧
      t.ref.rc = 0 ∧ t.ref.run = false ∧ t.axes = [] ∧ t.courses = [] ∧ t.cam = [] ∧ t.tbl = [] ∧ t.bootDone = false ∧
      t.cfg.lock = 0 ∧ t.cfg.lockWritten = false ∧
      t.flt.hist.map (fun e => (e.src, e.ack)) = (if primaryGood then [] else [(srcOscSwitch, false)]) ∧
      t.glb.locked = s.glb.locked ∧ t.spr.lost = s.spr.lost ∧
      t.cfg.nvA = s.cfg.abandon.nvA ∧ t.cfg.nvB = s.cfg.abandon.nvB ∧ t.pending = s.pending ∧ t.variant = s.variant) ∧
    (s.inReset = false → exec (.resetRelease en primaryGood) s = .next s.quiet)

/-- Internal reset takes every leg to Hi-Z with both switches commanded off, asserts nFAULT, gives up an NV write in progress and returns
the debug port to BYPASS. The loss of the logic supply holds the device in reset with every record, queue and runner at reset: the NV
store alone stays, without the slot that a write in progress was writing. In internal reset a command other than the release of nRESET
and the loss of the supply changes nothing (R535, R537, R540, R521). That the loss of the supply is the power cycle that also clears the LOCK
latch, LOST and retirements is the model's choice of log entry 53; the values without a reset value of their own are those of entries 3 and 4. -/
def Obligations.InternalResetAndSupplyLoss : Prop :=
  (∀ s : State, s.inReset = false → ∃ t, exec .internalReset s = .next t ∧
     t.inReset = true ∧ t.nfault = true ∧ t.tap.instr = .bypass ∧ t.tap.cells = s.tap.cells ∧ t.cfg = s.cfg.abandon ∧ t.cfg.nvWrite = none ∧ t.dt = s.dt ∧
     ∀ a l, (t.leg a l).hiz = true ∧ (t.leg a l).hi.cmd = false ∧ (t.leg a l).hi.on = false ∧ (t.leg a l).lo.cmd = false ∧
       (t.leg a l).lo.on = false) ∧
  (∀ s : State, ∃ t, exec .logicSupplyFail s = .next t ∧
     t = { State.reset with inReset := true, variant := s.variant, fresh := s.fresh, pending := s.pending,
                            cfg := { CfgB.reset with nvA := s.cfg.abandon.nvA, nvB := s.cfg.abandon.nvB, patches := s.cfg.abandon.patches } } ∧
     (∀ w, s.cfg.nvWrite = some w → w.slotB = false → t.cfg.nvA.image = [] ∧ t.cfg.nvB = s.cfg.nvB) ∧
     (∀ w, s.cfg.nvWrite = some w → w.slotB = true → t.cfg.nvB.image = [] ∧ t.cfg.nvA = s.cfg.nvA)) ∧
  (∀ (c : Instr) (s : State), s.inReset = true → c.beginsAnew = false → exec c s = .next s.quiet)

/-- The boot checks run once. With a bad ROM no core starts and CORE_LOSS carries 0xF; otherwise they pass when two cores vote, a voter
copy is in service and planning is not lost, and when they do not pass SPR_STAT.LOST reads 1 (R542, R543). -/
def Obligations.BootChecksDecideOnce : Prop :=
  ∀ (o : BootObs) (s : State), s.inReset = false →
    (s.bootDone = true → exec (.bootComplete o) s = .next s.quiet) ∧
    (s.bootDone = false → o.romGood = false → exec (.bootComplete o) s =
      .next (({ (s.quiet.updSpr fun p => { p with lost := true }) with bootDone := true, bootPassed := false }).fault srcCoreLoss 0xF .none)) ∧
    (s.bootDone = false → o.romGood = true → ∃ t, exec (.bootComplete o) s = .next t ∧ t.bootDone = true ∧
      t.bootPassed = (decide (2 ≤ t.voting.length) && (t.spr.aIn || t.spr.bIn) && !t.spr.lost) ∧
      (t.bootPassed = false → t.spr.lost = true))

/-- SEALED_TO_CONFIGURE completes where the device is in Sealed, the boot checks have passed and an anchor at or above 4 KiB is in
effect: the device enters Configure at a period boundary with CAUSE 7, and an EXTEST of the debug port is over; where one of these lacks
it changes nothing (R54, R545, R540). An instruction of the debug port completes in every mode: BYPASS and SAMPLE/PRELOAD are taken, and five
edges of DBG_TCK with TMS high return the port to BYPASS; EXTEST and the update of a patch slot are accepted in Sealed only, outside Sealed
EXTEST is carried out as BYPASS, and an update reaches its own slot alone (R540, R453). A scan under SAMPLE/PRELOAD or EXTEST shifts out the
level of every ball of the chain, which has the global signal balls alone, and its cells take what was shifted in; under EXTEST the cells
drive the outputs. The clock's bound, the order of the chain and the free levels are the model's (log entries 12 and 88). -/
def Obligations.SealedOpensAndDebugPortObeys : Prop :=
  (∀ (a : Nat) (s : State), s.inReset = false → s.glb.mode = .sealed → s.bootDone = true → s.bootPassed = true → s.glb.anchor = some a →
     4096 ≤ a → ∃ t, exec .sealedToConfigure s = .next t ∧ t.glb.mode = .configure ∧ t.glb.cause = 7 ∧ s.dt ≤ t.dt ∧ t.dt ≤ s.dt + 2000 ∧
       t.dt % 2000 = t.ref.phase % 2000 ∧ t.tap = { s.tap with instr := if s.tap.instr = .extest then .bypass else s.tap.instr }) ∧
  (∀ s : State, s.inReset = false → (s.glb.mode ≠ .sealed ∨ s.bootDone = false ∨ s.bootPassed = false ∨ s.glb.anchor = none ∨
     (∃ a, s.glb.anchor = some a ∧ a < 4096)) → exec .sealedToConfigure s = .next s.quiet) ∧
  (∀ (i : TapInstr) (s : State), s.inReset = false → ∃ t, exec (.dbgTapInstruction i) s = .next t ∧
     (i = .bypass ∨ i = .samplePreload → t = { s.quiet with tap := { s.tap with instr := i } }) ∧
     (i = .testReset → t = { s.quiet with tap := { s.tap with instr := .bypass } }) ∧
     (i = .extest → t = { s.quiet with tap := { s.tap with instr := if s.glb.mode = .sealed then .extest else .bypass } }) ∧
     (∀ cells, i = .scan cells → s.tap.instr = .samplePreload ∨ s.tap.instr = .extest →
       t = { s.quiet with tap := { s.tap with cells := cells }, out := [.scan ((s.variant.chain).map s.pinLevel)] }) ∧
     (∀ cells, i = .scan cells → s.tap.instr ≠ .samplePreload → s.tap.instr ≠ .extest → t = s.quiet) ∧
     (∀ slot image, i = .patchUpdate slot image → s.glb.mode = .sealed → slot < 4 → t.tap.instr = i ∧ t.tap.cells = s.tap.cells ∧
       (∀ j, Bank.get [] t.cfg.patches j = if j = slot then image else Bank.get [] s.cfg.patches j) ∧
       { t with tap := s.tap, cfg := { t.cfg with patches := s.cfg.patches } } = s.quiet) ∧
     (∀ slot image, i = .patchUpdate slot image → s.glb.mode ≠ .sealed ∨ 4 ≤ slot → t = s.quiet)) ∧
  (∀ (b : GlobalBall) (s : State), s.pinLevel b = if s.tap.instr = .extest ∧ b.driven = true then
      s.tap.cells.getD ((s.variant.chain).idxOf b) false else s.ballLevel b) ∧
  (∀ (v : Variant) (b : GlobalBall), b ∈ v.chain → (globalBall v b).isSome = true ∧ ∀ t ball, t < v.tiles → ball ∈ allTileBalls →
     globalBall v b ≠ some (tileBall v t ball))

/-! ### Register accesses -/

/-- GLB_MODE_REQ is accepted in every mode: TARGET of the last write before the boundary replaces the earlier ones, REQ_RES reads
pending, nothing else changes, and the register reads 0 (R53, R57). The anchor address takes effect with the write of GLB_ANCHOR_HI that
follows one of GLB_ANCHOR_LO: at once in Sealed, at the next tick boundary in Configure; in the other modes the write is discarded (R371,
R442, R443). That a write with an unused TARGET is accepted, to be judged at its boundary, and that each HI needs a LO of its own, are the model's
choices of log entry 49. -/
def Obligations.ModeRequestAndAnchor : Prop :=
  (∀ (v : Word) (s : State), s.inReset = false →
     exec (.glbModeReqWrite v) s = .next { s.quiet with glb := { s.glb with modeReq := some (fld v 0 4), reqRes := 1 } } ∧
     exec (.rocRead 0x24) s = .next { s.quiet with rdata := 0 }) ∧
  (∀ (v : Word) (s : State), s.inReset = false →
     (s.glb.mode = .sealed → s.glb.loWritten = true → exec (.anchorSet v) s = .next
       { s.quiet with glb := { s.glb with anchorHi := v, loWritten := false, anchor := some (v.toNat * 2 ^ 32 + s.glb.anchorLo.toNat) } }) ∧
     (s.glb.mode = .configure → s.glb.loWritten = true → exec (.anchorSet v) s = .next
       { s.quiet with glb := { s.glb with anchorHi := v, loWritten := false, anchorNext := some (v.toNat * 2 ^ 32 + s.glb.anchorLo.toNat) } }) ∧
     (s.glb.mode = .sealed ∨ s.glb.mode = .configure → s.glb.loWritten = false → exec (.anchorSet v) s = .next
       { s.quiet with glb := { s.glb with anchorHi := v } }) ∧
     (s.glb.mode = .sealed ∨ s.glb.mode = .configure → exec (.registerWrite 0x30 v) s = .next
       { s.quiet with glb := { s.glb with anchorLo := (s.glb.anchorLo &&& 0xFFF) ||| (v &&& 0xFFFFF000), loWritten := true } }) ∧
     (s.glb.mode ≠ .sealed → s.glb.mode ≠ .configure → exec (.anchorSet v) s = .next (s.quiet.lockedWrite 0x34)))

/-- Once boot has completed, a full read of REF_RC_LO returns RC bits 31:0 and latches RC bits 63:32 and the DT into their three shadows; a
read of REF_RC_HI, REF_SNAP_DT_LO or REF_SNAP_DT_HI that follows returns them, and nothing else has changed (R69). A full read of another
_LO register returns the low word and copies the high word into the shadow of the pair, which the read of _HI that follows returns (R436). -/
def Obligations.LowReadsLatchTheirShadows : Prop :=
  (∀ s : State, s.inReset = false → s.bootDone = true → ∃ t, exec .refRcLoRead s = .next t ∧ t.rdata = wd s.ref.rc64 ∧
     { t with rdata := s.rdata, shadows := s.shadows, out := s.out } = s ∧
     (∃ u, exec (.narrowRead 0x1014 [true, true, true, true]) t = .next u ∧ u.rdata = wd (s.ref.rc64 / 2 ^ 32)) ∧
     (∃ u, exec (.narrowRead 0x1020 [true, true, true, true]) t = .next u ∧ u.rdata = wd s.dt) ∧
     (∃ u, exec (.narrowRead 0x1024 [true, true, true, true]) t = .next u ∧ u.rdata = wd (s.dt / 2 ^ 32)) ∧
     ∀ off, off ≠ 0x1010 → off ≠ 0x1020 → off ≠ 0x1024 → Bank.get 0 t.shadows off = Bank.get 0 s.shadows off) ∧
  (∀ (off : Nat) (l h : Loc) (s : State), s.inReset = false → s.bootDone = true → msixOff off = false → msixOff (off + 4) = false →
     locOf s.variant off = some l → l.isLo = true → locOf s.variant (off + 4) = some h → l ≠ .ref 0x10 →
     ∃ t u, exec (.loRegisterRead off) s = .next t ∧ t.rdata = s.value off ∧
       (∀ n, n ≠ off → Bank.get 0 t.shadows n = Bank.get 0 s.shadows n) ∧
       exec (.loRegisterRead (off + 4)) t = .next u ∧ u.rdata = s.readLoc h)

/-- A full read clears the ROC fields of its register (R437), here those of GLB_ACC, REF_STAT, HOST_STAT, FLT_STAT, THM_STAT, SPR_STAT,
CFG_STAT, AX_STAT, AX_STALL_STAT, TILE_FLT and LEG_STAT, after it has returned them. Before boot completes a read of a register answers with
its reset value and changes nothing (R544). -/
def Obligations.FullReadsClearRocFields : Prop :=
  (∀ (off : Nat) (s : State), s.inReset = false → s.bootDone = false → msixOff off = false →
    exec (.rocRead off) s = .next { s.quiet with rdata := ({ State.reset with variant := s.variant }).held off }) ∧
  ∀ s : State, s.inReset = false → s.bootDone = true →
    (∀ off, msixOff off = false → (locOf s.variant off).isSome → ∃ t, exec (.rocRead off) s = .next t ∧ t.rdata = s.held off) ∧
    (∃ t, exec (.rocRead 0x40) s = .next t ∧ t = { s.quiet with rdata := s.glb.acc, glb := { s.glb with acc := 0 } }) ∧
    (∃ t, exec (.rocRead 0x1008) s = .next t ∧ t = { s.quiet with rdata := t.rdata, ref := { s.ref with flags := 0 } }) ∧
    (∃ t, exec (.rocRead 0x2004) s = .next t ∧ t = { s.quiet with rdata := t.rdata, host := { s.host with flags := 0 } }) ∧
    (∃ t, exec (.rocRead 0x3004) s = .next t ∧ t = { s.quiet with rdata := t.rdata, flt := { s.flt with flags := 0 } }) ∧
    (∃ t, exec (.rocRead 0x4010) s = .next t ∧ t = { s.quiet with rdata := t.rdata, thm := { s.thm with flags := 0 } }) ∧
    (∃ t, exec (.rocRead 0x5004) s = .next t ∧ t = { s.quiet with rdata := t.rdata, spr := { s.spr with flags := 0 } }) ∧
    (∃ t, exec (.rocRead 0x30000) s = .next t ∧ t = { s.quiet with rdata := t.rdata, cfg := { s.cfg with flags := 0 } }) ∧
    (∀ a, a < s.variant.axes → ∃ t, exec (.rocRead (unitReg .axis a 0x10)) s = .next t ∧
      t = { s.quiet with rdata := t.rdata, axes := Bank.set s.axes a { s.axis a with m := { (s.axis a).m with wrapped := false } } }) ∧
    (∀ a, a < s.variant.axes → ∃ t, exec (.rocRead (unitReg .axis a 0xAC)) s = .next t ∧
      t = { s.quiet with rdata := t.rdata, axes := Bank.set s.axes a { s.axis a with stall := { (s.axis a).stall with flags := 0 } } }) ∧
    (∀ n, n < s.variant.tiles → ∃ t, exec (.rocRead (tileReg n 0x10)) s = .next t ∧
      t = { s.quiet with rdata := t.rdata, tiles := Bank.set s.tiles n { s.tile n with flags := 0 } }) ∧
    (∀ n l, n < s.variant.tiles → l < 16 → ∃ t, exec (.rocRead (legReg n l 0x10)) s = .next t ∧ (t.leg n l).flags = 0 ∧
      ∀ j, j ≠ l → t.leg n j = s.leg n j)

/-- A narrow read returns the enabled bytes as they stand and 0 in the others, without a side effect beyond GLB_ACC.NARROW_RD and
GLB_ACC_ADDR; with no byte enabled it returns 0 and sets nothing (R432, R435). A narrow write is discarded: GLB_ACC.NARROW_WR and
GLB_ACC_ADDR note it and ACC_NARROW, of class LOG, is raised with the offset, or, at an offset that holds no register, ABSENT_WR and
ABSENT_ACCESS; with no byte enabled nothing happens; all four enabled make a full access (R433, R434, R441, R9). A request that goes beyond a word is split at the word's end:
its words are carried out in ascending order, each by its own byte enables, and a read returns them together (R431). -/
def Obligations.NarrowAccessesAreNoted : Prop :=
  (∀ (off : Nat) (en : List Bool) (s : State), s.inReset = false → off % 4 = 0 → en.length = 4 → msixOff off = false →
     (en = [true, true, true, true] → exec (.narrowRead off en) s = exec (.rocRead off) s) ∧
     (en ≠ [true, true, true, true] → en ≠ [false, false, false, false] → s.bootDone = true → ∃ t, exec (.narrowRead off en) s = .next t ∧
       (∀ k, k < 4 → (t.rdata >>> (8 * k)) &&& 0xFF = if en.getD k false then (s.held off >>> (8 * k)) &&& 0xFF else 0) ∧
       t = { s.quiet with rdata := t.rdata
                          glb := { s.glb with acc := s.glb.acc ||| 1, accAddr := wd (0x40000000 + off % 0x40000) } }) ∧
     exec (.narrowRead off [false, false, false, false]) s = .next { s.quiet with rdata := 0 }) ∧
  (∀ (off : Nat) (en : List Bool) (bytes : List Byte) (s : State), s.inReset = false → off % 4 = 0 → en.length = 4 → bytes.length = 4 →
     msixOff off = false →
     (∀ a b c d, en = [true, true, true, true] → bytes = [a, b, c, d] →
       exec (.narrowWrite off en bytes) s = exec (.registerWrite off (d ++ c ++ b ++ a)) s) ∧
     (false ∈ en → true ∈ en → (locOf s.variant off).isSome →
       (locOf s.variant off = some (.flt 0x14) → (srcInfo s.variant s.flt.sevSel).isSome) → exec (.narrowWrite off en bytes) s = .next
         (({ s.quiet with glb := { s.glb with acc := s.glb.acc ||| 2, accAddr := wd (0x80000000 + off % 0x40000) } }).fault
           srcAccNarrow (wd off) .none)) ∧
     (true ∈ en → false ∈ en ∨ locOf s.variant off = none →
       locOf s.variant off = none ∨ (locOf s.variant off = some (.flt 0x14) ∧ (srcInfo s.variant s.flt.sevSel).isNone) → exec (.narrowWrite off en bytes) s = .next
         (({ s.quiet with glb := { s.glb with acc := s.glb.acc ||| 4, accAddr := wd (0xC0000000 + off % 0x40000) } }).fault
           srcAbsentAccess (wd off) .none)) ∧
     exec (.narrowWrite off [false, false, false, false] bytes) s = .next s.quiet ∧
     (srcInfo s.variant srcAccNarrow).map (fun i => (i.dflt, i.mx)) = some (.log, .log)) ∧
  (∀ (addr : Nat) (first rest : List Bool) (s : State), s.inReset = false → first.length = 4 - addr % 4 → rest ≠ [] →
     ∃ u v ws, exec (.narrowRead addr first) s = .next u ∧ exec (.narrowRead (addr + first.length) rest) u = .next v ∧
       (if 4 < rest.length then v.out = [.readData ws] else v.out = [] ∧ ws = [v.rdata]) ∧
       exec (.narrowRead addr (first ++ rest)) s = .next { v with out := [.readData (u.rdata :: ws)] }) ∧
  (∀ (addr : Nat) (en en' : List Bool) (bytes bytes' : List Byte) (s : State), s.inReset = false → en.length = 4 - addr % 4 →
     bytes.length = en.length → bytes' ≠ [] → bytes'.length = en'.length →
     ∃ u, exec (.narrowWrite addr en bytes) s = .next u ∧
       exec (.narrowWrite addr (en ++ en') (bytes ++ bytes')) s = .next (u.writeRequest (addr + en.length) (lanes en' bytes')))

/-- A full access to CRS_CAM_DATA reads or writes the word that CRS_CAM_ADDR names and steps the address on, past the last word to 0; an
accepted write leaves every other byte of the pool as it was, and a discarded one steps the address on as well (R184). -/
def Obligations.CamDataStepsThroughThePool : Prop :=
  ∀ s : State, s.inReset = false →
    (∃ t, exec (.crsCamDataAccess none) s = .next t ∧ t.rdata = Memory.readWord s.cam s.camAddr ∧
      t.camAddr = (s.camAddr + 1) % s.variant.camWords ∧ t.cam = s.cam) ∧
    (∀ w, s.glb.mode ≠ .sealed → s.camInUse s.camAddr = false → ∃ t, exec (.crsCamDataAccess (some w)) s = .next t ∧
      Memory.readWord t.cam s.camAddr = w ∧ t.camAddr = (s.camAddr + 1) % s.variant.camWords ∧
      ∀ a, (a < 4 * s.camAddr ∨ 4 * s.camAddr + 4 ≤ a) → Memory.read t.cam a = Memory.read s.cam a) ∧
    (∀ w, s.glb.mode = .sealed ∨ s.camInUse s.camAddr = true → ∃ t, exec (.crsCamDataAccess (some w)) s = .next t ∧
      t.cam = s.cam ∧ t.camAddr = (s.camAddr + 1) % s.variant.camWords)

/-- A full write at a present register is judged step by step (R441): an unassigned source of FLT_SEV is an absent access; in Sealed
every register but the anchor and the mode request is locked, and the history port's selector too where the boot checks have passed or are not
over (log entry 86); what CFG_LOCK holds, and CFG_LOCK once written, is a violation; then the
enable lock, then the owner's check with the owner's source; what passes is carried out. A locked write is ignored, sets
CFG_STAT.WR_WHILE_EN and raises CFG_WR_LOCKED, class LOG, with the offset in bits 17:0 (R443). -/
def Obligations.FullWritesAreJudgedInOrder : Prop :=
  (∀ (off : Nat) (v : Word) (l : Loc) (s : State), s.inReset = false → msixOff off = false → locOf s.variant off = some l → l ≠ .cam 4 →
     (l.wmBits ≠ 0 → fld v 16 l.wmBits = 0 → exec (.registerWrite off v) s = .next s.quiet) ∧
     ((l.wmBits ≠ 0 → fld v 16 l.wmBits ≠ 0) →
       (l = .flt 0x14 → (srcInfo s.variant s.flt.sevSel).isNone → exec (.registerWrite off v) s = .next (s.quiet.absentWrite off)) ∧
       ((l = .flt 0x14 → (srcInfo s.variant s.flt.sevSel).isSome) →
         (s.glb.mode = .sealed → s.sealedOk l = false → exec (.registerWrite off v) s = .next (s.quiet.lockedWrite off)) ∧
         ((s.glb.mode = .sealed → s.sealedOk l = true) →
           (s.lockViolated l v (s.stored l) (s.merged l v) = true → exec (.registerWrite off v) s = .next (s.quiet.violWrite off)) ∧
           (s.lockViolated l v (s.stored l) (s.merged l v) = false →
             (s.lockHolds l (s.stored l) (s.merged l v) = true → exec (.registerWrite off v) s = .next (s.quiet.lockedWrite off)) ∧
             (s.lockHolds l (s.stored l) (s.merged l v) = false →
               (∀ src, s.judge6 l v (s.stored l) (s.merged l v) = .bad src →
                 exec (.registerWrite off v) s = .next (s.quiet.fault src (wd off) .none)) ∧
               (s.judge6 l v (s.stored l) (s.merged l v) = .absent → exec (.registerWrite off v) s = .next (s.quiet.absentWrite off)) ∧
               (s.judge6 l v (s.stored l) (s.merged l v) = .ok →
                 exec (.registerWrite off v) s = .next (s.quiet.carryOut l off v)))))))) ∧
  (∀ (off : Nat) (s : State), s.lockedWrite off =
      ({ s with cfg := { s.cfg with flags := s.cfg.flags ||| bw true 1 } }).fault srcCfgWrLocked (wd (off % 2 ^ 18)) .none ∧
    (srcInfo s.variant srcCfgWrLocked).map (fun i => (i.dflt, i.mx)) = some (.log, .log))

/-- A full write at an offset that holds no register is discarded with ABSENT_WR and ABSENT_ACCESS, whose class is LOG and whose detail
word is the offset; a full read there returns 0 and changes nothing; a narrow read returns 0 and notes itself in GLB_ACC (R8, R9). The
offset of each register of a present unit leads to that register of that unit and to no other; that of an absent unit leads to none (R2,
R8, R458). -/
def Obligations.AbsentUnitsHaveNoRegisters : Prop :=
  (∀ (off : Nat) (v : Word) (s : State), s.inReset = false → msixOff off = false → locOf s.variant off = none →
     exec (.registerWrite off v) s = .next
       (({ s.quiet with glb := { s.glb with acc := s.glb.acc ||| 4, accAddr := wd (0xC0000000 + off % 0x40000) } }).fault
         srcAbsentAccess (wd off) .none) ∧
     exec (.rocRead off) s = .next { s.quiet with rdata := 0 } ∧
     (srcInfo s.variant srcAbsentAccess).map (fun i => (i.dflt, i.mx)) = some (.log, .log) ∧
     ∀ en : List Bool, off % 4 = 0 → en.length = 4 → s.bootDone = true → en ≠ [true, true, true, true] → en ≠ [false, false, false, false] →
       exec (.narrowRead off en) s = .next
         { s.quiet with rdata := 0, glb := { s.glb with acc := s.glb.acc ||| 1, accAddr := wd (0x40000000 + off % 0x40000) } }) ∧
  (∀ v : Variant,
     (∀ a o, o ∈ motionOffs ++ axisOffs → locOf v (unitReg .axis a o) = if a < v.axes then some (.unit .axis a o) else none) ∧
     (∀ c o, o ∈ motionOffs ++ courseOffs → locOf v (unitReg .course c o) = if c < v.courses then some (.unit .course c o) else none) ∧
     (∀ t o, o ∈ tileOffs → locOf v (tileReg t o) = if t < v.tiles then some (.tile t o) else none) ∧
     (∀ t l o, o ∈ legOffs → locOf v (legReg t l o) = if t < v.tiles ∧ l < 16 then some (.leg t l o) else none) ∧
     (∀ r o, o < 32 → o % 4 = 0 → locOf v (ringReg r o) = if r < v.rings then some (.ring r o) else none) ∧
     (∀ t, locOf v (instOff 0x2040 4 12 t 0) = if t < v.tiles then some (.budget t) else none))

/-! ### The registers that act -/

/-- FLT_PIN.LEVEL: outside internal reset and the LOCK latch nFAULT follows it, or a pulse in progress (R521). A full write of
FLT_HIST_SEL whose mask is not all zero copies the entry at the resulting AGE into the port latch, zeros beyond the entries held, and
changes nothing else (R515). FLT_ACK acknowledges the entry from which the latch was taken unless its cause persists; nothing happens
when the entry is gone, when its cause persists, or with bit 0 at 0 (R515, R519). FLT_INJ: a write with ARM = 1 while nothing is armed
arms the checker it names; while armed it is discarded with FLT_CFG_BAD, and one with ARM = 0 disarms and changes nothing else (R522). -/
def Obligations.FaultPortFollowsItsRegisters : Prop :=
  (∀ (v : Word) (s : State), s.inReset = false → s.glb.mode ≠ .sealed → ∃ t, exec (.fltPinLevel v) s = .next t ∧
     t = { s.quiet with flt := { s.flt with level := bit v 0 } } ∧ t.nfault = (s.glb.locked || s.flt.pulse.isSome || bit v 0)) ∧
  (∀ (v : Word) (s : State), s.inReset = false → s.glb.mode ≠ .sealed → fld v 16 5 ≠ 0 → ∃ t, exec (.fltHistSelWrite v) s = .next t ∧
     t.flt.histSel = ((wd s.flt.histSel &&& ~~~ ((v >>> 16) &&& 31)) ||| (v &&& ((v >>> 16) &&& 31))).toNat ∧
     (∀ e, s.flt.hist[t.flt.histSel]? = some e → t.flt.latch = e.words s.dt ∧ t.flt.latchRec = some e.uid) ∧
     (s.flt.hist[t.flt.histSel]? = none → t.flt.latch = List.replicate 11 0 ∧ t.flt.latchRec = none) ∧
     { t with flt := { t.flt with histSel := s.flt.histSel, latch := s.flt.latch, latchRec := s.flt.latchRec } } = s.quiet) ∧
  (∀ (v : Word) (s : State), s.inReset = false → s.glb.mode ≠ .sealed →
     (∀ u e, bit v 0 = true → s.flt.latchRec = some u → s.flt.hist.find? (fun e => decide (e.uid = u)) = some e → s.mayAck e = true →
       ∃ t, exec (.fltAck v) s = .next t ∧ (∃ x ∈ t.flt.hist, x.uid = u) ∧ (∀ x ∈ t.flt.hist, x.uid = u → x.ack = true) ∧
         (∀ x ∈ t.flt.hist, x.uid ≠ u → x ∈ s.flt.hist) ∧ (∀ a, u ∉ (t.axis a).isoHold) ∧ (∀ n, u ∉ (t.tile n).isoHold) ∧
         t.flt.latch = s.flt.latch) ∧
     ((bit v 0 = false ∨ s.flt.latchRec = none ∨
       (∃ u, s.flt.latchRec = some u ∧ s.flt.hist.find? (fun e => decide (e.uid = u)) = none) ∨
       (∃ u e, s.flt.latchRec = some u ∧ s.flt.hist.find? (fun e => decide (e.uid = u)) = some e ∧ s.mayAck e = false)) →
       exec (.fltAck v) s = .next s.quiet)) ∧
  (∀ (v : Word) (s : State), s.inReset = false → s.glb.mode ≠ .sealed →
     (s.flt.injArmed = false → s.quiet.injBad (s.quiet.merged (.flt 0x0C) (v ||| 1)) = .ok → exec (.fltInjArm v) s =
       .next { s.quiet with flt := { s.flt with injUnit := fld v 16 16, injTarget := fld v 8 3, injArmed := true } }) ∧
     (s.flt.injArmed = true → exec (.fltInjArm v) s = .next (s.quiet.fault srcFltCfgBad 0x300C .none)) ∧
     (s.flt.injArmed = true → exec (.fltInjDisarm v) s = .next { s.quiet with flt := { s.flt with injArmed := false } }))

/-- The clears: CLR_UNC of a unit that stands still, CLR_TRIP of a leg whose cause does not persist, CLR_ISO of a tile whose VGATE is
within its window and that is not isolated for life (R155, R306, R307, R520). INP_SAFE_CLR clears the latches of the inputs whose bit is
1, that are known and not at their active level; a clear at another present input is ignored and nothing is recorded, and a write with a
bit of an absent input is discarded as ABSENT_WR, with no bit of it in effect (R341, R10); that the bits of absent inputs name absent units is the
model's choice of log entry 25. -/
def Obligations.ClearsActWhereTheirCauseIsGone : Prop :=
  (∀ (v : Word) (s : State), s.inReset = false → s.glb.mode ≠ .sealed → bit v 0 = true →
     (∀ k n, s.present k n = true → (s.motion k n).still = true → exec (.clrUnc k n v) s =
       .next (s.quiet.updMotion k n fun m => { m with posUnc := false })) ∧
     (∀ t l, t < s.variant.tiles → l < 16 → s.tripActive t l = false → exec (.clrTrip t l v) s =
       .next (s.quiet.updLeg t l fun x => { x with latch := false, cause := 0 })) ∧
     (∀ t l, t < s.variant.tiles → l < 16 → (s.leg t l).latch = true → s.tripActive t l = true →
       ∃ u, exec (.clrTrip t l v) s = .next u ∧ (∀ m j, u.leg m j = s.leg m j) ∧ { u with tiles := s.tiles } = s.quiet) ∧
     (∀ n, n < s.variant.tiles → (s.tile n).vgUv = false → (s.tile n).vgOv = false → (s.tile n).isoLife = false →
       ∃ t, exec (.clrIso n v) s = .next t ∧ t = s.quiet.setTile n { s.tile n with iso := false }) ∧
     (∀ n, n < s.variant.tiles → (s.tile n).vgUv = true ∨ (s.tile n).vgOv = true →
       ∃ t, exec (.clrIso n v) s = .next t ∧ t = s.quiet.setTile n (s.tile n))) ∧
  (∀ (v : Word) (j : Nat) (s : State), s.inReset = false → s.glb.mode ≠ .sealed → j < 2 → 32 * j < s.variant.senses →
     v.toNat / 2 ^ (s.variant.senses - 32 * j) ≠ 0 → exec (.inpSafeClr j v) s = .next (s.quiet.absentWrite (0x6048 + 4 * j))) ∧
  (∀ (v : Word) (j : Nat) (s : State), s.inReset = false → s.glb.mode ≠ .sealed → j < 2 → 32 * j < s.variant.senses →
     v.toNat / 2 ^ (s.variant.senses - 32 * j) = 0 →
     ∃ t, exec (.inpSafeClr j v) s = .next t ∧ { t with inp := { t.inp with latch := s.inp.latch } } = s.quiet ∧
       ∀ n, n < 64 → t.inp.latch.getLsbD n =
         (s.inp.latch.getLsbD n && !(decide (n / 32 = j) && bit v (n % 32) && decide (n < s.variant.senses) && s.inp.isKnown n &&
           decide (s.inp.level n ≠ s.inp.safeAct.getLsbD n))))

/-- A write of LEG_PWM_PER reaches the shadow set and arms it; LEG_PWM_CTL.ARM arms it; neither touches the active set. LEG_CTRL.MODE
takes the leg idle at Hi-Z at once, which is the model's choice of log entry 62 (R221, R62, R319). -/
def Obligations.PwmWritesReachTheShadow : Prop :=
  ∀ (v : Word) (t l : Nat) (s : State), s.inReset = false → t < s.variant.tiles → l < 16 →
    (s.glb.mode ≠ .sealed → (s.leg t l).mode = 4 → 2000 ≤ fld v 0 16 → fld v 16 16 ≠ 65535 → exec (.legPwmPerWrite t l v) s =
      .next (s.quiet.setLeg t l { s.leg t l with armedSet := true, shadow := { (s.leg t l).shadow with per := fld v 0 16, ph := fld v 16 16 } })) ∧
    (s.glb.mode ≠ .sealed → (s.leg t l).mode = 4 → (bit v 8 = false ∨ fld v 24 4 ≤ 11) → (bit v 9 = false ∨ fld v 28 4 ≤ 11) →
      ∃ u, exec (.arm t l v) s = .next u ∧ (u.leg t l).armedSet = true ∧
      u.leg t l = { s.leg t l with armedSet := true, ctl := (u.leg t l).ctl } ∧ (u.leg t l).ctl &&& 0xFF000300 = v &&& 0xFF000300 ∧
      ∀ m j, (m, j) ≠ (t, l) → u.leg m j = s.leg m j) ∧
    (s.quiet.judgeWrite (.leg t l 0) v = .ok → ∃ u, exec (.legModeWrite t l v) s = .next u ∧ (u.leg t l).mode = fld v 0 3 ∧
      (fld v 0 3 ≠ (s.leg t l).mode → (s.leg t l).mode < 8 → (u.leg t l).hiz = true ∧ (u.leg t l).solPhase = .idle) ∧
      ∀ m j, (m, j) ≠ (t, l) → u.leg m j = s.leg m j)

/-- The commit: COMMIT is pending until a pass starts, UNCOMMIT and a write of CFG_CRC_REF withdraw it at once, and COMMIT and UNCOMMIT
are violations while CFG_LOCK holds the set (R449, R440); CFG_LOCK takes its first write, and a later one is a violation (R440). -/
def Obligations.CommitAndLockFollowTheirRules : Prop :=
  ∀ (v : Word) (s : State), s.inReset = false → s.glb.mode ≠ .sealed →
    (bit s.cfg.lock 2 = false → bit v 1 = false → exec (.commit v) s = .next { s.quiet with cfg := { s.cfg with commitPend := true } }) ∧
    (bit s.cfg.lock 2 = false → exec (.uncommit v) s = .next { s.quiet with cfg := s.cfg.withdraw }) ∧
    (bit s.cfg.lock 2 = false → exec (.cfgCrcRefWrite v) s = .next { s.quiet with cfg := { s.cfg.withdraw with ref := v } }) ∧
    (bit s.cfg.lock 2 = true → exec (.commit v) s = .next (s.quiet.violWrite 0x30004) ∧ exec (.uncommit v) s = .next (s.quiet.violWrite 0x30004)) ∧
    (s.cfg.lockWritten = false → s.cfg.lock = 0 → exec (.cfgLockWrite v) s =
      .next { s.quiet with cfg := { s.cfg with lock := v &&& 7, lockWritten := true } }) ∧
    (s.cfg.lockWritten = true → exec (.cfgLockWrite v) s = .next (s.quiet.violWrite 0x30010))

/-- AX_CTRL.EN and CRS_CTRL.EN: in Configure the bit alone changes (R49); outside Configure a set bit enables the unit at once, which
stands in Target position mode (R63), and a cleared one waits for the period boundary (R152, R442). There the unit is off and stands,
with no queued segment, retained value or booking; the legs of an axis are at Hi-Z and read MODE 0x0, and its position is uncertain
(R152, R63). A bit set again before the boundary withdraws the clearing, and one set again behind it enables the unit anew: both are
DEDUCED (log entry 43). A unit without a disable due is untouched. -/
def Obligations.UnitEnablesAndDisables : Prop :=
  (∀ (k : UnitKind) (n : Nat) (v : Word) (s : State), s.inReset = false → s.present k n = true →
     (s.quiet.judgeWrite (.unit k n 0) (v ||| 1) = .ok → ∃ t, exec (.unitEnable k n v) s = .next t ∧ t.unitBit k n = true ∧
       (s.glb.mode = .configure → t.motion k n = s.motion k n) ∧
       (s.glb.mode ≠ .configure → s.unitBit k n = false →
         if (s.motion k n).en then t.motion k n = { s.motion k n with disPend := false }
         else (t.motion k n).en = true ∧ (t.motion k n).disPend = false ∧ (t.motion k n).mode = .target ∧ (t.motion k n).v = 0 ∧
           (t.motion k n).queue = [])) ∧
     (s.quiet.judgeWrite (.unit k n 0) (v &&& ~~~ (1 : Word)) = .ok → ∃ t, exec (.unitDisable k n v) s = .next t ∧ t.unitBit k n = false ∧
       (s.glb.mode = .configure → t.motion k n = s.motion k n) ∧
       (s.glb.mode ≠ .configure → s.unitBit k n = true → t.motion k n = { s.motion k n with disPend := true }))) ∧
  (∀ (k : UnitKind) (n : Nat) (s : State), s.inReset = false →
     (s.present k n = true → (s.motion k n).disDue = true → s.unitBit k n = false → ∃ t, exec (.disableTakesEffect k n) s = .next t ∧
       (t.motion k n).en = false ∧ (t.motion k n).disDue = false ∧ (t.motion k n).mode = .off ∧ (t.motion k n).v = 0 ∧
       (t.motion k n).queue = [] ∧ (t.motion k n).ret = none ∧ (t.motion k n).booked = 0 ∧
       (k = .axis → (t.motion k n).posUnc = true ∧ ∀ l ∈ axisLegs n, (t.leg (axisTile n) l).hiz = true ∧ (t.leg (axisTile n) l).mode = 0)) ∧
     (s.present k n = true → (s.motion k n).disDue = true → s.unitBit k n = true → ∃ t, exec (.disableTakesEffect k n) s = .next t ∧
       (t.motion k n).en = true ∧ (t.motion k n).disDue = false ∧ (t.motion k n).mode = .target ∧ (t.motion k n).v = 0 ∧
       (t.motion k n).queue = []) ∧
     (s.present k n = false ∨ (s.motion k n).disDue = false → exec (.disableTakesEffect k n) s = .next s.quiet))

/-- REF_CTRL: a set EN outside Configure schedules the start of the RC, TCOMP_EN = 0 ends the compensation, an accepted clear of EN
leaves the RC running or not as it was, and TCOMP_EN = 1 keeps the correction in force; at the boundary of the start the RC begins at
PRESET, or where it stood, the line side anew at its nominal rate and the encoder's rate where no edge came for 65,536 counts at 0, and the
count of an encoder that is its source with it (R80, R82, R118, R81, R75). REF_STR_CTRL with TRAIN = 1
retrains the upstream link of a follower, and no other's, unless its chain is too long; a device that leaves the role of follower is at
PHASE 0, and any change of role ends EXTRAP and counts the missing frames anew (R103, R95, R30, R107). That an encoder's count starts at the RC,
also without PRESET, is the model's choice of log entry 35; the refusal of TRAIN on a chain too long, and what a change of role clears, that of
entry 37. -/
def Obligations.ReferenceAndTrainingFollowTheirRegisters : Prop :=
  (∀ (v : Word) (s : State), s.inReset = false →
     (s.quiet.judgeWrite (.ref 0) (v ||| 1) = .ok → ∃ t, exec (.refEnable v) s = .next t ∧ t.ref.ctrl &&& 7 = (v ||| 1) &&& 7 ∧ t.ref.rc = s.ref.rc ∧
       (s.glb.mode ≠ .configure → bit s.ref.ctrl 0 = false → t.ref.startPend = true) ∧ (bit v 1 = false → t.ref.tcAct = false ∧ t.ref.tcC = 0)) ∧
     (s.quiet.judgeWrite (.ref 0) (v &&& ~~~ (1 : Word)) = .ok → ∃ t, exec (.refDisable v) s = .next t ∧ bit t.ref.ctrl 0 = false ∧ t.ref.run = s.ref.run) ∧
     (s.quiet.judgeWrite (.ref 0) (v ||| 2) = .ok → ∃ t, exec (.tcompEnWrite v) s = .next t ∧ bit t.ref.ctrl 1 = true ∧ t.ref.tcC = s.ref.tcC) ∧
     (s.ref.startDue = true → ∃ t, exec .rcStart s = .next t ∧ t.ref.run = true ∧ t.ref.startPend = false ∧
       t.ref.rc = (if bit s.ref.ctrl 2 then (s.ref.rcSetHi.toNat * 2 ^ 32 + s.ref.rcSetLo.toNat) * 2 ^ 16 else s.ref.rc) ∧ t.ref.rcLast = t.ref.rc ∧
       t.ref.encRate = (if s.ref.encDt + 65536 ≤ s.dt then 0 else s.ref.encRate) ∧ t.ref.encDt = s.ref.encDt ∧ t.ref.lineRate = s.ref.lineRateNom ∧
       { t with ref := s.ref, inp := s.inp } = s.quiet ∧
       t.inp = { s.inp with encCnt := if fld s.ref.src 0 4 = 1 then Bank.set s.inp.encCnt (fld s.ref.src 4 4) (wd (t.ref.rc / 2 ^ 40)) else s.inp.encCnt }) ∧
     (s.ref.startDue = false → exec .rcStart s = .next s.quiet)) ∧
  (∀ (v : Word) (s : State), s.inReset = false → 0 < s.variant.ports → s.quiet.judgeWrite (.ref 0x60) (v ||| 0x20) = .ok →
     ∃ t, exec (.train v) s = .next t ∧ t.str.ctrl &&& 0xFFCF = (v ||| 0x20) &&& 0xFFCF ∧
       (fld t.str.ctrl 0 2 = 2 → fld s.str.ctrl 0 2 ≠ 2 ∨ s.str.long = false →
         t.str.training = true ∧ t.str.reqNo = 0 ∧ t.str.results = [] ∧ t.str.link0 = 1) ∧
       (fld t.str.ctrl 0 2 ≠ 2 ∨ (fld s.str.ctrl 0 2 = 2 ∧ s.str.long = true) → t.str.training = s.str.training ∧ t.str.link0 = s.str.link0) ∧
       (fld t.str.ctrl 0 2 ≠ fld s.str.ctrl 0 2 → t.str.long = false ∧ t.str.extrap = false ∧ t.str.missRun = 0) ∧
       (fld t.str.ctrl 0 2 ≠ 2 → fld s.str.ctrl 0 2 = 2 → t.ref.phase = 0))

/-- HOST_CTRL, the rings, their quota and the tile budgets: a ring enabled outside Configure starts all four indices at HOST_RING_START
in RUN; one disabled drains or is OFF; a quota cuts the credit at once (R380, R381, R389, R390, R369, R49). That a ring enabled in Configure
reads OFF is the model's choice of log entry 42, that every enabling write sets the indices that of entry 78, and that PI starts with the other
three the model's own: R380 names CI, TI and FI. -/
def Obligations.RingsFollowTheirRegisters : Prop :=
  ∀ (v : Word) (r : Nat) (s : State), s.inReset = false → r < s.variant.rings →
    (s.quiet.judgeWrite (.host 0) (v ||| 1) = .ok → ∃ t, exec (.hostEnable v) s = .next t ∧ t.host.enabled = true ∧ t.host.rings = s.host.rings) ∧
    (s.quiet.judgeWrite (.host 0) (v &&& ~~~ (1 : Word)) = .ok → ∃ t, exec (.hostDisable v) s = .next t ∧ t.host.enabled = false ∧ t.host.rings = s.host.rings) ∧
    (s.quiet.judgeWrite (.ring r 0) (v ||| 1) = .ok → bit (s.ring r).ctrl 0 = false → ∃ t, exec (.ringEnable r v) s = .next t ∧
      bit (t.ring r).ctrl 0 = true ∧ (t.ring r).ci = (s.ring r).start.toNat ∧ (t.ring r).ti = (t.ring r).ci ∧ (t.ring r).fi = (t.ring r).ci ∧
      (t.ring r).pi = (t.ring r).ci ∧ (t.ring r).err = 0 ∧ (t.ring r).state = if s.glb.mode = .configure then .off else .run) ∧
    (s.quiet.judgeWrite (.ring r 0) (v &&& ~~~ (1 : Word)) = .ok → bit (s.ring r).ctrl 0 = true → ∃ t, exec (.ringDisable r v) s = .next t ∧
      bit (t.ring r).ctrl 0 = false ∧ ((s.ring r).state ≠ .off → (t.ring r).pref = [] ∧ (t.ring r).outst = (s.ring r).outst ∧
        (t.ring r).state = if (s.ring r).outst = [] then .off else .drain)) ∧
    (s.glb.mode ≠ .sealed → fld v 0 16 ≤ 16384 → (s.ring r).quota < 65536 → ∃ t, exec (.hostRingQuotaWrite r v) s = .next t ∧
      (t.ring r).quota = fld v 0 16 ∧ (t.ring r).credit = if fld v 0 16 = 0 then 0xFFFF else min (s.ring r).credit (fld v 0 16)) ∧
    (∀ n, n < s.variant.tiles → s.glb.mode ≠ .sealed → (Bank.get 0xFFFF s.host.budget n) < 65536 → ∃ t, exec (.hostTileBudgetWrite n v) s = .next t ∧
      Bank.get 0xFFFF t.host.budget n = fld v 0 16 ∧ t.host.inForce = s.host.inForce)

/-- TILE_CTRL.EN, the step pairs, the encoders and INP_FILT: a pair that is enabled counts from 0, and its two inputs are then unknown,
as they are when it is disabled; an enabled encoder counts from 0; an input whose filter bit changes is unknown (R185, R339, R343, R337,
R442). -/
def Obligations.InputConfigurationTakesEffect : Prop :=
  ∀ (v : Word) (n : Nat) (s : State), s.inReset = false →
    (n < s.variant.tiles → s.quiet.judgeWrite (.tile n 0) v = .ok → ∃ t, exec (.tileCtrlEnWrite n v) s = .next t ∧ bit (t.tile n).ctrl 0 = bit v 0 ∧
      t.tileOn n = (decide (s.glb.mode ≠ .configure) && (bit v 0 || bit (s.tile n).ctrl 0 || decide (tileOff n ∈ s.cfg.clearing)))) ∧
    (n < s.variant.pairs → s.quiet.judgeWrite (.inp (0x100 + 4 * n)) (v ||| 1) = .ok → bit (s.inp.stepCfgOf n) 0 = false →
      ∃ t, exec (.stepPairEnable n v) s = .next t ∧ bit (t.inp.stepCfgOf n) 0 = true ∧ Bank.get 0 t.inp.stepCnt n = 0 ∧
        t.inp.isKnown (2 * n) = false ∧ t.inp.isKnown (2 * n + 1) = false) ∧
    (n < s.variant.pairs → s.quiet.judgeWrite (.inp (0x100 + 4 * n)) (v &&& ~~~ (1 : Word)) = .ok → bit (s.inp.stepCfgOf n) 0 = true →
      ∃ t, exec (.stepPairDisable n v) s = .next t ∧ bit (t.inp.stepCfgOf n) 0 = false ∧
        t.inp.isKnown (2 * n) = false ∧ t.inp.isKnown (2 * n + 1) = false) ∧
    (n < s.variant.encoders → s.quiet.judgeWrite (.inp (0x180 + 4 * n)) (v ||| 1) = .ok → bit (s.inp.encCfgOf n) 0 = false →
      ∃ t, exec (.encoderEnable n v) s = .next t ∧ bit (t.inp.encCfgOf n) 0 = true ∧ Bank.get 0 t.inp.encCnt n = 0) ∧
    (n < 2 → 32 * n < s.variant.senses → s.quiet.judgeWrite (.inp (0x08 + 4 * n)) v = .ok → ∃ t, exec (.inpFiltWrite n v) s = .next t ∧
      ∀ i, i < 32 → t.inp.filt.getLsbD (32 * n + i) = bit v i ∧
        (s.inp.filt.getLsbD (32 * n + i) ≠ bit v i → t.inp.isKnown (32 * n + i) = false) ∧
        (s.inp.filt.getLsbD (32 * n + i) = bit v i → t.inp.isKnown (32 * n + i) = s.inp.isKnown (32 * n + i)))

/-- A register request for a mode is judged at the boundary that has come: a refused one leaves its REQ_RES and everything else as it was
(R54, R55, R57); Hold asked for in Run with EN high is entered with PREV Run, CAUSE 1 and REQ_RES 2 (R52, R54). Nothing is judged while
no boundary has come. -/
def Obligations.RequestsAreJudgedAtTheBoundary : Prop :=
  ∀ s : State, s.inReset = false →
    (s.glb.reqDue = false → exec .modeRequestTaken s = .next s.quiet) ∧
    (∀ n r, s.glb.reqDue = true → s.glb.modeReq = some n →
      ({ s.quiet with glb := { s.glb with reqDue := false, modeReq := none } } : State).refusal n = some r →
      exec .modeRequestTaken s = .next { s.quiet with glb := { s.glb with reqDue := false, modeReq := none, reqRes := r } } ∧ 3 ≤ r ∧ r ≤ 5) ∧
    (s.glb.reqDue = true → s.glb.modeReq = some 4 → s.glb.mode = .run → s.driveOk = true → s.glb.locked = false →
      ∃ t, exec .modeRequestTaken s = .next t ∧
        t.glb = { s.glb with reqDue := false, modeReq := none, mode := .hold, prev := .run, cause := 1, reqRes := 2 } ∧ t.ref = s.ref)

/-! ### Descriptors -/

/-- A descriptor that fails a check at its take-up does nothing but complete: its ring holds the record with the status of the first
check that fails, and of all state only the ring, and HOST_STAT.ADDR_S where that status is ADDR_RANGE, have changed (R407, R370). -/
def Obligations.RefusedDescriptorsOnlyComplete : Prop :=
  ∀ (o r : Nat) (d : Desc) (c : Instr) (b : Bad) (s : State), descRow o r d = some c → s.takesUp o r d →
    (s.taken r d).check (s.ring r) d = some b → ∃ t, exec c s = .next t ∧
      { t with host := s.host } = s.quiet ∧ { t.host with rings := s.host.rings, flags := s.host.flags } = s.host ∧
      t.host.flags = s.host.flags ||| bw (decide (b.status = Status.addrRange)) 0 ∧
      (∀ j, j ≠ r → t.ring j = s.ring j) ∧ (t.ring r).ti = ((s.ring r).ti + 1) % 2 ^ 32 ∧
      ∃ e ∈ (t.ring r).outst, e.index = (s.ring r).ti ∧ e.word0 = d.w0 ∧ ∃ w, e.record = some w ∧ w.head? = some d.w0 ∧
        fld (w.getD 7 0) 0 8 = b.status % 256 ∧ fld (w.getD 7 0) 8 8 = o

/-- A row whose descriptor is not at its ring's TI, or whose ring does not take up, changes nothing; one that must wait leaves the reason
in HOST_RING_STAT.WAIT and stays where it is (R383, R403). -/
def Obligations.DescriptorsWaitAtTheRing : Prop :=
  ∀ (o r : Nat) (d : Desc) (c : Instr) (s : State), descRow o r d = some c → s.inReset = false →
    ((op d ≠ o ∨ s.ringTakes r = false ∨ (s.ring r).offers d s.tickDt = false) → exec c s = .next s.quiet) ∧
    (op d = o → s.ringTakes r = true → (s.ring r).offers d s.tickDt = true → s.waitReason r d ≠ 0 →
      exec c s = .next (s.quiet.updRing r fun x => { x with wait := s.waitReason r d }))

/-- SET_PROFILE writes its slot alone and completes; SET_CURRENT waits for the next tick (R126, R201). A NOP completes OK; a FENCE whose
rings have all been written back completes at once and otherwise holds its list; a WAIT_RC waits for its RC (R388, R415, R409). -/
def Obligations.SettersAndRingDescriptors : Prop :=
  (∀ (r n : Nat) (k : UnitKind) (d : Desc) (s : State), (s.ring r).target d = .unit k n →
     (s.accepts 0x10 r d → ∃ t, exec (.setProfile r d) s = .next t ∧
       (∀ i, Bank.get Profile.reset (t.motion k n).profs i =
         if i = fld d.w1 0 4 then Profile.ofWords d.param else Bank.get Profile.reset (s.motion k n).profs i) ∧
       t.doneWith r (s.ring r).ti Status.ok ∧
       t.motion k n = { s.motion k n with profs := (t.motion k n).profs, profBad := (t.motion k n).profBad } ∧
       { t with host := s.host, axes := s.axes, courses := s.courses } = s.quiet) ∧
     (s.accepts 0x17 r d → exec (.setCurrent r d) s = .next ((s.taken r d).updAxis n fun x =>
       { x with setCur := x.setCur ++ [(if bit d.w0 9 then some (fld d.w1 12 2) else none, if bit d.w0 8 then some (fld d.w1 0 8) else none,
                                        s.nextTick, s.headTag r, d.w0)] }))) ∧
  (∀ (r : Nat) (d : Desc) (s : State),
     (s.accepts 0x00 r d → ∃ t, exec (.nop r d) s = .next t ∧ t.doneWith r (s.ring r).ti Status.ok ∧ { t with host := s.host } = s.quiet) ∧
     (s.accepts 0x01 r d → (s.taken r d).fenceMet ((s.taken r d).fenceList r (s.ring r).ti d) = false → ∃ t, exec (.fence r d) s = .next t ∧
       (t.ring r).fence = some ((s.ring r).ti, (s.taken r d).fenceList r (s.ring r).ti d) ∧ t.isOpen r (s.ring r).ti ∧ { t with host := s.host } = s.quiet) ∧
     (s.accepts 0x01 r d → (s.taken r d).fenceMet ((s.taken r d).fenceList r (s.ring r).ti d) = true → ∃ t, exec (.fence r d) s = .next t ∧
       (t.ring r).fence = none ∧ t.doneWith r (s.ring r).ti Status.ok ∧ { t with host := s.host } = s.quiet) ∧
     (s.accepts 0x02 r d → exec (.waitRc r d) s = .next ((s.taken r d).updRing r fun x => { x with waitRc := some ((s.ring r).ti, startE d, false) })))

/-- Motion descriptors enter the lookahead with their target, profile copy, start condition and the tick from which they may run, and end
the retained value; behind a RESUME that waits for standstill they wait with it, each with the copy of the slot it names. A move of no
distance on a unit that stands still completes OK at take-up in place of entering, whatever its start condition and, but for a REPLACE,
whatever waits before it; a REPLACE does so where nothing waits (R126, R134, R135, R136, R138, R150, R151, R411). That neither the start condition nor
what waits matters is the model's choice of log entry 70, and what a distance counts from that of entry 73. -/
def Obligations.MovesEnterTheLookahead : Prop :=
  ∀ (r n : Nat) (k : UnitKind) (d : Desc) (s : State), (s.ring r).target d = .unit k n →
    ((s.motion k n).deferred = [] →
      let m := s.motion k n
      let p := Bank.get Profile.reset m.profs (fld d.w2 16 4)
      let b := m.base (bit d.w0 8)
      let at_ := if b.2 then m.pos + b.1 else b.1
      let x := signed48 d.w1 d.w2
      let enters (c : Instr) (isVel : Bool) (target : Int) (rel : Bool) (q : Profile) : Prop :=
        ∃ t v, exec c s = .next t ∧ (t.motion k n).look = m.look ++ [v] ∧ (t.motion k n).ret = none ∧ v.tag = s.headTag r ∧
          v.ord = m.taken ∧ v.isVel = isVel ∧ v.target = target ∧ v.rel = rel ∧ v.prof = q ∧ v.gate = gateOf d ∧ v.replace = bit d.w0 8 ∧
          v.from_ = s.nextTick ∧ t.isOpen r (s.ring r).ti ∧ { t with axes := s.axes, courses := s.courses } = s.taken r d
      let zero (x : Int) : Prop :=
        (s.taken r d).standing k n = true ∧ m.suspended = false ∧ (bit d.w0 8 = false ∨ (s.taken r d).idle k n = true) ∧ x = 0
      let completes (c : Instr) : Prop :=
        ∃ t, exec c s = .next t ∧ t.doneWith r (s.ring r).ti Status.ok ∧
          t.motion k n = (if m.act.isSome then { m with ret := none } else { m with ret := none, mode := .target, tgt := m.pos }) ∧
          { t with host := s.host, axes := s.axes, courses := s.courses } = s.quiet
      (s.accepts 0x13 r d → enters (.velocity r d) true d.w1.toInt false p) ∧
      (s.accepts 0x11 r d → p.overrideOk d.w3 = true → -2 ^ 47 ≤ x → x < 2 ^ 47 → (x - at_).natAbs < 2 ^ 47 →
        (¬ zero (x - at_) → enters (.moveTo r d) false x false (p.override d.w3)) ∧ (zero (x - at_) → completes (.moveTo r d))) ∧
      (s.accepts 0x12 r d → p.overrideOk d.w3 = true → -2 ^ 47 ≤ at_ + x → at_ + x < 2 ^ 47 → x.natAbs < 2 ^ 47 →
        (¬ zero x → enters (.moveBy r d) false (b.1 + x) b.2 (p.override d.w3)) ∧ (zero x → completes (.moveBy r d)))) ∧
    ((s.motion k n).deferred ≠ [] → ∀ o c, o = 0x11 ∨ o = 0x12 ∨ o = 0x13 → descRow o r d = some c → s.accepts o r d → exec c s =
      .next ((s.taken r d).updMotion k n fun m =>
        { m with deferred := m.deferred ++ [(s.headTag r, d, Bank.get Profile.reset m.profs (fld d.w2 16 4))] }))

/-- STOP and QSTOP cancel the lookahead; at standstill they complete OK, otherwise they wait for the stop that they post (R148, R149).
RESUME enters the lookahead with the retained value, completes NO_RETAINED where there is none, and waits while a stop is in progress; it is
refused, and keeps the value, with UNCERTAIN where the position is uncertain and FORCE is 0, and with LIMIT_ACTIVE where the value points into an
active limit; a value of 0 completes OK and ends (R154, R151, R150, R155, R260). -/
def Obligations.StopsAndResumes : Prop :=
  ∀ (r n : Nat) (k : UnitKind) (d : Desc) (s : State), (s.ring r).target d = .unit k n →
    (∀ o c, o = 0x14 ∨ o = 0x15 → descRow o r d = some c → s.accepts o r d →
      let u := ((s.taken r d).cancelDwell k n).cancelLook k n
      ∃ t, exec c s = .next t ∧ (t.motion k n).look = [] ∧ (t.motion k n).deferred = [] ∧
        ((s.taken r d).standing k n = true → t = u.complete (s.headTag r) (u.motionRecord k n d.w0 false false 0 none false Status.ok)) ∧
        ((s.taken r d).standing k n = false → t = u.setMotion k n (t.motion k n) ∧ (t.motion k n).stopping.isSome = true ∧
          (t.motion k n).stops = (s.motion k n).stops ++ [{ tag := s.headTag r, word0 := d.w0 }])) ∧
    (∀ x, s.accepts 0x16 r d → (s.motion k n).deferred = [] → (s.motion k n).stopping = none → (s.motion k n).ret = some x →
      ((s.motion k n).posUnc = false ∨ bit d.w0 9 = true) → s.limitRefuses k n x.value.sign ≠ some Status.limitActive → (x.isVel = true ∨ x.value ≠ 0) →
      ∃ t v, exec (.resume r d) s = .next t ∧ (t.motion k n).look = (s.motion k n).look ++ [v] ∧ (t.motion k n).ret = none ∧ v.tag = s.headTag r ∧
        v.isVel = x.isVel ∧ v.target = x.value ∧ v.rel = !x.isVel ∧ v.prof = x.prof ∧ { t with axes := s.axes, courses := s.courses } = s.taken r d) ∧
    (s.accepts 0x16 r d → (s.motion k n).deferred = [] → (s.motion k n).stopping = none → (s.motion k n).ret = none →
      ∃ t, exec (.resume r d) s = .next t ∧ t.motion k n = s.motion k n ∧ t.doneWith r (s.ring r).ti Status.noRetained) ∧
    (∀ x, s.accepts 0x16 r d → (s.motion k n).deferred = [] → (s.motion k n).stopping = none → (s.motion k n).ret = some x →
      ((s.motion k n).posUnc = true → bit d.w0 9 = false → ∃ t, exec (.resume r d) s = .next t ∧ t.motion k n = s.motion k n ∧
        t.doneWith r (s.ring r).ti Status.uncertain) ∧
      ((s.motion k n).posUnc = false ∨ bit d.w0 9 = true →
        (s.limitRefuses k n x.value.sign = some Status.limitActive → ∃ t, exec (.resume r d) s = .next t ∧ t.motion k n = s.motion k n ∧
          t.doneWith r (s.ring r).ti Status.limitActive) ∧
        (s.limitRefuses k n x.value.sign ≠ some Status.limitActive → x.isVel = false → x.value = 0 → ∃ t, exec (.resume r d) s = .next t ∧
          t.motion k n = { s.motion k n with ret := none } ∧ t.doneWith r (s.ring r).ti Status.ok))) ∧
    (s.accepts 0x16 r d → (s.motion k n).stopping.isSome = true → exec (.resume r d) s =
      .next ((s.taken r d).updMotion k n fun m =>
        { m with deferred := m.deferred ++ [(s.headTag r, d, Bank.get Profile.reset m.profs (fld d.w2 16 4))] }))

/-- HOME, CHARACTERIZE, SELF_TEST and DIAG_OFFSTATE are accepted as long operations: the operation is held and its whole OSB is written;
HOME and CHARACTERIZE wait on their axis for the next tick, and DIAG_OFFSTATE for each tile of its mask; an axis that is driven there and
has a leg under test goes to Hi-Z, which is the model's choice of log entry 40 (R391, R392, R427, R261, R245, R313). A write of host memory leaves
the device, in requests no larger than the programmed payload, while the link carries requests and the place lies in the window or on the anchor
page (R362, R369, R371, R361). -/
def Obligations.LongOperationsAreAccepted : Prop :=
  ∀ (r n : Nat) (k : UnitKind) (d : Desc) (s : State),
    let accepted (t : State) (a : Nat) : Prop :=
      t.host.longs = s.host.longs ++ [newLong (s.headTag r) d a] ∧ t.isOpen r (s.ring r).ti ∧
      let o : Output := .memWrite (addr64 d.w2 d.w3) ((newLong (s.headTag r) d a).osbWords s.tickDt)
      t.out = if s.canIssue && s.reaches o then s.host.pieces o else []
    (s.accepts 0x20 r d → (s.ring r).target d = .unit k n → (s.motion k n).deferred = [] → ∃ t h, exec (.home r d) s = .next t ∧ accepted t n ∧
      (t.axis n).home = some h ∧ h.st = .h0 ∧ h.started = false ∧ h.from_ = s.nextTick ∧ h.vs = (par d 0).toNat ∧ h.vr = (par d 1).toNat ∧
      h.stallMethod = bit d.w1 0 ∧ h.negDir = bit d.w1 1 ∧ h.input = fld d.w1 8 6 ∧ h.maxDist = (par d 3).toNat ∧ (t.axis n).m.ret = none) ∧
    (s.accepts 0x21 r d → (s.ring r).target d = .unit k n → (s.motion k n).deferred = [] → ∃ t h, exec (.characterize r d) s = .next t ∧ accepted t n ∧
      (t.axis n).char = some h ∧ h.begun = false ∧ h.fromTick = s.nextTick ∧ h.vc = d.w1.toNat ∧ h.slot = fld d.w6 28 4) ∧
    (s.accepts 0x44 r d → ∃ t, exec (.selfTest r d) s = .next t ∧ accepted t 0 ∧ { t with host := s.host, out := s.out } = s) ∧
    (s.accepts 0x40 r d → ∃ t, exec (.diagOffstate r d) s = .next t ∧ accepted t 0 ∧
      t.diag.map Prod.fst = maskBits s.variant.tiles (fld d.w1 0 12) ∧
      { t with host := s.host, out := s.out, diag := s.diag, axes := s.axes, tiles := s.tiles } = s ∧
      ((∀ a, (s.axis a).driven = false) → t.axes = s.axes ∧ t.tiles = s.tiles) ∧
      (∀ a, (s.axis a).driven = true → t.underTest a = true → (t.axis a).driven = false ∧
        ∀ l ∈ axisLegs a, (t.leg (axisTile a) l).hiz = true ∧ (t.leg (axisTile a) l).hi.cmd = false ∧ (t.leg (axisTile a) l).lo.cmd = false))

/-- NV_COMMIT of a committed set whose CRC matches starts the write of the slot that is not the newer valid one; SPARE_APPROVE waits
where its spare awaits approval and completes NOT_PENDING where none does; SET_MODE waits for its boundary (R429, R456, R418, R417). -/
def Obligations.DeviceOperationsBegin : Prop :=
  ∀ (r : Nat) (d : Desc) (s : State),
    (s.accepts 0x43 r d → s.cfg.committed = true → s.cfg.crcOk = true → s.nvBlock = false →
      let u := (s.taken r d).acceptLong (newLong (s.headTag r) d 0)
      4 * (u.image u.nvSeq).length ≤ 28672 →
      exec (.nvCommit r d) s = .next { u with cfg := { s.cfg with nvWrite := some { slotB := s.nvTarget, done := 0, image := u.image u.nvSeq } } }) ∧
    (s.accepts 0x43 r d → (s.cfg.committed = false ∨ s.cfg.crcOk = false) → ∃ t, exec (.nvCommit r d) s = .next t ∧
      t.doneWith r (s.ring r).ti Status.crcMismatch ∧ t.cfg = s.cfg) ∧
    (s.accepts 0x45 r d → s.awaits d.w1 = true → exec (.spareApprove r d) s = .next ((s.taken r d).updSpr fun p =>
      { p with approve := p.approve ++ [{ tag := s.headTag r, word0 := d.w0, word1 := d.w1, begun := false }] })) ∧
    (s.accepts 0x45 r d → s.awaits d.w1 = false → ∃ t, exec (.spareApprove r d) s = .next t ∧
      t.doneWith r (s.ring r).ti Status.notPending ∧ t.spr = s.spr) ∧
    (s.accepts 0x42 r d → exec (.setMode r d) s = .next { s.taken r d with glb := { s.glb with setMode := s.glb.setMode ++ [(fld d.w1 0 4, s.headTag r)] } })

/-- READ_HISTORY writes the records held from FROM on, oldest first and at most CAP, 48 bytes apart, and completes OK; without ACK
nothing of the queue changes; with it each record written is acknowledged whose cause does not persist, and no other entry changes (R416, R519). -/
def Obligations.HistoryIsReadOldestFirst : Prop :=
  ∀ (r : Nat) (d : Desc) (s : State), s.accepts 0x41 r d →
    let es := (s.flt.from d.w2.toNat).take (fld d.w1 0 6)
    ∃ t, exec (.readHistory r d) s = .next t ∧ t.doneWith r (s.ring r).ti Status.ok ∧
      t.out = (if s.canIssue then ((es.zipIdx.map fun p => Output.memWrite (addr64 d.w3 d.w4 + 48 * p.2)
        (wd p.1.num :: p.1.words s.dt)).filter s.reaches).flatMap s.host.pieces else []) ∧
      (bit d.w0 8 = false → t.flt = s.flt ∧ t.axes = s.axes ∧ t.tiles = s.tiles) ∧
      (bit d.w0 8 = true → (s.flt.hist.map fun e => e.uid).Nodup →
        t.flt = { s.flt with hist := s.flt.hist.map fun e => if es.any (fun x => decide (x.uid = e.uid)) && s.mayAck e then { e with ack := true } else e } ∧
        ∀ e ∈ es, s.mayAck e = true → (∀ a, e.uid ∉ (t.axis a).isoHold) ∧ ∀ n, e.uid ∉ (t.tile n).isoHold) ∧
      (t.flt.hist.map fun e => e.uid) = (s.flt.hist.map fun e => e.uid) ∧ es.length ≤ fld d.w1 0 6

/-- FOLLOW_STEPS and PLAY_TABLE wait on their unit for their tick; a PLAY_TABLE makes its window busy and its streamer begins to read;
BIND_COURSE and UNBIND_COURSE wait as bond requests (R187, R190, R193, R168, R174). -/
def Obligations.FollowersPlaysAndBondsWait : Prop :=
  ∀ (r n : Nat) (k : UnitKind) (d : Desc) (s : State), (s.ring r).target d = .unit k n →
    (s.accepts 0x29 r d → (s.motion k n).deferred = [] → ∃ t f, exec (.followSteps r d) s = .next t ∧
      (t.motion k n).later = (s.motion k n).later ++ [.follow f] ∧ f.tag = s.headTag r ∧ f.ord = (s.motion k n).taken ∧ f.isEnc = bit d.w1 4 ∧
      f.src = fld d.w1 0 4 ∧ f.k = d.w2.toInt ∧ f.f = fld d.w1 8 3 ∧ f.gate = gateOf d ∧ f.from_ = s.nextTick ∧ (t.motion k n).ret = none) ∧
    (s.accepts 0x28 r d → (s.motion k n).deferred = [] → ∃ t p, exec (.playTable r d) s = .next t ∧
      (t.motion k n).later = (s.motion k n).later ++ [.play p] ∧ p.tag = s.headTag r ∧ p.win = fld d.w3 0 4 ∧ p.offset = fld d.w1 0 30 ∧
      p.count = fld d.w2 0 30 ∧ p.rcStart = startE d ∧ p.from_ = s.nextTick ∧ (t.twin (fld d.w3 0 4)).busy = some (k, n) ∧ p.reading = decide (p.count ≠ 0) ∧
      let o : Output := .readRequest ((s.twin (fld d.w3 0 4)).base + p.offset) (min 256 p.count)
      if s.canIssue = true ∧ s.reaches o = true ∧ p.count ≠ 0 then
        (∃ x ∈ t.host.asked, x.src = .table (fld d.w3 0 4) ∧ x.parts = s.host.pieces o) ∧
        (s.host.asked = [] → 128 ≤ s.host.mrrs → t.out = s.host.pieces o)
      else t.out = [] ∧ t.host.asked = s.host.asked) ∧
    (s.accepts 0x30 r d → ∃ t b, exec (.bindCourse r d) s = .next t ∧ t.host.binds = s.host.binds ++ [b] ∧ b.unbind = false ∧ b.tag = s.headTag r ∧
      b.target = n ∧ b.kind = memberKind d ∧ b.index = fld d.w1 8 6 ∧ b.slot = fld d.w1 0 4 ∧ b.from_ = s.nextTick ∧
      b.offset = signed48 d.w3 d.w4 * 2 ^ 32 ∧ (t.motion b.kind b.index).ret = none ∧
      (t.motion b.kind b.index).taken = (s.motion b.kind b.index).taken + 1) ∧
    (s.accepts 0x31 r d → ∃ t b, exec (.unbindCourse r d) s = .next t ∧ t.host.binds = s.host.binds ++ [b] ∧ b.unbind = true ∧ b.tag = s.headTag r ∧
      (bit d.w0 8 = false → b.kind = k ∧ b.index = n) ∧ b.bySlot = bit d.w0 8 ∧ b.from_ = s.nextTick ∧
      (t.motion b.kind b.index).ret = (s.motion b.kind b.index).ret)

/-- SOL_PULSE and SOL_HOLD on a leg in solenoid mode, with duties that leave t_minoff and no latch, wait at their leg behind those before
them, and are evaluated at once with them (R309, R310, R312, R414, R420). -/
def Obligations.SolenoidDescriptorsWaitAtTheirLeg : Prop :=
  ∀ (o r n mask : Nat) (d : Desc) (c : Instr) (s : State), o = 0x38 ∨ o = 0x39 → descRow o r d = some c → s.accepts o r d →
    (s.ring r).target d = .legs n mask →
    let l := fld d.w2 24 4
    let x := s.leg n l
    let per := fld d.w1 16 16
    x.mode = 2 ∨ x.mode = 3 → fld d.w2 0 20 ≤ 16 * (per - x.tMinOff) → fld d.w3 0 20 ≤ 16 * (per - x.tMinOff) → x.latch = false →
    let v : SolDesc :=
      { tag := s.headTag r, word0 := d.w0, isHold := decide (o = 0x39), per := per, tPi := fld d.w1 0 16, dutyPi := fld d.w2 0 20,
        dutyH := fld d.w3 0 20, tH := if o = 0x39 then 0 else fld d.w7 0 16, gate := gateOf d, armed := false, heldSince := none,
        dwellLeft := none, held := false, due := false, late := false, startDt := 0 }
    exec c s = .next (((s.taken r d).setLeg n l { x with solWait := x.solWait ++ [v] }).pulseStart n l)

/-! ### What the clock brings -/

/-- In each period the runner adds the segment's acceleration to its velocity and then the new velocity to its position, both kept with
32 fraction bits, that is in units of 2^-32: after `p` periods of a segment that goes on, v and x are those of the closed form, x reduced
to the 48-bit position and its fraction, and POS is the integer part (R39). -/
def Obligations.RunnerIntegratesItsSegment : Prop :=
  ∀ (m : Motion) (g : Seg) (rest : List Seg) (p : Nat), m.queue = g :: rest → 0 < p → p < g.periods →
    let u := Nat.repeat (fun m => (Motion.period m).1) p m
    u.v = m.v + p * g.acc ∧ u.x = wrapS 80 (m.x + p * m.v + g.acc * ((p * (p + 1) / 2 : Nat) : Int)) ∧ u.pos = u.x / 2 ^ 32 ∧
      u.queue = { g with periods := g.periods - p } :: rest ∧ u.act = m.act ∧ u.look = m.look

/-- INTERPOLATION_PERIOD brings the clock to a boundary at most two periods on that follows the last by half a period at least, and the
next boundary of a state lies at a DT congruent to PHASE; PLANNING_TICK brings it to the next DT congruent to PHASE modulo 50,000,
QUOTA_REFILL to one modulo 200,000, where every ring has its quota again (R30, R31, R389). That the command brings the clock there is the
model's choice (log entry 12). In the period that ends, where no unit follows, plays or is a member, the runner of every axis carries out one period of
its segments, and an axis that is off or has lost its legs stands; behind the boundary the generator of every enabled axis delivers to
both coils the set-points of the position at the boundary, unless a freeze holds it (R34, R35, R39, R195, R196). The tick takes descriptors up ring by ring in
rising number and within a ring in index order, those alone that were prefetched before its boundary, until the first that must wait, whose reason
STAT.WAIT keeps; while planning is paused it takes up none (R383, R32, R46). -/
def Obligations.BoundariesFollowThePhase : Prop :=
  (∀ (u : State) (adv : Int) (a : Nat), u.listedAxes.Nodup → (∀ k n, (u.motion k n).play = none ∧ (u.motion k n).follow = none) →
    (∀ c, (u.course c).members = []) → a ∈ u.listedAxes →
    let m := (u.axis a).m
    (m.en = true → m.dies = false → (u.integrate adv).1.axis a = { u.axis a with m := m.period.1 }) ∧
    (m.en = false ∨ m.dies = true → (u.integrate adv).1.axis a = u.axis a)) ∧
  (∀ u : State, u.takePass = (List.range u.variant.rings).foldl (fun t r => (t.fenceCheck r).takeRing r 16) u ∧
    ∀ r n, ((u.ring r).pref = [] → u.takeRing r (n + 1) = u) ∧
      ∀ f l, (u.ring r).pref = f :: l →
        (u.ringTakes r = true → f.ready = true → f.dt < u.tickDt →
          (u.waitReason r f.d = 0 → u.takeRing r (n + 1) = (u.takeUp r f.d).takeRing r n ∧
            ((u.takeUp r f.d).ring r).ti = ((u.ring r).ti + 1) % 2 ^ 32 ∧ ((u.takeUp r f.d).ring r).pref = l) ∧
          (u.waitReason r f.d ≠ 0 → u.takeRing r (n + 1) = u.updRing r fun x => { x with wait := u.waitReason r f.d })) ∧
        (u.ringTakes r = false ∨ f.ready = false ∨ u.tickDt ≤ f.dt → u.takeRing r (n + 1) = u)) ∧
  ∀ s : State, s.inReset = false →
    (∀ o t, exec (.interpolationPeriod o) s = .next t → t.spr.freeze = false → ∀ a, (t.axis a).m.en = true →
      let x := t.axis a
      let th := ((x.m.pos + fld x.regs.comm 0 10) % 1024).toNat
      x.theta = th ∧ (x.coilA.i12, x.coilA.neg) = t.setPoint x.liveTbl x.liveRun th false ∧
        (x.coilB.i12, x.coilB.neg) = t.setPoint x.liveTbl x.liveRun ((th + 768) % 1024) (bit x.regs.comm 16)) ∧
    (∀ o t, exec (.planningTick o) s = .next t → let v := s.quiet.toTick.voterCheck o
      (v.paused = false → v.glb.mode ≠ .sealed → ∀ r, (t.ring r).ti = (v.refillAll.takePass.ring r).ti) ∧
      (v.paused = true ∨ v.glb.mode = .sealed → ∀ r, (t.ring r).ti = (s.ring r).ti)) ∧
    (∀ o, ∃ t, exec (.interpolationPeriod o) s = .next t ∧ t.lastPeriod = some t.dt ∧ t.lastTick = s.lastTick ∧ s.dt ≤ t.dt ∧ t.dt ≤ s.dt + 4000 ∧
      ∀ p, s.lastPeriod = some p → p ≤ s.dt → p + 1000 ≤ t.dt) ∧
    s.toBoundary.dt % 2000 = s.ref.phase % 2000 ∧
    (∀ o, ∃ t, exec (.planningTick o) s = .next t ∧ t.lastTick = some t.dt ∧ t.lastPeriod = s.lastPeriod ∧ s.dt ≤ t.dt ∧ t.dt ≤ s.dt + 50000 ∧
      t.dt % 50000 = s.ref.phase % 50000 ∧ (s.lastTick = some s.dt → s.dt < t.dt)) ∧
    (∃ t, exec .quotaRefill s = .next t ∧ s.dt ≤ t.dt ∧ t.dt < s.dt + 200000 ∧ t.dt % 200000 = s.ref.phase % 200000 ∧
      ∀ r, r < s.variant.rings → t.ring r = { s.ring r with credit := if fld (s.ring r).quota 0 16 = 0 then 0xFFFF else fld (s.ring r).quota 0 16 })

/-- A pass of the configuration CRC starts at a DT congruent to PHASE modulo 200,000 and takes a pending commit with it; its end reports
the CRC of the set and, compared, whether it matches CFG_CRC_REF; of a set that was written during the pass each word is one that it held meanwhile
(R448 to R450). The scrub of the cores finds nothing where all signatures agree (R483). The scrubber reads the words in ascending order: those that
it has passed since its last finding read good, and a word that reads good or is corrected once, and a row whose copy is complete, are counted so
(R485, R486). -/
def Obligations.ChecksRunOnTheirPasses : Prop :=
  ∀ s : State, s.inReset = false →
    (s.cfg.pass = none → ∃ t, exec .crcPassStart s = .next t ∧ s.dt ≤ t.dt ∧ t.dt < s.dt + 200000 ∧ t.dt % 200000 = s.ref.phase % 200000 ∧
      t.cfg = { s.cfg with committed := s.cfg.committed || s.cfg.commitPend, commitPend := false,
                           pass := some { compared := s.cfg.committed || s.cfg.commitPend, seen := [] } }) ∧
    (s.cfg.pass = none → exec .crcPassEnd s = .next s.quiet) ∧
    (s.cfg.pass = some { compared := false, seen := [] } → exec .crcPassEnd s =
      .next { s.quiet with cfg := { s.cfg with run := s.cfgCrc, flags := s.cfg.flags ||| bw true 3, pass := none } }) ∧
    (s.cfg.pass = some { compared := true, seen := [] } → s.flt.injCrc = false → s.cfgCrc = s.cfg.ref → exec .crcPassEnd s =
      .next { s.quiet with cfg := { s.cfg with run := s.cfgCrc, flags := s.cfg.flags ||| bw true 3, pass := none, crcOk := true, crcErr := false,
                                               episode := false } }) ∧
    (s.cfg.pass = some { compared := true, seen := [] } → s.flt.injCrc = false → s.cfgCrc ≠ s.cfg.ref → s.cfg.episode = false →
      exec .crcPassEnd s = .next (({ s.quiet with cfg := { s.cfg with run := s.cfgCrc, flags := s.cfg.flags ||| bw true 3 ||| bw true 4, pass := none,
                                                                      crcOk := false, crcErr := true, episode := true } }).fault srcCfgCrc s.cfgCrc .none)) ∧
    (∀ sigs w, (∀ n ∈ s.voting, sigs.getD n 0 = w) → exec (.coreScrub sigs) s = .next (s.quiet.pass (s.untilNext 2000000 none))) ∧
    (∀ p ws, s.cfg.pass = some p → p.seen = [ws] → p.compared = false → ∃ t l, exec .crcPassEnd s = .next t ∧ t.cfg.run = crc32c l ∧ t.cfg.pass = none ∧
      l.length = s.setWords.length ∧ ∀ i, i < l.length → l.getD i 0 = s.setWords.getD i 0 ∨ l.getD i 0 = ws.getD i 0) ∧
    (∀ w, w / 256 / 512 < s.variant.mibs →
      let u := s.quiet.scrubTo w
      let x := u.row (w / 256)
      u.spr.scrubAt = (w + 1) % (131072 * s.variant.mibs) ∧ x.errs = (s.row (w / 256)).errs ∧
      (s.spr.scrubAt ≤ w → ∀ y, y < 131072 * s.variant.mibs → (y ∈ x.words ↔ y ∈ (s.row (w / 256)).words ∧ (y < s.spr.scrubAt ∨ w ≤ y))) ∧
      exec (.sramScrubRead w .good) s = .next (u.setRow (w / 256) { x with words := x.words.filter fun y => decide (y ≠ w) }) ∧
      (w ∉ x.words → x.errs < 7 → exec (.sramScrubRead w .corrected) s =
        .next ((((u.setRow (w / 256) { x with errs := x.errs + 1, words := x.words ++ [w] }).sprFlag 1).wear
          (8 + w / 256 / 512)).fault (srcSramCe + w / 256 / 512) (wd (8 * w)) .none))) ∧
    (∀ r, (s.row r).copying = true → exec (.rowSpareCopyComplete r) s = .next (s.quiet.setRow r SramRow.reset).spareIn) ∧
    (∀ r, (s.row r).copying = false → exec (.rowSpareCopyComplete r) s = .next s.quiet)

/-- The completions of the device's reads of host memory: a ring in RUN takes a producer index within its range or enters ERROR;
the descriptors of the oldest read of a ring enter its prefetch buffer, ready or waiting for their parameters; table bytes enter a streamer's buffer, which asks for the
next, and a failed read goes to the streamer's retry; the completion of a read whose result is no longer wanted only frees its tags (R378, R382,
R408, R396, R193, R395, R361). That a completion answers the oldest read for its purpose is the model's choice of log entry 78. -/
def Obligations.ReadsOfHostMemoryComplete : Prop :=
  ∀ (r : Nat) (s : State), s.inReset = false →
    let live (src : ReadSrc) : Prop := s.host.discarded src (s.wanted src) = false
    (∀ src, ¬ live src → (∀ pis, src = .doorbell → exec (.doorbellReadComplete pis) s = .next (s.quiet.answered src)) ∧
      (∀ ok ds, src = .ring r → exec (.prefetchComplete r ok ds) s = .next (s.quiet.answered src)) ∧
      (∀ ok ps, src = .param r → exec (.parameterReadComplete r ok ps) s = .next (s.quiet.answered src)) ∧
      (∀ ok bytes, src = .table r → exec (.streamReadComplete r ok bytes) s = .next (s.quiet.answered src))) ∧
    (∀ src, { s.answered src with host := { (s.answered src).host with asked := s.host.asked }, out := s.out } = s) ∧
    (∀ pis, s.host.dbOut = false → exec (.doorbellReadComplete pis) s = .next (s.quiet.answered .doorbell)) ∧
    (∀ pis w, live .doorbell → s.host.dbOut = true → r < s.variant.rings → pis[r]? = some w → (s.ring r).state = .run → ∃ t, exec (.doorbellReadComplete pis) s = .next t ∧
      t.host.dbOut = false ∧ t.host.dbStale = 0 ∧
      ((s.ring r).judge w.toNat = none → (t.ring r).pi = w.toNat ∧ (t.ring r).state = .run) ∧
      (∀ c, (s.ring r).judge w.toNat = some c → (t.ring r).state = .error ∧ (t.ring r).err = c ∧ (t.ring r).pi = (s.ring r).pi)) ∧
    (∀ ds n rest, live (.ring r) → (s.ring r).state = .run → (s.ring r).reads = n :: rest → (∃ t, exec (.prefetchComplete r true ds) s = .next t ∧
        (t.ring r).reads = rest ∧ (t.ring r).pref = (s.ring r).pref ++ (ds.take n).map fun d =>
          { d := { d with param := [] }, ready := (s.paramRead { d with param := [] }).isNone, dt := s.dt }) ∧
      exec (.prefetchComplete r false ds) s = .next ((s.quiet.answered (.ring r)).ringError r errFetch)) ∧
    (∀ ok ds, (s.ring r).state ≠ .run ∨ (s.ring r).reads = [] → exec (.prefetchComplete r ok ds) s = .next (s.quiet.answered (.ring r))) ∧
    (∀ ps, live (.param r) → ((s.ring r).pref.any fun f => !f.ready) = true →
      exec (.parameterReadComplete r true ps) s =
        .next ((s.quiet.answered (.param r)).setRing r { s.ring r with pref := takeParam ps s.dt (s.ring r).pref }) ∧
      exec (.parameterReadComplete r false ps) s = .next ((s.quiet.answered (.param r)).ringError r errFetch)) ∧
    (∀ w k n p bytes, live (.table w) → (s.twin w).busy = some (k, n) → (s.motion k n).playOf w = some p → p.reading = true → p.absentTo = 0 →
      exec (.streamReadComplete w true bytes) s =
        .next (((s.quiet.answered (.table w)).updMotion k n fun m => m.updPlay w fun p => p.load bytes).streamAsk w) ∧
      (p.load bytes).nextReq = p.nextReq + min 256 (p.count - p.nextReq) ∧ (p.load bytes).buf.length = p.buf.length + min 256 (p.count - p.nextReq) ∧
      exec (.streamReadComplete w false bytes) s = .next ((s.quiet.answered (.table w)).updMotion k n fun m => m.updPlay w Play.loadFail))

/-- The dwells and starts of a unit: the reversal dwell ends and the move that waited it out goes on; a stop that has begun to end holds it; a
course waits while it is being bound; the throttle dwell ends and the start waits in its place; a start that its
boundary released begins, where the device is in Run or Diagnose, no freeze is in effect and the unit stands ready, and waits on otherwise;
an axis that nothing holds is energized; the displacement watch starts after its settle time (R145, R160, R161, R231, R260, R308, R255). -/
def Obligations.DwellsAndStartsEnd : Prop :=
  ∀ (k : UnitKind) (n : Nat) (s : State), s.inReset = false →
    ((s.motion k n).dwell = some 0 → (s.motion k n).en = true → s.spr.freeze = false → (k = .course → s.binding n = false) →
      (∀ p, (s.motion k n).stopping = some p → p.begun = false) →
      let u := s.quiet.updMotion k n fun m => { m with dwell := none }
      ((s.motion k n).act.isSome = true → exec (.revDwellEnd k n) s = .next (u.go k n)) ∧
      ((s.motion k n).act = none → exec (.revDwellEnd k n) s = .next u)) ∧
    (∀ p, (s.motion k n).stopping = some p → p.begun = true → exec (.revDwellEnd k n) s = .next s.quiet) ∧
    (k = .course → s.binding n = true → exec (.revDwellEnd k n) s = .next s.quiet) ∧
    ((s.motion k n).dwell = none → exec (.revDwellEnd k n) s = .next s.quiet) ∧
    (∀ since, (s.motion k n).start = .dwell since 0 → exec (.throttleDwellEnd k n) s =
      .next (s.quiet.updMotion k n fun m => { m with start := .ready since })) ∧
    (∀ since, (s.motion k n).start = .due since → (k = .axis → (s.axis n).powerDue = false) →
      ((s.glb.mode = .run ∨ s.glb.mode = .diagnose) → s.spr.freeze = false → s.placed k n = true → (s.motion k n).disDue = false →
        (s.motion k n).disPend = false → exec (.startRelease k n) s = .next (s.quiet.beginUnit k n since)) ∧
      ((s.glb.mode ≠ .run ∧ s.glb.mode ≠ .diagnose) ∨ s.spr.freeze = true ∨ s.placed k n = false ∨ (s.motion k n).disDue = true ∨
        (s.motion k n).disPend = true → exec (.startRelease k n) s = .next (s.quiet.updMotion k n fun m => { m with start := .ready since }))) ∧
    ((∀ since, (s.motion k n).start ≠ .due since) → (k = .axis → (s.axis n).powerDue = false) →
      exec (.startRelease k n) s = .next s.quiet) ∧
    (∀ a, (s.axis a).powerDue = true → s.mayEnergize a = true → ∃ t, exec (.axisEnergize a) s = .next t ∧ (t.axis a).driven = true ∧
      (t.axis a).powerDue = false ∧ (t.axis a).hizzed = false ∧ (∀ l ∈ axisLegs a, (t.leg (axisTile a) l).hiz = false) ∧
      (t.axis a).m.posUnc = ((s.axis a).m.posUnc || (s.axis a).hizzed)) ∧
    (∀ a, (s.axis a).powerDue = false → exec (.axisEnergize a) s = .next s.quiet) ∧
    (∀ a, (s.axis a).settled = true → exec (.displacementWatchStart a) s =
      .next (s.quiet.updAxis a fun x => { x with watch := { x.watch.fresh with on := true } })) ∧
    (∀ a, (s.axis a).settled = false → exec (.displacementWatchStart a) s = .next s.quiet)

/-- A solenoid start that is free to begin begins its pull-in with its own period and duty and the other values of the registers; the
pull-in ends in the hold, whose duty enters as a transfer of the set, or in the end phase, and a SOL_HOLD completes with it; the end phase
ends with both switches off and the record, and the descriptors that wait at the leg are evaluated (R309 to R311, R225). Those that stand
behind the start are evaluated with it: an AT that its first evaluation finds met is late (R87, R420). -/
def Obligations.SolenoidPhasesFollowInOrder : Prop :=
  ∀ (t l : Nat) (d : SolDesc) (s : State), s.inReset = false → s.spr.freeze = false →
    (∀ rest, (s.leg t l).solWait = d :: rest → (∀ e ∈ d :: rest, e.heldSince = none) → (s.leg t l).solReady = true → s.glb.mode = .run → s.legFree t l = true →
      (s.leg t l).solMode = true → d.gate = none → 0 < d.tPi → 0 < d.dutyPi ∨ 0 < d.dutyH → d.releases = false → s.tooBig (.leg t l) = false → s.throttled (.leg t l) = false →
      s.admits (.leg t l) = true → s.waiters = [] → ∃ u, exec (.solPulseStart t l) s = .next u ∧
        (∃ a, (u.leg t l).solCur = some { d with armed := a, startDt := s.dt, dwellLeft := none, held := false, due := false }) ∧ (u.leg t l).solPhase = .pullIn ∧ (u.leg t l).solLeft = d.tPi ∧
        (u.leg t l).solWait = (if s.glb.freshRun then rest else rest.map (SolDesc.arm s.ref.c408)) ∧ (u.leg t l).hiz = false ∧
        (u.leg t l).act = { (s.leg t l).shadow with per := d.per, duty := d.dutyPi, ph := 0 } ∧
        (u.leg t l).booked = fld (s.leg t l).sol 16 16 ∧ ∀ m j, (m, j) ≠ (t, l) → u.leg m j = s.leg m j) ∧
    (∀ m j, (s.leg m j).solWait = [] → exec (.solPulseStart m j) s = .next s.quiet) ∧
    ((s.leg t l).solCur = some d → (s.leg t l).solPhase = .pullIn → (s.leg t l).solLeft = 0 →
      (d.isHold = false → 0 < d.tH → ∃ u, exec (.pullInEnd t l) s = .next u ∧ (u.leg t l).solPhase = .hold ∧ (u.leg t l).solLeft = d.tH ∧
        (u.leg t l).act.duty = min (16 * ((s.leg t l).shadow.per - (s.leg t l).tMinOff)) d.dutyH ∧ u.host = s.host) ∧
      (d.isHold = true → ∃ u, exec (.pullInEnd t l) s = .next u ∧ (u.leg t l).solPhase = .hold ∧
        (u.leg t l).act.duty = min (16 * ((s.leg t l).shadow.per - (s.leg t l).tMinOff)) d.dutyH ∧
        u = ({ u with host := s.host }).complete d.tag (s.solRecord d Status.ok)) ∧
      (d.isHold = false → d.tH = 0 → ∃ u, exec (.pullInEnd t l) s = .next u ∧ (u.leg t l).solPhase = .fin ∧ (u.leg t l).driveOn = false)) ∧
    ((s.leg t l).solCur = some d → (s.leg t l).solPhase = .hold → (s.leg t l).solLeft = 0 → d.isHold = false →
      ∃ u, exec (.holdEnd t l) s = .next u ∧ (u.leg t l).solPhase = .fin ∧ (u.leg t l).driveOn = false ∧ u.host = s.host) ∧
    ((s.leg t l).solCur = some d → (s.leg t l).solPhase = .fin → exec (.freewheelEnd t l) s =
      .next (((s.quiet.complete d.tag (s.solRecord d Status.ok)).updLeg t l fun x =>
        { x.toHiz with solCur := none, solPhase := .idle, solLeft := 0 }).pulseStart t l)) ∧
    ((s.leg t l).solCur = none → exec (.pullInEnd t l) s = .next s.quiet ∧ exec (.holdEnd t l) s = .next s.quiet ∧ exec (.freewheelEnd t l) s = .next s.quiet)

/-- The off-state test of a leg, outside which nothing happens in another mode than Diagnose: its first phase gives V1, its second V2, and the
coil phase, which follows the second leg of a pair in the mask of an enabled axis, the readings of both legs; then the entry is final and the next leg
begins (R314). A leg takes the result of the table from its own readings; one that is OK and whose coil was tested takes the coil's; a leg that the
supplies, or its latch, leave untested takes its time and has that result (R315, R316). That no coil is tested of which a leg was left out, and what
an untested leg reads, are the model's choices of log entries 40 and 2. An NV write erases its slot first; each page then counts as progress and
leaves both slots; a step that temperature forbids ends it with its slot invalid, as does a verification that fails; a verified one leaves its image
there, and the other slot stays (R456, R429, R354, R355). -/
def Obligations.DiagAndNvStepsFollowInOrder : Prop :=
  (∀ (s : State) (t : Nat) (d : DiagTile) (x : DiagLeg) (v1 v2 : BitVec 12), s.inReset = false → s.glb.mode = .diagnose →
    s.diag.lookup t = some d → d.cur = some x →
    (d.phase = 0 →
      (x.skip = none → exec (.diagLegPhaseEnd t v1 v2) s =
        .next { s.quiet with diag := Bank.set s.diag t { d with phase := 1, cur := some { x with v1 := v1.toNat } } }) ∧
      (x.skip.isSome = true → ∃ u v, exec (.diagLegPhaseEnd t v1 v2) s = .next u ∧ v < 4096 ∧
        u.diag = Bank.set s.diag t { d with phase := 1, cur := some { x with v1 := v } } ∧
        { u with diag := s.diag, fresh := s.fresh } = s.quiet)) ∧
    (d.phase = 1 → ∃ u v, exec (.diagLegPhaseEnd t v1 v2) s = .next u ∧ v < 4096 ∧ (x.skip = none → v = v1.toNat ∧ u.fresh = s.fresh) ∧
      { u with diag := s.diag, fresh := s.fresh } = s.quiet ∧
      let y := { x with v2 := v }
      let pair := d.mask / 2 ^ (x.leg / 2 * 2) % 4 = 3 ∧ (s.axis (legAxis t x.leg)).m.en = true
      (pair → x.leg % 2 = 0 → u.diag = Bank.set s.diag t (s.diagNext t { d with first := some y })) ∧
      (x.leg % 2 = 1 → d.first.isSome = true → u.diag = Bank.set s.diag t { d with phase := 2, cur := some y }) ∧
      ((x.leg % 2 = 0 ∧ ¬ pair) ∨ (x.leg % 2 = 1 ∧ d.first = none) → u.diag = Bank.set s.diag t
        (s.diagNext t { d with entries := d.entries ++ [s.diagEntry t y (y.result (s.leg t y.leg).mode) 0 0] }))) ∧
    (∀ a, d.phase = 2 → d.first = some a → ∃ u ra rx vf vs, exec (.diagLegPhaseEnd t v1 v2) s = .next u ∧
      { u with diag := s.diag, fresh := s.fresh } = s.quiet ∧
      u.diag = Bank.set s.diag t (s.diagNext t { d with first := none, entries := d.entries ++ [s.diagEntry t a ra vs vf, s.diagEntry t x rx vs vf] }) ∧
      (a.skip = none → x.skip = none → vf = v1.toNat ∧ vs = v2.toNat ∧
        ra = (if a.result (s.leg t a.leg).mode = diagOk then a.coilResult vf vs else a.result (s.leg t a.leg).mode) ∧
        rx = (if x.result (s.leg t x.leg).mode = diagOk then a.coilResult vf vs else x.result (s.leg t x.leg).mode)) ∧
      (a.skip.isSome = true ∨ x.skip.isSome = true → vf = 0 ∧ vs = 0 ∧ ra = a.result (s.leg t a.leg).mode ∧ rx = x.result (s.leg t x.leg).mode))) ∧
  (∀ (s : State) (t : Nat) (v1 v2 : BitVec 12), s.inReset = false → s.glb.mode ≠ .diagnose → exec (.diagLegPhaseEnd t v1 v2) s = .next s.quiet) ∧
  (∀ (s : State) (t l : Nat) (d : DiagTile) (rest : List Nat), d.legs = l :: rest →
    ∃ x, s.diagNext t d = { d with legs := rest, phase := 0, cur := some x } ∧ x.leg = l ∧ x.vm = (s.tile t).vmCode ∧ x.vg = (s.tile t).vgCode ∧
      let out := (s.tile t).vmUv = true ∨ (s.tile t).vmOv = true ∨ (s.tile t).vgUv = true ∨ (s.tile t).vgOv = true ∨
        4 * (s.tile t).vmCode < (s.tile t).vgCode + 600
      (out → x.skip = some 6) ∧ (¬ out → (s.leg t l).latch = true → x.skip = some 7) ∧ (¬ out → (s.leg t l).latch = false → x.skip = none)) ∧
  (∀ (x : DiagLeg) (mode : Nat), (∀ r, x.skip = some r → x.result mode = r) ∧
    (x.skip = none → mode = 4 → x.result mode = 5) ∧
    (x.skip = none → mode ≠ 4 → let lo (v : Nat) := v < 25
      let hi (v : Nat) := 25 ≤ v ∧ x.vm < v + 50
      let op_ (v : Nat) := 25 ≤ v ∧ v + 50 ≤ x.vm ∧ x.vg ≤ 4 * v + 400 ∧ 4 * v + 100 ≤ x.vg
      (lo x.v1 → op_ x.v2 → x.result mode = if mode = 2 ∨ mode = 3 then 1 else 0) ∧
      (hi x.v1 → hi x.v2 → x.result mode = if mode = 2 then 0 else 2) ∧
      (lo x.v1 → lo x.v2 → x.result mode = if mode = 3 then 0 else 3) ∧
      (¬ (lo x.v1 ∧ op_ x.v2) → ¬ (hi x.v1 ∧ hi x.v2) → ¬ (lo x.v1 ∧ lo x.v2) → x.result mode = 4) ∧
      ∀ vf vs, x.coilResult vf vs = if op_ vf then 1 else if hi vf then 4 else if vf < vs + 25 then 0 else 4)) ∧
  ∀ s : State, s.inReset = false →
    (∀ ok, s.cfg.nvWrite = none → exec (.nvStepComplete ok) s = .next s.quiet) ∧
    (∀ w ok, s.cfg.nvWrite = some w → s.thm.shut = true → ∃ t, exec (.nvStepComplete ok) s = .next t ∧ t.cfg = s.cfg.abandon) ∧
    (∀ w ok, s.cfg.nvWrite = some w → s.thm.shut = false → w.done = 0 → w.image ≠ [] → s.nvBlock = false →
      ∃ t, exec (.nvStepComplete ok) s = .next t ∧ t.cfg = { s.cfg.setSlot w.slotB { image := [], erases := satAdd 65535 (s.cfg.slot w.slotB).erases 1 } with
        nvWrite := some { w with done := 1 } }) ∧
    (∀ w ok, s.cfg.nvWrite = some w → s.thm.shut = false → 0 < w.done → w.done + 1 < w.steps → ∃ t, exec (.nvStepComplete ok) s = .next t ∧
      (s.nvBlock = false ∨ w.done + 2 = w.steps → t.cfg = { s.cfg with nvWrite := some { w with done := w.done + 1 } } ∧
        ∀ y, s.longOf 0x43 0 = some y → t.host = (s.updLong y.tag fun z => z.advance (65535 * (w.done + 1) / w.steps)).host) ∧
      (s.nvBlock = true → w.done + 2 < w.steps → t.cfg = s.cfg.abandon)) ∧
    (∀ w, s.cfg.nvWrite = some w → s.thm.shut = false → 0 < w.done → w.done + 1 = w.steps →
      ∃ t, exec (.nvStepComplete true) s = .next t ∧ (t.cfg.slot w.slotB).image = w.image ∧ t.cfg.nvWrite = none ∧
        t.cfg.slot (!w.slotB) = s.cfg.slot (!w.slotB)) ∧
    (∀ w, s.cfg.nvWrite = some w → s.thm.shut = false → 0 < w.done → w.done + 1 = w.steps →
      ∃ t, exec (.nvStepComplete false) s = .next t ∧ (t.cfg.slot w.slotB).image = [] ∧ t.cfg.nvWrite = none ∧
        t.cfg.slot (!w.slotB) = s.cfg.slot (!w.slotB)) ∧
    (∀ w, s.cfg.nvWrite = some w → (s.cfg.abandon.slot w.slotB).image = [] ∧ s.cfg.abandon.nvWrite = none ∧
      s.cfg.abandon.slot (!w.slotB) = s.cfg.slot (!w.slotB))

/-! ### Legs and supplies -/

/-- The interlock of a leg: a switch that is off confirms its handshake and its dead time runs; at its end the other switch, which
waited, turns on, a high-side one with its bootstrap good (R278, R279, R293). A handshake that does not come trips the leg with CAUSE 0x7
or 0x8 (R281, R305). -/
def Obligations.HandshakesLetTheOtherSwitchOn : Prop :=
  ∀ (t l : Nat) (w : Switch) (s : State), s.inReset = false → t < s.variant.tiles → l < 16 →
    let x := s.leg t l
    ((x.sw w).on = false → (x.sw w).hs = false →
      exec (.handshakeConfirm t l w) s =
        .next ((s.quiet.setLeg t l (x.setSw w { x.sw w with hs := true, dead := true })).legSettle t l) ∧
      exec (.gateHsTimeout t l w) s = .next (s.quiet.tripAs t l (if w = .high then 7 else 8) srcHsTimeout (decide (w = .high)))) ∧
    ((x.sw w).on = true ∨ (x.sw w).hs = true → exec (.handshakeConfirm t l w) s = .next s.quiet ∧
      exec (.gateHsTimeout t l w) s = .next s.quiet) ∧
    ((x.sw w).dead = true → exec (.deadTimeEnd t l w) s =
      .next ((s.quiet.setLeg t l (x.setSw w { x.sw w with dead := false }).retry).legSettle t l)) ∧
    ((x.sw w).dead = false → exec (.deadTimeEnd t l w) s = .next s.quiet) ∧
    (x.mode ≠ 1 → (x.sw w).dead = true → (x.sw w).cmd = false → (x.sw w).waiting = false → (x.sw w).hs = true → x.hiz = false →
      (x.sw (otherSw w)).waiting = true → (w = .low → x.bstOk = true) → ∃ u, exec (.deadTimeEnd t l w) s = .next u ∧
        ((u.leg t l).sw (otherSw w)).on = true ∧ ((u.leg t l).sw (otherSw w)).waiting = false ∧
        (u.leg t l).sw w = { x.sw w with dead := false } ∧ ∀ m j, (m, j) ≠ (t, l) → u.leg m j = s.leg m j)

/-- Each short circuit of a switch that conducts, and each cross-command, trips its leg with its own CAUSE, a short circuit with the
segments of the soft turn-off, also in axis mode, where the courses above the axis are told of it; a trip takes the leg to Hi-Z and latches its cause unless it already holds a latch, and in axis mode the other three legs follow with CAUSE 0xC; no other leg changes
(R282, R322, R298 to R301, R304, R179). -/
def Obligations.TripsTakeTheLegToHiZ : Prop :=
  ∀ (t l : Nat) (w : Switch) (s : State), s.inReset = false → t < s.variant.tiles → l < 16 →
    let x := s.leg t l
    exec (.crossCmd t l) s = .next (s.quiet.tripAs t l 6 srcCrossCmd false) ∧
    (x.mode ≠ 0 → (x.sw w).on = true →
      exec (.desaturation t l w) s = .next (s.quiet.shortAs t l (if w = .high then 2 else 1) srcVdsShort (decide (w = .high)) [w]) ∧
      exec (.grossDesaturation t l w) s = .next (s.quiet.shortAs t l (if w = .high then 3 else 4) srcVdsShort (decide (w = .high)) [w])) ∧
    (x.mode = 0 ∨ (x.sw w).on = false → exec (.desaturation t l w) s = .next s.quiet ∧ exec (.grossDesaturation t l w) s = .next s.quiet) ∧
    (l = 0 ∨ l = 8 → bit x.prot 20 = true → x.mode ≠ 0 → exec (.shuntTrip t l) s = .next (s.quiet.shortAs t l 5 srcShuntOc false [.low, .high])) ∧
    (bit x.prot 20 = false → exec (.shuntTrip t l) s = .next s.quiet) ∧
    (∀ cause src high, (x.sw w).on = true →
      let soft := s.setLeg t l (x.setSw w { x.sw w with nOff := fld x.prot 16 4 })
      (x.mode ≠ 1 → s.shortAs t l cause src high [w] = soft.tripAs t l cause src high) ∧
      (x.mode = 1 → s.shortAs t l cause src high [w] = (soft.memberReport (legAxis t l)).tripAs t l cause src high ∧
        (soft.memberReport (legAxis t l)).tiles = soft.tiles ∧ (soft.memberReport (legAxis t l)).axes = soft.axes)) ∧
    ∀ cause, let u := s.tripLeg t l cause
      (u.leg t l).latch = true ∧ (u.leg t l).cause = (if x.latch then x.cause else cause) ∧
      (∀ j, j = l ∨ (x.mode = 1 ∧ j / 4 = l / 4) → (u.leg t j).hiz = true ∧ (u.leg t j).hi.cmd = false ∧ (u.leg t j).hi.on = false ∧
        (u.leg t j).lo.cmd = false ∧ (u.leg t j).lo.on = false) ∧
      (x.mode = 1 → ∀ j, j ≠ l → j / 4 = l / 4 → (u.leg t j).latch = true ∧
        (u.leg t j).cause = if (s.leg t j).latch then (s.leg t j).cause else 12) ∧
      ∀ m j, (m ≠ t ∨ if x.mode = 1 then j / 4 ≠ l / 4 else j ≠ l) → u.leg m j = s.leg m j

/-- A measured edge moves the count of its kind by one towards the target time and is reported in LEG_TSW, the segment whose turn it is in
the rotation being compared; of a leg at Hi-Z the edge that took it there is measured and reported, and moves no count (R284, R285, R287, R283); a segment that conducts while it is commanded off is retired (R287). A bootstrap below its
threshold blocks the high side, also after a precharge of 100 µs, behind which a leg that still drives goes on; a good one reads BST_OK and
lets a command that waits through (R292 to R294). -/
def Obligations.EdgesAndBootstrapsAreWatched : Prop :=
  ∀ (t l : Nat) (w : Switch) (s : State), s.inReset = false → t < s.variant.tiles → l < 16 →
    let x := s.leg t l
    let g := x.sw w
    let T := fld x.gd 8 8
    let tol := max 1 (T / 8)
    let next (n ticks : Nat) : Nat :=
      if T + tol < ticks then min (min (fld x.gd 24 4) g.capacity) (n + 1) else if ticks + tol < T then max 1 (n - 1) else n
    (∀ ticks seg, x.hiz = false → g.inTurn seg = true → g.slowOn < 255 → g.fastOn < 255 → ∃ u, exec (.gateEdgeMeasured t l w true ticks seg false) s = .next u ∧
      ((u.leg t l).sw w).nOn = next g.nOn ticks ∧ ((u.leg t l).sw w).tswOn = min 255 ticks ∧ ((u.leg t l).sw w).nOff = g.nOff ∧
      ((u.leg t l).sw w).active = g.active ∧ Bank.get 0 ((u.leg t l).sw w).dev seg = 0 ∧ ∀ m j, (m, j) ≠ (t, l) → u.leg m j = s.leg m j) ∧
    (∀ ticks seg, x.hiz = false → g.inTurn seg = true → g.slowOff < 255 → g.fastOff < 255 → ∃ u, exec (.gateEdgeMeasured t l w false ticks seg false) s = .next u ∧
      ((u.leg t l).sw w).nOff = next g.nOff ticks ∧ ((u.leg t l).sw w).tswOff = min 255 ticks ∧ ((u.leg t l).sw w).nOn = g.nOn ∧
      ((u.leg t l).sw w).active = g.active ∧ Bank.get 0 ((u.leg t l).sw w).dev seg = 0 ∧ ∀ m j, (m, j) ≠ (t, l) → u.leg m j = s.leg m j) ∧
    (∀ ticks seg, x.hiz = true → g.cmd = false → g.inTurn seg = true → g.slowOff < 255 → g.fastOff < 255 → ∃ u,
      exec (.gateEdgeMeasured t l w false ticks seg false) s = .next u ∧ ((u.leg t l).sw w).nOff = g.nOff ∧ ((u.leg t l).sw w).nOn = g.nOn ∧
      ((u.leg t l).sw w).tswOff = min 255 ticks ∧ ((u.leg t l).sw w).active = g.active ∧ Bank.get 0 ((u.leg t l).sw w).dev seg = 0 ∧
      ∀ m j, (m, j) ≠ (t, l) → u.leg m j = s.leg m j) ∧
    (∀ on ticks seg dev, (x.hiz = true ∧ (on = true ∨ g.cmd = true)) ∨ g.inTurn seg = false → exec (.gateEdgeMeasured t l w on ticks seg dev) s = .next s.quiet) ∧
    (∀ seg, g.segOff seg = true → exec (.segmentConductsOff t l w seg) s = .next (s.quiet.retireSeg t l w seg)) ∧
    (∀ seg, g.segOff seg = false → exec (.segmentConductsOff t l w seg) s = .next s.quiet) ∧
    (∀ seg, g.on = false ∨ g.active.getLsbD seg = false → g.segOff seg = true) ∧
    (x.bstOk = true → exec (.bstUv t l) s = .next (s.quiet.bstFail t l)) ∧
    (x.bstOk = false → exec (.bstUv t l) s = .next s.quiet) ∧
    (x.precharge = true → ((s.quiet.bstFail t l).leg t l).hiz = true → exec (.prechargeTimeout t l) s = .next (s.quiet.bstFail t l)) ∧
    (x.precharge = true → ((s.quiet.bstFail t l).leg t l).hiz = false → exec (.prechargeTimeout t l) s =
      .next ((s.quiet.bstFail t l).prechargeDone t l)) ∧
    (x.precharge = false → exec (.prechargeTimeout t l) s = .next s.quiet) ∧
    (x.bstOk = false → x.precharge = false → x.mode ≠ 1 → exec (.bootstrapGood t l) s =
      .next (s.quiet.setLeg t l { x with bstOk := true }.retry)) ∧
    (x.bstOk = false → x.precharge = true → exec (.bootstrapGood t l) s =
      .next ((s.quiet.setLeg t l { x with bstOk := true, precharge := false }).prechargeDone t l)) ∧
    (x.bstOk = true → exec (.bootstrapGood t l) s = .next s.quiet)

/-- VGATE outside its window takes the tile to Hi-Z under ISO and raises its source, and each leg in use latches CAUSE 0xB; VM outside
its window raises its source; back inside, the flags clear (R295, R296). -/
def Obligations.SuppliesActOnTheirTile : Prop :=
  ∀ (t : Nat) (s : State), s.inReset = false → t < s.variant.tiles →
    let x := s.tile t
    let isolated (u : State) (src : Nat) : State := (u.isoTile t).faultTile (src + t) (wd t) t
    (x.vgUv = false → exec (.vgateUv t) s =
      .next (isolated (s.quiet.setTile t { x with vgUv := true, vgOv := false, flags := x.flags ||| bw true 3 }) srcVgateUv)) ∧
    (x.vgOv = false → exec (.vgateOv t) s =
      .next (isolated (s.quiet.setTile t { x with vgOv := true, vgUv := false, flags := x.flags ||| bw true 2 }) srcVgateOv)) ∧
    (x.vgUv = true → exec (.vgateUv t) s = .next s.quiet) ∧ (x.vgOv = true → exec (.vgateOv t) s = .next s.quiet) ∧
    exec (.vgateGood t) s = .next (s.quiet.setTile t { x with vgUv := false, vgOv := false }) ∧
    (((s.isoTile t).tile t).iso = true ∧ ∀ l, (s.leg t l).mode ≠ 0 → ((s.isoTile t).leg t l).hiz = true ∧ ((s.isoTile t).leg t l).latch = true ∧
      ((s.isoTile t).leg t l).cause = if (s.leg t l).latch then (s.leg t l).cause else 11) ∧
    (x.vmUv = false → exec (.vmUv t) s =
      .next ((s.quiet.setTile t { x with vmUv := true, vmOv := false, flags := x.flags ||| bw true 1 }).fault (srcVmUv + t) (wd t) (.tile t))) ∧
    (x.vmOv = false → exec (.vmOv t) s =
      .next ((s.quiet.setTile t { x with vmOv := true, vmUv := false, flags := x.flags ||| bw true 0 }).fault (srcVmOv + t) (wd t) (.tile t))) ∧
    (x.vmUv = true → exec (.vmUv t) s = .next s.quiet) ∧ (x.vmOv = true → exec (.vmOv t) s = .next s.quiet) ∧
    exec (.vmGood t) s = .next (s.quiet.setTile t { x with vmUv := false, vmOv := false })

/-- EN low takes every leg to Hi-Z and, from a mode that drives, the device to Safe with CAUSE 3, and raises EN_LOW; EN high changes no
more than the pin (R54, R512, R342). A reaction window closes 400 DT counts after its record, and a pulse of nFAULT at its end (R516,
R521). -/
def Obligations.PinsAndWindowsEnd : Prop :=
  ∀ s : State, s.inReset = false →
    (s.glb.enIn = true → ∃ u : State, exec .enLow s = .next (u.fault srcEnLow 0 .none) ∧ u.glb.enIn = false ∧ u.dt = s.dt ∧
      (∀ t l, (u.leg t l).hiz = true ∧ (u.leg t l).hi.on = false ∧ (u.leg t l).lo.on = false) ∧
      u.glb.mode = (if s.glb.mode = .diagnose ∨ s.glb.mode = .run ∨ s.glb.mode = .hold then .safe else s.glb.mode) ∧
      (s.glb.mode = .run → u.glb.prev = .run ∧ u.glb.cause = 3)) ∧
    (s.glb.enIn = false → exec .enLow s = .next s.quiet) ∧
    exec .enHigh s = .next { s.quiet with glb := { s.glb with enIn := true } } ∧
    (∀ n, ∃ u, exec (.reactionWindowEnd n) s = .next u ∧ { u with flt := { u.flt with hist := s.flt.hist } } = s.quiet ∧
      u.flt.hist.length = s.flt.hist.length ∧ (∀ e ∈ u.flt.hist, e.num = n → e.dt + 400 ≤ s.dt → e.window = false) ∧
      ∀ i : Nat, (u.flt.hist[i]?).map (fun e => { e with window := true }) = (s.flt.hist[i]?).map fun e => { e with window := true }) ∧
    (∀ p, s.flt.pulse = some p → p ≤ s.dt → exec .nfaultPulseEnd s = .next { s.quiet with flt := { s.flt with pulse := none } }) ∧
    (s.flt.pulse = none → exec .nfaultPulseEnd s = .next s.quiet) ∧
    (∀ p, s.flt.pulse = some p → s.dt < p → exec .nfaultPulseEnd s = .next s.quiet)

/-! ### Choppers, generators and comparators -/

/-- The chopper cycle of a coil of a driven axis: a trip in phase C ends the on-phase, the end of blanking arms the comparator, the fast
portion goes over to slow decay with both low switches commanded, also where the transition to fast decay still runs, and the end of the
off-time takes the next dithered code and, unless it is 0, the mask of the sign delivered (R206 to R216). -/
def Obligations.ChopperCyclesFollowTheirPhases : Prop :=
  ∀ (a : Nat) (c : Coil) (s : State), s.inReset = false → (s.axis a).driven = true →
    let k := (s.axis a).coil c
    (∀ ticks sp, k.phase = .onCompare → exec (.coilComparatorTrip a c ticks sp) s =
      .next ((s.quiet.endOn a c false false false ticks).comparedTrip a c sp)) ∧
    (∀ ticks sp, k.phase ≠ .onCompare → exec (.coilComparatorTrip a c ticks sp) s = .next s.quiet) ∧
    (∀ sp, k.phase = .blanking → s.spr.freeze = false →
      (∃ u, exec (.blankingEnd a c false sp) s = .next u ∧ (u.axis a).coil c = { k with phase := .onCompare } ∧ u.tiles = s.tiles ∧
        ∀ b, b ≠ a → u.axis b = s.axis b) ∧
      exec (.blankingEnd a c true sp) s = .next (((s.quiet.updCoil a c fun k => { k with phase := .onCompare }).endOn a c false true false
        (80 + 48 * fld (s.axis a).regs.chop 24 4)).comparedTrip a c sp)) ∧
    (∀ above sp, k.phase ≠ .blanking → exec (.blankingEnd a c above sp) s = .next s.quiet) ∧
    (∀ b, k.phase = .onCompare → s.spr.freeze = false → exec (.onTimeSaturation a c b) s =
      .next (((s.quiet.endOn a c false false true 65535).compared a c b false false b).noTrip a c)) ∧
    (k.phase = .fast ∨ (k.phase = .toDecay ∧ 0 < k.fastTicks) → k.allFast = false → s.spr.freeze = false → ∃ u, exec (.fastPortionEnd a c) s = .next u ∧
      ((u.axis a).coil c).phase ∈ [ChopPhase.toSlow, ChopPhase.slow] ∧ ((u.axis a).coil c).fastTicks = 0 ∧
      ∀ l, l = (coilLegs a c).1 ∨ l = (coilLegs a c).2 → (u.leg (axisTile a) l).lo.cmd = true ∧ (u.leg (axisTile a) l).hi.cmd = false) ∧
    ((k.phase ≠ .fast ∧ (k.phase ≠ .toDecay ∨ k.fastTicks = 0)) ∨ k.allFast = true ∨ s.spr.freeze = true →
      exec (.fastPortionEnd a c) s = .next s.quiet) ∧
    (k.phase ∈ [ChopPhase.toDecay, ChopPhase.fast, ChopPhase.toSlow, ChopPhase.slow] → s.spr.freeze = false →
      ∃ u, exec (.offTimeEnd a c) s = .next u ∧ ((u.axis a).coil c).dither = (k.dither + 1) % 16 ∧
        ((u.axis a).coil c).code = ditherCode k.i12 k.dither ∧ (ditherCode k.i12 k.dither ≠ 0 → ((u.axis a).coil c).mask = k.neg) ∧
        (∀ b, b ≠ a → u.axis b = s.axis b) ∧ { u with axes := s.axes, tiles := s.tiles } = s.quiet)

/-- The spare comparator takes over at the turn-on of the coil for which it stands ready, and a check that has run 2 ms on a coil moves
on (R329, R332). A freeze and the holds of the cores begin and end with their own commands; with either the cores stop planning, and refill the queues
before they take up descriptors again (R46, R47, R228, R231). -/
def Obligations.ComparatorsAndHoldsFollowTheirCommands : Prop :=
  ∀ s : State, s.inReset = false →
    (∀ t k, (s.tile t).takeover = some k → (s.tile t).spareOk = true → ∃ u, exec (.spareTakeover t) s = .next u ∧
      u.tile t = { s.tile t with steered := true, steerK := k, takeover := none, cmpPend := false, confirming := false } ∧
      (u.axis (4 * t + k / 2)).stall.skip = true ∧ bit u.spr.flags 2 = true ∧ ∀ j, j ≠ t → u.tile j = s.tile j) ∧
    (∀ t, (s.tile t).takeover = none → exec (.spareTakeover t) s = .next s.quiet) ∧
    (∀ t, s.checking t = true → (s.tile t).confirming = false → (s.tile t).cycles < 64 → ∃ u, exec (.shadowCheckTimeout t) s = .next u ∧
      u.tile t = (s.tile t).checkOn ((s.nextCheck t (s.tile t).shadowK).getD (s.tile t).shadowK) ∧ ∀ j, j ≠ t → u.tile j = s.tile j) ∧
    (∀ t, s.checking t = false ∨ (s.tile t).confirming = true → exec (.shadowCheckTimeout t) s = .next s.quiet) ∧
    (s.spr.freeze = false → ∃ u : State, exec .dbgFreeze s = .next (u.raiseDev srcDbgFreeze 1) ∧
      u.spr = { s.spr with freeze := true, freezeDt := s.dt } ∧ u.glb = s.glb ∧ u.host = { s.host with planned := false, refill := true }) ∧
    (s.spr.freeze = true → exec .dbgFreeze s = .next s.quiet ∧
      ∃ u : State, exec .freezeRelease s = .next (u.raiseDev srcDbgFreeze 0) ∧ u.spr = { s.spr with freeze := false } ∧ u.glb = s.glb) ∧
    (s.spr.freeze = false → exec .freezeRelease s = .next s.quiet) ∧
    (∃ u, exec .coreHold s = .next u ∧ u.paused = true ∧
      u = { s.quiet with spr := { s.spr with coreHold := true }, host := { s.host with planned := false, refill := true } }) ∧
    exec .coreHoldRelease s = .next { s.quiet with spr := { s.spr with coreHold := false } }

/-- The generator of a direct-PWM leg that runs, and of a solenoid leg in pull-in or hold, whose drive switch is the low one in mode 0x2: the period boundary takes an armed set over and advances the dither; the drive switch
goes on and off unless its time is too short, and the other switch waits out its dead time in either case; triggers queue conversions, at
most four behind the one in progress and, within 2 us of a boundary, before those of the supplies, those of one DT count in the order of their legs; a
conversion answers the oldest (R220 to R227, R309). That the drive switch of mode 0x4 is the high one is the model's choice of log entry 20; that the
conversion in progress does not count, and what is of one tick, of entry 29. -/
def Obligations.GeneratorsAndConvertersRun : Prop :=
  ∀ (t l : Nat) (s : State), s.inReset = false → s.hasLeg t l = true →
    let x := s.leg t l
    let w := driveSwitch x.mode
    w = (if x.mode = 2 then .low else .high) ∧
    ((x.mode = 4 ∧ (s.glb.mode = .run ∨ s.glb.mode = .hold) ∧ x.solCur = none) ∨
       ((x.mode = 2 ∨ x.mode = 3) ∧ (x.solPhase = .pullIn ∨ x.solPhase = .hold) ∧ 0 < x.solLeft) →
      s.legFree t l = true → s.spr.freeze = false → x.hiz = false → x.runs = true → x.precharge = false →
      (∀ p : PwmSet, p = x.shadow → (x.armedSet = true → p.duty ≤ 16 * (p.per - x.tMinOff)) →
        exec (.pwmPeriodBoundary t l) s = .next (s.quiet.setLeg t l
          { x with dither := (x.dither + 1) % 16, solLeft := x.solLeft - 1, armedSet := false,
                   act := if x.armedSet then { p with ph := p.ph % max 1 p.per } else x.act })) ∧
      (x.driveOn = false → hsTicks t l + x.tDt + x.tSw ≤ x.dTicks → 0 < x.dTicks → exec (.pwmDriveOn t l) s =
        .next (s.quiet.setLeg t l { x.drive w with driveOn := true })) ∧
      (x.driveOn = false → x.dTicks < hsTicks t l + x.tDt + x.tSw → 0 < x.dTicks → exec (.pwmDriveOn t l) s =
        .next (s.quiet.setLeg t l { x.cmdOff (otherSw w) with skipCnt := satAdd 65535 x.skipCnt 1 })) ∧
      (x.driveOn = true ∨ x.dTicks = 0 → exec (.pwmDriveOn t l) s = .next s.quiet) ∧
      (∀ y z : Leg, y = x.cmdOff w → z = (if x.driveOn = false ∧ (x.sw (otherSw w)).cmd = false then y.setSw w { y.sw w with dead := true } else y) →
        ((if x.driveOn then hsTicks t l else 0) + x.tDt + x.tSw ≤ x.act.per - x.dTicks → exec (.pwmDriveOff t l) s =
          .next (s.quiet.setLeg t l { z.drive (otherSw w) with driveOn := false })) ∧
        (x.act.per - x.dTicks < (if x.driveOn then hsTicks t l else 0) + x.tDt + x.tSw → exec (.pwmDriveOff t l) s =
          .next (s.quiet.setLeg t l { z with driveOn := false, skipCnt := satAdd 65535 x.skipCnt 1 })))) ∧
    (∀ w : Switch, ((x.drive w).sw w).cmd = true ∧ ((x.drive w).sw (otherSw w)).cmd = false) ∧
    (∀ which, x.pwmMode = true → x.runs = true → s.spr.freeze = false → bit x.ctl (if which then 9 else 8) = true →
      let q := (s.tile t).adcQ
      let r : AdcReq := .leg l which (fld x.ctl (if which then 28 else 24) 4) s.dt
      ((∀ e ∈ q, ∀ d, e.rank = some d → d.1 ≠ s.dt) →
        let joined := if s.supplyTime then q ++ [r] else q.filter (fun e => !e.ofSupply) ++ r :: q.filter AdcReq.ofSupply
        (adcWaiting joined ≤ 4 → exec (.converterTrigger t l which) s = .next (s.quiet.setTile t { s.tile t with adcQ := joined })) ∧
        (4 < adcWaiting joined → ∃ u, exec (.converterTrigger t l which) s = .next u ∧
          (u.tile t).adcQ = (if s.supplyTime then q else q.filter (fun e => !e.ofSupply) ++ q.filter AdcReq.ofSupply) ∧
          (u.tile t).drop = satAdd 65535 (s.tile t).drop 1 ∧ u.leg t l = { x with adcDrop := true })) ∧
      (∀ pre j v ch, q = pre ++ [.leg j v ch s.dt] → l < j → (∀ e ∈ pre, ∀ d, e.rank = some d → d.1 ≠ s.dt) → s.supplyTime = true →
        (adcWaiting q < 4 → exec (.converterTrigger t l which) s = .next (s.quiet.setTile t { s.tile t with adcQ := pre ++ [r, .leg j v ch s.dt] })) ∧
        (4 ≤ adcWaiting q → ∃ u, exec (.converterTrigger t l which) s = .next u ∧ (u.tile t).adcQ = pre ++ [r] ∧
          (u.tile t).drop = satAdd 65535 (s.tile t).drop 1 ∧ u.leg t j = { s.leg t j with adcDrop := true } ∧ ∀ i, i ≠ j → u.leg t i = s.leg t i))) ∧
    (∀ which, bit x.ctl (if which then 9 else 8) = false → exec (.converterTrigger t l which) s = .next s.quiet) ∧
    (∀ code, (s.tile t).adcQ = [] → exec (.adcConversionDone t code) s = .next s.quiet) ∧
    (∀ code rest j which ch at_, (s.tile t).adcQ = .leg j which ch at_ :: rest → ∃ u, exec (.adcConversionDone t code) s = .next u ∧ (u.tile t).adcQ = rest ∧
      u.leg t j = { s.leg t j with res := adcResult (s.leg t j).res which code } ∧ ∀ i, i ≠ j → u.leg t i = s.leg t i) ∧
    (∀ code rest, (s.tile t).adcQ = .vm :: rest → s.supplyTime = true → exec (.adcConversionDone t code) s =
      .next (s.quiet.setTile t { s.tile t with adcQ := rest, vmCode := code.toNat })) ∧
    (∀ code rest, (s.tile t).adcQ = .vm :: rest → s.supplyTime = false → exec (.adcConversionDone t code) s = .next s.quiet)

/-! ### Inputs, the reference and the strait -/

/-- An edge of a known sense input that no pair has taken falls at the first sample at which M of its N samples differ from its level, and an
input becomes known at the first at which its last N agree; either sets the level and reaches the safety latch, the limits and HOME, and at a DT
count that is no sample instant, or for samples that bring nothing, nothing happens. Step pairs and encoders count modulo 2^32 while enabled, an
encoder's changes each behind their stable time, and the encoder source moves the RC by one whole step, with its count at the RC integer; where
both channels change at once the count stays, ENC_ERR_S is set and ENC_ERR raised, default class HALT; an index edge latches the count (R74 to
R76, R81, R186, R336 to R340, R343). How the samples are held, and those that no command lists, are the model's choices of log entry 25; ENC_ERR for
every encoder, the count loaded at an edge, and the index latching with EN = 0 those of entry 35. -/
def Obligations.InputsCountAndLatch : Prop :=
  ∀ (n : Nat) (s : State), s.inReset = false →
    let held := (s.inp.hist n).last
    let count := (s.inp.hist n).count
    let upTo (samples : List Bool) (i : Nat) : List Bool := ((samples.take (i + 1)).reverse ++ held).take 7
    (∀ samples, s.dt % 200 ≠ 0 ∨ samples = [] ∨ s.dt / 200 + 1 < count + samples.length → s.inp.event n s.dt samples = none) ∧
    (∀ samples, samples ≠ [] → s.dt % 200 = 0 → s.dt / 200 + 1 = count + samples.length →
      (∀ v h, s.inp.event n s.dt samples = some (v, h) ↔ s.inp.takes n (upTo samples (samples.length - 1)) = some v ∧
        (∀ i, i + 1 < samples.length → s.inp.takes n (upTo samples i) = none) ∧
        h = { count := s.dt / 200 + 1, last := upTo samples (samples.length - 1) })) ∧
    (∀ w v, s.inp.isKnown n = true → (s.inp.takes n w = some v ↔
      v ≠ s.inp.level n ∧ s.inp.filtM n ≤ ((w.take (s.inp.filtN n)).filter fun x => decide (x ≠ s.inp.level n)).length)) ∧
    (∀ w v, s.inp.isKnown n = false → (s.inp.takes n w = some v ↔ (w.take (s.inp.filtN n)).length = s.inp.filtN n ∧ ∀ y ∈ w.take (s.inp.filtN n), y = v)) ∧
    (∀ earlier sample level h, n < s.variant.senses → s.inp.isKnown n = true → s.inp.taken n = false →
      s.inp.event n s.dt (earlier ++ [sample]) = some (level, h) →
      let u := ({ s.quiet with inp := { s.inp with lvl := mapSet s.inp.lvl n level, edge := mapSet s.inp.edge n true
                                                   samp := Bank.set s.inp.samp n h } } : State).safetyInput n
      exec (.senseQualifiedEdge n sample earlier) s =
        .next (u.listedAxes.foldl (fun t a => (t.limitInput a n true).homeEdge a n level (s.dt - 200 * s.inp.sBehind n level h)) u)) ∧
    (∀ level h, let w := h.last.take (s.inp.filtN n)
      level ∈ w → w[s.inp.sBehind n level h]? = some level ∧ ∀ j, s.inp.sBehind n level h < j → w[j]? ≠ some level) ∧
    (∀ earlier sample, s.inp.isKnown n = false ∨ s.inp.taken n = true ∨ s.inp.event n s.dt (earlier ++ [sample]) = none →
      exec (.senseQualifiedEdge n sample earlier) s = .next s.quiet) ∧
    (∀ samples level h, n < s.variant.senses → s.inp.isKnown n = false → s.inp.taken n = false → s.inp.event n s.dt samples = some (level, h) →
      let u := ({ s.quiet with inp := { s.inp with lvl := mapSet s.inp.lvl n level, known := mapSet s.inp.known n true
                                                   samp := Bank.set s.inp.samp n h } } : State).safetyInput n
      exec (.inputKnown n samples) s = .next (u.listedAxes.foldl (fun t a => t.limitInput a n false) u)) ∧
    (∀ samples, s.inp.isKnown n = true ∨ s.inp.taken n = true ∨ s.inp.event n s.dt samples = none → exec (.inputKnown n samples) s = .next s.quiet) ∧
    (∀ dir, n < s.variant.pairs → bit (s.inp.stepCfgOf n) 0 = true → exec (.stpEdge n dir) s = .next { s.quiet with inp := { s.inp with
      stepCnt := Bank.set s.inp.stepCnt n (if dir = bit (s.inp.stepCfgOf n) 2 then Bank.get 0 s.inp.stepCnt n - 1 else Bank.get 0 s.inp.stepCnt n + 1) } }) ∧
    (∀ dir, bit (s.inp.stepCfgOf n) 0 = false → exec (.stpEdge n dir) s = .next s.quiet) ∧
    (let e := s.inp.encSeenOf n
     let f := s.inp.encFilt n
     let apart (last : Option Nat) (k : Nat) : Prop := ∀ t, last = some t → t + k ≤ s.dt
     f = (match fld (s.inp.encCfgOf n) 4 2 with
       | 0 => 2
       | 1 => 4
       | 2 => 8
       | _ => 12) ∧
     (∀ up, (e.edge up true s.dt f).1 = true ↔ apart e.atA f ∧ apart e.atB f) ∧
     (∀ up, (e.edge up false s.dt f).1 = true ↔ apart (if (e.edge up false s.dt f).2.chanB then e.atB else e.atA) f) ∧
     (∀ up, (e.edge up false s.dt f).2.chanB = if up = e.up then !e.chanB else e.chanB) ∧
     (∀ up both, s.variant.encoders ≤ n ∨ (e.edge up both s.dt f).1 = false → exec (.encoderEdge n up both) s = .next s.quiet) ∧
     (∀ up both, n < s.variant.encoders → (e.edge up both s.dt f).1 = true →
       let seen := { s.inp with encSeen := Bank.set s.inp.encSeen n (e.edge up both s.dt f).2 }
       (bit (s.inp.encCfgOf n) 0 = false → exec (.encoderEdge n up both) s = .next { s.quiet with inp := seen }) ∧
       (bit (s.inp.encCfgOf n) 0 = true → both = true → exec (.encoderEdge n up both) s =
         .next (({ s.quiet with inp := seen, ref := { s.ref with flags := s.ref.flags ||| bw true 4 } }).fault srcEncErr (wd n) .none)) ∧
       (bit (s.inp.encCfgOf n) 0 = true → both = false → ∃ u, exec (.encoderEdge n up both) s = .next u ∧
         let rises := up != bit s.ref.encCfg 4
         { u with inp := s.inp, ref := s.ref } = s.quiet ∧
         (s.ref.isEnc n = false ∨ s.ref.run = false →
           u.inp = { seen with encCnt := Bank.set s.inp.encCnt n (Bank.get 0 s.inp.encCnt n + if rises then 1 else -1) }) ∧
         (s.ref.isEnc n = false → u.ref = s.ref) ∧
         (s.ref.isEnc n = true → s.ref.run = true → Bank.get 0 u.inp.encCnt n = wd (u.ref.rc / 2 ^ 40)) ∧
         (s.ref.isEnc n = true → s.ref.run = true →
           (rises = true → u.ref.rc = (s.ref.rc / 2 ^ 40 + 1) % 2 ^ 40 * 2 ^ 40) ∧
           (rises = false → u.ref.rc = (s.ref.rc / 2 ^ 40 + 2 ^ 40 - 1) % 2 ^ 40 * 2 ^ 40 + 0xFF0000 * 2 ^ 16)) ∧
         (s.ref.isEnc n = true → s.ref.run = false → u.ref.rc = s.ref.rc))) ∧
     (s.variant.encoders ≤ n ∨ ¬ apart e.idx (2 * f) → exec (.encoderIndexEdge n) s = .next s.quiet) ∧
     (n < s.variant.encoders → apart e.idx (2 * f) → exec (.encoderIndexEdge n) s =
       .next { s.quiet with inp := { s.inp with encIdx := Bank.set s.inp.encIdx n (Bank.get 0 s.inp.encCnt n)
                                                encSeen := Bank.set s.inp.encSeen n { e with idx := some s.dt } } })) ∧
    (s.ref.isEnc n = true → s.ref.encDt + 65536 ≤ s.dt → exec (.encoderRateTimeout n) s = .next { s.quiet with ref := { s.ref with encRate := 0 } }) ∧
    (s.ref.isEnc n = false ∨ s.dt < s.ref.encDt + 65536 → exec (.encoderRateTimeout n) s = .next s.quiet) ∧
    (srcInfo s.variant srcEncErr).map (fun i => i.dflt) = some .halt

/-- The line source takes a qualified edge of the sense that starts its cycles at the time of the first of its samples, at a rate within a
tenth of the nominal one (the value between is free, log entry 2), at the last rate while it stays in Lost and at the nominal one where it comes back
to Acquiring (log entry 36); it goes to Holdover when one and a half periods pass without an edge, and from there to Lost when the programmed number of periods more has passed. A failed primary
oscillator hands over to the backup and raises OSC_SWITCH, a failed backup raises OSC_BKP_FAIL, each of the two detections counts in the
wear counter of its oscillator, the device returns to a good primary where it may, and the loss of both takes every leg to Hi-Z and raises
CLK_LOST, fixed at class LOCK. A mark of a reference output begins a pulse of its width where the RC integer has passed a multiple of DIV,
unless one is in progress (R77, R78, R91, R113 to R116, R344, R495). The rates and the current cycle period are the model's choices of log entry 36,
the oscillator flags of entry 59, what the wear counters count of entry 72, and the marks and the first edge of a line input of entry 80. -/
def Obligations.ClocksFollowTheirSources : Prop :=
  ∀ (n : Nat) (s : State), s.inReset = false →
    (∀ e level, s.ref.isLine n = true → s.ref.run = true → bit (s.inp.lineCfgOf n) 0 = true → s.lineQualifies n level = true →
      level = (!bit s.ref.lineCfg 0) →
      e = phaseError (rcBefore s.ref s.str (s.dt - (s.dt - 200 * (fld (s.inp.lineCfgOf n) 8 8 - 1))) / 2 ^ 40) → (s.ref.lineLock e).2 = false →
      ∃ u, exec (.lineEdge { n := n, level := level }) s = .next u ∧ u.ref.lock = (s.ref.lineLock e).1.lock ∧
        u.ref.lineDt = s.dt - 200 * (fld (s.inp.lineCfgOf n) 8 8 - 1) ∧ u.ref.linePeriod = u.ref.lineDt - s.ref.lineDt ∧
        (u.ref.lock = .lost → u.ref.lineRate = s.ref.lineRate) ∧
        (u.ref.lock = .acquiring → s.ref.lock ≠ .acquiring → u.ref.lineRate = s.ref.lineRateNom) ∧
        (u.ref.lock ≠ .lost → s.ref.lineRateNom * 9 / 10 ≤ u.ref.lineRate ∧ u.ref.lineRate ≤ s.ref.lineRateNom * 11 / 10) ∧
        { u with ref := s.ref, inp := s.inp, fresh := s.fresh } = s.quiet ∧
        u.inp = { s.inp with lineLast := Bank.set s.inp.lineLast n (some (s.dt, level)) }) ∧
    (∀ level, s.lineQualifies n level = false → exec (.lineEdge { n := n, level := level }) s = .next s.quiet) ∧
    (∀ level, level = bit s.ref.lineCfg 0 ∨ s.ref.isLine n = false ∨ s.ref.run = false → s.lineQualifies n level = true →
      exec (.lineEdge { n := n, level := level }) s = .next { s.quiet with inp := { s.inp with lineLast := Bank.set s.inp.lineLast n (some (s.dt, level)) } }) ∧
    (s.ref.isLine n = false ∨ s.ref.run = false → exec (.lineHoldover n) s = .next s.quiet ∧ exec (.lineLost n) s = .next s.quiet) ∧
    (s.ref.isLine n = true → s.ref.run = true → (s.ref.lock = .acquiring ∨ s.ref.lock = .locked) → s.ref.lineDt ≤ s.dt →
      3 * s.ref.linePeriod ≤ 2 * (s.dt - s.ref.lineDt) → exec (.lineHoldover n) s = .next { s.quiet with ref :=
        { s.ref with lock := .holdover, lineGood := 0, lineBad := 0, flags := s.ref.flags ||| bw true 2 } }) ∧
    (s.ref.isLine n = true → s.ref.run = true → s.ref.lock = .holdover →
      (3 + 2 * fld s.ref.lineCfg 8 8) * s.ref.linePeriod ≤ 2 * (s.dt - s.ref.lineDt) → exec (.lineLost n) s =
        .next (({ s.quiet with ref := { s.ref with lock := .lost } }).fault srcLineLost (wd n) .none)) ∧
    (s.glb.bkpActive = false →
      (∃ dev : BitVec 16, exec .oscSwitch s = .next ((({ s.quiet with
        glb := { s.glb with bkpActive := true, bkpOk := true, priOk := false, clkDev := dev }
        ref := { s.ref with tcC := 0, tcAct := false, tcNext := none }, fresh := s.fresh + 1 } : State).wear 6).spareIn.fault srcOscSwitch
          (wd dev.toNat) .none)) ∧
      exec .returnToPrimary s = .next s.quiet) ∧
    (s.glb.bkpActive = false ∨ s.glb.priOk = true →
      exec .oscBkpFail s = .next ((({ s.quiet with glb := { s.glb with bkpOk := false, trimOk := false } } : State).wear 7).fault srcOscBkpFail 0 .none)) ∧
    (s.glb.bkpActive = true →
      (s.glb.priOk = true → exec .oscSwitch s = .next (({ s.quiet with glb := { s.glb with priOk := false } } : State).wear 6)) ∧
      (s.glb.priOk = false → exec .oscSwitch s = .next s.quiet ∧ exec .oscBkpFail s = .next s.quiet) ∧
      (s.glb.clkReturn = true → s.glb.priOk = true → exec .returnToPrimary s = .next { s.quiet with glb := { s.glb with bkpActive := false } })) ∧
    (∃ dev : BitVec 16, exec .primaryOscGood s = .next
      { s.quiet with glb := { s.glb with priOk := true, bkpOk := true, trimOk := true, clkDev := dev }, fresh := s.fresh + 1 }) ∧
    (∃ u : State, exec .clkLost s = .next (u.fault srcClkLost 0 .none) ∧ u.glb = { s.glb with priOk := false, bkpOk := false } ∧ u.dt = s.dt ∧
      (srcInfo s.variant srcClkLost).map (fun i => (i.mn, i.mx)) = some (.lock, .lock) ∧
      ∀ t l, (u.leg t l).hiz = true ∧ (u.leg t l).hi.on = false ∧ (u.leg t l).lo.on = false) ∧
    (n < 2 → s.outputsLive = true → s.ref.run = true → fld (s.ref.outCfgOf n) 0 3 = 1 →
      crosses s.ref.markFrom (s.ref.rc / 2 ^ 40) (fld (s.ref.outDivOf n) 0 24) = true →
      (s.pulsing n = false → ∃ u, exec (.refoutMark n) s = .next u ∧ { u with ref := s.ref } = s.quiet ∧
        u.ref.outOf n = { pulse := some (s.dt + fld (s.ref.outCfgOf n) 16 16) }) ∧
      (s.pulsing n = true → exec (.refoutMark n) s = .next s.quiet)) ∧
    (crosses s.ref.markFrom (s.ref.rc / 2 ^ 40) (fld (s.ref.outDivOf n) 0 24) = false → exec (.refoutMark n) s = .next s.quiet) ∧
    (s.pulsing n = false → ∃ u, exec (.refoutPulseEnd n) s = .next u ∧ { u with ref := s.ref } = s.quiet ∧ u.ref.outOf n = { pulse := none }) ∧
    (s.pulsing n = true → exec (.refoutPulseEnd n) s = .next s.quiet)

/-- A tile with two good sensors within 15 °C of each other takes the hotter as its temperature, and below its fourth sample beyond a
threshold no more changes but the wear counter of each sensor whose sample lies more than 15 °C from the median of its reference set,
which counts it (R346, R347, R350, R495); the die temperature is the median, and the compensation follows its table (R119, R349). The floor of
a median of an even count and of the compensation's quotients is the model's choice of log entry 19, and which tiles are in a reference set that of
entry 66. -/
def Obligations.TemperaturesFollowTheirSensors : Prop :=
  ∀ s : State, s.inReset = false →
    (∀ t a b, t < s.variant.tiles → s.thm.shut = false → let x := s.thmTile t
      x.broken0 = false → x.broken1 = false → x.dev0 < 7 → x.dev1 < 7 → x.cntW < 3 → x.cntT < 3 → x.cntS < 3 → (a.toInt - b.toInt).natAbs ≤ 240 →
      ∃ u, exec (.thermalSample t a b) s = .next u ∧ (u.thmTile t).temp = max a.toInt b.toInt ∧ (u.thmTile t).s0 = a.toInt ∧
        (u.thmTile t).s1 = b.toInt ∧ (u.thmTile t).valid = true ∧ (u.thmTile t).warn = x.warn ∧ (u.thmTile t).throt = x.throt ∧
        (∀ j, j ≠ t → u.thmTile j = s.thmTile j) ∧ { u with thm := s.thm, spr := s.spr } = s.quiet ∧ { u.spr with wear := s.spr.wear } = s.spr ∧
        ∀ i, Bank.get 0 u.spr.wear i =
          if (i = 0x2F0 + 2 * t ∧ 480 < (2 * a.toInt - median2 (u.refSet t)).natAbs) ∨
            (i = 0x2F0 + 2 * t + 1 ∧ 480 < (2 * b.toInt - median2 (u.refSet t)).natAbs) then satAdd (2 ^ 32 - 1) (Bank.get 0 s.spr.wear i) 1
          else Bank.get 0 s.spr.wear i) ∧
    (∀ t a b, s.variant.tiles ≤ t → exec (.thermalSample t a b) s = .next s.quiet) ∧
    (∃ u, exec .dieTempUpdate s = .next u ∧ u.thm = { s.thm with dieT := median2 (s.allTiles.map fun t => (s.thmTile t).temp) / 2 } ∧
      { u with thm := s.thm, ref := s.ref } = s.quiet ∧ (bit s.ref.ctrl 1 = false → u.ref = s.ref) ∧
      (bit s.ref.ctrl 1 = true → s.variant = .zm4812 → s.glb.bkpActive = false →
        u.ref = { s.ref with tcNext := some (s.ref.tcValue s.ref.tcPpb u.thm.dieT), tcGain := s.ref.tcValue s.ref.tcVrGain u.thm.dieT }))

/-- SYNC leaves a reference island whose RC runs; a follower repeats what it receives, takes a good frame and discards another, and
counts what is missing; FAULT and UPSTATUS frames carry classes; training measures 64 delays, and a lost alignment shows in its link (R99
to R109). LINK1 = 2 at the alignment, the class that a FAULT frame from below leaves and the chain held to be too long until the role is written
anew are the model's choices of log entry 37, the running DEPTH that of entry 82, the floor of the median that of entry 19. -/
def Obligations.StraitFramesAreTakenAndSent : Prop :=
  ∀ (f : List Byte) (s : State), s.inReset = false →
    (s.str.isRef = true → s.ref.run = true → s.portOn 1 = true → s.straitLive = true → exec .syncSend s = .next { s.quiet with out := [.frame 1 s.syncFrame] }) ∧
    (s.str.isRef = false ∨ s.ref.run = false → exec .syncSend s = .next s.quiet) ∧
    (s.str.isFollower = true → s.str.long = false →
      (s.frameTaken 0 frameSync f = true → exec (.syncReceive f) s = .next ((s.quiet.repeatSync f true).takeSync f)) ∧
      (s.frameTaken 0 frameSync f = false → exec (.syncReceive f) s = .next ((s.quiet.repeatSync f false).discardFrame 0 (frameGood f))) ∧
      (s.str.missRun ≠ 3 ∨ s.str.extrap = true → exec .syncMissing s = .next { s.quiet with str := { s.str with
        missCnt := satAdd 65535 s.str.missCnt 1, missRun := s.str.missRun + 1, goodRun := 0
        lastSeq := s.str.lastSeq.map fun q => (q + 1) % 256 } })) ∧
    (s.str.isFollower = false → exec (.syncReceive f) s = .next s.quiet ∧ exec .syncMissing s = .next s.quiet) ∧
    (s.str.long = true → exec (.syncReceive f) s = .next s.quiet) ∧
    (∀ p, fld s.str.ctrl 0 2 = 0 ∨ s.variant.ports ≤ p ∨ (fld s.str.ctrl 0 2 = 1 ∧ p ≠ 1) → ∀ w,
      exec (.faultFrameReceive p f) s = .next s.quiet ∧ exec (.trainReqReceive p f w) s = .next s.quiet ∧
      exec (.linkAlignmentGained p) s = .next s.quiet ∧ exec (.straitAlignmentLost p) s = .next s.quiet) ∧
    (∀ p, fld s.str.ctrl 0 2 ≠ 0 → p < s.variant.ports → (fld s.str.ctrl 0 2 = 1 → p = 1) →
      (s.frameTaken p frameFault f = true → exec (.faultFrameReceive p f) s = .next
        ((if p = 1 then (s.quiet.repeatFault p f true).updStr fun t => t.noteBelow (frameByte f 19) else s.quiet.repeatFault p f true).receiveFlt
          (frameByte f 19))) ∧
      (s.frameTaken p frameFault f = false → exec (.faultFrameReceive p f) s =
        .next ((s.quiet.repeatFault p f false).discardFrame p (frameGood f))) ∧
      (∀ w, s.frameTaken p frameTrainReq f = true → s.portOn p = true → s.straitLive = true → exec (.trainReqReceive p f w) s = .next { s.quiet with
        out := [.frame p (mkFrame (leBytes 1 frameTrainEcho ++ leBytes 1 s.str.island ++ leBytes 1 (frameByte f 3) ++ leBytes 2 w ++
          List.replicate 18 0))] }) ∧
      (p = 1 → exec (.linkAlignmentGained p) s = .next { s.quiet with str := { s.str with link1 := 2 } } ∧
        exec (.straitAlignmentLost p) s = .next { s.quiet with str := { s.str with link1 := 3 } }) ∧
      (p = 0 → s.str.long = true → exec (.straitAlignmentLost p) s = .next s.quiet ∧ exec (.linkAlignmentGained p) s = .next s.quiet) ∧
      (p = 0 → s.str.long = false → exec (.straitAlignmentLost p) s = .next { s.quiet with str := { s.str with link0 := 3, training := false } } ∧
        (s.str.isFollower = true → exec (.linkAlignmentGained p) s =
          .next { s.quiet with str := { s.str with training := true, reqNo := 0, results := [], link0 := 1 } }))) ∧
    (fld s.str.ctrl 0 2 ≠ 0 → 1 < s.variant.ports → s.frameTaken 1 frameUpstatus f = true → exec (.upstatusReceive f) s = .next
      (({ s.quiet with str := { s.str with belowClass := frameByte f 19 / 32, belowOrigin := frameByte f 19 % 32
                                           below := max (frameByte f 2) (frameByte f 12)
                                           depth := max s.str.depth (max (frameByte f 2) (frameByte f 12)) } }).receiveFlt (frameByte f 19))) ∧
    (s.str.isFollower = true → s.str.training = true →
      (s.str.reqNo < 64 → ∃ u, exec .trainReqSend s = .next u ∧ u.str = { s.str with reqNo := s.str.reqNo + 1 }) ∧
      (64 ≤ s.str.reqNo → exec .trainReqSend s = .next s.quiet) ∧
      (∀ rtt, s.frameTaken 0 frameTrainEcho f = true →
        (s.str.results.length < 63 → exec (.trainEchoReceive f rtt) s = .next { s.quiet with str := { s.str with
          results := s.str.results ++ [(rtt - 160 - frameNum f 4 2) / 2] } }) ∧
        (63 ≤ s.str.results.length → exec (.trainEchoReceive f rtt) s = .next { s.quiet with str := { s.str with
          results := [], training := false, link0 := 2, aligned := false, flags := s.str.flags ||| bw true 0
          dly := medianNat (s.str.results ++ [(rtt - 160 - frameNum f 4 2) / 2]) % 2 ^ 16 } })))

/-! ### The host link and redundant execution -/

/-- While the device can issue requests, the loss of the link, of Bus Master Enable or of D0 raises HOST_LINK_DOWN and takes every ring
that is not OFF to ERROR; while it cannot, only the link's own bits change; after a hot reset it can issue none; the loss of the link and a
hot reset return the MSI-X structures to reset; a link that comes up can issue requests again, those that have waited first; the MSI-X table holds and reads what is
written there, where no vector pends, and an access there is no access of a register (R364, R365, R397). The table's layout, its masks, what is
read back and the reset values are the model's, taken from the PCI Express standard: PRESUMED, log entry 39. -/
def Obligations.LinkLossStopsTheRings : Prop :=
  ∀ s : State, s.inReset = false →
    (∀ cause, 1 ≤ cause → cause ≤ 3 → ∃ u : State,
      u.canIssue = false ∧ { u with host := s.host } = s.quiet ∧ u.host.rings = s.host.rings ∧
      (s.canIssue = false → u.host.flags = s.host.flags ∧ exec (.hostLinkDown cause) s = .next u) ∧
      (s.canIssue = true → u.host.flags = s.host.flags ||| 2 ∧
        let v := u.fault srcHostLinkDown (wd cause) .none
        exec (.hostLinkDown cause) s = .next (v.allRings.foldl (fun t r =>
          if (t.ring r).state = .off then t else t.ringError r errLink) v)) ∧
      (cause = 1 → u.host.msixTab = [] ∧ u.host.msixPend = 0)) ∧
    (∀ cause, cause = 0 ∨ 3 < cause → exec (.hostLinkDown cause) s = .next s.quiet) ∧
    (∃ t, exec .hotReset s = .next t ∧ t.canIssue = false ∧ t.host.d3 = false ∧ t.host.msixTab = [] ∧ t.host.msixPend = 0) ∧
    (∃ t, exec .hostLinkUp s = .next t ∧ t.canIssue = true ∧ t.host.rings = s.host.rings ∧ { t with host := s.host, fresh := s.fresh, out := [] } = s.quiet ∧
      (s.host.asked = [] → t.out = [])) ∧
    (∀ off v, 0x3E000 ≤ off → off < 0x3E100 → s.host.msixPend = 0 → ∃ t, exec (.registerWrite off v) s = .next t ∧
      { t with host := { t.host with msixTab := s.host.msixTab } } = s.quiet ∧
      (∃ u, exec (.rocRead off) t = .next u ∧ u.rdata = v &&& msixBits ((off - 0x3E000) / 4) ∧ { u with rdata := t.rdata } = t.quiet) ∧
      ∀ o, 0x3E000 ≤ o → o / 4 ≠ off / 4 → t.host.msixRead o = s.host.msixRead o)

/-- The vote carries the majority write out once: copies that agree change nothing else, one that differs is its core's minority event, three that
differ leave the vote unresolved and carry out nothing; copies of the voter that disagree and whose self-checks do not tell them apart are a
conflict. An armed voter compare is a minority event of its slot's core, with INJ = 1, while the write is carried out. An episode ends by its
repetition or its test, and a resynchronization by its signature (R469 to R480, R493, R494, R523). The conflict where neither copy has passed, and the vote over
the true copies while an injection is armed, are the model's choices of log entry 55; the policy's spares that await, those of entry 57. -/
def Obligations.VotesAndSparesFollowTheirRules : Prop :=
  ∀ s : State, s.inReset = false → s.spr.lost = false →
    (∀ x y i n, i < 3 → y ≠ x → s.flt.injArmed = false → (s.spr.aIn = true ∨ s.spr.bIn = true) → (∀ j, j < 3 → (s.coreAt j).isSome = true) →
      s.coreAt i = some n →
      let copy (j : Nat) : Option BusCopy := some (if j = i then y else x)
      let done : State := { s with out := [.busWrite x] }
      exec (.busWriteVote (some x) (some x) (some x) true) s = .next done ∧
      exec (.busWriteVote (copy 0) (copy 1) (copy 2) true) s = .next (done.minority n srcCoreMinority (s.countField n false) false)) ∧
    (∀ x i n, i < 3 → s.flt.injArmed = true → s.flt.injTarget = 3 → s.flt.injUnit % 4 = i → (s.spr.aIn = true ∨ s.spr.bIn = true) →
      (∀ j, j < 3 → (s.coreAt j).isSome = true) → s.coreAt i = some n →
      let done : State := { s with out := [.busWrite x], flt := { s.flt with injArmed := false } }
      exec (.busWriteVote (some x) (some x) (some x) true) s = .next (done.minority n srcCoreMinority (s.countField n true) true)) ∧
    (∀ x y z, x ≠ y → y ≠ z → x ≠ z → s.flt.injArmed = false → (s.spr.aIn = true ∨ s.spr.bIn = true) →
      exec (.busWriteVote (some x) (some y) (some z) true) s = .next s.quiet.unresolved) ∧
    (∀ c0 c1 c2, s.flt.injArmed = false → s.spr.aIn = true → s.spr.bIn = true → s.spr.aPass = s.spr.bPass →
      exec (.busWriteVote c0 c1 c2 false) s = .next (s.quiet.fault srcVoterConflict 0 .none)) ∧
    (∀ slot c, s.coreAt slot = none → exec (.delayParity slot c) s = .next s.quiet) ∧
    (∀ slot side n, s.coreAt slot = some n → s.flt.injArmed = false → exec (.delayParity slot ⟨side, false⟩) s = .next s.quiet ∧
      exec (.delayParity slot ⟨side, true⟩) s = .next (s.quiet.minority n srcDelayParity (b2n side * 2 ^ 12) false)) ∧
    (∀ good, s.spr.resync = none → exec (.resyncComplete good) s = .next s.quiet) ∧
    (∀ r, s.spr.resync = some r → s.spr.unres = none → s.spr.resyncWait = [] → ∃ t, exec (.resyncComplete true) s = .next t ∧ t.spr.resync = none ∧
      t.core r.target = { s.core r.target with st := .voting, slot := r.slot } ∧ ∀ n, n ≠ r.target → t.core n = s.core n) ∧
    (∀ u, s.spr.unres = some u →
      (u.testing = false → exec .repetitionPassed s = .next ({ s.quiet with spr := { s.spr with unres := none } } : State).resyncNext ∧
        (s.spr.resyncWait = [] → exec .repetitionPassed s = .next { s.quiet with spr := { s.spr with unres := none } })) ∧
      (u.testing = true → exec .repetitionPassed s = .next s.quiet) ∧
      (u.testing = false → s.dt < u.since + 400000 → exec .pairDisagree s = .next s.quiet) ∧
      (u.testing = false → u.since + 400000 ≤ s.dt → ∃ t i, exec .pairDisagree s = .next t ∧ t.spr.unres = some { u with testing := true, uid := i }) ∧
      (∀ passed, u.testing = false → exec (.knownAnswerTestEnd passed) s = .next s.quiet) ∧
      (∀ passed, u.testing = true → (∀ n, n < 4 → (s.core n).st ≠ .spare) → ∃ t : State,
        exec (.knownAnswerTestEnd passed) s = .next (t.fault srcCoreLoss (wd (coreMask t.retiredCores)) .none) ∧ t.spr.lost = true ∧
        t.spr.unres = none ∧ t.spr.resync = none) ∧
      (∀ passed k, u.testing = true → s.spareCore = some k → k ∉ u.cores → s.spr.resync = none → s.autoSpares = true →
        u.cores.length = 2 → (u.cores.filter fun n => decide (n ∈ passed)).length = 1 → ∃ t i, exec (.knownAnswerTestEnd passed) s = .next t ∧ t.spr.unres = none ∧
        t.spr.resync = some { target := k, slot := i, inPlace := false } ∧ (t.core k).st = .resync)) ∧
    (s.spr.unres = none → exec .repetitionPassed s = .next s.quiet ∧ exec .pairDisagree s = .next s.quiet) ∧
    (s.autoSpares = false → exec .policyAutomatic s = .next s.quiet) ∧
    (∀ k, s.autoSpares = true → s.spareCore = some k → s.spr.corePend = true → s.spr.resync = none → s.spr.unres = none →
      ∃ t, exec .policyAutomatic s = .next t ∧ t.spr.corePend = false ∧ t.spr.resync = some { target := k, slot := s.vacantSlot, inPlace := false })
end

