-- ==== Sys2Proof/Laws/Clock.lean ====
section
/-! SUPPORT. Device time: one lemma for each operation that takes none. The few that move the clock are left out. -/

namespace Sys2Proof.Machine

/-- Device time and the boundaries carried out. -/
def State.clock (s : State) : Nat × Option Nat × Option Nat := (s.dt, s.lastPeriod, s.lastTick)

@[simp] theorem State.clock_eta (s : State) : (s.dt, s.lastPeriod, s.lastTick) = s.clock := rfl

@[simp] theorem State.clock_mk (variant_ : Variant) (dt_ : Nat) (lastPeriod_ : Option Nat) (lastTick_ : Option Nat) (inReset_ : Bool) (bootDone_ : Bool) (bootPassed_ : Bool) (tap_ : TapPort) (glb_ : Glb) (ref_ : Ref) (str_ : Strait) (host_ : HostB) (flt_ : Flt) (thm_ : Thm) (spr_ : Spr) (inp_ : Inp) (axes_ : Bank Axis) (courses_ : Bank Course) (camAddr_ : Nat) (cam_ : List Host.Cell) (camBad_ : List Nat) (tiles_ : Bank Tile) (tbl_ : Bank Word) (cfg_ : CfgB) (diag_ : Bank DiagTile) (shadows_ : Bank Word) (rdata_ : Word) (out_ : List Output) (fresh_ : Nat) (pending_ : List Instr) :
    (State.mk variant_ dt_ lastPeriod_ lastTick_ inReset_ bootDone_ bootPassed_ tap_ glb_ ref_ str_ host_ flt_ thm_ spr_ inp_ axes_ courses_ camAddr_ cam_ camBad_ tiles_ tbl_ cfg_ diag_ shadows_ rdata_ out_ fresh_ pending_).clock = (dt_, lastPeriod_, lastTick_) := rfl

@[simp] theorem ite_clock (c : Prop) [Decidable c] (s t : State) : (if c then s else t).clock = if c then s.clock else t.clock := by
  split <;> rfl

/-- A fold keeps the clock that each of its steps keeps. -/
theorem foldl_clock (f : State → α → State) (h : ∀ s a, (f s a).clock = s.clock) (l : List α) (s : State) :
    (l.foldl f s).clock = s.clock := by
  exact List.foldlRecOn l f (motive := fun t => t.clock = s.clock) rfl fun t ht a _ => (h t a).trans ht

theorem foldl_clock_pair (f : State × β → α → State × β) (h : ∀ r a, (f r a).1.clock = r.1.clock) (l : List α) (r : State × β) :
    (l.foldl f r).1.clock = r.1.clock := by
  exact List.foldlRecOn l f (motive := fun q => q.1.clock = r.1.clock) rfl fun q hq a _ => (h q a).trans hq

@[simp] theorem State.setAxis_clock (s : State) (a : Nat) (x : Axis) : (s.setAxis a x).clock = s.clock := by
  unfold State.setAxis
  simp

@[simp] theorem State.setCourse_clock (s : State) (c : Nat) (x : Course) : (s.setCourse c x).clock = s.clock := by
  unfold State.setCourse
  simp

@[simp] theorem State.setTile_clock (s : State) (t : Nat) (x : Tile) : (s.setTile t x).clock = s.clock := by
  unfold State.setTile
  simp

@[simp] theorem State.setLeg_clock (s : State) (t l : Nat) (x : Leg) : (s.setLeg t l x).clock = s.clock := by
  unfold State.setLeg
  simp

@[simp] theorem State.setRing_clock (s : State) (r : Nat) (x : Ring) : (s.setRing r x).clock = s.clock := by
  unfold State.setRing
  simp

@[simp] theorem State.setTwin_clock (s : State) (w : Nat) (x : TWin) : (s.setTwin w x).clock = s.clock := by
  unfold State.setTwin
  simp

@[simp] theorem State.setThmTile_clock (s : State) (t : Nat) (x : ThmTile) : (s.setThmTile t x).clock = s.clock := by
  unfold State.setThmTile
  simp

@[simp] theorem State.setCore_clock (s : State) (n : Nat) (x : CoreU) : (s.setCore n x).clock = s.clock := by
  unfold State.setCore
  simp

@[simp] theorem State.setMotion_clock (s : State) (k : UnitKind) (n : Nat) (m : Motion) : (s.setMotion k n m).clock = s.clock := by
  unfold State.setMotion
  (repeat' split) <;> simp

@[simp] theorem State.updAxis_clock (s : State) (a : Nat) (f : Axis → Axis) : (s.updAxis a f).clock = s.clock := by
  unfold State.updAxis
  simp

@[simp] theorem State.updCourse_clock (s : State) (c : Nat) (f : Course → Course) : (s.updCourse c f).clock = s.clock := by
  unfold State.updCourse
  simp

@[simp] theorem State.updTile_clock (s : State) (t : Nat) (f : Tile → Tile) : (s.updTile t f).clock = s.clock := by
  unfold State.updTile
  simp

@[simp] theorem State.updLeg_clock (s : State) (t l : Nat) (f : Leg → Leg) : (s.updLeg t l f).clock = s.clock := by
  unfold State.updLeg
  simp

@[simp] theorem State.updRing_clock (s : State) (r : Nat) (f : Ring → Ring) : (s.updRing r f).clock = s.clock := by
  unfold State.updRing
  simp

@[simp] theorem State.updMotion_clock (s : State) (k : UnitKind) (n : Nat) (f : Motion → Motion) : (s.updMotion k n f).clock = s.clock := by
  unfold State.updMotion
  simp

theorem State.each_clock (s : State) (l : List Nat) (f : Nat → State → State) (h : ∀ n t, State.clock (f n t) = t.clock) : (s.each l f).clock = s.clock := by
  unfold State.each
  exact foldl_clock _ (fun s a => h a s) l s

@[simp] theorem State.emit_clock (s : State) (o : Output) : (s.emit o).clock = s.clock := by
  unfold State.emit
  simp

@[simp] theorem State.spend_clock (s : State) : (s.spend).clock = s.clock := by
  unfold State.spend
  simp

@[simp] theorem State.complete_clock (s : State) (g : Tag) (r : List Word) : (s.complete g r).clock = s.clock := by
  unfold State.complete
  simp

@[simp] theorem State.sendFault_clock (s : State) (c : FClass) : (s.sendFault c).clock = s.clock := by
  unfold State.sendFault
  (repeat' split) <;> (try simp (disch := (intros; (repeat' split) <;> (try simp))) [foldl_clock])

@[simp] theorem State.announce_clock (s : State) (c : FClass) : (s.announce c).clock = s.clock := by
  unfold State.announce
  simp

@[simp] theorem State.rehold_clock (s : State) (u v : Nat) : (s.rehold u v).clock = s.clock := by
  unfold State.rehold
  (try dsimp only)
  (first | with_reducible rfl | simp)

@[simp] theorem State.fifth_clock (s : State) (e x : Entry) (l older : List Entry) : (s.fifth e x l older).1.clock = s.clock := by
  unfold State.fifth
  (try dsimp only)
  (repeat' split) <;> (first | with_reducible rfl | simp)

@[simp] theorem State.record_clock (s : State) (src : Nat) (c : FClass) (detail : Word) (inj : Bool) : (s.record src c detail inj).1.clock = s.clock := by
  unfold State.record
  (try dsimp only)
  (repeat' split) <;> (first | with_reducible rfl | simp)

@[simp] theorem State.postStop_clock (s : State) (k : UnitKind) (n : Nat) (c : StopCause) : (s.postStop k n c).clock = s.clock := by
  unfold State.postStop
  simp

@[simp] theorem State.endSol_clock (s : State) (t l : Nat) : (s.endSol t l).clock = s.clock := by
  unfold State.endSol
  (repeat' split) <;> simp

@[simp] theorem State.payOwed_clock (s : State) : (s.payOwed).clock = s.clock := by
  unfold State.payOwed
  (try dsimp only)
  (try simp (disch := (intros; (repeat' split) <;> (try simp))) [foldl_clock])

@[simp] theorem State.legHiz_clock (s : State) (t l : Nat) : (s.legHiz t l).clock = s.clock := by
  unfold State.legHiz
  simp

@[simp] theorem State.axisHiz_clock (s : State) (a : Nat) (c : StopCause) : (s.axisHiz a c).clock = s.clock := by
  unfold State.axisHiz
  (try dsimp only)
  (repeat' split) <;> (try simp (disch := (intros; (repeat' split) <;> (try simp))) [foldl_clock])

@[simp] theorem State.allHiz_clock (s : State) (c : StopCause) : (s.allHiz c).clock = s.clock := by
  unfold State.allHiz
  (try dsimp only)
  (try simp (disch := (intros; (repeat' split) <;> (try simp))) [foldl_clock])

@[simp] theorem State.answerMode_clock (s : State) (g : Tag) (status : Nat) : (s.answerMode g status).clock = s.clock := by
  unfold State.answerMode
  simp

@[simp] theorem State.overtake_clock (s : State) : (s.overtake).clock = s.clock := by
  unfold State.overtake
  (repeat' split) <;> simp

@[simp] theorem State.answerOvertaken_clock (s : State) : (s.answerOvertaken).clock = s.clock := by
  unfold State.answerOvertaken
  (try dsimp only)
  (try simp (disch := (intros; (repeat' split) <;> (try simp))) [foldl_clock])

@[simp] theorem State.eventMode_clock (s : State) (m : DevMode) (cause : Nat) : (s.eventMode m cause).clock = s.clock := by
  unfold State.eventMode
  simp

@[simp] theorem State.holdAxis_clock (s : State) (uid a : Nat) : (s.holdAxis uid a).clock = s.clock := by
  unfold State.holdAxis
  simp

@[simp] theorem State.isoAxis_clock (s : State) (a uid : Nat) : (s.isoAxis a uid).clock = s.clock := by
  unfold State.isoAxis
  simp

@[simp] theorem State.holdTile_clock (s : State) (uid t : Nat) : (s.holdTile uid t).clock = s.clock := by
  unfold State.holdTile
  (try simp (disch := (intros; (repeat' split) <;> (try simp))) [foldl_clock])

@[simp] theorem State.isoTile_clock (s : State) (t : Nat) : (s.isoTile t).clock = s.clock := by
  unfold State.isoTile
  (try dsimp only)
  (try simp (disch := (intros; (repeat' split) <;> (try simp))) [foldl_clock])

@[simp] theorem State.legsFollow_clock (s : State) (t l : Nat) : (s.legsFollow t l).clock = s.clock := by
  unfold State.legsFollow
  (try dsimp only)
  (repeat' split) <;> (try simp (disch := (intros; (repeat' split) <;> (try simp))) [foldl_clock])

@[simp] theorem State.isolateLeg_clock (s : State) (t l uid : Nat) : (s.isolateLeg t l uid).clock = s.clock := by
  unfold State.isolateLeg
  simp

@[simp] theorem State.isolate_clock (s : State) (u : FUnit) (uid : Nat) : (s.isolate u uid).clock = s.clock := by
  unfold State.isolate
  (repeat' split) <;> (try simp (disch := (intros; (repeat' split) <;> (try simp))) [foldl_clock])

@[simp] theorem State.haltAll_clock (s : State) (starved : Bool) (except : Option (UnitKind × Nat)) : (s.haltAll starved except).clock = s.clock := by
  unfold State.haltAll
  (try dsimp only)
  (try simp (disch := (intros; (repeat' split) <;> (try simp))) [foldl_clock])

@[simp] theorem State.react_clock (s : State) (c : FClass) (u : FUnit) (uid : Nat) (starved : Bool) (except : Option (UnitKind × Nat)) : (s.react c u uid starved except).clock = s.clock := by
  unfold State.react
  (repeat' split) <;> simp

@[simp] theorem State.raiseAs_clock (s : State) (src : Nat) (c : FClass) (detail : Word) (inj : Bool) (u : FUnit) : (s.raiseAs src c detail inj u).clock = s.clock := by
  unfold State.raiseAs
  simp

@[simp] theorem State.raise_clock (s : State) (src : Nat) (detail : Word) (u : FUnit) : (s.raise src detail u).clock = s.clock := by
  unfold State.raise
  simp

@[simp] theorem State.raiseDev_clock (s : State) (src : Nat) (detail : Word) : (s.raiseDev src detail).clock = s.clock := by
  unfold State.raiseDev
  simp

@[simp] theorem State.wear_clock (s : State) (idx : Nat) : (s.wear idx).clock = s.clock := by
  unfold State.wear
  simp

@[simp] theorem State.raiseStarved_clock (s : State) (k : UnitKind) (n : Nat) : (s.raiseStarved k n).clock = s.clock := by
  unfold State.raiseStarved
  simp

@[simp] theorem State.entryEnded_clock (s : State) (k : UnitKind) (n status : Nat) : (s.entryEnded k n status).clock = s.clock := by
  unfold State.entryEnded
  (repeat' split) <;> simp

@[simp] theorem State.silentEnd_clock (s : State) (k : UnitKind) (n : Nat) (a : Move) (status : Nat) : (s.silentEnd k n a status).clock = s.clock := by
  unfold State.silentEnd
  simp

@[simp] theorem State.completeMove_clock (s : State) (k : UnitKind) (n : Nat) (a : Move) (status : Nat) : (s.completeMove k n a status).clock = s.clock := by
  unfold State.completeMove
  simp

@[simp] theorem State.completeMoveBy_clock (s : State) (k : UnitKind) (n : Nat) (a : Move) (status : Nat) (mem : Option (Nat × Nat)) : (s.completeMoveBy k n a status mem).clock = s.clock := by
  unfold State.completeMoveBy
  simp

@[simp] theorem State.entryCaught_clock (s : State) (k : UnitKind) (n : Nat) (c : StopCause) : (s.entryCaught k n c).clock = s.clock := by
  unfold State.entryCaught
  simp

@[simp] theorem State.cancelLook_clock (s : State) (k : UnitKind) (n : Nat) : (s.cancelLook k n).clock = s.clock := by
  unfold State.cancelLook
  (try dsimp only)
  (try simp (disch := (intros; (repeat' split) <;> (try simp))) [foldl_clock])

@[simp] theorem State.cancelDwell_clock (s : State) (k : UnitKind) (n : Nat) : (s.cancelDwell k n).clock = s.clock := by
  unfold State.cancelDwell
  (repeat' split) <;> simp

@[simp] theorem State.completeStops_clock (s : State) (k : UnitKind) (n : Nat) : (s.completeStops k n).clock = s.clock := by
  unfold State.completeStops
  (try dsimp only)
  (try simp (disch := (intros; (repeat' split) <;> (try simp))) [foldl_clock])

@[simp] theorem State.freeWindow_clock (s : State) (k : UnitKind) (n : Nat) : (s.freeWindow k n).clock = s.clock := by
  unfold State.freeWindow
  simp

@[simp] theorem State.cancelLater_clock (s : State) (k : UnitKind) (n : Nat) : (s.cancelLater k n).clock = s.clock := by
  unfold State.cancelLater
  (try dsimp only)
  (try simp (disch := (intros; (repeat' split) <;> (try simp))) [foldl_clock])

@[simp] theorem State.endFollowed_clock (s : State) (k : UnitKind) (n status : Nat) (mem : Option (Nat × Nat)) : (s.endFollowed k n status mem).clock = s.clock := by
  unfold State.endFollowed
  (try dsimp only)
  (repeat' split) <;> (first | with_reducible rfl | simp)

@[simp] theorem State.finishStop_clock (s : State) (k : UnitKind) (n : Nat) : (s.finishStop k n).clock = s.clock := by
  unfold State.finishStop
  (try dsimp only)
  (repeat' split) <;> (first | with_reducible rfl | simp)

@[simp] theorem State.beginStop_clock (s : State) (k : UnitKind) (n : Nat) : (s.beginStop k n).clock = s.clock := by
  unfold State.beginStop
  (repeat' split) <;> simp

@[simp] theorem State.setMember_clock (s : State) (c slot : Nat) (m : Member) : (s.setMember c slot m).clock = s.clock := by
  unfold State.setMember
  simp

@[simp] theorem State.setParent_clock (s : State) (k : UnitKind) (n : Nat) (p : Option (Nat × Nat)) : (s.setParent k n p).clock = s.clock := by
  unfold State.setParent
  (repeat' split) <;> simp

@[simp] theorem State.detach_clock (s : State) (c slot : Nat) : (s.detach c slot).clock = s.clock := by
  unfold State.detach
  simp

@[simp] theorem State.markMember_clock (s : State) (c slot a : Nat) : (s.markMember c slot a).clock = s.clock := by
  unfold State.markMember
  simp

@[simp] theorem State.memberReport_clock (s : State) (a : Nat) : (s.memberReport a).clock = s.clock := by
  unfold State.memberReport
  (try simp (disch := (intros; (repeat' split) <;> (try simp))) [foldl_clock])

@[simp] theorem State.memberEvent_clock (s : State) (a : Nat) (cause : Option StopCause) : (s.memberEvent a cause).clock = s.clock := by
  unfold State.memberEvent
  (try dsimp only)
  (repeat' split) <;> (try simp (disch := (intros; (repeat' split) <;> (try simp))) [foldl_clock])

@[simp] theorem State.settleAxis_clock (s : State) (c : FClass) (a : Nat) : (s.settleAxis c a).clock = s.clock := by
  unfold State.settleAxis
  (repeat' split) <;> simp

@[simp] theorem State.settle_clock (s : State) (c : optParam FClass FClass.log) : (s.settle c).clock = s.clock := by
  unfold State.settle
  (try simp (disch := (intros; (repeat' split) <;> (try simp))) [foldl_clock])

@[simp] theorem State.fault_clock (s : State) (src : Nat) (detail : Word) (u : FUnit) : (s.fault src detail u).clock = s.clock := by
  unfold State.fault
  simp

@[simp] theorem State.trackAxis_clock (s : State) (a : Nat) (y : Int) : (s.trackAxis a y).clock = s.clock := by
  unfold State.trackAxis
  simp

@[simp] theorem State.trackUnit_clock (s : State) (k : UnitKind) (n : Nat) (y : Int) : (s.trackUnit k n y).clock = s.clock := by
  unfold State.trackUnit
  (repeat' split) <;> simp

@[simp] theorem State.playOver_clock (s : State) (k : UnitKind) (n status : Nat) : (s.playOver k n status).clock = s.clock := by
  unfold State.playOver
  simp

@[simp] theorem State.playUnderrun_clock (s : State) (k : UnitKind) (n : Nat) (p : Play) : (s.playUnderrun k n p).clock = s.clock := by
  unfold State.playUnderrun
  simp

@[simp] theorem State.tripLeg_clock (s : State) (t l cause : Nat) : (s.tripLeg t l cause).clock = s.clock := by
  unfold State.tripLeg
  simp

@[simp] theorem State.faultHeld_clock (s : State) (src : Nat) (detail : Word) (u : FUnit) (axes : List Nat) : (s.faultHeld src detail u axes).clock = s.clock := by
  unfold State.faultHeld
  (try dsimp only)
  (try simp (disch := (intros; (repeat' split) <;> (try simp))) [foldl_clock])

@[simp] theorem State.faultTile_clock (s : State) (src : Nat) (detail : Word) (t : Nat) : (s.faultTile src detail t).clock = s.clock := by
  unfold State.faultTile
  (try dsimp only)
  (first | with_reducible rfl | simp)

@[simp] theorem State.tripAs_clock (s : State) (t l cause src : Nat) (high : Bool) : (s.tripAs t l cause src high).clock = s.clock := by
  unfold State.tripAs
  simp

@[simp] theorem State.shortAs_clock (s : State) (t l cause src : Nat) (high : Bool) (ws : List Switch) : (s.shortAs t l cause src high ws).clock = s.clock := by
  unfold State.shortAs
  simp

@[simp] theorem State.bstFail_clock (s : State) (t l : Nat) : (s.bstFail t l).clock = s.clock := by
  unfold State.bstFail
  simp

@[simp] theorem State.spareIn_clock (s : State) : (s.spareIn).clock = s.clock := by
  unfold State.spareIn
  simp

@[simp] theorem State.capCheck_clock (s : State) (t l : Nat) (w : Switch) : (s.capCheck t l w).clock = s.clock := by
  unfold State.capCheck
  simp

@[simp] theorem State.retireSeg_clock (s : State) (t l : Nat) (w : Switch) (i : Nat) : (s.retireSeg t l w i).clock = s.clock := by
  unfold State.retireSeg
  simp

@[simp] theorem State.approveSeg_clock (s : State) (t l : Nat) (w : Switch) : (s.approveSeg t l w).clock = s.clock := by
  unfold State.approveSeg
  (try dsimp only)
  (repeat' split) <;> (first | with_reducible rfl | simp)

@[simp] theorem State.edgeMeasured_clock (s : State) (t l : Nat) (w : Switch) (on : Bool) (ticks seg : Nat) (dev : Bool) : (s.edgeMeasured t l w on ticks seg dev).clock = s.clock := by
  unfold State.edgeMeasured
  simp

@[simp] theorem State.reenterAxis_clock (s : State) (a : Nat) : (s.reenterAxis a).clock = s.clock := by
  unfold State.reenterAxis
  simp

@[simp] theorem State.energize_clock (s : State) (a : Nat) : (s.energize a).clock = s.clock := by
  unfold State.energize
  (try dsimp only)
  (try simp (disch := (intros; (repeat' split) <;> (try simp))) [foldl_clock])

@[simp] theorem State.deliver_clock (s : State) (a : Nat) : (s.deliver a).clock = s.clock := by
  unfold State.deliver
  simp

@[simp] theorem State.stallBoundary_clock (s : State) (a thr : Nat) : (s.stallBoundary a thr).1.clock = s.clock := by
  unfold State.stallBoundary
  extract_lets x q armed st
  split
  · exact State.setAxis_clock ..
  · split
    · exact (State.spend_clock _).trans (State.setAxis_clock ..)
    · exact State.setAxis_clock ..

@[simp] theorem State.watchCapture_clock (s : State) (a : Nat) (c : Coil) (tn : Nat) : (s.watchCapture a c tn).clock = s.clock := by
  unfold State.watchCapture
  (try dsimp only)
  (repeat' split) <;> (first | with_reducible rfl | simp)

@[simp] theorem State.updCoil_clock (s : State) (a : Nat) (c : Coil) (f : CoilSt → CoilSt) : (s.updCoil a c f).clock = s.clock := by
  unfold State.updCoil
  simp

@[simp] theorem State.towardSlow_clock (s : State) (a : Nat) (c : Coil) : (s.towardSlow a c).clock = s.clock := by
  unfold State.towardSlow
  simp

@[simp] theorem State.towardFast_clock (s : State) (a : Nat) (c : Coil) : (s.towardFast a c).clock = s.clock := by
  unfold State.towardFast
  simp

@[simp] theorem State.towardOn_clock (s : State) (a : Nat) (c : Coil) : (s.towardOn a c).clock = s.clock := by
  unfold State.towardOn
  simp

@[simp] theorem State.coilStep_clock (s : State) (a : Nat) (c : Coil) : (s.coilStep a c).clock = s.clock := by
  unfold State.coilStep
  (try dsimp only)
  (repeat' split) <;> (first | with_reducible rfl | simp)

@[simp] theorem State.coilSettle_clock (s : State) (a : Nat) (c : Coil) : (s.coilSettle a c).clock = s.clock := by
  unfold State.coilSettle
  simp

@[simp] theorem State.legSettle_clock (s : State) (t l : Nat) : (s.legSettle t l).clock = s.clock := by
  unfold State.legSettle
  simp

@[simp] theorem State.turnOn_clock (s : State) (a : Nat) (c : Coil) : (s.turnOn a c).clock = s.clock := by
  unfold State.turnOn
  simp

@[simp] theorem State.startCoils_clock (s : State) (a : Nat) : (s.startCoils a).clock = s.clock := by
  unfold State.startCoils
  simp

@[simp] theorem State.capture_clock (s : State) (a : Nat) (c : Coil) (ticks : Nat) (valid : Bool) : (s.capture a c ticks valid).clock = s.clock := by
  unfold State.capture
  simp

@[simp] theorem State.endOn_clock (s : State) (a : Nat) (c : Coil) (comm blank sat : Bool) (ticks : Nat) : (s.endOn a c comm blank sat ticks).clock = s.clock := by
  unfold State.endOn
  simp

@[simp] theorem State.forceFast_clock (s : State) (a : Nat) (c : Coil) : (s.forceFast a c).clock = s.clock := by
  unfold State.forceFast
  simp

@[simp] theorem State.commutate_clock (s : State) (a : Nat) (c : Coil) : (s.commutate a c).clock = s.clock := by
  unfold State.commutate
  (try dsimp only)
  (repeat' split) <;> (first | with_reducible rfl | simp)

@[simp] theorem State.checkMove_clock (s : State) (t : Nat) : (s.checkMove t).clock = s.clock := by
  unfold State.checkMove
  (repeat' split) <;> simp

@[simp] theorem State.adcDrop_clock (s : State) (t : Nat) (r : Option AdcReq) : (s.adcDrop t r).clock = s.clock := by
  unfold State.adcDrop
  (repeat' split) <;> (first | with_reducible rfl | simp)

@[simp] theorem State.adcRequest_clock (s : State) (t : Nat) (r : AdcReq) : (s.adcRequest t r).clock = s.clock := by
  unfold State.adcRequest
  (try dsimp only)
  (repeat' split) <;> (first | with_reducible rfl | simp)

@[simp] theorem State.steer_clock (s : State) (t k : Nat) : (s.steer t k).clock = s.clock := by
  unfold State.steer
  simp

@[simp] theorem State.cmpFailed_clock (s : State) (t k : Nat) : (s.cmpFailed t k).clock = s.clock := by
  unfold State.cmpFailed
  simp

@[simp] theorem State.spareFailed_clock (s : State) (t k : Nat) : (s.spareFailed t k).clock = s.clock := by
  unfold State.spareFailed
  (try dsimp only)
  (repeat' split) <;> (first | with_reducible rfl | simp)

@[simp] theorem State.confirmDecide_clock (s : State) (t : Nat) : (s.confirmDecide t).clock = s.clock := by
  unfold State.confirmDecide
  simp

@[simp] theorem State.askJudge_clock (s : State) (t k : Nat) (uv : Int) (first coilTrip spareTrip : Bool) : (s.askJudge t k uv first coilTrip spareTrip).clock = s.clock := by
  unfold State.askJudge
  simp

@[simp] theorem State.compared_clock (s : State) (a : Nat) (c : Coil) (mismatch first coilTrip spareTrip : Bool) : (s.compared a c mismatch first coilTrip spareTrip).clock = s.clock := by
  unfold State.compared
  simp

@[simp] theorem State.comparedTrip_clock (s : State) (a : Nat) (c : Coil) (sp : SpareTrip) : (s.comparedTrip a c sp).clock = s.clock := by
  unfold State.comparedTrip
  (repeat' split) <;> simp

@[simp] theorem State.noTrip_clock (s : State) (a : Nat) (c : Coil) : (s.noTrip a c).clock = s.clock := by
  unfold State.noTrip
  simp

@[simp] theorem State.comparatorTrip_clock (s : State) (a : Nat) (c : Coil) (ticks : Nat) (sp : SpareTrip) : (s.comparatorTrip a c ticks sp).clock = s.clock := by
  unfold State.comparatorTrip
  simp

@[simp] theorem State.blankEnd_clock (s : State) (a : Nat) (c : Coil) (above : Bool) (sp : SpareTrip) : (s.blankEnd a c above sp).clock = s.clock := by
  unfold State.blankEnd
  simp

@[simp] theorem State.saturate_clock (s : State) (a : Nat) (c : Coil) (spareTripped : Bool) : (s.saturate a c spareTripped).clock = s.clock := by
  unfold State.saturate
  simp

@[simp] theorem State.fastEnd_clock (s : State) (a : Nat) (c : Coil) : (s.fastEnd a c).clock = s.clock := by
  unfold State.fastEnd
  simp

@[simp] theorem State.offEnd_clock (s : State) (a : Nat) (c : Coil) : (s.offEnd a c).clock = s.clock := by
  unfold State.offEnd
  simp

@[simp] theorem State.takeOver_clock (s : State) (t : Nat) : (s.takeOver t).clock = s.clock := by
  unfold State.takeOver
  (repeat' split) <;> simp

@[simp] theorem State.checkTimeout_clock (s : State) (t : Nat) : (s.checkTimeout t).clock = s.clock := by
  unfold State.checkTimeout
  simp

@[simp] theorem State.pausePlan_clock (s : State) : (s.pausePlan).clock = s.clock := by
  unfold State.pausePlan
  (try dsimp only)
  (first | with_reducible rfl | simp)

@[simp] theorem State.freezeCoil_clock (s : State) (a : Nat) (c : Coil) : (s.freezeCoil a c).clock = s.clock := by
  unfold State.freezeCoil
  (try dsimp only)
  (repeat' split) <;> (first | with_reducible rfl | simp)

@[simp] theorem State.freezeOn_clock (s : State) : (s.freezeOn).clock = s.clock := by
  unfold State.freezeOn
  (try dsimp only)
  (repeat' split) <;> (try simp (disch := (intros; (repeat' split) <;> (try simp))) [foldl_clock])

@[simp] theorem State.holdCores_clock (s : State) : (s.holdCores).clock = s.clock := by
  unfold State.holdCores
  simp

@[simp] theorem State.releaseCores_clock (s : State) : (s.releaseCores).clock = s.clock := by
  unfold State.releaseCores
  simp

@[simp] theorem State.handshake_clock (s : State) (t l : Nat) (w : Switch) : (s.handshake t l w).clock = s.clock := by
  unfold State.handshake
  simp

@[simp] theorem State.deadEnd_clock (s : State) (t l : Nat) (w : Switch) : (s.deadEnd t l w).clock = s.clock := by
  unfold State.deadEnd
  simp

@[simp] theorem State.hsTimeout_clock (s : State) (t l : Nat) (w : Switch) : (s.hsTimeout t l w).clock = s.clock := by
  unfold State.hsTimeout
  simp

@[simp] theorem State.crossed_clock (s : State) (t l : Nat) : (s.crossed t l).clock = s.clock := by
  unfold State.crossed
  simp

@[simp] theorem State.desat_clock (s : State) (t l : Nat) (w : Switch) : (s.desat t l w).clock = s.clock := by
  unfold State.desat
  simp

@[simp] theorem State.grossDesat_clock (s : State) (t l : Nat) (w : Switch) : (s.grossDesat t l w).clock = s.clock := by
  unfold State.grossDesat
  simp

@[simp] theorem State.shunted_clock (s : State) (t l : Nat) : (s.shunted t l).clock = s.clock := by
  unfold State.shunted
  simp

@[simp] theorem State.edge_clock (s : State) (t l : Nat) (w : Switch) (on : Bool) (ticks seg : Nat) (dev : Bool) : (s.edge t l w on ticks seg dev).clock = s.clock := by
  unfold State.edge
  simp

@[simp] theorem State.conducts_clock (s : State) (t l : Nat) (w : Switch) (seg : Nat) : (s.conducts t l w seg).clock = s.clock := by
  unfold State.conducts
  simp

@[simp] theorem State.beginCoils_clock (s : State) (a : Nat) : (s.beginCoils a).clock = s.clock := by
  unfold State.beginCoils
  simp

@[simp] theorem State.power_clock (s : State) (a : Nat) : (s.power a).clock = s.clock := by
  unfold State.power
  simp

@[simp] theorem State.powerAtBoundary_clock (s : State) (a : Nat) : (s.powerAtBoundary a).clock = s.clock := by
  unfold State.powerAtBoundary
  simp

@[simp] theorem State.bootLow_clock (s : State) (t l : Nat) : (s.bootLow t l).clock = s.clock := by
  unfold State.bootLow
  simp

@[simp] theorem State.prechargeDone_clock (s : State) (t l : Nat) : (s.prechargeDone t l).clock = s.clock := by
  unfold State.prechargeDone
  simp

@[simp] theorem State.prechargeOut_clock (s : State) (t l : Nat) : (s.prechargeOut t l).clock = s.clock := by
  unfold State.prechargeOut
  simp

@[simp] theorem State.bootGood_clock (s : State) (t l : Nat) : (s.bootGood t l).clock = s.clock := by
  unfold State.bootGood
  simp

@[simp] theorem State.vgateOut_clock (s : State) (t src : Nat) : (s.vgateOut t src).clock = s.clock := by
  unfold State.vgateOut
  simp

@[simp] theorem State.vgateLow_clock (s : State) (t : Nat) : (s.vgateLow t).clock = s.clock := by
  unfold State.vgateLow
  simp

@[simp] theorem State.vgateHigh_clock (s : State) (t : Nat) : (s.vgateHigh t).clock = s.clock := by
  unfold State.vgateHigh
  simp

@[simp] theorem State.vgateBack_clock (s : State) (t : Nat) : (s.vgateBack t).clock = s.clock := by
  unfold State.vgateBack
  simp

@[simp] theorem State.vmLow_clock (s : State) (t : Nat) : (s.vmLow t).clock = s.clock := by
  unfold State.vmLow
  simp

@[simp] theorem State.vmHigh_clock (s : State) (t : Nat) : (s.vmHigh t).clock = s.clock := by
  unfold State.vmHigh
  simp

@[simp] theorem State.vmBack_clock (s : State) (t : Nat) : (s.vmBack t).clock = s.clock := by
  unfold State.vmBack
  simp

@[simp] theorem State.enFalls_clock (s : State) : (s.enFalls).clock = s.clock := by
  unfold State.enFalls
  simp

@[simp] theorem State.book_clock (s : State) (k : UnitKind) (n : Nat) : (s.book k n).clock = s.clock := by
  unfold State.book
  (try dsimp only)
  (try simp (disch := (intros; (repeat' split) <;> (try simp))) [foldl_clock])

@[simp] theorem State.completeZeros_clock (s : State) (k : UnitKind) (n : Nat) (prev : Move) (fuel : Nat) : (s.completeZeros k n prev fuel).clock = s.clock := by
  induction fuel generalizing s prev with
  | zero => unfold State.completeZeros; rfl
  | succ f ih =>
    unfold State.completeZeros
    split
    · rename_i e _
      obtain rfl := Nat.succ.inj e
      split
      · simp [ih]
      · rfl
    · rfl

@[simp] theorem State.completeAct_clock (s : State) (k : UnitKind) (n status : Nat) : (s.completeAct k n status).clock = s.clock := by
  unfold State.completeAct
  (repeat' split) <;> simp

@[simp] theorem State.takeNext_clock (s : State) (k : UnitKind) (n : Nat) : (s.takeNext k n).clock = s.clock := by
  unfold State.takeNext
  (repeat' split) <;> simp

@[simp] theorem State.completeThrough_clock (s : State) (k : UnitKind) (n o : Nat) (ends : Bool) (a_ : Nat) : (s.completeThrough k n o ends a_).clock = s.clock := by
  induction a_ generalizing s with
  | zero => unfold State.completeThrough; rfl
  | succ f ih => unfold State.completeThrough; dsimp only; (repeat' split) <;> simp [ih]

@[simp] theorem State.moveEnded_clock (s : State) (k : UnitKind) (n : Nat) (tag : Option Nat) : (s.moveEnded k n tag).clock = s.clock := by
  unfold State.moveEnded
  (try dsimp only)
  (repeat' split) <;> (first | with_reducible rfl | simp)

@[simp] theorem State.movePassed_clock (s : State) (k : UnitKind) (n o : Nat) : (s.movePassed k n o).clock = s.clock := by
  unfold State.movePassed
  simp

@[simp] theorem State.unitEnded_clock (s : State) (k : UnitKind) (n : Nat) (tag : Option Nat) : (s.unitEnded k n tag).clock = s.clock := by
  unfold State.unitEnded
  simp

@[simp] theorem State.periodEnd_clock (s : State) (k : UnitKind) (n : Nat) (e : Motion.PeriodEnd) : (s.periodEnd k n e).clock = s.clock := by
  unfold State.periodEnd
  (repeat' split) <;> simp

@[simp] theorem State.starve_clock (s : State) (k : UnitKind) (n : Nat) : (s.starve k n).clock = s.clock := by
  unfold State.starve
  simp

@[simp] theorem State.go_clock (s : State) (k : UnitKind) (n : Nat) : (s.go k n).clock = s.clock := by
  unfold State.go
  (try dsimp only)
  (repeat' split) <;> (first | with_reducible rfl | simp)

@[simp] theorem State.refuseHead_clock (s : State) (k : UnitKind) (n status : Nat) (cancel : Bool) : (s.refuseHead k n status cancel).clock = s.clock := by
  unfold State.refuseHead
  (repeat' split) <;> simp

@[simp] theorem State.updLong_clock (s : State) (g : Tag) (f : LongOp → LongOp) : (s.updLong g f).clock = s.clock := by
  unfold State.updLong
  simp

@[simp] theorem State.endLong_clock (s : State) (g : Tag) (status : Nat) : (s.endLong g status).clock = s.clock := by
  unfold State.endLong
  (repeat' split) <;> simp

@[simp] theorem State.dropLong_clock (s : State) (o a status : Nat) : (s.dropLong o a status).clock = s.clock := by
  unfold State.dropLong
  extract_lets u
  have hu : u.clock = s.clock := by
    unfold u
    simp
  split <;> simp [hu]

@[simp] theorem State.dropItem_clock (s : State) (k : UnitKind) (n status : Nat) : (s.dropItem k n status).clock = s.clock := by
  unfold State.dropItem
  (repeat' split) <;> simp

@[simp] theorem State.beginFollow_clock (s : State) (k : UnitKind) (n : Nat) (f : Follow) : (s.beginFollow k n f).clock = s.clock := by
  unfold State.beginFollow
  simp

@[simp] theorem State.beginPlay_clock (s : State) (k : UnitKind) (n : Nat) (p : Play) : (s.beginPlay k n p).clock = s.clock := by
  unfold State.beginPlay
  simp

@[simp] theorem State.beginUnit_clock (s : State) (k : UnitKind) (n since : Nat) : (s.beginUnit k n since).clock = s.clock := by
  unfold State.beginUnit
  (try dsimp only)
  (repeat' split) <;> (first | with_reducible rfl | simp)

@[simp] theorem State.endPhase_clock (s : State) (t l : Nat) : (s.endPhase t l).clock = s.clock := by
  unfold State.endPhase
  simp

@[simp] theorem State.pullInEnd_clock (s : State) (t l : Nat) : (s.pullInEnd t l).clock = s.clock := by
  unfold State.pullInEnd
  (repeat' split) <;> simp

@[simp] theorem State.beginPulse_clock (s : State) (t l : Nat) (d : SolDesc) (rest : List SolDesc) : (s.beginPulse t l d rest).clock = s.clock := by
  unfold State.beginPulse
  simp

@[simp] theorem State.refusePulse_clock (s : State) (t l status : Nat) : (s.refusePulse t l status).clock = s.clock := by
  unfold State.refusePulse
  (repeat' split) <;> simp

@[simp] theorem State.releasePulse_clock (s : State) (t l since : Nat) : (s.releasePulse t l since).clock = s.clock := by
  unfold State.releasePulse
  (repeat' split) <;> simp

@[simp] theorem State.refuseStart_clock (s : State) (w : Who) : (s.refuseStart w).clock = s.clock := by
  unfold State.refuseStart
  (repeat' split) <;> simp

@[simp] theorem State.beginStart_clock (s : State) (w : Who) (since : Nat) : (s.beginStart w since).clock = s.clock := by
  unfold State.beginStart
  (repeat' split) <;> simp

@[simp] theorem State.noteCount_clock (s : State) (w : Who) : (s.noteCount w).clock = s.clock := by
  unfold State.noteCount
  (repeat' split) <;> simp

@[simp] theorem State.admitStart_clock (s : State) (w : Who) (since : Nat) : (s.admitStart w since).clock = s.clock := by
  unfold State.admitStart
  (repeat' split) <;> simp

@[simp] theorem State.markHeld_clock (s : State) (w : Who) (h : Bool) : (s.markHeld w h).clock = s.clock := by
  unfold State.markHeld
  (repeat' split) <;> simp

@[simp] theorem State.release_clock (s : State) (may : Waiter → Bool) (ws : List Waiter) (blocked : List Nat) : (s.release may ws blocked).clock = s.clock := by
  induction ws generalizing s blocked with
  | nil => unfold State.release; rfl
  | cons w ws ih => unfold State.release; dsimp only; (repeat' split) <;> simp [ih]

@[simp] theorem State.makeReady_clock (s : State) (k : UnitKind) (n : Nat) : (s.makeReady k n).clock = s.clock := by
  unfold State.makeReady
  simp

@[simp] theorem State.readiness_clock (s : State) (k : UnitKind) (n fuel : Nat) : (s.readiness k n fuel).clock = s.clock := by
  induction fuel generalizing s with
  | zero => unfold State.readiness; first | rfl | ((repeat' split) <;> first | rfl | simp)
  | succ f ih => unfold State.readiness; (try dsimp only); (repeat' split) <;> first | rfl | simp [ih]

@[simp] theorem State.dwellTick_clock (s : State) (k : UnitKind) (n : Nat) : (s.dwellTick k n).clock = s.clock := by
  unfold State.dwellTick
  simp

@[simp] theorem State.dwellOver_clock (s : State) (k : UnitKind) (n : Nat) : (s.dwellOver k n).clock = s.clock := by
  unfold State.dwellOver
  simp

@[simp] theorem State.revEnd_clock (s : State) (k : UnitKind) (n : Nat) : (s.revEnd k n).clock = s.clock := by
  unfold State.revEnd
  (try dsimp only)
  (repeat' split) <;> (first | with_reducible rfl | simp)

@[simp] theorem State.beginDue_clock (s : State) (w : Who) : (s.beginDue w).clock = s.clock := by
  unfold State.beginDue
  (repeat' split) <;> simp

@[simp] theorem State.releaseUnit_clock (s : State) (k : UnitKind) (n : Nat) : (s.releaseUnit k n).clock = s.clock := by
  unfold State.releaseUnit
  (repeat' split) <;> simp

@[simp] theorem State.holdEnd_clock (s : State) (t l : Nat) : (s.holdEnd t l).clock = s.clock := by
  unfold State.holdEnd
  (repeat' split) <;> simp

@[simp] theorem State.pwmBoundary_clock (s : State) (t l : Nat) : (s.pwmBoundary t l).clock = s.clock := by
  unfold State.pwmBoundary
  simp

@[simp] theorem State.driveOn_clock (s : State) (t l : Nat) : (s.driveOn t l).clock = s.clock := by
  unfold State.driveOn
  simp

@[simp] theorem State.driveOff_clock (s : State) (t l : Nat) : (s.driveOff t l).clock = s.clock := by
  unfold State.driveOff
  simp

@[simp] theorem State.pulseGo_clock (s : State) (t l : Nat) (d : SolDesc) (r : List SolDesc) : (s.pulseGo t l d r).clock = s.clock := by
  unfold State.pulseGo
  (repeat' split) <;> simp

@[simp] theorem State.pulseStart_clock (s : State) (t l : Nat) : (s.pulseStart t l).clock = s.clock := by
  unfold State.pulseStart
  extract_lets x y u
  have hu : u.clock = s.clock := by simp [u]
  repeat' first
    | (with_reducible rfl)
    | exact hu
    | (simp only [State.refusePulse_clock, State.setLeg_clock, State.pulseGo_clock, hu]; done)
    | split
    | (dsimp only)

@[simp] theorem State.pulseCommand_clock (s : State) (t l : Nat) : (s.pulseCommand t l).clock = s.clock := by
  unfold State.pulseCommand
  (repeat' split) <;> simp

@[simp] theorem State.legTick_clock (s : State) (t l : Nat) : (s.legTick t l).clock = s.clock := by
  unfold State.legTick
  simp

@[simp] theorem State.freewheelEnd_clock (s : State) (t l : Nat) : (s.freewheelEnd t l).clock = s.clock := by
  unfold State.freewheelEnd
  (repeat' split) <;> simp

@[simp] theorem State.trigger_clock (s : State) (t l : Nat) (which : Bool) : (s.trigger t l which).clock = s.clock := by
  unfold State.trigger
  simp

@[simp] theorem State.judge_clock (s : State) (t k : Nat) (spare : Bool) (uv : Int) (code : BitVec 12) : (s.judge t k spare uv code).clock = s.clock := by
  unfold State.judge
  simp

@[simp] theorem State.adcDone_clock (s : State) (t : Nat) (code : BitVec 12) : (s.adcDone t code).clock = s.clock := by
  unfold State.adcDone
  (repeat' split) <;> simp

@[simp] theorem State.thawIdle_clock (s : State) (a : Nat) : (s.thawIdle a).clock = s.clock := by
  unfold State.thawIdle
  simp

@[simp] theorem State.thawAxis_clock (s : State) (a : Nat) : (s.thawAxis a).clock = s.clock := by
  unfold State.thawAxis
  simp

@[simp] theorem State.freezeOff_clock (s : State) : (s.freezeOff).clock = s.clock := by
  unfold State.freezeOff
  (try dsimp only)
  (repeat' split) <;> (try simp (disch := (intros; (repeat' split) <;> (try simp))) [foldl_clock])

@[simp] theorem State.post_clock (s : State) (o : Output) : (s.post o).clock = s.clock := by
  unfold State.post
  simp

@[simp] theorem State.issueAsked_clock (s : State) : (s.issueAsked).clock = s.clock := by
  unfold State.issueAsked
  (try dsimp only)
  (repeat' split) <;> (first | with_reducible rfl | simp)

@[simp] theorem State.request_clock (s : State) (src : ReadSrc) (o : Output) : (s.request src o).clock = s.clock := by
  unfold State.request
  (try dsimp only)
  (repeat' split) <;> (first | with_reducible rfl | simp)

@[simp] theorem State.answered_clock (s : State) (src : ReadSrc) : (s.answered src).clock = s.clock := by
  unfold State.answered
  (try dsimp only)
  (first | with_reducible rfl | simp)

@[simp] theorem State.unask_clock (s : State) (r : Nat) : (s.unask r).clock = s.clock := by
  unfold State.unask
  (try dsimp only)
  (first | with_reducible rfl | simp)

@[simp] theorem State.sendVector_clock (s : State) (v : Nat) : (s.sendVector v).clock = s.clock := by
  unfold State.sendVector
  simp

@[simp] theorem State.msixWrite_clock (s : State) (off : Nat) (v : Word) : (s.msixWrite off v).clock = s.clock := by
  unfold State.msixWrite
  simp

@[simp] theorem State.writeOsb_clock (s : State) (x : LongOp) : (s.writeOsb x).clock = s.clock := by
  unfold State.writeOsb
  simp

@[simp] theorem State.updateOsbs_clock (s : State) : (s.updateOsbs).clock = s.clock := by
  unfold State.updateOsbs
  dsimp only
  rw [State.clock_mk, State.clock_eta, foldl_clock _ (by intros; simp), foldl_clock _ (by intros; exact foldl_clock _ (by intros; simp) _ _)]

@[simp] theorem State.acceptLong_clock (s : State) (x : LongOp) : (s.acceptLong x).clock = s.clock := by
  unfold State.acceptLong
  simp

@[simp] theorem State.ackRecord_clock (s : State) (uid : Nat) : (s.ackRecord uid).clock = s.clock := by
  unfold State.ackRecord
  (repeat' split) <;> simp

@[simp] theorem State.ackLatch_clock (s : State) : (s.ackLatch).clock = s.clock := by
  unfold State.ackLatch
  (repeat' split) <;> simp

@[simp] theorem State.latchEntry_clock (s : State) (age : Nat) : (s.latchEntry age).clock = s.clock := by
  unfold State.latchEntry
  (repeat' split) <;> simp

@[simp] theorem State.windowEnd_clock (s : State) (n : Nat) : (s.windowEnd n).clock = s.clock := by
  unfold State.windowEnd
  simp

@[simp] theorem State.pulseOver_clock (s : State) : (s.pulseOver).clock = s.clock := by
  unfold State.pulseOver
  (repeat' split) <;> simp

@[simp] theorem State.isoForLife_clock (s : State) (t : Nat) : (s.isoForLife t).clock = s.clock := by
  unfold State.isoForLife
  simp

@[simp] theorem State.breakSensors_clock (s : State) (t : Nat) : (s.breakSensors t).clock = s.clock := by
  unfold State.breakSensors
  simp

@[simp] theorem State.formTemp_clock (s : State) (t : Nat) : (s.formTemp t).clock = s.clock := by
  unfold State.formTemp
  (try dsimp only)
  (repeat' split) <;> (first | with_reducible rfl | simp)

@[simp] theorem State.formLevels_clock (s : State) (t : Nat) : (s.formLevels t).clock = s.clock := by
  unfold State.formLevels
  simp

@[simp] theorem State.sensorWear_clock (s : State) (t : Nat) : (s.sensorWear t).clock = s.clock := by
  unfold State.sensorWear
  simp

@[simp] theorem State.thermal_clock (s : State) (t : Nat) (a b : BitVec 16) : (s.thermal t a b).clock = s.clock := by
  unfold State.thermal
  simp

@[simp] theorem State.refuse_clock (s : State) (g : Tag) (d : Desc) (t : Target) (b : Bad) : (s.refuse g d t b).clock = s.clock := by
  unfold State.refuse
  (repeat' split) <;> simp

@[simp] theorem State.refuseField_clock (s : State) (g : Tag) (d : Desc) (t : Target) (w b : Nat) : (s.refuseField g d t w b).clock = s.clock := by
  unfold State.refuseField
  simp

@[simp] theorem State.refuseWith_clock (s : State) (g : Tag) (d : Desc) (t : Target) (st : Nat) : (s.refuseWith g d t st).clock = s.clock := by
  unfold State.refuseWith
  simp

@[simp] theorem State.takeProfile_clock (s : State) (g : Tag) (d : Desc) (k : UnitKind) (n : Nat) : (s.takeProfile g d k n).clock = s.clock := by
  unfold State.takeProfile
  simp

@[simp] theorem State.enter_clock (s : State) (k : UnitKind) (n : Nat) (v : Move) : (s.enter k n v).clock = s.clock := by
  unfold State.enter
  simp

@[simp] theorem State.takeZero_clock (s : State) (k : UnitKind) (n : Nat) (v : Move) : (s.takeZero k n v).clock = s.clock := by
  unfold State.takeZero
  simp

@[simp] theorem State.takeMove_clock (s : State) (g : Tag) (d : Desc) (k : UnitKind) (n : Nat) (p : Profile) : (s.takeMove g d k n p).clock = s.clock := by
  unfold State.takeMove
  simp

@[simp] theorem State.takeResume_clock (s : State) (g : Tag) (d : Desc) (k : UnitKind) (n : Nat) : (s.takeResume g d k n).clock = s.clock := by
  unfold State.takeResume
  (try dsimp only)
  (repeat' split) <;> (first | with_reducible rfl | simp)

@[simp] theorem State.takeStop_clock (s : State) (g : Tag) (d : Desc) (k : UnitKind) (n : Nat) : (s.takeStop g d k n).clock = s.clock := by
  unfold State.takeStop
  simp

@[simp] theorem State.takeCurrent_clock (s : State) (g : Tag) (d : Desc) (a : Nat) : (s.takeCurrent g d a).clock = s.clock := by
  unfold State.takeCurrent
  simp

@[simp] theorem State.enterLater_clock (s : State) (k : UnitKind) (n : Nat) (l : Nat → Later) : (s.enterLater k n l).clock = s.clock := by
  unfold State.enterLater
  simp

@[simp] theorem State.takeFollow_clock (s : State) (g : Tag) (d : Desc) (k : UnitKind) (n : Nat) : (s.takeFollow g d k n).clock = s.clock := by
  unfold State.takeFollow
  simp

@[simp] theorem State.takePlay_clock (s : State) (g : Tag) (d : Desc) (k : UnitKind) (n : Nat) : (s.takePlay g d k n).clock = s.clock := by
  unfold State.takePlay
  (try dsimp only)
  (repeat' split) <;> (first | with_reducible rfl | simp)

@[simp] theorem State.enterBind_clock (s : State) (b : BindReq) : (s.enterBind b).clock = s.clock := by
  unfold State.enterBind
  simp

@[simp] theorem State.takeBind_clock (s : State) (g : Tag) (d : Desc) (c : Nat) : (s.takeBind g d c).clock = s.clock := by
  unfold State.takeBind
  simp

@[simp] theorem State.takeUnbind_clock (s : State) (g : Tag) (d : Desc) (k : UnitKind) (n : Nat) : (s.takeUnbind g d k n).clock = s.clock := by
  unfold State.takeUnbind
  simp

@[simp] theorem State.takeSol_clock (s : State) (g : Tag) (d : Desc) (t mask : Nat) : (s.takeSol g d t mask).clock = s.clock := by
  unfold State.takeSol
  simp

@[simp] theorem State.takeHome_clock (s : State) (g : Tag) (d : Desc) (a : Nat) : (s.takeHome g d a).clock = s.clock := by
  unfold State.takeHome
  simp

@[simp] theorem State.takeChar_clock (s : State) (g : Tag) (d : Desc) (a : Nat) : (s.takeChar g d a).clock = s.clock := by
  unfold State.takeChar
  simp

@[simp] theorem State.takeHistory_clock (s : State) (g : Tag) (d : Desc) : (s.takeHistory g d).clock = s.clock := by
  unfold State.takeHistory
  (try dsimp only)
  (repeat' split) <;> (try simp (disch := (intros; (repeat' split) <;> (try simp))) [foldl_clock])

@[simp] theorem State.takeMode_clock (s : State) (g : Tag) (d : Desc) : (s.takeMode g d).clock = s.clock := by
  unfold State.takeMode
  simp

@[simp] theorem State.ownAsk_clock (s : State) (a : Nat) (v : Move) : (s.ownAsk a v).clock = s.clock := by
  unfold State.ownAsk
  simp

@[simp] theorem State.ownGo_clock (s : State) (a : Nat) (v : Move) : (s.ownGo a v).clock = s.clock := by
  unfold State.ownGo
  simp

@[simp] theorem State.updHome_clock (s : State) (a : Nat) (f : Home → Home) : (s.updHome a f).clock = s.clock := by
  unfold State.updHome
  simp

@[simp] theorem State.axisLong_clock (s : State) (o a : Nat) (f : LongOp → LongOp) : (s.axisLong o a f).clock = s.clock := by
  unfold State.axisLong
  (repeat' split) <;> simp

@[simp] theorem State.homeEntry_clock (s : State) (a : Nat) (e : List Word) : (s.homeEntry a e).clock = s.clock := by
  unfold State.homeEntry
  simp

@[simp] theorem State.homeTo_clock (s : State) (a : Nat) (st : HomeState) : (s.homeTo a st).clock = s.clock := by
  unfold State.homeTo
  simp

@[simp] theorem State.homeFail_clock (s : State) (a st reason : Nat) : (s.homeFail a st reason).clock = s.clock := by
  unfold State.homeFail
  simp

@[simp] theorem State.homeGo_clock (s : State) (a : Nat) (v : Move) : (s.homeGo a v).clock = s.clock := by
  unfold State.homeGo
  (repeat' split) <;> simp

@[simp] theorem State.homeSearch_clock (s : State) (a : Nat) (h : Home) : (s.homeSearch a h).clock = s.clock := by
  unfold State.homeSearch
  simp

@[simp] theorem State.homeCheck_clock (s : State) (a : Nat) (h : Home) : (s.homeCheck a h).clock = s.clock := by
  unfold State.homeCheck
  simp

@[simp] theorem State.homeSet_clock (s : State) (a : Nat) (h : Home) : (s.homeSet a h).clock = s.clock := by
  unfold State.homeSet
  simp

@[simp] theorem State.homeOver_clock (s : State) (a st reason : Nat) (h : Home) : (s.homeOver a st reason h).clock = s.clock := by
  unfold State.homeOver
  (try dsimp only)
  (repeat' split) <;> (first | with_reducible rfl | simp)

@[simp] theorem State.homeLatched_clock (s : State) (a : Nat) (h : Home) : (s.homeLatched a h).clock = s.clock := by
  unfold State.homeLatched
  simp

@[simp] theorem State.homeState_clock (s : State) (a : Nat) (h : Home) : (s.homeState a h).clock = s.clock := by
  unfold State.homeState
  (repeat' split) <;> simp

@[simp] theorem State.homeStates_clock (s : State) (a fuel : Nat) : (s.homeStates a fuel).clock = s.clock := by
  induction fuel generalizing s with
  | zero => unfold State.homeStates; rfl
  | succ f ih =>
    unfold State.homeStates
    split
    · rename_i e _
      obtain rfl := Nat.succ.inj e
      dsimp only
      (repeat' split) <;> simp [ih]
    · rfl

@[simp] theorem State.homeWatch_clock (s : State) (a : Nat) : (s.homeWatch a).clock = s.clock := by
  unfold State.homeWatch
  (repeat' split) <;> simp

@[simp] theorem State.homeSeen_clock (s : State) (a : Nat) : (s.homeSeen a).clock = s.clock := by
  unfold State.homeSeen
  (first | with_reducible rfl | simp)

@[simp] theorem State.homeStep_clock (s : State) (a : Nat) : (s.homeStep a).clock = s.clock := by
  unfold State.homeStep
  (try dsimp only)
  (repeat' split) <;> (first | with_reducible rfl | simp)

@[simp] theorem State.homeEdge_clock (s : State) (a i : Nat) (level : Bool) (sdt : Nat) : (s.homeEdge a i level sdt).clock = s.clock := by
  unfold State.homeEdge
  (repeat' split) <;> simp

@[simp] theorem State.homeStall_clock (s : State) (a : Nat) : (s.homeStall a).clock = s.clock := by
  unfold State.homeStall
  simp

@[simp] theorem State.updChar_clock (s : State) (a : Nat) (f : Char → Char) : (s.updChar a f).clock = s.clock := by
  unfold State.updChar
  simp

@[simp] theorem State.setBase_clock (s : State) (a i : Nat) (v : Word) : (s.setBase a i v).clock = s.clock := by
  unfold State.setBase
  simp

@[simp] theorem State.charNext_clock (s : State) (a : Nat) : (s.charNext a).clock = s.clock := by
  unfold State.charNext
  (try dsimp only)
  (repeat' split) <;> (first | with_reducible rfl | simp)

@[simp] theorem State.charFail_clock (s : State) (a st : Nat) : (s.charFail a st).clock = s.clock := by
  unfold State.charFail
  simp

@[simp] theorem State.charGo_clock (s : State) (a : Nat) (v : Move) : (s.charGo a v).clock = s.clock := by
  unfold State.charGo
  (repeat' split) <;> simp

@[simp] theorem State.ownStart_clock (s : State) (a : Nat) : (s.ownStart a).clock = s.clock := by
  unfold State.ownStart
  (try dsimp only)
  (repeat' split) <;> (first | with_reducible rfl | simp)

@[simp] theorem State.charStand_clock (s : State) (a : Nat) (h : Char) (p : Profile) : (s.charStand a h p).clock = s.clock := by
  unfold State.charStand
  (try dsimp only)
  (repeat' split) <;> (try simp (disch := (intros; (repeat' split) <;> (try simp))) [foldl_clock])

@[simp] theorem State.charBin_clock (s : State) (a : Nat) (h : Char) (p : Profile) : (s.charBin a h p).clock = s.clock := by
  unfold State.charBin
  (try dsimp only)
  (repeat' split) <;> (try simp (disch := (intros; (repeat' split) <;> (try simp))) [foldl_clock])

@[simp] theorem State.unpower_clock (s : State) (a : Nat) : (s.unpower a).clock = s.clock := by
  unfold State.unpower
  (try dsimp only)
  (repeat' split) <;> (try simp (disch := (intros; (repeat' split) <;> (try simp))) [foldl_clock])

@[simp] theorem State.charOver_clock (s : State) (a st : Nat) (h : Char) : (s.charOver a st h).clock = s.clock := by
  unfold State.charOver
  (try dsimp only)
  (repeat' split) <;> (first | with_reducible rfl | simp)

@[simp] theorem State.charHeader_clock (s : State) (a : Nat) (h : Char) : (s.charHeader a h).clock = s.clock := by
  unfold State.charHeader
  simp

@[simp] theorem State.charReturn_clock (s : State) (a : Nat) (h : Char) (p : Profile) : (s.charReturn a h p).clock = s.clock := by
  unfold State.charReturn
  (repeat' split) <;> simp

@[simp] theorem State.charWatch_clock (s : State) (a : Nat) : (s.charWatch a).clock = s.clock := by
  unfold State.charWatch
  (repeat' split) <;> simp

@[simp] theorem State.charStep_clock (s : State) (a : Nat) : (s.charStep a).clock = s.clock := by
  unfold State.charStep
  (repeat' split) <;> simp

@[simp] theorem State.bindFail_clock (s : State) (b : BindReq) (f : Bad) : (s.bindFail b f).clock = s.clock := by
  unfold State.bindFail
  simp

@[simp] theorem State.bindDone_clock (s : State) (g : Tag) (word0 : Word) (c slot : Nat) (mb : Member) : (s.bindDone g word0 c slot mb).clock = s.clock := by
  unfold State.bindDone
  simp

@[simp] theorem State.bindNow_clock (s : State) (b : BindReq) : (s.bindNow b).clock = s.clock := by
  unfold State.bindNow
  simp

@[simp] theorem State.freeSlot_clock (s : State) (c slot : Nat) : (s.freeSlot c slot).clock = s.clock := by
  unfold State.freeSlot
  simp

@[simp] theorem State.unbindNow_clock (s : State) (b : BindReq) (c slot : Nat) : (s.unbindNow b c slot).clock = s.clock := by
  unfold State.unbindNow
  simp

@[simp] theorem State.bindStep_clock (s : State) (b : BindReq) : (s.bindStep b).2.clock = s.clock := by
  unfold State.bindStep
  (repeat' split) <;> simp

@[simp] theorem State.entryOver_clock (s : State) (c slot : Nat) : (s.entryOver c slot).clock = s.clock := by
  unfold State.entryOver
  (try dsimp only)
  (repeat' split) <;> (first | with_reducible rfl | simp)

@[simp] theorem State.bonds_clock (s : State) : (s.bonds).clock = s.clock := by
  unfold State.bonds
  (try dsimp only)
  (repeat' split) <;> (try simp (disch := (intros; (repeat' split) <;> (try simp))) [foldl_clock])

@[simp] theorem State.safetyInput_clock (s : State) (n : Nat) : (s.safetyInput n).clock = s.clock := by
  unfold State.safetyInput
  simp

@[simp] theorem State.safetyScan_clock (s : State) : (s.safetyScan).clock = s.clock := by
  unfold State.safetyScan
  (try simp (disch := (intros; (repeat' split) <;> (try simp))) [foldl_clock])

@[simp] theorem State.limitHit_clock (s : State) (a n : Nat) (neg edge : Bool) : (s.limitHit a n neg edge).clock = s.clock := by
  unfold State.limitHit
  simp

@[simp] theorem State.limitInput_clock (s : State) (a n : Nat) (edge : Bool) : (s.limitInput a n edge).clock = s.clock := by
  unfold State.limitInput
  simp

@[simp] theorem State.senseEdge_clock (s : State) (n : Nat) (samples : List Bool) : (s.senseEdge n samples).clock = s.clock := by
  unfold State.senseEdge
  (try dsimp only)
  (repeat' split) <;> (try simp (disch := (intros; (repeat' split) <;> (try simp))) [foldl_clock])

@[simp] theorem State.senseKnown_clock (s : State) (n : Nat) (samples : List Bool) : (s.senseKnown n samples).clock = s.clock := by
  unfold State.senseKnown
  (try dsimp only)
  (repeat' split) <;> (try simp (disch := (intros; (repeat' split) <;> (try simp))) [foldl_clock])

@[simp] theorem State.stepEdge_clock (s : State) (n : Nat) (dirHigh : Bool) : (s.stepEdge n dirHigh).clock = s.clock := by
  unfold State.stepEdge
  simp

@[simp] theorem State.loadCount_clock (s : State) (v : Nat) : (s.loadCount v).clock = s.clock := by
  unfold State.loadCount
  simp

@[simp] theorem State.encCount_clock (s : State) (n : Nat) (up both : Bool) : (s.encCount n up both).clock = s.clock := by
  unfold State.encCount
  (try dsimp only)
  (repeat' split) <;> (first | with_reducible rfl | simp)

@[simp] theorem State.encEdge_clock (s : State) (n : Nat) (up both : Bool) : (s.encEdge n up both).clock = s.clock := by
  unfold State.encEdge
  simp

@[simp] theorem State.encIndex_clock (s : State) (n : Nat) : (s.encIndex n).clock = s.clock := by
  unfold State.encIndex
  simp

@[simp] theorem State.encTimeout_clock (s : State) (n : Nat) : (s.encTimeout n).clock = s.clock := by
  unfold State.encTimeout
  simp

@[simp] theorem State.safeClr_clock (s : State) (j : Nat) (v : Word) : (s.safeClr j v).clock = s.clock := by
  unfold State.safeClr
  (try dsimp only)
  (try simp (disch := (intros; (repeat' split) <;> (try simp))) [foldl_clock])

@[simp] theorem State.pairOn_clock (s : State) (n : Nat) : (s.pairOn n).clock = s.clock := by
  unfold State.pairOn
  simp

@[simp] theorem State.pairOff_clock (s : State) (n : Nat) : (s.pairOff n).clock = s.clock := by
  unfold State.pairOff
  simp

@[simp] theorem State.encOn_clock (s : State) (n : Nat) : (s.encOn n).clock = s.clock := by
  unfold State.encOn
  simp

@[simp] theorem State.filtWrite_clock (s : State) (j : Nat) (v : Word) : (s.filtWrite j v).clock = s.clock := by
  unfold State.filtWrite
  (try dsimp only)
  (try simp (disch := (intros; (repeat' split) <;> (try simp))) [foldl_clock])

@[simp] theorem State.lineEdgeAt_clock (s : State) (n : Nat) : (s.lineEdgeAt n).clock = s.clock := by
  unfold State.lineEdgeAt
  simp

@[simp] theorem State.lineEdge_clock (s : State) (n : Nat) (level : Bool) : (s.lineEdge n level).clock = s.clock := by
  unfold State.lineEdge
  simp

@[simp] theorem State.lineHold_clock (s : State) (n : Nat) : (s.lineHold n).clock = s.clock := by
  unfold State.lineHold
  simp

@[simp] theorem State.lineGone_clock (s : State) (n : Nat) : (s.lineGone n).clock = s.clock := by
  unfold State.lineGone
  simp

@[simp] theorem State.rcBegin_clock (s : State) : (s.rcBegin).clock = s.clock := by
  unfold State.rcBegin
  simp

@[simp] theorem State.outPulse_clock (s : State) (n : Nat) : (s.outPulse n).clock = s.clock := by
  unfold State.outPulse
  simp

@[simp] theorem State.outMark_clock (s : State) (n : Nat) : (s.outMark n).clock = s.clock := by
  unfold State.outMark
  simp

@[simp] theorem State.outEnd_clock (s : State) (n : Nat) : (s.outEnd n).clock = s.clock := by
  unfold State.outEnd
  simp

@[simp] theorem State.outTicks_clock (s : State) : (s.outTicks).clock = s.clock := by
  unfold State.outTicks
  (try simp (disch := (intros; (repeat' split) <;> (try simp))) [foldl_clock])

@[simp] theorem State.dieTemp_clock (s : State) : (s.dieTemp).clock = s.clock := by
  unfold State.dieTemp
  simp

@[simp] theorem State.oscSwitch_clock (s : State) : (s.oscSwitch).clock = s.clock := by
  unfold State.oscSwitch
  simp

@[simp] theorem State.primaryFails_clock (s : State) : (s.primaryFails).clock = s.clock := by
  unfold State.primaryFails
  simp

@[simp] theorem State.primaryGood_clock (s : State) : (s.primaryGood).clock = s.clock := by
  unfold State.primaryGood
  simp

@[simp] theorem State.oscReturn_clock (s : State) : (s.oscReturn).clock = s.clock := by
  unfold State.oscReturn
  simp

@[simp] theorem State.bkpFail_clock (s : State) : (s.bkpFail).clock = s.clock := by
  unfold State.bkpFail
  simp

@[simp] theorem State.clockLost_clock (s : State) : (s.clockLost).clock = s.clock := by
  unfold State.clockLost
  simp

@[simp] theorem State.updStr_clock (s : State) (f : Strait → Strait) : (s.updStr f).clock = s.clock := by
  unfold State.updStr
  simp

@[simp] theorem State.sendFrame_clock (s : State) (port : Nat) (f : List Byte) : (s.sendFrame port f).clock = s.clock := by
  unfold State.sendFrame
  simp

@[simp] theorem State.receiveFlt_clock (s : State) (b : Nat) : (s.receiveFlt b).clock = s.clock := by
  unfold State.receiveFlt
  simp

@[simp] theorem State.discardFrame_clock (s : State) (port : Nat) (good : Bool) : (s.discardFrame port good).clock = s.clock := by
  unfold State.discardFrame
  simp

@[simp] theorem State.syncSend_clock (s : State) : (s.syncSend).clock = s.clock := by
  unfold State.syncSend
  simp

@[simp] theorem State.repeatSync_clock (s : State) (f : List Byte) (good : Bool) : (s.repeatSync f good).clock = s.clock := by
  unfold State.repeatSync
  simp

@[simp] theorem State.align_clock (s : State) (f : List Byte) : (s.align f).clock = s.clock := by
  unfold State.align
  extract_lets b e e'
  clear_value b e'
  split
  · rfl
  · split
    · exact State.clock_mk ..
    · split
      · exact State.clock_mk ..
      · rfl

@[simp] theorem State.correct_clock (s : State) (f : List Byte) : (s.correct f).clock = s.clock := by
  unfold State.correct
  simp

@[simp] theorem State.missSync_clock (s : State) : (s.missSync).clock = s.clock := by
  unfold State.missSync
  simp

@[simp] theorem State.takeSync_clock (s : State) (f : List Byte) : (s.takeSync f).clock = s.clock := by
  unfold State.takeSync
  simp

@[simp] theorem State.syncReceive_clock (s : State) (f : List Byte) : (s.syncReceive f).clock = s.clock := by
  unfold State.syncReceive
  simp

@[simp] theorem State.syncMissing_clock (s : State) : (s.syncMissing).clock = s.clock := by
  unfold State.syncMissing
  simp

@[simp] theorem State.loadStep_clock (s : State) : (s.loadStep).clock = s.clock := by
  unfold State.loadStep
  (repeat' split) <;> simp

@[simp] theorem State.repeatFault_clock (s : State) (port : Nat) (f : List Byte) (good : Bool) : (s.repeatFault port f good).clock = s.clock := by
  unfold State.repeatFault
  simp

@[simp] theorem State.faultFrame_clock (s : State) (port : Nat) (f : List Byte) : (s.faultFrame port f).clock = s.clock := by
  unfold State.faultFrame
  simp

@[simp] theorem State.upSend_clock (s : State) : (s.upSend).clock = s.clock := by
  unfold State.upSend
  simp

@[simp] theorem State.upReceive_clock (s : State) (f : List Byte) : (s.upReceive f).clock = s.clock := by
  unfold State.upReceive
  simp

@[simp] theorem State.retrain_clock (s : State) : (s.retrain).clock = s.clock := by
  unfold State.retrain
  simp

@[simp] theorem State.alignGained_clock (s : State) (port : Nat) : (s.alignGained port).clock = s.clock := by
  unfold State.alignGained
  simp

@[simp] theorem State.alignLost_clock (s : State) (port : Nat) : (s.alignLost port).clock = s.clock := by
  unfold State.alignLost
  simp

@[simp] theorem State.reqSend_clock (s : State) : (s.reqSend).clock = s.clock := by
  unfold State.reqSend
  simp

@[simp] theorem State.reqReceive_clock (s : State) (port : Nat) (f : List Byte) (wait : Nat) : (s.reqReceive port f wait).clock = s.clock := by
  unfold State.reqReceive
  simp

@[simp] theorem State.echoReceive_clock (s : State) (f : List Byte) (rtt : Nat) : (s.echoReceive f rtt).clock = s.clock := by
  unfold State.echoReceive
  simp

@[simp] theorem State.ringError_clock (s : State) (r code : Nat) : (s.ringError r code).clock = s.clock := by
  unfold State.ringError
  simp

@[simp] theorem State.prefetch_clock (s : State) (r : Nat) : (s.prefetch r).clock = s.clock := by
  unfold State.prefetch
  (try dsimp only)
  (repeat' split) <;> (try simp (disch := (intros; (repeat' split) <;> (try simp))) [foldl_clock])

@[simp] theorem State.answer_clock (s : State) (src : ReadSrc) : (s.answer src).2.clock = s.clock := by
  unfold State.answer
  simp

@[simp] theorem State.doorbell_clock (s : State) (pis : List Word) : (s.doorbell pis).clock = s.clock := by
  unfold State.doorbell
  (try dsimp only)
  (repeat' split) <;> (try simp (disch := (intros; (repeat' split) <;> (try simp))) [foldl_clock])

@[simp] theorem State.takeIn_clock (s : State) (r : Nat) (ds : List Desc) (rest : List Nat) : (s.takeIn r ds rest).clock = s.clock := by
  unfold State.takeIn
  (try dsimp only)
  (try simp (disch := (intros; (repeat' split) <;> (try simp))) [foldl_clock])

@[simp] theorem State.prefetched_clock (s : State) (r : Nat) (ok : Bool) (ds : List Desc) : (s.prefetched r ok ds).clock = s.clock := by
  unfold State.prefetched
  extract_lets a u
  have hu : u.clock = s.clock := by simp [u, a]
  split
  · split <;> simp [hu]
  · exact hu

@[simp] theorem State.paramDone_clock (s : State) (r : Nat) (ok : Bool) (param : List Word) : (s.paramDone r ok param).clock = s.clock := by
  unfold State.paramDone
  simp

@[simp] theorem State.streamAsk_clock (s : State) (w : Nat) : (s.streamAsk w).clock = s.clock := by
  unfold State.streamAsk
  (try dsimp only)
  (repeat' split) <;> (first | with_reducible rfl | simp)

@[simp] theorem State.streamed_clock (s : State) (w : Nat) (ok : Bool) (bytes : List Byte) : (s.streamed w ok bytes).clock = s.clock := by
  unfold State.streamed
  extract_lets a u
  have hu : u.clock = s.clock := by simp [u, a]
  split
  · exact hu
  · split
    · exact hu
    · (repeat' split) <;> simp [hu]

@[simp] theorem State.readTimeout_clock (s : State) (src : ReadSrc) : (s.readTimeout src).clock = s.clock := by
  unfold State.readTimeout
  (try dsimp only)
  (repeat' split) <;> (first | with_reducible rfl | simp)

@[simp] theorem State.readTimeouts_clock (s : State) : (s.readTimeouts).clock = s.clock := by
  unfold State.readTimeouts
  (try simp (disch := (intros; (repeat' split) <;> (try simp))) [foldl_clock])

@[simp] theorem State.streamAll_clock (s : State) : (s.streamAll).clock = s.clock := by
  unfold State.streamAll
  (try simp (disch := (intros; (repeat' split) <;> (try simp))) [foldl_clock])

@[simp] theorem State.linkDown_clock (s : State) (cause : Nat) : (s.linkDown cause).clock = s.clock := by
  unfold State.linkDown
  (try dsimp only)
  (repeat' split) <;> (try simp (disch := (intros; (repeat' split) <;> (try simp))) [foldl_clock])

@[simp] theorem State.linkUpNow_clock (s : State) : (s.linkUpNow).clock = s.clock := by
  unfold State.linkUpNow
  simp

@[simp] theorem State.diagBegin_clock (s : State) (tiles legs : Nat) : (s.diagBegin tiles legs).clock = s.clock := by
  unfold State.diagBegin
  (try dsimp only)
  (try simp (disch := (intros; (repeat' split) <;> (try simp))) [foldl_clock])

@[simp] theorem State.diagPhase_clock (s : State) (t : Nat) (first second : BitVec 12) : (s.diagPhase t first second).clock = s.clock := by
  unfold State.diagPhase
  (try dsimp only)
  (repeat' split) <;> (first | with_reducible rfl | simp)

@[simp] theorem State.diagStep_clock (s : State) : (s.diagStep).clock = s.clock := by
  unfold State.diagStep
  (repeat' split) <;> simp

@[simp] theorem State.updSpr_clock (s : State) (f : Spr → Spr) : (s.updSpr f).clock = s.clock := by
  unfold State.updSpr
  simp

@[simp] theorem State.sprFlag_clock (s : State) (i : Nat) : (s.sprFlag i).clock = s.clock := by
  unfold State.sprFlag
  simp

@[simp] theorem State.coreLoss_clock (s : State) : (s.coreLoss).clock = s.clock := by
  unfold State.coreLoss
  simp

@[simp] theorem State.resyncStart_clock (s : State) (n slot : Nat) (inPlace : Bool) : (s.resyncStart n slot inPlace).clock = s.clock := by
  unfold State.resyncStart
  simp

@[simp] theorem State.coreStop_clock (s : State) (n slot : Nat) (spare : Bool) : (s.coreStop n slot spare).clock = s.clock := by
  unfold State.coreStop
  simp

@[simp] theorem State.coreReplace_clock (s : State) (slot : Nat) : (s.coreReplace slot).clock = s.clock := by
  unfold State.coreReplace
  (repeat' split) <;> simp

@[simp] theorem State.coreRetire_clock (s : State) (n : Nat) : (s.coreRetire n).clock = s.clock := by
  unfold State.coreRetire
  simp

@[simp] theorem State.unresolved_clock (s : State) : (s.unresolved).clock = s.clock := by
  unfold State.unresolved
  simp

@[simp] theorem State.countMinority_clock (s : State) (n : Nat) (inj : Bool) : (s.countMinority n inj).clock = s.clock := by
  unfold State.countMinority
  simp

@[simp] theorem State.resyncNext_clock (s : State) : (s.resyncNext).clock = s.clock := by
  unfold State.resyncNext
  (try dsimp only)
  (repeat' split) <;> (first | with_reducible rfl | simp)

@[simp] theorem State.minorityAct_clock (s : State) (n : Nat) (inj : Bool) : (s.minorityAct n inj).clock = s.clock := by
  unfold State.minorityAct
  simp

@[simp] theorem State.resyncBack_clock (s : State) (n : Nat) : (s.resyncBack n).clock = s.clock := by
  unfold State.resyncBack
  (try dsimp only)
  (repeat' split) <;> (first | with_reducible rfl | simp)

@[simp] theorem State.minority_clock (s : State) (n src detail : Nat) (inj : Bool) : (s.minority n src detail inj).clock = s.clock := by
  unfold State.minority
  simp

@[simp] theorem State.votersDiffer_clock (s : State) : (s.votersDiffer).2.clock = s.clock := by
  unfold State.votersDiffer
  (try dsimp only)
  (repeat' split) <;> (first | with_reducible rfl | simp)

@[simp] theorem State.lostVote_clock (s : State) (slot : Nat) (inj : Bool) : (s.lostVote slot inj).clock = s.clock := by
  unfold State.lostVote
  (repeat' split) <;> (first | with_reducible rfl | simp)

@[simp] theorem State.vote_clock (s : State) (copies : List (Nat × BusCopy)) : (s.vote copies).clock = s.clock := by
  unfold State.vote
  (repeat' split) <;> simp

@[simp] theorem State.busVote_clock (s : State) (c0 c1 c2 : Option BusCopy) (agree : Bool) : (s.busVote c0 c1 c2 agree).clock = s.clock := by
  unfold State.busVote
  (repeat' split) <;> simp

@[simp] theorem State.parity_clock (s : State) (slot : Nat) (writeSide real : Bool) : (s.parity slot writeSide real).clock = s.clock := by
  unfold State.parity
  (repeat' split) <;> simp

@[simp] theorem State.resyncDone_clock (s : State) (good : Bool) : (s.resyncDone good).clock = s.clock := by
  unfold State.resyncDone
  (repeat' split) <;> simp

@[simp] theorem State.repeated_clock (s : State) : (s.repeated).clock = s.clock := by
  unfold State.repeated
  (repeat' split) <;> simp

@[simp] theorem State.pairFails_clock (s : State) : (s.pairFails).clock = s.clock := by
  unfold State.pairFails
  (repeat' split) <;> simp

@[simp] theorem State.katEnd_clock (s : State) (passed : List Nat) : (s.katEnd passed).clock = s.clock := by
  unfold State.katEnd
  (try dsimp only)
  (repeat' split) <;> (try simp (disch := (intros; (repeat' split) <;> (try simp))) [foldl_clock])

@[simp] theorem State.scrubCompare_clock (s : State) (sigs : List Word) : (s.scrubCompare sigs).clock = s.clock := by
  unfold State.scrubCompare
  (try dsimp only)
  (repeat' split) <;> (first | with_reducible rfl | simp)

@[simp] theorem State.setRow_clock (s : State) (r : Nat) (x : SramRow) : (s.setRow r x).clock = s.clock := by
  unfold State.setRow
  simp

@[simp] theorem State.rowCopy_clock (s : State) (r : Nat) : (s.rowCopy r).clock = s.clock := by
  unfold State.rowCopy
  simp

@[simp] theorem State.rowFails_clock (s : State) (r : Nat) : (s.rowFails r).clock = s.clock := by
  unfold State.rowFails
  simp

@[simp] theorem State.markSram_clock (s : State) (w : Nat) : (s.markSram w).clock = s.clock := by
  unfold State.markSram
  (try dsimp only)
  (repeat' split) <;> (first | with_reducible rfl | simp)

@[simp] theorem State.scrubTo_clock (s : State) (w : Nat) : (s.scrubTo w).clock = s.clock := by
  unfold State.scrubTo
  (try dsimp only)
  (first | with_reducible rfl | simp)

@[simp] theorem State.sramRead_clock (s : State) (w : Nat) (f : SramFinding) : (s.sramRead w f).clock = s.clock := by
  unfold State.sramRead
  (repeat' split) <;> simp

@[simp] theorem State.rowDone_clock (s : State) (r : Nat) : (s.rowDone r).clock = s.clock := by
  unfold State.rowDone
  simp

@[simp] theorem State.sramInject_clock (s : State) : (s.sramInject).clock = s.clock := by
  unfold State.sramInject
  simp

@[simp] theorem State.serveRunner_clock (s : State) (i a : Nat) : (s.serveRunner i a).clock = s.clock := by
  unfold State.serveRunner
  simp

@[simp] theorem State.runnerFails_clock (s : State) (a : Nat) : (s.runnerFails a).clock = s.clock := by
  unfold State.runnerFails
  (try dsimp only)
  (repeat' split) <;> (first | with_reducible rfl | simp)

@[simp] theorem State.detachMember_clock (s : State) (c slot : Nat) : (s.detachMember c slot).clock = s.clock := by
  unfold State.detachMember
  (try dsimp only)
  (repeat' split) <;> (first | with_reducible rfl | simp)

@[simp] theorem State.engineFails_clock (s : State) (n : Nat) : (s.engineFails n).clock = s.clock := by
  unfold State.engineFails
  (try dsimp only)
  (repeat' split) <;> (try simp (disch := (intros; (repeat' split) <;> (try simp))) [foldl_clock])

@[simp] theorem State.inputPaths_clock (s : State) (ds : List InputDiffer) : (s.inputPaths ds).clock = s.clock := by
  unfold State.inputPaths
  (try dsimp only)
  (try simp (disch := (intros; (repeat' split) <;> (try simp))) [foldl_clock])

@[simp] theorem State.voterCheck_clock (s : State) (o : TickObs) : (s.voterCheck o).clock = s.clock := by
  unfold State.voterCheck
  simp

@[simp] theorem State.approveCore_clock (s : State) : (s.approveCore).clock = s.clock := by
  unfold State.approveCore
  (repeat' split) <;> simp

@[simp] theorem State.approveRunner_clock (s : State) (a : Nat) : (s.approveRunner a).clock = s.clock := by
  unfold State.approveRunner
  (repeat' split) <;> simp

@[simp] theorem State.approveCmp_clock (s : State) (t : Nat) : (s.approveCmp t).clock = s.clock := by
  unfold State.approveCmp
  simp

@[simp] theorem State.approveRows_clock (s : State) : (s.approveRows).clock = s.clock := by
  unfold State.approveRows
  (try simp (disch := (intros; (repeat' split) <;> (try simp))) [foldl_clock])

@[simp] theorem State.policyAuto_clock (s : State) : (s.policyAuto).clock = s.clock := by
  unfold State.policyAuto
  (try dsimp only)
  (repeat' split) <;> (try simp (disch := (intros; (repeat' split) <;> (try simp))) [foldl_clock])

@[simp] theorem State.approve_clock (s : State) (w : Word) : (s.approve w).clock = s.clock := by
  unfold State.approve
  (repeat' split) <;> simp

@[simp] theorem State.approveStep_clock (s : State) (x : Approve) : (s.approveStep x).clock = s.clock := by
  unfold State.approveStep
  simp

@[simp] theorem State.approveAll_clock (s : State) : (s.approveAll).clock = s.clock := by
  unfold State.approveAll
  (try simp (disch := (intros; (repeat' split) <;> (try simp))) [foldl_clock])

@[simp] theorem State.refStore_clock (s : State) (o : Nat) (v : Word) : (s.refStore o v).clock = s.clock := by
  unfold State.refStore
  (repeat' split) <;> simp

@[simp] theorem State.store_clock (s : State) (l : Loc) (v : Word) : (s.store l v).clock = s.clock := by
  unfold State.store
  (repeat' split) <;> simp

@[simp] theorem State.clearRoc_clock (s : State) (l : Loc) : (s.clearRoc l).clock = s.clock := by
  unfold State.clearRoc
  split <;> first
    | with_reducible exact State.updRing_clock _ _ _
    | with_reducible exact State.updSpr_clock _ _
    | with_reducible exact State.updAxis_clock _ _ _
    | with_reducible exact State.updCourse_clock _ _ _
    | with_reducible exact State.updTile_clock _ _ _
    | with_reducible exact State.updLeg_clock _ _ _ _
    | exact (State.clock_mk ..).trans (State.clock_eta _)
    | with_reducible rfl

@[simp] theorem State.latchShadow_clock (s : State) (off : Nat) (l : Loc) : (s.latchShadow off l).clock = s.clock := by
  unfold State.latchShadow
  (repeat' split) <;> simp

@[simp] theorem State.camNext_clock (s : State) : (s.camNext).clock = s.clock := by
  unfold State.camNext
  simp

@[simp] theorem State.fullRead_clock (s : State) (off : Nat) : (s.fullRead off).clock = s.clock := by
  unfold State.fullRead
  (repeat' split) <;> simp

@[simp] theorem State.noteAccess_clock (s : State) (bitNo kind off : Nat) : (s.noteAccess bitNo kind off).clock = s.clock := by
  unfold State.noteAccess
  simp

@[simp] theorem State.narrowRead_clock (s : State) (off : Nat) (be : BitVec 4) : (s.narrowRead off be).clock = s.clock := by
  unfold State.narrowRead
  simp

@[simp] theorem State.enableAxis_clock (s : State) (a : Nat) : (s.enableAxis a).clock = s.clock := by
  unfold State.enableAxis
  (try dsimp only)
  (try simp (disch := (intros; (repeat' split) <;> (try simp))) [foldl_clock])

@[simp] theorem State.enableCourse_clock (s : State) (c : Nat) : (s.enableCourse c).clock = s.clock := by
  unfold State.enableCourse
  simp

@[simp] theorem State.enableUnit_clock (s : State) (k : UnitKind) (n : Nat) : (s.enableUnit k n).clock = s.clock := by
  unfold State.enableUnit
  (repeat' split) <;> simp

@[simp] theorem State.releaseLegs_clock (s : State) (a : Nat) : (s.releaseLegs a).clock = s.clock := by
  unfold State.releaseLegs
  (try dsimp only)
  (try simp (disch := (intros; (repeat' split) <;> (try simp))) [foldl_clock])

@[simp] theorem State.endLongs_clock (s : State) (a : Nat) : (s.endLongs a).clock = s.clock := by
  unfold State.endLongs
  (try dsimp only)
  (repeat' split) <;> (first | with_reducible rfl | simp)

@[simp] theorem State.disableUnit_clock (s : State) (k : UnitKind) (n : Nat) : (s.disableUnit k n).clock = s.clock := by
  unfold State.disableUnit
  (repeat' split) <;> simp

@[simp] theorem State.disableNow_clock (s : State) (k : UnitKind) (n : Nat) : (s.disableNow k n).clock = s.clock := by
  unfold State.disableNow
  simp

@[simp] theorem State.clearing_clock (s : State) (off : Nat) (old v : Word) : (s.clearing off old v).clock = s.clock := by
  unfold State.clearing
  simp

@[simp] theorem State.noteMode_clock (s : State) (v : Word) : (s.noteMode v).clock = s.clock := by
  unfold State.noteMode
  simp

@[simp] theorem State.anchorHiWritten_clock (s : State) : (s.anchorHiWritten).clock = s.clock := by
  unfold State.anchorHiWritten
  simp

@[simp] theorem State.refCtrlWritten_clock (s : State) (old v : Word) : (s.refCtrlWritten old v).clock = s.clock := by
  unfold State.refCtrlWritten
  simp

@[simp] theorem State.strCtrlWritten_clock (s : State) (raw old v : Word) : (s.strCtrlWritten raw old v).clock = s.clock := by
  unfold State.strCtrlWritten
  simp

@[simp] theorem State.ringCtrlWritten_clock (s : State) (r : Nat) (old v : Word) : (s.ringCtrlWritten r old v).clock = s.clock := by
  unfold State.ringCtrlWritten
  simp

@[simp] theorem State.injWritten_clock (s : State) (raw : Word) : (s.injWritten raw).clock = s.clock := by
  unfold State.injWritten
  simp

@[simp] theorem State.unitCtrlWritten_clock (s : State) (k : UnitKind) (n : Nat) (old v : Word) : (s.unitCtrlWritten k n old v).clock = s.clock := by
  unfold State.unitCtrlWritten
  simp

@[simp] theorem State.clearUnc_clock (s : State) (k : UnitKind) (n : Nat) (raw : Word) : (s.clearUnc k n raw).clock = s.clock := by
  unfold State.clearUnc
  simp

@[simp] theorem State.clearTrip_clock (s : State) (t l : Nat) (raw : Word) : (s.clearTrip t l raw).clock = s.clock := by
  unfold State.clearTrip
  simp

@[simp] theorem State.clearIso_clock (s : State) (t : Nat) (raw : Word) : (s.clearIso t raw).clock = s.clock := by
  unfold State.clearIso
  simp

@[simp] theorem State.wrote_clock (s : State) (l : Loc) (off : Nat) (raw old v : Word) : (s.wrote l off raw old v).clock = s.clock := by
  unfold State.wrote
  (repeat' split) <;> simp

@[simp] theorem State.putLoc_clock (s : State) (l : Loc) (v : Word) : (s.putLoc l v).clock = s.clock := by
  unfold State.putLoc
  (repeat' split) <;> simp

@[simp] theorem State.carryOut_clock (s : State) (l : Loc) (off : Nat) (raw : Word) : (s.carryOut l off raw).clock = s.clock := by
  unfold State.carryOut
  simp

@[simp] theorem State.absentWrite_clock (s : State) (off : Nat) : (s.absentWrite off).clock = s.clock := by
  unfold State.absentWrite
  simp

@[simp] theorem State.lockedWrite_clock (s : State) (off : Nat) : (s.lockedWrite off).clock = s.clock := by
  unfold State.lockedWrite
  simp

@[simp] theorem State.violWrite_clock (s : State) (off : Nat) : (s.violWrite off).clock = s.clock := by
  unfold State.violWrite
  simp

@[simp] theorem State.writeLoc_clock (s : State) (l : Loc) (off : Nat) (raw : Word) : (s.writeLoc l off raw).clock = s.clock := by
  unfold State.writeLoc
  (repeat' split) <;> simp

@[simp] theorem State.fullWrite_clock (s : State) (off : Nat) (raw : Word) : (s.fullWrite off raw).clock = s.clock := by
  unfold State.fullWrite
  (repeat' split) <;> simp

@[simp] theorem State.narrowWrite_clock (s : State) (off : Nat) (be : BitVec 4) (raw : Word) : (s.narrowWrite off be raw).clock = s.clock := by
  unfold State.narrowWrite
  (repeat' split) <;> simp

@[simp] theorem State.readRequest_clock (s : State) (addr : Nat) (en : List Bool) : (s.readRequest addr en).clock = s.clock := by
  unfold State.readRequest
  extract_lets r
  have hr : r.1.clock = s.clock := foldl_clock_pair _ (fun q w => by simp) _ _
  split
  · exact hr
  · exact hr

@[simp] theorem State.writeRequest_clock (s : State) (addr : Nat) (bytes : List (Option Byte)) :
    (s.writeRequest addr bytes).clock = s.clock := by
  unfold State.writeRequest
  exact foldl_clock _ (fun t w => State.narrowWrite_clock t w _ _) _ s

@[simp] theorem State.comparePass_clock (s : State) (run : Word) : (s.comparePass run).clock = s.clock := by
  unfold State.comparePass
  simp

@[simp] theorem State.passEnd_clock (s : State) : (s.passEnd).clock = s.clock := by
  unfold State.passEnd
  (repeat' split) <;> simp

@[simp] theorem State.nvEnd_clock (s : State) (status : Nat) : (s.nvEnd status).clock = s.clock := by
  unfold State.nvEnd
  (repeat' split) <;> simp

@[simp] theorem State.nvAbort_clock (s : State) : (s.nvAbort).clock = s.clock := by
  unfold State.nvAbort
  simp

@[simp] theorem State.thermalStep_clock (s : State) (t : Nat) (a b : BitVec 16) : (s.thermalStep t a b).clock = s.clock := by
  unfold State.thermalStep
  simp

@[simp] theorem State.nvStep_clock (s : State) (ok : Bool) : (s.nvStep ok).clock = s.clock := by
  unfold State.nvStep
  (try dsimp only)
  (repeat' split) <;> (first | with_reducible rfl | simp)

@[simp] theorem State.nvBegin_clock (s : State) : (s.nvBegin).clock = s.clock := by
  unfold State.nvBegin
  simp

@[simp] theorem State.loadWord_clock (s : State) (l : Loc) (w : Word) : (s.loadWord l w).clock = s.clock := by
  unfold State.loadWord
  (repeat' split) <;> simp

@[simp] theorem State.loadSev_clock (s : State) (n : Nat) (w : Word) : (s.loadSev n w).clock = s.clock := by
  unfold State.loadSev
  (repeat' split) <;> simp

@[simp] theorem State.loadSet_clock (s : State) (ws : List Word) : (s.loadSet ws).clock = s.clock := by
  unfold State.loadSet
  (try dsimp only)
  (try simp (disch := (intros; (repeat' split) <;> (try simp))) [foldl_clock])

@[simp] theorem State.loadProfs_clock (s : State) (index profs : List Word) : (s.loadProfs index profs).clock = s.clock := by
  unfold State.loadProfs
  (try dsimp only)
  (try simp (disch := (intros; (repeat' split) <;> (try simp))) [foldl_clock])

@[simp] theorem State.nvLoad_clock (s : State) : (s.nvLoad).clock = s.clock := by
  unfold State.nvLoad
  (repeat' split) <;> simp

@[simp] theorem State.selfTestStep_clock (s : State) : (s.selfTestStep).clock = s.clock := by
  unfold State.selfTestStep
  (repeat' split) <;> simp

@[simp] theorem State.endDeviceLongs_clock (s : State) : (s.endDeviceLongs).clock = s.clock := by
  unfold State.endDeviceLongs
  (repeat' split) <;> simp

theorem State.eachUnit_clock (s : State) (f : State → UnitKind → Nat → State) (h : ∀ t k n, State.clock (f t k n) = t.clock) : (s.eachUnit f).clock = s.clock := by
  unfold State.eachUnit
  exact foldl_clock _ (fun t (p : UnitKind × Nat) => h t p.1 p.2) _ s

@[simp] theorem State.replaceStep_clock (s : State) (k : UnitKind) (n : Nat) : (s.replaceStep k n).clock = s.clock := by
  unfold State.replaceStep
  (try dsimp only)
  (repeat' split) <;> (try simp (disch := (intros; (repeat' split) <;> (try simp))) [foldl_clock])

@[simp] theorem State.lapse_clock (s : State) (k : UnitKind) (n : Nat) : (s.lapse k n).clock = s.clock := by
  unfold State.lapse
  (try dsimp only)
  (repeat' split) <;> (first | with_reducible rfl | simp)

@[simp] theorem State.lapseLeg_clock (s : State) (t l : Nat) : (s.lapseLeg t l).clock = s.clock := by
  unfold State.lapseLeg
  (repeat' split) <;> simp

@[simp] theorem State.startsAll_clock (s : State) : (s.startsAll).clock = s.clock := by
  unfold State.startsAll
  (try dsimp only)
  (repeat' split) <;> (try simp (disch := (intros; (repeat' split) <;> (try simp))) [foldl_clock, State.eachUnit_clock])

@[simp] theorem State.unreadyAll_clock (s : State) : (s.unreadyAll).clock = s.clock := by
  unfold State.unreadyAll
  (try dsimp only)
  (repeat' split) <;> (try simp (disch := (intros; (repeat' split) <;> (try simp))) [foldl_clock, State.eachUnit_clock])

@[simp] theorem State.syncUnit_clock (s : State) (k : UnitKind) (n : Nat) : (s.syncUnit k n).clock = s.clock := by
  unfold State.syncUnit
  simp

@[simp] theorem State.syncUnits_clock (s : State) : (s.syncUnits).clock = s.clock := by
  unfold State.syncUnits
  (try dsimp only)
  (try simp (disch := (intros; (repeat' split) <;> (try simp))) [foldl_clock])

@[simp] theorem State.leaveConfigure_clock (s : State) : (s.leaveConfigure).clock = s.clock := by
  unfold State.leaveConfigure
  (try dsimp only)
  (try simp (disch := (intros; (repeat' split) <;> (try simp))) [foldl_clock])

@[simp] theorem State.leftByLock_clock (s : State) : (s.leftByLock).clock = s.clock := by
  unfold State.leftByLock
  (try dsimp only)
  (repeat' split) <;> (try simp (disch := (intros; (repeat' split) <;> (try simp))) [foldl_clock])

@[simp] theorem State.enterConfigure_clock (s : State) : (s.enterConfigure).clock = s.clock := by
  unfold State.enterConfigure
  (try dsimp only)
  (try simp (disch := (intros; (repeat' split) <;> (try simp))) [foldl_clock])

@[simp] theorem State.powerAll_clock (s : State) : (s.powerAll).clock = s.clock := by
  unfold State.powerAll
  (try simp (disch := (intros; (repeat' split) <;> (try simp))) [foldl_clock])

@[simp] theorem State.unpowerAll_clock (s : State) (was : DevMode) : (s.unpowerAll was).clock = s.clock := by
  unfold State.unpowerAll
  (repeat' split) <;> (try simp (disch := (intros; (repeat' split) <;> (try simp))) [foldl_clock])

@[simp] theorem State.holdAll_clock (s : State) : (s.holdAll).clock = s.clock := by
  unfold State.holdAll
  (try dsimp only)
  (try simp (disch := (intros; (repeat' split) <;> (try simp))) [foldl_clock])

@[simp] theorem State.changeMode_clock (s : State) (b : DevMode) (cause : Nat) : (s.changeMode b cause).clock = s.clock := by
  unfold State.changeMode
  (try dsimp only)
  (repeat' split) <;> (try simp (disch := (intros; (repeat' split) <;> (try simp))) [State.eachUnit_clock])

@[simp] theorem State.takeRequest_clock (s : State) (target cause : Nat) (g : Option Tag) : (s.takeRequest target cause g).clock = s.clock := by
  unfold State.takeRequest
  (repeat' split) <;> simp

@[simp] theorem State.modeStep_clock (s : State) : (s.modeStep).clock = s.clock := by
  unfold State.modeStep
  (try dsimp only)
  (repeat' split) <;> (first | with_reducible rfl | simp)

@[simp] theorem State.enterReset_clock (s : State) : (s.enterReset).clock = s.clock := by
  unfold State.enterReset
  (try dsimp only)
  (try simp (disch := (intros; (repeat' split) <;> (try simp))) [foldl_clock])

@[simp] theorem State.bootRetire_clock (s : State) (n : Nat) (spare : Bool) : (s.bootRetire n spare).clock = s.clock := by
  unfold State.bootRetire
  simp

@[simp] theorem State.bootCores_clock (s : State) (pass : List Bool) : (s.bootCores pass).clock = s.clock := by
  unfold State.bootCores
  (try dsimp only)
  (repeat' split) <;> (try simp (disch := (intros; (repeat' split) <;> (try simp))) [foldl_clock])

@[simp] theorem State.tcmDiffers_clock (s : State) (n : Nat) : (s.tcmDiffers n).clock = s.clock := by
  unfold State.tcmDiffers
  simp

@[simp] theorem State.boot_clock (s : State) (o : BootObs) : (s.boot o).clock = s.clock := by
  unfold State.boot
  (try dsimp only)
  (repeat' split) <;> (try simp (disch := (intros; (repeat' split) <;> (try simp))) [foldl_clock])

@[simp] theorem State.tapScan_clock (s : State) (cells : List Bool) : (s.tapScan cells).clock = s.clock := rfl

@[simp] theorem State.tapLoad_clock (s : State) (i : TapInstr) : (s.tapLoad i).clock = s.clock := by
  unfold State.tapLoad
  (repeat' split) <;> simp

@[simp] theorem State.ringDone_clock (s : State) (r idx : Nat) (late : Bool) : (s.ringDone r idx late).clock = s.clock := by
  unfold State.ringDone
  (repeat' split) <;> simp

@[simp] theorem State.fenceCheck_clock (s : State) (r : Nat) : (s.fenceCheck r).clock = s.clock := by
  unfold State.fenceCheck
  (repeat' split) <;> simp

@[simp] theorem State.takeFence_clock (s : State) (g : Tag) (d : Desc) : (s.takeFence g d).clock = s.clock := by
  unfold State.takeFence
  simp

@[simp] theorem State.takeWait_clock (s : State) (g : Tag) (d : Desc) : (s.takeWait g d).clock = s.clock := by
  unfold State.takeWait
  simp

@[simp] theorem State.waitRcStep_clock (s : State) (r : Nat) : (s.waitRcStep r).clock = s.clock := by
  unfold State.waitRcStep
  (repeat' split) <;> simp

@[simp] theorem State.takeDiag_clock (s : State) (g : Tag) (d : Desc) : (s.takeDiag g d).clock = s.clock := by
  unfold State.takeDiag
  simp

@[simp] theorem State.takeNv_clock (s : State) (g : Tag) (d : Desc) : (s.takeNv g d).clock = s.clock := by
  unfold State.takeNv
  simp

@[simp] theorem State.takeSelfTest_clock (s : State) (g : Tag) (d : Desc) : (s.takeSelfTest g d).clock = s.clock := by
  unfold State.takeSelfTest
  simp

@[simp] theorem State.takeApprove_clock (s : State) (g : Tag) (d : Desc) : (s.takeApprove g d).clock = s.clock := by
  unfold State.takeApprove
  simp

@[simp] theorem State.carryNow_clock (s : State) (g : Tag) (d : Desc) (t : Target) (p : Profile) : (s.carryNow g d t p).clock = s.clock := by
  unfold State.carryNow
  (repeat' split) <;> simp

@[simp] theorem State.carry_clock (s : State) (g : Tag) (d : Desc) (t : Target) : (s.carry g d t).clock = s.clock := by
  unfold State.carry
  (repeat' split) <;> simp

@[simp] theorem State.carryDeferred_clock (s : State) (k : UnitKind) (n : Nat) : (s.carryDeferred k n).clock = s.clock := by
  unfold State.carryDeferred
  (try dsimp only)
  (repeat' split) <;> (try simp (disch := (intros; (repeat' split) <;> (try simp))) [foldl_clock])

@[simp] theorem State.takeUp_clock (s : State) (r : Nat) (d : Desc) : (s.takeUp r d).clock = s.clock := by
  unfold State.takeUp
  (try dsimp only)
  (repeat' split) <;> (first | with_reducible rfl | simp)

@[simp] theorem State.takeOne_clock (s : State) (r : Nat) (d : Desc) : (s.takeOne r d).clock = s.clock := by
  unfold State.takeOne
  simp

@[simp] theorem State.takeRow_clock (s : State) (o r : Nat) (d : Desc) : (s.takeRow o r d).clock = s.clock := by
  unfold State.takeRow
  simp

@[simp] theorem State.takeRing_clock (s : State) (r a_ : Nat) : (s.takeRing r a_).clock = s.clock := by
  induction a_ generalizing s with
  | zero => unfold State.takeRing; first | rfl | ((repeat' split) <;> first | rfl | simp)
  | succ f ih => unfold State.takeRing; (try dsimp only); (repeat' split) <;> first | rfl | simp [ih]

@[simp] theorem State.takePass_clock (s : State) : (s.takePass).clock = s.clock := by
  unfold State.takePass
  (try simp (disch := (intros; (repeat' split) <;> (try simp))) [State.each_clock])

@[simp] theorem State.watchStart_clock (s : State) (a : Nat) : (s.watchStart a).clock = s.clock := by
  unfold State.watchStart
  simp

@[simp] theorem State.catchUp_clock (s : State) : (s.catchUp).clock = s.clock := by
  unfold State.catchUp
  (try dsimp only)
  (try simp (disch := (intros; (repeat' split) <;> (try simp))) [foldl_clock, State.eachUnit_clock])

@[simp] theorem State.queuePeriod_clock (s : State) (k : UnitKind) (n : Nat) : (s.queuePeriod k n).1.clock = s.clock := by
  unfold State.queuePeriod
  simp

@[simp] theorem State.playPeriod_clock (s : State) (k : UnitKind) (n : Nat) (p : Play) (adv : Int) : (s.playPeriod k n p adv).clock = s.clock := by
  unfold State.playPeriod
  (repeat' split) <;> simp

@[simp] theorem State.ownPeriod_clock (s : State) (k : UnitKind) (n : Nat) (adv : Int) : (s.ownPeriod k n adv).1.clock = s.clock := by
  unfold State.ownPeriod
  (try dsimp only)
  (repeat' split) <;> (first | with_reducible rfl | simp)

@[simp] theorem State.courseBond_clock (s : State) (c : Nat) : (s.courseBond c).clock = s.clock := by
  unfold State.courseBond
  (repeat' split) <;> simp

@[simp] theorem State.memberAxes_clock (s : State) (c : Nat) : (s.memberAxes c).clock = s.clock := by
  unfold State.memberAxes
  (try simp (disch := (intros; (repeat' split) <;> (try simp))) [foldl_clock])

@[simp] theorem State.coursePeriod_clock (s : State) (c : Nat) (adv : Int) : (s.coursePeriod c adv).1.clock = s.clock := by
  unfold State.coursePeriod
  simp

@[simp] theorem State.integrate_clock (s : State) (adv : Int) : (s.integrate adv).1.clock = s.clock := by
  unfold State.integrate
  dsimp only
  rw [foldl_clock_pair _ (by intros; simp), foldl_clock_pair _ (by intros; apply foldl_clock_pair; intros; split <;> simp)]

@[simp] theorem State.periodEnds_clock (s : State) (l : Ends) : (s.periodEnds l).clock = s.clock := by
  unfold State.periodEnds
  (try dsimp only)
  (try simp (disch := (intros; (repeat' split) <;> (try simp))) [foldl_clock])

@[simp] theorem State.stallReact_clock (s : State) (a : Nat) : (s.stallReact a).clock = s.clock := by
  unfold State.stallReact
  (try dsimp only)
  (repeat' split) <;> (first | with_reducible rfl | simp)

@[simp] theorem State.stallStep_clock (s : State) (a : Nat) : (s.stallStep a).clock = s.clock := by
  unfold State.stallStep
  simp

@[simp] theorem State.fallen_clock (s : State) (k : UnitKind) (n : Nat) : (s.fallen k n).clock = s.clock := by
  unfold State.fallen
  (try dsimp only)
  (repeat' split) <;> (first | with_reducible rfl | simp)

@[simp] theorem State.stopStep_clock (s : State) (k : UnitKind) (n : Nat) : (s.stopStep k n).clock = s.clock := by
  unfold State.stopStep
  (repeat' split) <;> simp

@[simp] theorem State.postpone_clock (s : State) : (s.postpone).clock = s.clock := by
  unfold State.postpone
  (try dsimp only)
  (repeat' split) <;> (try simp (disch := (intros; (repeat' split) <;> (try simp))) [foldl_clock, State.eachUnit_clock])

@[simp] theorem State.feedAll_clock (s : State) : (s.feedAll).clock = s.clock := by
  unfold State.feedAll
  (repeat' split) <;> (try simp (disch := (intros; (repeat' split) <;> (try simp))) [State.eachUnit_clock])

@[simp] theorem State.extendStep_clock (s : State) (k : UnitKind) (n : Nat) : (s.extendStep k n).clock = s.clock := by
  unfold State.extendStep
  simp

@[simp] theorem State.ownStep_clock (s : State) (k : UnitKind) (n : Nat) : (s.ownStep k n).clock = s.clock := by
  unfold State.ownStep
  (repeat' split) <;> simp

@[simp] theorem State.velocityStep_clock (s : State) (k : UnitKind) (n : Nat) : (s.velocityStep k n).clock = s.clock := by
  unfold State.velocityStep
  (try dsimp only)
  (repeat' split) <;> (first | with_reducible rfl | simp)

@[simp] theorem State.laterWatch_clock (s : State) (k : UnitKind) (n : Nat) : (s.laterWatch k n).clock = s.clock := by
  unfold State.laterWatch
  (try dsimp only)
  (repeat' split) <;> (try simp (disch := (intros; (repeat' split) <;> (try simp))) [foldl_clock])

@[simp] theorem State.bookStep_clock (s : State) (a : Nat) : (s.bookStep a).clock = s.clock := by
  unfold State.bookStep
  simp

@[simp] theorem State.budgets_clock (s : State) : (s.budgets).clock = s.clock := by
  unfold State.budgets
  simp

@[simp] theorem State.usedAtBoundary_clock (s : State) : (s.usedAtBoundary).clock = s.clock := by
  unfold State.usedAtBoundary
  simp

@[simp] theorem State.currentStep_clock (s : State) (a : Nat) : (s.currentStep a).clock = s.clock := by
  unfold State.currentStep
  (try dsimp only)
  (repeat' split) <;> (try simp (disch := (intros; (repeat' split) <;> (try simp))) [foldl_clock])

@[simp] theorem State.deliverStep_clock (s : State) (a : Nat) : (s.deliverStep a).clock = s.clock := by
  unfold State.deliverStep
  simp

@[simp] theorem State.watchStep_clock (s : State) (a : Nat) : (s.watchStep a).clock = s.clock := by
  unfold State.watchStep
  simp

@[simp] theorem State.doorbellStep_clock (s : State) : (s.doorbellStep).clock = s.clock := by
  unfold State.doorbellStep
  (repeat' split) <;> simp

@[simp] theorem State.vector15_clock (s : State) : (s.vector15).clock = s.clock := by
  unfold State.vector15
  simp

@[simp] theorem State.waitRcs_clock (s : State) : (s.waitRcs).clock = s.clock := by
  unfold State.waitRcs
  (repeat' split) <;> (try simp (disch := (intros; (repeat' split) <;> (try simp))) [foldl_clock])

@[simp] theorem State.markDue_clock (s : State) : (s.markDue).clock = s.clock := by
  unfold State.markDue
  (try dsimp only)
  (try simp (disch := (intros; (repeat' split) <;> (try simp))) [foldl_clock, State.eachUnit_clock])

@[simp] theorem State.withhold_clock (s : State) : (s.withhold).clock = s.clock := by
  unfold State.withhold
  (try simp (disch := (intros; (repeat' split) <;> (try simp))) [State.eachUnit_clock])

@[simp] theorem State.unitsAtBoundary_clock (s : State) (adv : Int) (o : PeriodObs) : (s.unitsAtBoundary adv o).clock = s.clock := by
  unfold State.unitsAtBoundary
  (try dsimp only)
  (repeat' split) <;> (try simp (disch := (intros; (repeat' split) <;> (try simp))) [foldl_clock, State.eachUnit_clock])

@[simp] theorem State.coilsAtBoundary_clock (s : State) : (s.coilsAtBoundary).clock = s.clock := by
  unfold State.coilsAtBoundary
  (try dsimp only)
  (repeat' split) <;> (try simp (disch := (intros; (repeat' split) <;> (try simp))) [foldl_clock])

@[simp] theorem State.writeStatus_clock (s : State) (ws : List Word) : (s.writeStatus ws).clock = s.clock := by
  unfold State.writeStatus
  (repeat' split) <;> simp

@[simp] theorem State.writeBack_clock (s : State) (r : Nat) (o : Outst) : (s.writeBack r o).clock = s.clock := by
  unfold State.writeBack
  simp

@[simp] theorem State.ringBack_clock (s : State) (r : Nat) : (s.ringBack r).1.clock = s.clock := by
  unfold State.ringBack
  (try dsimp only)
  (try simp (disch := (intros; (repeat' split) <;> (try simp))) [foldl_clock])

@[simp] theorem State.writeBacks_clock (s : State) : (s.writeBacks).1.clock = s.clock := by
  unfold State.writeBacks
  rw [foldl_clock_pair _ (by intros; simp)]

@[simp] theorem State.vectors_clock (s : State) (rs : List Nat) : (s.vectors rs).clock = s.clock := by
  unfold State.vectors
  (try dsimp only)
  (try simp (disch := (intros; (repeat' split) <;> (try simp))) [foldl_clock])

@[simp] theorem State.refillAll_clock (s : State) : (s.refillAll).clock = s.clock := by
  unfold State.refillAll
  (try dsimp only)
  (repeat' split) <;> (try simp (disch := (intros; (repeat' split) <;> (try simp))) [State.eachUnit_clock])

@[simp] theorem State.planTick_clock (s : State) : (s.planTick).clock = s.clock := by
  unfold State.planTick
  simp

@[simp] theorem State.newWaits_clock (s : State) : (s.newWaits).clock = s.clock := by
  unfold State.newWaits
  (try simp (disch := (intros; (repeat' split) <;> (try simp))) [foldl_clock])

end Sys2Proof.Machine
end

