-- ==== Sys2Proof/Laws/Exec.lean ====
section
/-! SUPPORT. What each command is, as one equation: no proof need unfold the dispatch. -/

namespace Sys2Proof.Machine

theorem exec_nop (ring : Nat) (d : Desc) (s : State) :
    exec (.nop ring d) s =
      s.command fun s => s.takeRow 0x00 ring d := rfl

theorem exec_fence (ring : Nat) (d : Desc) (s : State) :
    exec (.fence ring d) s =
      s.command fun s => s.takeRow 0x01 ring d := rfl

theorem exec_waitRc (ring : Nat) (d : Desc) (s : State) :
    exec (.waitRc ring d) s =
      s.command fun s => s.takeRow 0x02 ring d := rfl

theorem exec_setProfile (ring : Nat) (d : Desc) (s : State) :
    exec (.setProfile ring d) s =
      s.command fun s => s.takeRow 0x10 ring d := rfl

theorem exec_moveTo (ring : Nat) (d : Desc) (s : State) :
    exec (.moveTo ring d) s =
      s.command fun s => s.takeRow 0x11 ring d := rfl

theorem exec_moveBy (ring : Nat) (d : Desc) (s : State) :
    exec (.moveBy ring d) s =
      s.command fun s => s.takeRow 0x12 ring d := rfl

theorem exec_velocity (ring : Nat) (d : Desc) (s : State) :
    exec (.velocity ring d) s =
      s.command fun s => s.takeRow 0x13 ring d := rfl

theorem exec_stop (ring : Nat) (d : Desc) (s : State) :
    exec (.stop ring d) s =
      s.command fun s => s.takeRow 0x14 ring d := rfl

theorem exec_qstop (ring : Nat) (d : Desc) (s : State) :
    exec (.qstop ring d) s =
      s.command fun s => s.takeRow 0x15 ring d := rfl

theorem exec_resume (ring : Nat) (d : Desc) (s : State) :
    exec (.resume ring d) s =
      s.command fun s => s.takeRow 0x16 ring d := rfl

theorem exec_setCurrent (ring : Nat) (d : Desc) (s : State) :
    exec (.setCurrent ring d) s =
      s.command fun s => s.takeRow 0x17 ring d := rfl

theorem exec_home (ring : Nat) (d : Desc) (s : State) :
    exec (.home ring d) s =
      s.command fun s => s.takeRow 0x20 ring d := rfl

theorem exec_characterize (ring : Nat) (d : Desc) (s : State) :
    exec (.characterize ring d) s =
      s.command fun s => s.takeRow 0x21 ring d := rfl

theorem exec_playTable (ring : Nat) (d : Desc) (s : State) :
    exec (.playTable ring d) s =
      s.command fun s => s.takeRow 0x28 ring d := rfl

theorem exec_followSteps (ring : Nat) (d : Desc) (s : State) :
    exec (.followSteps ring d) s =
      s.command fun s => s.takeRow 0x29 ring d := rfl

theorem exec_bindCourse (ring : Nat) (d : Desc) (s : State) :
    exec (.bindCourse ring d) s =
      s.command fun s => s.takeRow 0x30 ring d := rfl

theorem exec_unbindCourse (ring : Nat) (d : Desc) (s : State) :
    exec (.unbindCourse ring d) s =
      s.command fun s => s.takeRow 0x31 ring d := rfl

theorem exec_solPulse (ring : Nat) (d : Desc) (s : State) :
    exec (.solPulse ring d) s =
      s.command fun s => s.takeRow 0x38 ring d := rfl

theorem exec_solHold (ring : Nat) (d : Desc) (s : State) :
    exec (.solHold ring d) s =
      s.command fun s => s.takeRow 0x39 ring d := rfl

theorem exec_diagOffstate (ring : Nat) (d : Desc) (s : State) :
    exec (.diagOffstate ring d) s =
      s.command fun s => s.takeRow 0x40 ring d := rfl

theorem exec_readHistory (ring : Nat) (d : Desc) (s : State) :
    exec (.readHistory ring d) s =
      s.command fun s => s.takeRow 0x41 ring d := rfl

theorem exec_setMode (ring : Nat) (d : Desc) (s : State) :
    exec (.setMode ring d) s =
      s.command fun s => s.takeRow 0x42 ring d := rfl

theorem exec_nvCommit (ring : Nat) (d : Desc) (s : State) :
    exec (.nvCommit ring d) s =
      s.command fun s => s.takeRow 0x43 ring d := rfl

theorem exec_selfTest (ring : Nat) (d : Desc) (s : State) :
    exec (.selfTest ring d) s =
      s.command fun s => s.takeRow 0x44 ring d := rfl

theorem exec_spareApprove (ring : Nat) (d : Desc) (s : State) :
    exec (.spareApprove ring d) s =
      s.command fun s => s.takeRow 0x45 ring d := rfl

theorem exec_glbModeReqWrite (v : Word) (s : State) :
    exec (.glbModeReqWrite v) s =
      s.command fun s => s.fullWrite 0x24 v := rfl

theorem exec_modeRequestTaken (s : State) :
    exec (.modeRequestTaken) s =
      s.command State.modeStep := rfl

theorem exec_anchorSet (v : Word) (s : State) :
    exec (.anchorSet v) s =
      s.command fun s => s.fullWrite 0x34 v := rfl

theorem exec_refRcLoRead (s : State) :
    exec (.refRcLoRead) s =
      s.command fun s => s.fullRead 0x1010 := rfl

theorem exec_loRegisterRead (off : Nat) (s : State) :
    exec (.loRegisterRead off) s =
      s.command fun s => s.fullRead off := rfl

theorem exec_rocRead (off : Nat) (s : State) :
    exec (.rocRead off) s =
      s.command fun s => s.fullRead off := rfl

theorem exec_narrowRead (addr : Nat) (en : List Bool) (s : State) :
    exec (.narrowRead addr en) s =
      s.command fun s => s.readRequest addr en := rfl

theorem exec_narrowWrite (addr : Nat) (en : List Bool) (bytes : List Byte) (s : State) :
    exec (.narrowWrite addr en bytes) s =
      s.command fun s => s.writeRequest addr (lanes en bytes) := rfl

theorem exec_registerWrite (off : Nat) (v : Word) (s : State) :
    exec (.registerWrite off v) s =
      s.command fun s => s.fullWrite off v := rfl

theorem exec_crsCamDataAccess (v : Option Word) (s : State) :
    exec (.crsCamDataAccess v) s =
      s.command fun s => match v with
      | some w => s.fullWrite 0xC804 w
      | none => s.fullRead 0xC804 := rfl

theorem exec_fltHistSelWrite (v : Word) (s : State) :
    exec (.fltHistSelWrite v) s =
      s.command fun s => s.fullWrite 0x3020 v := rfl

theorem exec_fltAck (v : Word) (s : State) :
    exec (.fltAck v) s =
      s.command fun s => s.fullWrite 0x3070 v := rfl

theorem exec_fltInjArm (v : Word) (s : State) :
    exec (.fltInjArm v) s =
      s.command fun s => s.fullWrite 0x300C (v ||| 1) := rfl

theorem exec_fltInjDisarm (v : Word) (s : State) :
    exec (.fltInjDisarm v) s =
      s.command fun s => s.fullWrite 0x300C (v &&& ~~~ (1 : Word)) := rfl

theorem exec_fltPinLevel (v : Word) (s : State) :
    exec (.fltPinLevel v) s =
      s.command fun s => s.fullWrite 0x3008 v := rfl

theorem exec_clrUnc (k : UnitKind) (n : Nat) (v : Word) (s : State) :
    exec (.clrUnc k n v) s =
      s.command fun s => s.fullWrite (unitReg k n 0x50) v := rfl

theorem exec_clrTrip (t l : Nat) (v : Word) (s : State) :
    exec (.clrTrip t l v) s =
      s.command fun s => s.fullWrite (legReg t l 0x38) v := rfl

theorem exec_clrIso (t : Nat) (v : Word) (s : State) :
    exec (.clrIso t v) s =
      s.command fun s => s.fullWrite (tileReg t 0x14) v := rfl

theorem exec_inpSafeClr (j : Nat) (v : Word) (s : State) :
    exec (.inpSafeClr j v) s =
      s.command fun s => s.fullWrite (instOff 0x6048 4 2 j 0) v := rfl

theorem exec_train (v : Word) (s : State) :
    exec (.train v) s =
      s.command fun s => s.fullWrite 0x1060 (v ||| 0x20) := rfl

theorem exec_arm (t l : Nat) (v : Word) (s : State) :
    exec (.arm t l v) s =
      s.command fun s => s.fullWrite (legReg t l 0x20) (v ||| 1) := rfl

theorem exec_legPwmPerWrite (t l : Nat) (v : Word) (s : State) :
    exec (.legPwmPerWrite t l v) s =
      s.command fun s => s.fullWrite (legReg t l 0x24) v := rfl

theorem exec_commit (v : Word) (s : State) :
    exec (.commit v) s =
      s.command fun s => s.fullWrite 0x30004 (v ||| 1) := rfl

theorem exec_uncommit (v : Word) (s : State) :
    exec (.uncommit v) s =
      s.command fun s => s.fullWrite 0x30004 (v ||| 2) := rfl

theorem exec_cfgCrcRefWrite (v : Word) (s : State) :
    exec (.cfgCrcRefWrite v) s =
      s.command fun s => s.fullWrite 0x30008 v := rfl

theorem exec_cfgLockWrite (v : Word) (s : State) :
    exec (.cfgLockWrite v) s =
      s.command fun s => s.fullWrite 0x30010 v := rfl

theorem exec_unitEnable (k : UnitKind) (n : Nat) (v : Word) (s : State) :
    exec (.unitEnable k n v) s =
      s.command fun s => s.fullWrite (unitOff k n) (v ||| 1) := rfl

theorem exec_unitDisable (k : UnitKind) (n : Nat) (v : Word) (s : State) :
    exec (.unitDisable k n v) s =
      s.command fun s => s.fullWrite (unitOff k n) (v &&& ~~~ (1 : Word)) := rfl

theorem exec_disableTakesEffect (k : UnitKind) (n : Nat) (s : State) :
    exec (.disableTakesEffect k n) s =
      s.command fun s => s.disableNow k n := rfl

theorem exec_refEnable (v : Word) (s : State) :
    exec (.refEnable v) s =
      s.command fun s => s.fullWrite 0x1000 (v ||| 1) := rfl

theorem exec_rcStart (s : State) :
    exec (.rcStart) s =
      s.command State.rcBegin := rfl

theorem exec_refDisable (v : Word) (s : State) :
    exec (.refDisable v) s =
      s.command fun s => s.fullWrite 0x1000 (v &&& ~~~ (1 : Word)) := rfl

theorem exec_tcompEnWrite (v : Word) (s : State) :
    exec (.tcompEnWrite v) s =
      s.command fun s => s.fullWrite 0x1000 (v ||| 2) := rfl

theorem exec_hostEnable (v : Word) (s : State) :
    exec (.hostEnable v) s =
      s.command fun s => s.fullWrite 0x2000 (v ||| 1) := rfl

theorem exec_hostDisable (v : Word) (s : State) :
    exec (.hostDisable v) s =
      s.command fun s => s.fullWrite 0x2000 (v &&& ~~~ (1 : Word)) := rfl

theorem exec_ringEnable (r : Nat) (v : Word) (s : State) :
    exec (.ringEnable r v) s =
      s.command fun s => s.fullWrite (ringReg r 0) (v ||| 1) := rfl

theorem exec_ringDisable (r : Nat) (v : Word) (s : State) :
    exec (.ringDisable r v) s =
      s.command fun s => s.fullWrite (ringReg r 0) (v &&& ~~~ (1 : Word)) := rfl

theorem exec_hostRingQuotaWrite (r : Nat) (v : Word) (s : State) :
    exec (.hostRingQuotaWrite r v) s =
      s.command fun s => s.fullWrite (ringReg r 0x14) v := rfl

theorem exec_hostTileBudgetWrite (t : Nat) (v : Word) (s : State) :
    exec (.hostTileBudgetWrite t v) s =
      s.command fun s => s.fullWrite (instOff 0x2040 4 12 t 0) v := rfl

theorem exec_tileCtrlEnWrite (t : Nat) (v : Word) (s : State) :
    exec (.tileCtrlEnWrite t v) s =
      s.command fun s => s.fullWrite (tileOff t) v := rfl

theorem exec_legModeWrite (t l : Nat) (v : Word) (s : State) :
    exec (.legModeWrite t l v) s =
      s.command fun s => s.fullWrite (legReg t l 0) v := rfl

theorem exec_stepPairEnable (n : Nat) (v : Word) (s : State) :
    exec (.stepPairEnable n v) s =
      s.command fun s => s.fullWrite (instOff 0x6100 4 16 n 0) (v ||| 1) := rfl

theorem exec_encoderEnable (n : Nat) (v : Word) (s : State) :
    exec (.encoderEnable n v) s =
      s.command fun s => s.fullWrite (instOff 0x6180 4 4 n 0) (v ||| 1) := rfl

theorem exec_inpFiltWrite (j : Nat) (v : Word) (s : State) :
    exec (.inpFiltWrite j v) s =
      s.command fun s => s.fullWrite (instOff 0x6008 4 2 j 0) v := rfl

theorem exec_policyAutomatic (s : State) :
    exec (.policyAutomatic) s =
      s.command State.policyAuto := rfl

theorem exec_interpolationPeriod (o : PeriodObs) (s : State) :
    exec (.interpolationPeriod o) s =
      s.command fun s => s.interpolate o := rfl

theorem exec_doorbellReadComplete (pis : List Word) (s : State) :
    exec (.doorbellReadComplete pis) s =
      s.command fun s => s.doorbell pis := rfl

theorem exec_prefetchComplete (r : Nat) (ok : Bool) (ds : List Desc) (s : State) :
    exec (.prefetchComplete r ok ds) s =
      s.command fun s => s.prefetched r ok ds := rfl

theorem exec_parameterReadComplete (r : Nat) (ok : Bool) (param : List Word) (s : State) :
    exec (.parameterReadComplete r ok param) s =
      s.command fun s => s.paramDone r ok param := rfl

theorem exec_planningTick (o : TickObs) (s : State) :
    exec (.planningTick o) s =
      s.command fun s => s.tick o := rfl

theorem exec_quotaRefill (s : State) :
    exec (.quotaRefill) s =
      s.command State.refillQuota := rfl

theorem exec_crcPassStart (s : State) :
    exec (.crcPassStart) s =
      s.command State.passBegin := rfl

theorem exec_crcPassEnd (s : State) :
    exec (.crcPassEnd) s =
      s.command State.passEnd := rfl

theorem exec_coreScrub (sigs : List Word) (s : State) :
    exec (.coreScrub sigs) s =
      s.command fun s =>
      let s := s.pass (s.untilNext 2000000 none)
      if s.spr.lost then s else s.scrubCompare sigs := rfl

theorem exec_sramScrubRead (w : Nat) (f : SramFinding) (s : State) :
    exec (.sramScrubRead w f) s =
      s.command fun s => s.sramRead w f := rfl

theorem exec_rowSpareCopyComplete (r : Nat) (s : State) :
    exec (.rowSpareCopyComplete r) s =
      s.command fun s => s.rowDone r := rfl

theorem exec_streamReadComplete (w : Nat) (ok : Bool) (bytes : List Byte) (s : State) :
    exec (.streamReadComplete w ok bytes) s =
      s.command fun s => s.streamed w ok bytes := rfl

theorem exec_revDwellEnd (k : UnitKind) (n : Nat) (s : State) :
    exec (.revDwellEnd k n) s =
      s.command fun s => s.revEnd k n := rfl

theorem exec_throttleDwellEnd (k : UnitKind) (n : Nat) (s : State) :
    exec (.throttleDwellEnd k n) s =
      s.command fun s => s.dwellOver k n := rfl

theorem exec_startRelease (k : UnitKind) (n : Nat) (s : State) :
    exec (.startRelease k n) s =
      s.command fun s => s.releaseUnit k n := rfl

theorem exec_axisEnergize (a : Nat) (s : State) :
    exec (.axisEnergize a) s =
      s.command fun s => s.powerAtBoundary a := rfl

theorem exec_displacementWatchStart (a : Nat) (s : State) :
    exec (.displacementWatchStart a) s =
      s.command fun s => s.watchStart a := rfl

theorem exec_solPulseStart (t l : Nat) (s : State) :
    exec (.solPulseStart t l) s =
      s.command fun s => s.pulseCommand t l := rfl

theorem exec_pullInEnd (t l : Nat) (s : State) :
    exec (.pullInEnd t l) s =
      s.command fun s => s.pullInEnd t l := rfl

theorem exec_holdEnd (t l : Nat) (s : State) :
    exec (.holdEnd t l) s =
      s.command fun s => s.holdEnd t l := rfl

theorem exec_freewheelEnd (t l : Nat) (s : State) :
    exec (.freewheelEnd t l) s =
      s.command fun s => s.freewheelEnd t l := rfl

theorem exec_diagLegPhaseEnd (t : Nat) (first second : BitVec 12) (s : State) :
    exec (.diagLegPhaseEnd t first second) s =
      s.command fun s => if s.glb.mode = .diagnose then s.diagPhase t first second else s := rfl

theorem exec_nvStepComplete (ok : Bool) (s : State) :
    exec (.nvStepComplete ok) s =
      s.command fun s => s.nvStep ok := rfl

theorem exec_resetRelease (en primaryGood : Bool) (s : State) :
    exec (.resetRelease en primaryGood) s =
      .next (if s.inReset then s.release0 en primaryGood else { s with out := [] }) := rfl

theorem exec_internalReset (s : State) :
    exec (.internalReset) s =
      s.command State.enterReset := rfl

theorem exec_bootComplete (o : BootObs) (s : State) :
    exec (.bootComplete o) s =
      s.command fun s => s.boot o := rfl

theorem exec_sealedToConfigure (s : State) :
    exec (.sealedToConfigure) s =
      s.command State.sealedOpen := rfl

theorem exec_logicSupplyFail (s : State) :
    exec (.logicSupplyFail) s =
      .next s.powerLost := rfl

theorem exec_enLow (s : State) :
    exec (.enLow) s =
      s.command State.enFalls := rfl

theorem exec_vgateUv (t : Nat) (s : State) :
    exec (.vgateUv t) s =
      s.command fun s => s.vgateLow t := rfl

theorem exec_vgateOv (t : Nat) (s : State) :
    exec (.vgateOv t) s =
      s.command fun s => s.vgateHigh t := rfl

theorem exec_vmUv (t : Nat) (s : State) :
    exec (.vmUv t) s =
      s.command fun s => s.vmLow t := rfl

theorem exec_vmOv (t : Nat) (s : State) :
    exec (.vmOv t) s =
      s.command fun s => s.vmHigh t := rfl

theorem exec_bstUv (t l : Nat) (s : State) :
    exec (.bstUv t l) s =
      s.command fun s => s.bootLow t l := rfl

theorem exec_prechargeTimeout (t l : Nat) (s : State) :
    exec (.prechargeTimeout t l) s =
      s.command fun s => s.prechargeOut t l := rfl

theorem exec_handshakeConfirm (t l : Nat) (w : Switch) (s : State) :
    exec (.handshakeConfirm t l w) s =
      s.command fun s => s.handshake t l w := rfl

theorem exec_deadTimeEnd (t l : Nat) (w : Switch) (s : State) :
    exec (.deadTimeEnd t l w) s =
      s.command fun s => s.deadEnd t l w := rfl

theorem exec_gateHsTimeout (t l : Nat) (w : Switch) (s : State) :
    exec (.gateHsTimeout t l w) s =
      s.command fun s => s.hsTimeout t l w := rfl

theorem exec_crossCmd (t l : Nat) (s : State) :
    exec (.crossCmd t l) s =
      s.command fun s => s.crossed t l := rfl

theorem exec_gateEdgeMeasured (t l : Nat) (w : Switch) (on : Bool) (ticks seg : Nat) (dev : Bool) (s : State) :
    exec (.gateEdgeMeasured t l w on ticks seg dev) s =
      s.command fun s => s.edge t l w on ticks seg dev := rfl

theorem exec_segmentConductsOff (t l : Nat) (w : Switch) (seg : Nat) (s : State) :
    exec (.segmentConductsOff t l w seg) s =
      s.command fun s => s.conducts t l w seg := rfl

theorem exec_desaturation (t l : Nat) (w : Switch) (s : State) :
    exec (.desaturation t l w) s =
      s.command fun s => s.desat t l w := rfl

theorem exec_grossDesaturation (t l : Nat) (w : Switch) (s : State) :
    exec (.grossDesaturation t l w) s =
      s.command fun s => s.grossDesat t l w := rfl

theorem exec_shuntTrip (t l : Nat) (s : State) :
    exec (.shuntTrip t l) s =
      s.command fun s => s.shunted t l := rfl

theorem exec_reactionWindowEnd (n : Nat) (s : State) :
    exec (.reactionWindowEnd n) s =
      s.command fun s => s.windowEnd n := rfl

theorem exec_nfaultPulseEnd (s : State) :
    exec (.nfaultPulseEnd) s =
      s.command State.pulseOver := rfl

theorem exec_coilComparatorTrip (a : Nat) (c : Coil) (ticks : Nat) (sp : SpareTrip) (s : State) :
    exec (.coilComparatorTrip a c ticks sp) s =
      s.command fun s => s.comparatorTrip a c ticks sp := rfl

theorem exec_blankingEnd (a : Nat) (c : Coil) (above : Bool) (sp : SpareTrip) (s : State) :
    exec (.blankingEnd a c above sp) s =
      s.command fun s => s.blankEnd a c above sp := rfl

theorem exec_onTimeSaturation (a : Nat) (c : Coil) (spareTripped : Bool) (s : State) :
    exec (.onTimeSaturation a c spareTripped) s =
      s.command fun s => s.saturate a c spareTripped := rfl

theorem exec_fastPortionEnd (a : Nat) (c : Coil) (s : State) :
    exec (.fastPortionEnd a c) s =
      s.command fun s => s.fastEnd a c := rfl

theorem exec_offTimeEnd (a : Nat) (c : Coil) (s : State) :
    exec (.offTimeEnd a c) s =
      s.command fun s => s.offEnd a c := rfl

theorem exec_spareTakeover (t : Nat) (s : State) :
    exec (.spareTakeover t) s =
      s.command fun s => s.takeOver t := rfl

theorem exec_pwmPeriodBoundary (t l : Nat) (s : State) :
    exec (.pwmPeriodBoundary t l) s =
      s.command fun s => s.pwmBoundary t l := rfl

theorem exec_pwmDriveOn (t l : Nat) (s : State) :
    exec (.pwmDriveOn t l) s =
      s.command fun s => s.driveOn t l := rfl

theorem exec_pwmDriveOff (t l : Nat) (s : State) :
    exec (.pwmDriveOff t l) s =
      s.command fun s => s.driveOff t l := rfl

theorem exec_converterTrigger (t l : Nat) (which : Bool) (s : State) :
    exec (.converterTrigger t l which) s =
      s.command fun s => s.trigger t l which := rfl

theorem exec_adcConversionDone (t : Nat) (code : BitVec 12) (s : State) :
    exec (.adcConversionDone t code) s =
      s.command fun s => s.adcDone t code := rfl

theorem exec_senseQualifiedEdge (n : Nat) (level : Bool) (earlier : List Bool) (s : State) :
    exec (.senseQualifiedEdge n level earlier) s =
      s.command fun s => s.senseEdge n (earlier ++ [level]) := rfl

theorem exec_inputKnown (n : Nat) (samples : List Bool) (s : State) :
    exec (.inputKnown n samples) s =
      s.command fun s => s.senseKnown n samples := rfl

theorem exec_stpEdge (n : Nat) (dirHigh : Bool) (s : State) :
    exec (.stpEdge n dirHigh) s =
      s.command fun s => s.stepEdge n dirHigh := rfl

theorem exec_encoderEdge (n : Nat) (up both : Bool) (s : State) :
    exec (.encoderEdge n up both) s =
      s.command fun s => s.encEdge n up both := rfl

theorem exec_encoderIndexEdge (n : Nat) (s : State) :
    exec (.encoderIndexEdge n) s =
      s.command fun s => s.encIndex n := rfl

theorem exec_encoderRateTimeout (n : Nat) (s : State) :
    exec (.encoderRateTimeout n) s =
      s.command fun s => s.encTimeout n := rfl

theorem exec_lineEdge (e : LineEdge) (s : State) :
    exec (.lineEdge e) s =
      s.command fun s => s.lineEdge e.n e.level := rfl

theorem exec_lineHoldover (n : Nat) (s : State) :
    exec (.lineHoldover n) s =
      s.command fun s => s.lineHold n := rfl

theorem exec_lineLost (n : Nat) (s : State) :
    exec (.lineLost n) s =
      s.command fun s => s.lineGone n := rfl

theorem exec_thermalSample (t : Nat) (a b : BitVec 16) (s : State) :
    exec (.thermalSample t a b) s =
      s.command fun s => s.thermalStep t a b := rfl

theorem exec_dieTempUpdate (s : State) :
    exec (.dieTempUpdate) s =
      s.command State.dieTemp := rfl

theorem exec_syncSend (s : State) :
    exec (.syncSend) s =
      s.command State.syncSend := rfl

theorem exec_syncReceive (f : List Byte) (s : State) :
    exec (.syncReceive f) s =
      s.command fun s => s.syncReceive f := rfl

theorem exec_syncMissing (s : State) :
    exec (.syncMissing) s =
      s.command State.syncMissing := rfl

theorem exec_faultFrameReceive (port : Nat) (f : List Byte) (s : State) :
    exec (.faultFrameReceive port f) s =
      s.command fun s => s.faultFrame port f := rfl

theorem exec_upstatusReceive (f : List Byte) (s : State) :
    exec (.upstatusReceive f) s =
      s.command fun s => s.upReceive f := rfl

theorem exec_linkAlignmentGained (port : Nat) (s : State) :
    exec (.linkAlignmentGained port) s =
      s.command fun s => s.alignGained port := rfl

theorem exec_trainReqSend (s : State) :
    exec (.trainReqSend) s =
      s.command State.reqSend := rfl

theorem exec_trainReqReceive (port : Nat) (f : List Byte) (wait : Nat) (s : State) :
    exec (.trainReqReceive port f wait) s =
      s.command fun s => s.reqReceive port f wait := rfl

theorem exec_trainEchoReceive (f : List Byte) (rtt : Nat) (s : State) :
    exec (.trainEchoReceive f rtt) s =
      s.command fun s => s.echoReceive f rtt := rfl

theorem exec_oscSwitch (s : State) :
    exec (.oscSwitch) s =
      s.command State.primaryFails := rfl

theorem exec_returnToPrimary (s : State) :
    exec (.returnToPrimary) s =
      s.command State.oscReturn := rfl

theorem exec_oscBkpFail (s : State) :
    exec (.oscBkpFail) s =
      s.command State.bkpFail := rfl

theorem exec_clkLost (s : State) :
    exec (.clkLost) s =
      s.command State.clockLost := rfl

theorem exec_hostLinkDown (cause : Nat) (s : State) :
    exec (.hostLinkDown cause) s =
      s.command fun s => if 1 ≤ cause ∧ cause ≤ 3 then s.linkDown cause else s := rfl

theorem exec_hotReset (s : State) :
    exec (.hotReset) s =
      s.command fun s => let t := s.linkDown 2; { t with host := t.host.resetEndpoint } := rfl

theorem exec_busWriteVote (c0 c1 c2 : Option BusCopy) (agree : Bool) (s : State) :
    exec (.busWriteVote c0 c1 c2 agree) s =
      s.command fun s => s.busVote c0 c1 c2 agree := rfl

theorem exec_delayParity (slot : Nat) (check : DelayCheck) (s : State) :
    exec (.delayParity slot check) s =
      s.command fun s => s.parity slot check.writeSide check.real := rfl

theorem exec_resyncComplete (good : Bool) (s : State) :
    exec (.resyncComplete good) s =
      s.command fun s => s.resyncDone good := rfl

theorem exec_repetitionPassed (s : State) :
    exec (.repetitionPassed) s =
      s.command State.repeated := rfl

theorem exec_pairDisagree (s : State) :
    exec (.pairDisagree) s =
      s.command State.pairFails := rfl

theorem exec_knownAnswerTestEnd (passed : List Nat) (s : State) :
    exec (.knownAnswerTestEnd passed) s =
      s.command fun s => s.katEnd passed := rfl

theorem exec_dbgFreeze (s : State) :
    exec (.dbgFreeze) s =
      s.command State.freezeOn := rfl

theorem exec_freezeRelease (s : State) :
    exec (.freezeRelease) s =
      s.command State.freezeOff := rfl

theorem exec_coreHold (s : State) :
    exec (.coreHold) s =
      s.command State.holdCores := rfl

theorem exec_coreHoldRelease (s : State) :
    exec (.coreHoldRelease) s =
      s.command State.releaseCores := rfl

theorem exec_refoutPulseEnd (n : Nat) (s : State) :
    exec (.refoutPulseEnd n) s =
      s.command fun s => s.outEnd n := rfl

theorem exec_vgateGood (t : Nat) (s : State) :
    exec (.vgateGood t) s =
      s.command fun s => s.vgateBack t := rfl

theorem exec_vmGood (t : Nat) (s : State) :
    exec (.vmGood t) s =
      s.command fun s => s.vmBack t := rfl

theorem exec_bootstrapGood (t l : Nat) (s : State) :
    exec (.bootstrapGood t l) s =
      s.command fun s => s.bootGood t l := rfl

theorem exec_enHigh (s : State) :
    exec (.enHigh) s =
      s.command fun s => { s with glb := { s.glb with enIn := true } } := rfl

theorem exec_primaryOscGood (s : State) :
    exec (.primaryOscGood) s =
      s.command State.primaryGood := rfl

theorem exec_hostLinkUp (s : State) :
    exec (.hostLinkUp) s =
      s.command State.linkUpNow := rfl

theorem exec_straitAlignmentLost (port : Nat) (s : State) :
    exec (.straitAlignmentLost port) s =
      s.command fun s => s.alignLost port := rfl

theorem exec_stepPairDisable (n : Nat) (v : Word) (s : State) :
    exec (.stepPairDisable n v) s =
      s.command fun s => s.fullWrite (instOff 0x6100 4 16 n 0) (v &&& ~~~ (1 : Word)) := rfl

theorem exec_refoutMark (n : Nat) (s : State) :
    exec (.refoutMark n) s =
      s.command fun s => s.outMark n := rfl

theorem exec_shadowCheckTimeout (t : Nat) (s : State) :
    exec (.shadowCheckTimeout t) s =
      s.command fun s => s.checkTimeout t := rfl

theorem exec_dbgTapInstruction (i : TapInstr) (s : State) :
    exec (.dbgTapInstruction i) s =
      s.command fun s => s.tapLoad i := rfl

end Sys2Proof.Machine
end

