-- ==== Sys2Proof/Laws/Kept.lean ====
section
/-! SUPPORT. What every operation of the machine leaves as it is: one lemma for each operation, which says that it changes neither the variant,
the queue, the cam pool and its address, the microstep tables, the reset state, the debug instruction, EN as it stands, nor CFG_LOCK. The operations that do change
one of them have their lemmas in Laws/Stores.lean. -/

namespace Sys2Proof.Machine

/-- What only register writes, the NV image, EN, the debug port and resets change: the variant, the queue, the cam pool and
its address, the microstep tables, the reset state, the debug instruction, EN as it stands, and CFG_LOCK. -/
def State.kept (s : State) : Variant × List Instr × List Host.Cell × Nat × Bank Word × Bool × TapPort × Bool × Word × Bool :=
  (s.variant, s.pending, s.cam, s.camAddr, s.tbl, s.inReset, s.tap, s.glb.enIn, s.cfg.lock, s.cfg.lockWritten)

@[simp] theorem State.kept_eta (s : State) :
    (s.variant, s.pending, s.cam, s.camAddr, s.tbl, s.inReset, s.tap, s.glb.enIn, s.cfg.lock, s.cfg.lockWritten) = s.kept := rfl

@[simp] theorem State.kept_mk (variant_ : Variant) (dt_ : Nat) (lastPeriod_ : Option Nat) (lastTick_ : Option Nat) (inReset_ : Bool) (bootDone_ : Bool) (bootPassed_ : Bool) (tap_ : TapPort) (glb_ : Glb) (ref_ : Ref) (str_ : Strait) (host_ : HostB) (flt_ : Flt) (thm_ : Thm) (spr_ : Spr) (inp_ : Inp) (axes_ : Bank Axis) (courses_ : Bank Course) (camAddr_ : Nat) (cam_ : List Host.Cell) (camBad_ : List Nat) (tiles_ : Bank Tile) (tbl_ : Bank Word) (cfg_ : CfgB) (diag_ : Bank DiagTile) (shadows_ : Bank Word) (rdata_ : Word) (out_ : List Output) (fresh_ : Nat) (pending_ : List Instr) :
    (State.mk variant_ dt_ lastPeriod_ lastTick_ inReset_ bootDone_ bootPassed_ tap_ glb_ ref_ str_ host_ flt_ thm_ spr_ inp_ axes_ courses_ camAddr_ cam_ camBad_ tiles_ tbl_ cfg_ diag_ shadows_ rdata_ out_ fresh_ pending_).kept =
      (variant_, pending_, cam_, camAddr_, tbl_, inReset_, tap_, glb_.enIn, cfg_.lock, cfg_.lockWritten) := rfl

@[simp] theorem ite_kept (c : Prop) [Decidable c] (s t : State) : (if c then s else t).kept = if c then s.kept else t.kept := by
  split <;> rfl

/-- A fold keeps what each of its steps keeps. -/
theorem foldl_kept (f : State → α → State) (h : ∀ s a, (f s a).kept = s.kept) (l : List α) (s : State) :
    (l.foldl f s).kept = s.kept := by
  exact List.foldlRecOn l f (motive := fun t => t.kept = s.kept) rfl fun t ht a _ => (h t a).trans ht

/-- A fold over a state and something more. -/
theorem foldl_kept_pair (f : State × β → α → State × β) (h : ∀ r a, (f r a).1.kept = r.1.kept) (l : List α) (r : State × β) :
    (l.foldl f r).1.kept = r.1.kept := by
  exact List.foldlRecOn l f (motive := fun q => q.1.kept = r.1.kept) rfl fun q hq a _ => (h q a).trans hq

@[simp] theorem Glb.enter_enIn (g : Glb) (m : DevMode) (c : Nat) : (g.enter m c).enIn = g.enIn := rfl
@[simp] theorem CfgB.setChanged_lock (c : CfgB) (ws : List Word) : (c.setChanged ws).lock = c.lock := by
  unfold CfgB.setChanged
  simp
@[simp] theorem CfgB.setChanged_lockWritten (c : CfgB) (ws : List Word) : (c.setChanged ws).lockWritten = c.lockWritten := by
  unfold CfgB.setChanged
  simp
@[simp] theorem CfgB.withdraw_lock (c : CfgB) : (c.withdraw).lock = c.lock := by
  unfold CfgB.withdraw
  simp
@[simp] theorem CfgB.withdraw_lockWritten (c : CfgB) : (c.withdraw).lockWritten = c.lockWritten := by
  unfold CfgB.withdraw
  simp
@[simp] theorem CfgB.dirty_lock (c : CfgB) (ws : List Word) : (c.dirty ws).lock = c.lock := by
  unfold CfgB.dirty
  (repeat' split) <;> simp
@[simp] theorem CfgB.dirty_lockWritten (c : CfgB) (ws : List Word) : (c.dirty ws).lockWritten = c.lockWritten := by
  unfold CfgB.dirty
  (repeat' split) <;> simp
@[simp] theorem CfgB.setSlot_lock (c : CfgB) (b : Bool) (x : NvSlot) : (c.setSlot b x).lock = c.lock := by
  unfold CfgB.setSlot
  (repeat' split) <;> simp
@[simp] theorem CfgB.setSlot_lockWritten (c : CfgB) (b : Bool) (x : NvSlot) : (c.setSlot b x).lockWritten = c.lockWritten := by
  unfold CfgB.setSlot
  (repeat' split) <;> simp
@[simp] theorem CfgB.abandon_lock (c : CfgB) : (c.abandon).lock = c.lock := by
  unfold CfgB.abandon
  (repeat' split) <;> simp [CfgB.setSlot_lock]
@[simp] theorem CfgB.abandon_lockWritten (c : CfgB) : (c.abandon).lockWritten = c.lockWritten := by
  unfold CfgB.abandon
  (repeat' split) <;> simp [CfgB.setSlot_lockWritten]
@[simp] theorem CfgB.commitWrite_lock (c : CfgB) (raw : Word) : (c.commitWrite raw).lock = c.lock := by
  unfold CfgB.commitWrite
  (repeat' split) <;> simp
@[simp] theorem CfgB.commitWrite_lockWritten (c : CfgB) (raw : Word) : (c.commitWrite raw).lockWritten = c.lockWritten := by
  unfold CfgB.commitWrite
  (repeat' split) <;> simp

@[simp] theorem State.setAxis_kept (s : State) (a : Nat) (x : Axis) : (s.setAxis a x).kept = s.kept := by
  unfold State.setAxis
  simp

@[simp] theorem State.setCourse_kept (s : State) (c : Nat) (x : Course) : (s.setCourse c x).kept = s.kept := by
  unfold State.setCourse
  simp

@[simp] theorem State.setTile_kept (s : State) (t : Nat) (x : Tile) : (s.setTile t x).kept = s.kept := by
  unfold State.setTile
  simp

@[simp] theorem State.setLeg_kept (s : State) (t l : Nat) (x : Leg) : (s.setLeg t l x).kept = s.kept := by
  unfold State.setLeg
  simp

@[simp] theorem State.setRing_kept (s : State) (r : Nat) (x : Ring) : (s.setRing r x).kept = s.kept := by
  unfold State.setRing
  simp

@[simp] theorem State.setTwin_kept (s : State) (w : Nat) (x : TWin) : (s.setTwin w x).kept = s.kept := by
  unfold State.setTwin
  simp

@[simp] theorem State.setThmTile_kept (s : State) (t : Nat) (x : ThmTile) : (s.setThmTile t x).kept = s.kept := by
  unfold State.setThmTile
  simp

@[simp] theorem State.setCore_kept (s : State) (n : Nat) (x : CoreU) : (s.setCore n x).kept = s.kept := by
  unfold State.setCore
  simp

@[simp] theorem State.setMotion_kept (s : State) (k : UnitKind) (n : Nat) (m : Motion) : (s.setMotion k n m).kept = s.kept := by
  unfold State.setMotion
  (repeat' split) <;> simp

@[simp] theorem State.updAxis_kept (s : State) (a : Nat) (f : Axis → Axis) : (s.updAxis a f).kept = s.kept := by
  unfold State.updAxis
  simp

@[simp] theorem State.updCourse_kept (s : State) (c : Nat) (f : Course → Course) : (s.updCourse c f).kept = s.kept := by
  unfold State.updCourse
  simp

@[simp] theorem State.updTile_kept (s : State) (t : Nat) (f : Tile → Tile) : (s.updTile t f).kept = s.kept := by
  unfold State.updTile
  simp

@[simp] theorem State.updLeg_kept (s : State) (t l : Nat) (f : Leg → Leg) : (s.updLeg t l f).kept = s.kept := by
  unfold State.updLeg
  simp

@[simp] theorem State.updRing_kept (s : State) (r : Nat) (f : Ring → Ring) : (s.updRing r f).kept = s.kept := by
  unfold State.updRing
  simp

@[simp] theorem State.updMotion_kept (s : State) (k : UnitKind) (n : Nat) (f : Motion → Motion) : (s.updMotion k n f).kept = s.kept := by
  unfold State.updMotion
  simp

theorem State.each_kept (s : State) (l : List Nat) (f : Nat → State → State) (h : ∀ n t, State.kept (f n t) = t.kept) : (s.each l f).kept = s.kept := by
  unfold State.each
  exact foldl_kept _ (fun s a => h a s) l s

@[simp] theorem State.emit_kept (s : State) (o : Output) : (s.emit o).kept = s.kept := by
  unfold State.emit
  simp

@[simp] theorem State.spend_kept (s : State) : (s.spend).kept = s.kept := by
  unfold State.spend
  simp

@[simp] theorem State.pass_kept (s : State) (n : Nat) : (s.pass n).kept = s.kept := by
  unfold State.pass
  simp

@[simp] theorem State.complete_kept (s : State) (g : Tag) (r : List Word) : (s.complete g r).kept = s.kept := by
  unfold State.complete
  simp

@[simp] theorem State.sendFault_kept (s : State) (c : FClass) : (s.sendFault c).kept = s.kept := by
  unfold State.sendFault
  (repeat' split) <;> (try simp (disch := (intros; (repeat' split) <;> (try simp))) [foldl_kept])

@[simp] theorem State.announce_kept (s : State) (c : FClass) : (s.announce c).kept = s.kept := by
  unfold State.announce
  simp

@[simp] theorem State.rehold_kept (s : State) (u v : Nat) : (s.rehold u v).kept = s.kept := by
  unfold State.rehold
  (try dsimp only)
  (first | with_reducible rfl | simp)

@[simp] theorem State.fifth_kept (s : State) (e x : Entry) (l older : List Entry) : (s.fifth e x l older).1.kept = s.kept := by
  unfold State.fifth
  (try dsimp only)
  (repeat' split) <;> (first | with_reducible rfl | simp)

@[simp] theorem State.record_kept (s : State) (src : Nat) (c : FClass) (detail : Word) (inj : Bool) : (s.record src c detail inj).1.kept = s.kept := by
  unfold State.record
  (try dsimp only)
  (repeat' split) <;> (first | with_reducible rfl | simp)

@[simp] theorem State.postStop_kept (s : State) (k : UnitKind) (n : Nat) (c : StopCause) : (s.postStop k n c).kept = s.kept := by
  unfold State.postStop
  simp

@[simp] theorem State.endSol_kept (s : State) (t l : Nat) : (s.endSol t l).kept = s.kept := by
  unfold State.endSol
  (repeat' split) <;> simp

@[simp] theorem State.payOwed_kept (s : State) : (s.payOwed).kept = s.kept := by
  unfold State.payOwed
  (try dsimp only)
  (try simp (disch := (intros; (repeat' split) <;> (try simp))) [foldl_kept])

@[simp] theorem State.legHiz_kept (s : State) (t l : Nat) : (s.legHiz t l).kept = s.kept := by
  unfold State.legHiz
  simp

@[simp] theorem State.axisHiz_kept (s : State) (a : Nat) (c : StopCause) : (s.axisHiz a c).kept = s.kept := by
  unfold State.axisHiz
  (try dsimp only)
  (repeat' split) <;> (try simp (disch := (intros; (repeat' split) <;> (try simp))) [foldl_kept])

@[simp] theorem State.allHiz_kept (s : State) (c : StopCause) : (s.allHiz c).kept = s.kept := by
  unfold State.allHiz
  (try dsimp only)
  (try simp (disch := (intros; (repeat' split) <;> (try simp))) [foldl_kept])

@[simp] theorem State.answerMode_kept (s : State) (g : Tag) (status : Nat) : (s.answerMode g status).kept = s.kept := by
  unfold State.answerMode
  simp

@[simp] theorem State.overtake_kept (s : State) : (s.overtake).kept = s.kept := by
  unfold State.overtake
  (repeat' split) <;> simp

@[simp] theorem State.answerOvertaken_kept (s : State) : (s.answerOvertaken).kept = s.kept := by
  unfold State.answerOvertaken
  (try dsimp only)
  (try simp (disch := (intros; (repeat' split) <;> (try simp))) [foldl_kept])

@[simp] theorem State.eventMode_kept (s : State) (m : DevMode) (cause : Nat) : (s.eventMode m cause).kept = s.kept := by
  unfold State.eventMode
  simp

@[simp] theorem State.holdAxis_kept (s : State) (uid a : Nat) : (s.holdAxis uid a).kept = s.kept := by
  unfold State.holdAxis
  simp

@[simp] theorem State.isoAxis_kept (s : State) (a uid : Nat) : (s.isoAxis a uid).kept = s.kept := by
  unfold State.isoAxis
  simp

@[simp] theorem State.holdTile_kept (s : State) (uid t : Nat) : (s.holdTile uid t).kept = s.kept := by
  unfold State.holdTile
  (try simp (disch := (intros; (repeat' split) <;> (try simp))) [foldl_kept])

@[simp] theorem State.isoTile_kept (s : State) (t : Nat) : (s.isoTile t).kept = s.kept := by
  unfold State.isoTile
  (try dsimp only)
  (try simp (disch := (intros; (repeat' split) <;> (try simp))) [foldl_kept])

@[simp] theorem State.legsFollow_kept (s : State) (t l : Nat) : (s.legsFollow t l).kept = s.kept := by
  unfold State.legsFollow
  (try dsimp only)
  (repeat' split) <;> (try simp (disch := (intros; (repeat' split) <;> (try simp))) [foldl_kept])

@[simp] theorem State.isolateLeg_kept (s : State) (t l uid : Nat) : (s.isolateLeg t l uid).kept = s.kept := by
  unfold State.isolateLeg
  simp

@[simp] theorem State.isolate_kept (s : State) (u : FUnit) (uid : Nat) : (s.isolate u uid).kept = s.kept := by
  unfold State.isolate
  (repeat' split) <;> (try simp (disch := (intros; (repeat' split) <;> (try simp))) [foldl_kept])

@[simp] theorem State.haltAll_kept (s : State) (starved : Bool) (except : Option (UnitKind × Nat)) : (s.haltAll starved except).kept = s.kept := by
  unfold State.haltAll
  (try dsimp only)
  (try simp (disch := (intros; (repeat' split) <;> (try simp))) [foldl_kept])

@[simp] theorem State.react_kept (s : State) (c : FClass) (u : FUnit) (uid : Nat) (starved : Bool) (except : Option (UnitKind × Nat)) : (s.react c u uid starved except).kept = s.kept := by
  unfold State.react
  (repeat' split) <;> simp

@[simp] theorem State.raiseAs_kept (s : State) (src : Nat) (c : FClass) (detail : Word) (inj : Bool) (u : FUnit) : (s.raiseAs src c detail inj u).kept = s.kept := by
  unfold State.raiseAs
  simp

@[simp] theorem State.raise_kept (s : State) (src : Nat) (detail : Word) (u : FUnit) : (s.raise src detail u).kept = s.kept := by
  unfold State.raise
  simp

@[simp] theorem State.raiseDev_kept (s : State) (src : Nat) (detail : Word) : (s.raiseDev src detail).kept = s.kept := by
  unfold State.raiseDev
  simp

@[simp] theorem State.wear_kept (s : State) (idx : Nat) : (s.wear idx).kept = s.kept := by
  unfold State.wear
  simp

@[simp] theorem State.raiseStarved_kept (s : State) (k : UnitKind) (n : Nat) : (s.raiseStarved k n).kept = s.kept := by
  unfold State.raiseStarved
  simp

@[simp] theorem State.entryEnded_kept (s : State) (k : UnitKind) (n status : Nat) : (s.entryEnded k n status).kept = s.kept := by
  unfold State.entryEnded
  (repeat' split) <;> simp

@[simp] theorem State.silentEnd_kept (s : State) (k : UnitKind) (n : Nat) (a : Move) (status : Nat) : (s.silentEnd k n a status).kept = s.kept := by
  unfold State.silentEnd
  simp

@[simp] theorem State.completeMove_kept (s : State) (k : UnitKind) (n : Nat) (a : Move) (status : Nat) : (s.completeMove k n a status).kept = s.kept := by
  unfold State.completeMove
  simp

@[simp] theorem State.completeMoveBy_kept (s : State) (k : UnitKind) (n : Nat) (a : Move) (status : Nat) (mem : Option (Nat × Nat)) : (s.completeMoveBy k n a status mem).kept = s.kept := by
  unfold State.completeMoveBy
  simp

@[simp] theorem State.entryCaught_kept (s : State) (k : UnitKind) (n : Nat) (c : StopCause) : (s.entryCaught k n c).kept = s.kept := by
  unfold State.entryCaught
  simp

@[simp] theorem State.cancelLook_kept (s : State) (k : UnitKind) (n : Nat) : (s.cancelLook k n).kept = s.kept := by
  unfold State.cancelLook
  (try dsimp only)
  (try simp (disch := (intros; (repeat' split) <;> (try simp))) [foldl_kept])

@[simp] theorem State.cancelDwell_kept (s : State) (k : UnitKind) (n : Nat) : (s.cancelDwell k n).kept = s.kept := by
  unfold State.cancelDwell
  (repeat' split) <;> simp

@[simp] theorem State.completeStops_kept (s : State) (k : UnitKind) (n : Nat) : (s.completeStops k n).kept = s.kept := by
  unfold State.completeStops
  (try dsimp only)
  (try simp (disch := (intros; (repeat' split) <;> (try simp))) [foldl_kept])

@[simp] theorem State.freeWindow_kept (s : State) (k : UnitKind) (n : Nat) : (s.freeWindow k n).kept = s.kept := by
  unfold State.freeWindow
  simp

@[simp] theorem State.cancelLater_kept (s : State) (k : UnitKind) (n : Nat) : (s.cancelLater k n).kept = s.kept := by
  unfold State.cancelLater
  (try dsimp only)
  (try simp (disch := (intros; (repeat' split) <;> (try simp))) [foldl_kept])

@[simp] theorem State.endFollowed_kept (s : State) (k : UnitKind) (n status : Nat) (mem : Option (Nat × Nat)) : (s.endFollowed k n status mem).kept = s.kept := by
  unfold State.endFollowed
  (try dsimp only)
  (repeat' split) <;> (first | with_reducible rfl | simp)

@[simp] theorem State.finishStop_kept (s : State) (k : UnitKind) (n : Nat) : (s.finishStop k n).kept = s.kept := by
  unfold State.finishStop
  (try dsimp only)
  (repeat' split) <;> (first | with_reducible rfl | simp)

@[simp] theorem State.beginStop_kept (s : State) (k : UnitKind) (n : Nat) : (s.beginStop k n).kept = s.kept := by
  unfold State.beginStop
  (repeat' split) <;> simp

@[simp] theorem State.setMember_kept (s : State) (c slot : Nat) (m : Member) : (s.setMember c slot m).kept = s.kept := by
  unfold State.setMember
  simp

@[simp] theorem State.setParent_kept (s : State) (k : UnitKind) (n : Nat) (p : Option (Nat × Nat)) : (s.setParent k n p).kept = s.kept := by
  unfold State.setParent
  (repeat' split) <;> simp

@[simp] theorem State.detach_kept (s : State) (c slot : Nat) : (s.detach c slot).kept = s.kept := by
  unfold State.detach
  simp

@[simp] theorem State.markMember_kept (s : State) (c slot a : Nat) : (s.markMember c slot a).kept = s.kept := by
  unfold State.markMember
  simp

@[simp] theorem State.memberReport_kept (s : State) (a : Nat) : (s.memberReport a).kept = s.kept := by
  unfold State.memberReport
  (try simp (disch := (intros; (repeat' split) <;> (try simp))) [foldl_kept])

@[simp] theorem State.memberEvent_kept (s : State) (a : Nat) (cause : Option StopCause) : (s.memberEvent a cause).kept = s.kept := by
  unfold State.memberEvent
  (try dsimp only)
  (repeat' split) <;> (try simp (disch := (intros; (repeat' split) <;> (try simp))) [foldl_kept])

@[simp] theorem State.settleAxis_kept (s : State) (c : FClass) (a : Nat) : (s.settleAxis c a).kept = s.kept := by
  unfold State.settleAxis
  (repeat' split) <;> simp

@[simp] theorem State.settle_kept (s : State) (c : optParam FClass FClass.log) : (s.settle c).kept = s.kept := by
  unfold State.settle
  (try simp (disch := (intros; (repeat' split) <;> (try simp))) [foldl_kept])

@[simp] theorem State.fault_kept (s : State) (src : Nat) (detail : Word) (u : FUnit) : (s.fault src detail u).kept = s.kept := by
  unfold State.fault
  simp

@[simp] theorem State.trackAxis_kept (s : State) (a : Nat) (y : Int) : (s.trackAxis a y).kept = s.kept := by
  unfold State.trackAxis
  simp

@[simp] theorem State.trackUnit_kept (s : State) (k : UnitKind) (n : Nat) (y : Int) : (s.trackUnit k n y).kept = s.kept := by
  unfold State.trackUnit
  (repeat' split) <;> simp

@[simp] theorem State.playOver_kept (s : State) (k : UnitKind) (n status : Nat) : (s.playOver k n status).kept = s.kept := by
  unfold State.playOver
  simp

@[simp] theorem State.playUnderrun_kept (s : State) (k : UnitKind) (n : Nat) (p : Play) : (s.playUnderrun k n p).kept = s.kept := by
  unfold State.playUnderrun
  simp

@[simp] theorem State.tripLeg_kept (s : State) (t l cause : Nat) : (s.tripLeg t l cause).kept = s.kept := by
  unfold State.tripLeg
  simp

@[simp] theorem State.faultHeld_kept (s : State) (src : Nat) (detail : Word) (u : FUnit) (axes : List Nat) : (s.faultHeld src detail u axes).kept = s.kept := by
  unfold State.faultHeld
  (try dsimp only)
  (try simp (disch := (intros; (repeat' split) <;> (try simp))) [foldl_kept])

@[simp] theorem State.faultTile_kept (s : State) (src : Nat) (detail : Word) (t : Nat) : (s.faultTile src detail t).kept = s.kept := by
  unfold State.faultTile
  (try dsimp only)
  (first | with_reducible rfl | simp)

@[simp] theorem State.tripAs_kept (s : State) (t l cause src : Nat) (high : Bool) : (s.tripAs t l cause src high).kept = s.kept := by
  unfold State.tripAs
  simp

@[simp] theorem State.shortAs_kept (s : State) (t l cause src : Nat) (high : Bool) (ws : List Switch) : (s.shortAs t l cause src high ws).kept = s.kept := by
  unfold State.shortAs
  simp

@[simp] theorem State.bstFail_kept (s : State) (t l : Nat) : (s.bstFail t l).kept = s.kept := by
  unfold State.bstFail
  simp

@[simp] theorem State.spareIn_kept (s : State) : (s.spareIn).kept = s.kept := by
  unfold State.spareIn
  simp

@[simp] theorem State.capCheck_kept (s : State) (t l : Nat) (w : Switch) : (s.capCheck t l w).kept = s.kept := by
  unfold State.capCheck
  simp

@[simp] theorem State.retireSeg_kept (s : State) (t l : Nat) (w : Switch) (i : Nat) : (s.retireSeg t l w i).kept = s.kept := by
  unfold State.retireSeg
  simp

@[simp] theorem State.approveSeg_kept (s : State) (t l : Nat) (w : Switch) : (s.approveSeg t l w).kept = s.kept := by
  unfold State.approveSeg
  (try dsimp only)
  (repeat' split) <;> (first | with_reducible rfl | simp)

@[simp] theorem State.edgeMeasured_kept (s : State) (t l : Nat) (w : Switch) (on : Bool) (ticks seg : Nat) (dev : Bool) : (s.edgeMeasured t l w on ticks seg dev).kept = s.kept := by
  unfold State.edgeMeasured
  simp

@[simp] theorem State.reenterAxis_kept (s : State) (a : Nat) : (s.reenterAxis a).kept = s.kept := by
  unfold State.reenterAxis
  simp

@[simp] theorem State.energize_kept (s : State) (a : Nat) : (s.energize a).kept = s.kept := by
  unfold State.energize
  (try dsimp only)
  (try simp (disch := (intros; (repeat' split) <;> (try simp))) [foldl_kept])

@[simp] theorem State.deliver_kept (s : State) (a : Nat) : (s.deliver a).kept = s.kept := by
  unfold State.deliver
  simp

@[simp] theorem State.stallBoundary_kept (s : State) (a thr : Nat) : (s.stallBoundary a thr).1.kept = s.kept := by
  unfold State.stallBoundary
  extract_lets x q armed st
  split
  · exact State.setAxis_kept ..
  · split
    · exact (State.spend_kept _).trans (State.setAxis_kept ..)
    · exact State.setAxis_kept ..

@[simp] theorem State.watchCapture_kept (s : State) (a : Nat) (c : Coil) (tn : Nat) : (s.watchCapture a c tn).kept = s.kept := by
  unfold State.watchCapture
  (try dsimp only)
  (repeat' split) <;> (first | with_reducible rfl | simp)

@[simp] theorem State.updCoil_kept (s : State) (a : Nat) (c : Coil) (f : CoilSt → CoilSt) : (s.updCoil a c f).kept = s.kept := by
  unfold State.updCoil
  simp

@[simp] theorem State.towardSlow_kept (s : State) (a : Nat) (c : Coil) : (s.towardSlow a c).kept = s.kept := by
  unfold State.towardSlow
  simp

@[simp] theorem State.towardFast_kept (s : State) (a : Nat) (c : Coil) : (s.towardFast a c).kept = s.kept := by
  unfold State.towardFast
  simp

@[simp] theorem State.towardOn_kept (s : State) (a : Nat) (c : Coil) : (s.towardOn a c).kept = s.kept := by
  unfold State.towardOn
  simp

@[simp] theorem State.coilStep_kept (s : State) (a : Nat) (c : Coil) : (s.coilStep a c).kept = s.kept := by
  unfold State.coilStep
  (try dsimp only)
  (repeat' split) <;> (first | with_reducible rfl | simp)

@[simp] theorem State.coilSettle_kept (s : State) (a : Nat) (c : Coil) : (s.coilSettle a c).kept = s.kept := by
  unfold State.coilSettle
  simp

@[simp] theorem State.legSettle_kept (s : State) (t l : Nat) : (s.legSettle t l).kept = s.kept := by
  unfold State.legSettle
  simp

@[simp] theorem State.turnOn_kept (s : State) (a : Nat) (c : Coil) : (s.turnOn a c).kept = s.kept := by
  unfold State.turnOn
  simp

@[simp] theorem State.startCoils_kept (s : State) (a : Nat) : (s.startCoils a).kept = s.kept := by
  unfold State.startCoils
  simp

@[simp] theorem State.capture_kept (s : State) (a : Nat) (c : Coil) (ticks : Nat) (valid : Bool) : (s.capture a c ticks valid).kept = s.kept := by
  unfold State.capture
  simp

@[simp] theorem State.endOn_kept (s : State) (a : Nat) (c : Coil) (comm blank sat : Bool) (ticks : Nat) : (s.endOn a c comm blank sat ticks).kept = s.kept := by
  unfold State.endOn
  simp

@[simp] theorem State.forceFast_kept (s : State) (a : Nat) (c : Coil) : (s.forceFast a c).kept = s.kept := by
  unfold State.forceFast
  simp

@[simp] theorem State.commutate_kept (s : State) (a : Nat) (c : Coil) : (s.commutate a c).kept = s.kept := by
  unfold State.commutate
  (try dsimp only)
  (repeat' split) <;> (first | with_reducible rfl | simp)

@[simp] theorem State.checkMove_kept (s : State) (t : Nat) : (s.checkMove t).kept = s.kept := by
  unfold State.checkMove
  (repeat' split) <;> simp

@[simp] theorem State.adcDrop_kept (s : State) (t : Nat) (r : Option AdcReq) : (s.adcDrop t r).kept = s.kept := by
  unfold State.adcDrop
  (repeat' split) <;> (first | with_reducible rfl | simp)

@[simp] theorem State.adcRequest_kept (s : State) (t : Nat) (r : AdcReq) : (s.adcRequest t r).kept = s.kept := by
  unfold State.adcRequest
  (try dsimp only)
  (repeat' split) <;> (first | with_reducible rfl | simp)

@[simp] theorem State.steer_kept (s : State) (t k : Nat) : (s.steer t k).kept = s.kept := by
  unfold State.steer
  simp

@[simp] theorem State.cmpFailed_kept (s : State) (t k : Nat) : (s.cmpFailed t k).kept = s.kept := by
  unfold State.cmpFailed
  simp

@[simp] theorem State.spareFailed_kept (s : State) (t k : Nat) : (s.spareFailed t k).kept = s.kept := by
  unfold State.spareFailed
  (try dsimp only)
  (repeat' split) <;> (first | with_reducible rfl | simp)

@[simp] theorem State.confirmDecide_kept (s : State) (t : Nat) : (s.confirmDecide t).kept = s.kept := by
  unfold State.confirmDecide
  simp

@[simp] theorem State.askJudge_kept (s : State) (t k : Nat) (uv : Int) (first coilTrip spareTrip : Bool) : (s.askJudge t k uv first coilTrip spareTrip).kept = s.kept := by
  unfold State.askJudge
  simp

@[simp] theorem State.compared_kept (s : State) (a : Nat) (c : Coil) (mismatch first coilTrip spareTrip : Bool) : (s.compared a c mismatch first coilTrip spareTrip).kept = s.kept := by
  unfold State.compared
  simp

@[simp] theorem State.comparedTrip_kept (s : State) (a : Nat) (c : Coil) (sp : SpareTrip) : (s.comparedTrip a c sp).kept = s.kept := by
  unfold State.comparedTrip
  (repeat' split) <;> simp

@[simp] theorem State.noTrip_kept (s : State) (a : Nat) (c : Coil) : (s.noTrip a c).kept = s.kept := by
  unfold State.noTrip
  simp

@[simp] theorem State.comparatorTrip_kept (s : State) (a : Nat) (c : Coil) (ticks : Nat) (sp : SpareTrip) : (s.comparatorTrip a c ticks sp).kept = s.kept := by
  unfold State.comparatorTrip
  simp

@[simp] theorem State.blankEnd_kept (s : State) (a : Nat) (c : Coil) (above : Bool) (sp : SpareTrip) : (s.blankEnd a c above sp).kept = s.kept := by
  unfold State.blankEnd
  simp

@[simp] theorem State.saturate_kept (s : State) (a : Nat) (c : Coil) (spareTripped : Bool) : (s.saturate a c spareTripped).kept = s.kept := by
  unfold State.saturate
  simp

@[simp] theorem State.fastEnd_kept (s : State) (a : Nat) (c : Coil) : (s.fastEnd a c).kept = s.kept := by
  unfold State.fastEnd
  simp

@[simp] theorem State.offEnd_kept (s : State) (a : Nat) (c : Coil) : (s.offEnd a c).kept = s.kept := by
  unfold State.offEnd
  simp

@[simp] theorem State.takeOver_kept (s : State) (t : Nat) : (s.takeOver t).kept = s.kept := by
  unfold State.takeOver
  (repeat' split) <;> simp

@[simp] theorem State.checkTimeout_kept (s : State) (t : Nat) : (s.checkTimeout t).kept = s.kept := by
  unfold State.checkTimeout
  simp

@[simp] theorem State.pausePlan_kept (s : State) : (s.pausePlan).kept = s.kept := by
  unfold State.pausePlan
  (try dsimp only)
  (first | with_reducible rfl | simp)

@[simp] theorem State.freezeCoil_kept (s : State) (a : Nat) (c : Coil) : (s.freezeCoil a c).kept = s.kept := by
  unfold State.freezeCoil
  (try dsimp only)
  (repeat' split) <;> (first | with_reducible rfl | simp)

@[simp] theorem State.freezeOn_kept (s : State) : (s.freezeOn).kept = s.kept := by
  unfold State.freezeOn
  (try dsimp only)
  (repeat' split) <;> (try simp (disch := (intros; (repeat' split) <;> (try simp))) [foldl_kept])

@[simp] theorem State.holdCores_kept (s : State) : (s.holdCores).kept = s.kept := by
  unfold State.holdCores
  simp

@[simp] theorem State.releaseCores_kept (s : State) : (s.releaseCores).kept = s.kept := by
  unfold State.releaseCores
  simp

@[simp] theorem State.handshake_kept (s : State) (t l : Nat) (w : Switch) : (s.handshake t l w).kept = s.kept := by
  unfold State.handshake
  simp

@[simp] theorem State.deadEnd_kept (s : State) (t l : Nat) (w : Switch) : (s.deadEnd t l w).kept = s.kept := by
  unfold State.deadEnd
  simp

@[simp] theorem State.hsTimeout_kept (s : State) (t l : Nat) (w : Switch) : (s.hsTimeout t l w).kept = s.kept := by
  unfold State.hsTimeout
  simp

@[simp] theorem State.crossed_kept (s : State) (t l : Nat) : (s.crossed t l).kept = s.kept := by
  unfold State.crossed
  simp

@[simp] theorem State.desat_kept (s : State) (t l : Nat) (w : Switch) : (s.desat t l w).kept = s.kept := by
  unfold State.desat
  simp

@[simp] theorem State.grossDesat_kept (s : State) (t l : Nat) (w : Switch) : (s.grossDesat t l w).kept = s.kept := by
  unfold State.grossDesat
  simp

@[simp] theorem State.shunted_kept (s : State) (t l : Nat) : (s.shunted t l).kept = s.kept := by
  unfold State.shunted
  simp

@[simp] theorem State.edge_kept (s : State) (t l : Nat) (w : Switch) (on : Bool) (ticks seg : Nat) (dev : Bool) : (s.edge t l w on ticks seg dev).kept = s.kept := by
  unfold State.edge
  simp

@[simp] theorem State.conducts_kept (s : State) (t l : Nat) (w : Switch) (seg : Nat) : (s.conducts t l w seg).kept = s.kept := by
  unfold State.conducts
  simp

@[simp] theorem State.beginCoils_kept (s : State) (a : Nat) : (s.beginCoils a).kept = s.kept := by
  unfold State.beginCoils
  simp

@[simp] theorem State.power_kept (s : State) (a : Nat) : (s.power a).kept = s.kept := by
  unfold State.power
  simp

@[simp] theorem State.powerAtBoundary_kept (s : State) (a : Nat) : (s.powerAtBoundary a).kept = s.kept := by
  unfold State.powerAtBoundary
  simp

@[simp] theorem State.bootLow_kept (s : State) (t l : Nat) : (s.bootLow t l).kept = s.kept := by
  unfold State.bootLow
  simp

@[simp] theorem State.prechargeDone_kept (s : State) (t l : Nat) : (s.prechargeDone t l).kept = s.kept := by
  unfold State.prechargeDone
  simp

@[simp] theorem State.prechargeOut_kept (s : State) (t l : Nat) : (s.prechargeOut t l).kept = s.kept := by
  unfold State.prechargeOut
  simp

@[simp] theorem State.bootGood_kept (s : State) (t l : Nat) : (s.bootGood t l).kept = s.kept := by
  unfold State.bootGood
  simp

@[simp] theorem State.vgateOut_kept (s : State) (t src : Nat) : (s.vgateOut t src).kept = s.kept := by
  unfold State.vgateOut
  simp

@[simp] theorem State.vgateLow_kept (s : State) (t : Nat) : (s.vgateLow t).kept = s.kept := by
  unfold State.vgateLow
  simp

@[simp] theorem State.vgateHigh_kept (s : State) (t : Nat) : (s.vgateHigh t).kept = s.kept := by
  unfold State.vgateHigh
  simp

@[simp] theorem State.vgateBack_kept (s : State) (t : Nat) : (s.vgateBack t).kept = s.kept := by
  unfold State.vgateBack
  simp

@[simp] theorem State.vmLow_kept (s : State) (t : Nat) : (s.vmLow t).kept = s.kept := by
  unfold State.vmLow
  simp

@[simp] theorem State.vmHigh_kept (s : State) (t : Nat) : (s.vmHigh t).kept = s.kept := by
  unfold State.vmHigh
  simp

@[simp] theorem State.vmBack_kept (s : State) (t : Nat) : (s.vmBack t).kept = s.kept := by
  unfold State.vmBack
  simp

@[simp] theorem State.book_kept (s : State) (k : UnitKind) (n : Nat) : (s.book k n).kept = s.kept := by
  unfold State.book
  (try dsimp only)
  (try simp (disch := (intros; (repeat' split) <;> (try simp))) [foldl_kept])

@[simp] theorem State.completeZeros_kept (s : State) (k : UnitKind) (n : Nat) (prev : Move) (fuel : Nat) : (s.completeZeros k n prev fuel).kept = s.kept := by
  induction fuel generalizing s prev with
  | zero => unfold State.completeZeros; rfl
  | succ f ih =>
    unfold State.completeZeros
    split
    · rename_i e _
      obtain rfl := Nat.succ.inj e
      split
      · simp [ih]
      · rfl
    · rfl

@[simp] theorem State.completeAct_kept (s : State) (k : UnitKind) (n status : Nat) : (s.completeAct k n status).kept = s.kept := by
  unfold State.completeAct
  (repeat' split) <;> simp

@[simp] theorem State.takeNext_kept (s : State) (k : UnitKind) (n : Nat) : (s.takeNext k n).kept = s.kept := by
  unfold State.takeNext
  (repeat' split) <;> simp

@[simp] theorem State.completeThrough_kept (s : State) (k : UnitKind) (n o : Nat) (ends : Bool) (a_ : Nat) : (s.completeThrough k n o ends a_).kept = s.kept := by
  induction a_ generalizing s with
  | zero => unfold State.completeThrough; rfl
  | succ f ih => unfold State.completeThrough; dsimp only; (repeat' split) <;> simp [ih]

@[simp] theorem State.moveEnded_kept (s : State) (k : UnitKind) (n : Nat) (tag : Option Nat) : (s.moveEnded k n tag).kept = s.kept := by
  unfold State.moveEnded
  (try dsimp only)
  (repeat' split) <;> (first | with_reducible rfl | simp)

@[simp] theorem State.movePassed_kept (s : State) (k : UnitKind) (n o : Nat) : (s.movePassed k n o).kept = s.kept := by
  unfold State.movePassed
  simp

@[simp] theorem State.unitEnded_kept (s : State) (k : UnitKind) (n : Nat) (tag : Option Nat) : (s.unitEnded k n tag).kept = s.kept := by
  unfold State.unitEnded
  simp

@[simp] theorem State.periodEnd_kept (s : State) (k : UnitKind) (n : Nat) (e : Motion.PeriodEnd) : (s.periodEnd k n e).kept = s.kept := by
  unfold State.periodEnd
  (repeat' split) <;> simp

@[simp] theorem State.starve_kept (s : State) (k : UnitKind) (n : Nat) : (s.starve k n).kept = s.kept := by
  unfold State.starve
  simp

@[simp] theorem State.go_kept (s : State) (k : UnitKind) (n : Nat) : (s.go k n).kept = s.kept := by
  unfold State.go
  (try dsimp only)
  (repeat' split) <;> (first | with_reducible rfl | simp)

@[simp] theorem State.refuseHead_kept (s : State) (k : UnitKind) (n status : Nat) (cancel : Bool) : (s.refuseHead k n status cancel).kept = s.kept := by
  unfold State.refuseHead
  (repeat' split) <;> simp

@[simp] theorem State.updLong_kept (s : State) (g : Tag) (f : LongOp → LongOp) : (s.updLong g f).kept = s.kept := by
  unfold State.updLong
  simp

@[simp] theorem State.endLong_kept (s : State) (g : Tag) (status : Nat) : (s.endLong g status).kept = s.kept := by
  unfold State.endLong
  (repeat' split) <;> simp

@[simp] theorem State.dropLong_kept (s : State) (o a status : Nat) : (s.dropLong o a status).kept = s.kept := by
  unfold State.dropLong
  extract_lets u
  have hu : u.kept = s.kept := by
    unfold u
    simp
  split <;> simp [hu]

@[simp] theorem State.dropItem_kept (s : State) (k : UnitKind) (n status : Nat) : (s.dropItem k n status).kept = s.kept := by
  unfold State.dropItem
  (repeat' split) <;> simp

@[simp] theorem State.beginFollow_kept (s : State) (k : UnitKind) (n : Nat) (f : Follow) : (s.beginFollow k n f).kept = s.kept := by
  unfold State.beginFollow
  simp

@[simp] theorem State.beginPlay_kept (s : State) (k : UnitKind) (n : Nat) (p : Play) : (s.beginPlay k n p).kept = s.kept := by
  unfold State.beginPlay
  simp

@[simp] theorem State.beginUnit_kept (s : State) (k : UnitKind) (n since : Nat) : (s.beginUnit k n since).kept = s.kept := by
  unfold State.beginUnit
  (try dsimp only)
  (repeat' split) <;> (first | with_reducible rfl | simp)

@[simp] theorem State.endPhase_kept (s : State) (t l : Nat) : (s.endPhase t l).kept = s.kept := by
  unfold State.endPhase
  simp

@[simp] theorem State.pullInEnd_kept (s : State) (t l : Nat) : (s.pullInEnd t l).kept = s.kept := by
  unfold State.pullInEnd
  (repeat' split) <;> simp

@[simp] theorem State.beginPulse_kept (s : State) (t l : Nat) (d : SolDesc) (rest : List SolDesc) : (s.beginPulse t l d rest).kept = s.kept := by
  unfold State.beginPulse
  simp

@[simp] theorem State.refusePulse_kept (s : State) (t l status : Nat) : (s.refusePulse t l status).kept = s.kept := by
  unfold State.refusePulse
  (repeat' split) <;> simp

@[simp] theorem State.releasePulse_kept (s : State) (t l since : Nat) : (s.releasePulse t l since).kept = s.kept := by
  unfold State.releasePulse
  (repeat' split) <;> simp

@[simp] theorem State.refuseStart_kept (s : State) (w : Who) : (s.refuseStart w).kept = s.kept := by
  unfold State.refuseStart
  (repeat' split) <;> simp

@[simp] theorem State.beginStart_kept (s : State) (w : Who) (since : Nat) : (s.beginStart w since).kept = s.kept := by
  unfold State.beginStart
  (repeat' split) <;> simp

@[simp] theorem State.noteCount_kept (s : State) (w : Who) : (s.noteCount w).kept = s.kept := by
  unfold State.noteCount
  (repeat' split) <;> simp

@[simp] theorem State.admitStart_kept (s : State) (w : Who) (since : Nat) : (s.admitStart w since).kept = s.kept := by
  unfold State.admitStart
  (repeat' split) <;> simp

@[simp] theorem State.markHeld_kept (s : State) (w : Who) (h : Bool) : (s.markHeld w h).kept = s.kept := by
  unfold State.markHeld
  (repeat' split) <;> simp

@[simp] theorem State.release_kept (s : State) (may : Waiter → Bool) (ws : List Waiter) (blocked : List Nat) : (s.release may ws blocked).kept = s.kept := by
  induction ws generalizing s blocked with
  | nil => unfold State.release; rfl
  | cons w ws ih => unfold State.release; dsimp only; (repeat' split) <;> simp [ih]

@[simp] theorem State.makeReady_kept (s : State) (k : UnitKind) (n : Nat) : (s.makeReady k n).kept = s.kept := by
  unfold State.makeReady
  simp

@[simp] theorem State.readiness_kept (s : State) (k : UnitKind) (n fuel : Nat) : (s.readiness k n fuel).kept = s.kept := by
  induction fuel generalizing s with
  | zero => unfold State.readiness; first | rfl | ((repeat' split) <;> first | rfl | simp)
  | succ f ih => unfold State.readiness; (try dsimp only); (repeat' split) <;> first | rfl | simp [ih]

@[simp] theorem State.dwellTick_kept (s : State) (k : UnitKind) (n : Nat) : (s.dwellTick k n).kept = s.kept := by
  unfold State.dwellTick
  simp

@[simp] theorem State.dwellOver_kept (s : State) (k : UnitKind) (n : Nat) : (s.dwellOver k n).kept = s.kept := by
  unfold State.dwellOver
  simp

@[simp] theorem State.revEnd_kept (s : State) (k : UnitKind) (n : Nat) : (s.revEnd k n).kept = s.kept := by
  unfold State.revEnd
  (try dsimp only)
  (repeat' split) <;> (first | with_reducible rfl | simp)

@[simp] theorem State.beginDue_kept (s : State) (w : Who) : (s.beginDue w).kept = s.kept := by
  unfold State.beginDue
  (repeat' split) <;> simp

@[simp] theorem State.releaseUnit_kept (s : State) (k : UnitKind) (n : Nat) : (s.releaseUnit k n).kept = s.kept := by
  unfold State.releaseUnit
  (repeat' split) <;> simp

@[simp] theorem State.holdEnd_kept (s : State) (t l : Nat) : (s.holdEnd t l).kept = s.kept := by
  unfold State.holdEnd
  (repeat' split) <;> simp

@[simp] theorem State.pwmBoundary_kept (s : State) (t l : Nat) : (s.pwmBoundary t l).kept = s.kept := by
  unfold State.pwmBoundary
  simp

@[simp] theorem State.driveOn_kept (s : State) (t l : Nat) : (s.driveOn t l).kept = s.kept := by
  unfold State.driveOn
  simp

@[simp] theorem State.driveOff_kept (s : State) (t l : Nat) : (s.driveOff t l).kept = s.kept := by
  unfold State.driveOff
  simp

@[simp] theorem State.pulseGo_kept (s : State) (t l : Nat) (d : SolDesc) (r : List SolDesc) : (s.pulseGo t l d r).kept = s.kept := by
  unfold State.pulseGo
  (repeat' split) <;> simp

@[simp] theorem State.pulseStart_kept (s : State) (t l : Nat) : (s.pulseStart t l).kept = s.kept := by
  unfold State.pulseStart
  extract_lets x y u
  have hu : u.kept = s.kept := by simp [u]
  repeat' first
    | (with_reducible rfl)
    | exact hu
    | (simp only [State.refusePulse_kept, State.setLeg_kept, State.pulseGo_kept, hu]; done)
    | split
    | (dsimp only)

@[simp] theorem State.pulseCommand_kept (s : State) (t l : Nat) : (s.pulseCommand t l).kept = s.kept := by
  unfold State.pulseCommand
  (repeat' split) <;> simp

@[simp] theorem State.legTick_kept (s : State) (t l : Nat) : (s.legTick t l).kept = s.kept := by
  unfold State.legTick
  simp

@[simp] theorem State.freewheelEnd_kept (s : State) (t l : Nat) : (s.freewheelEnd t l).kept = s.kept := by
  unfold State.freewheelEnd
  (repeat' split) <;> simp

@[simp] theorem State.trigger_kept (s : State) (t l : Nat) (which : Bool) : (s.trigger t l which).kept = s.kept := by
  unfold State.trigger
  simp

@[simp] theorem State.judge_kept (s : State) (t k : Nat) (spare : Bool) (uv : Int) (code : BitVec 12) : (s.judge t k spare uv code).kept = s.kept := by
  unfold State.judge
  simp

@[simp] theorem State.adcDone_kept (s : State) (t : Nat) (code : BitVec 12) : (s.adcDone t code).kept = s.kept := by
  unfold State.adcDone
  (repeat' split) <;> simp

@[simp] theorem State.thawIdle_kept (s : State) (a : Nat) : (s.thawIdle a).kept = s.kept := by
  unfold State.thawIdle
  simp

@[simp] theorem State.thawAxis_kept (s : State) (a : Nat) : (s.thawAxis a).kept = s.kept := by
  unfold State.thawAxis
  simp

@[simp] theorem State.freezeOff_kept (s : State) : (s.freezeOff).kept = s.kept := by
  unfold State.freezeOff
  (try dsimp only)
  (repeat' split) <;> (try simp (disch := (intros; (repeat' split) <;> (try simp))) [foldl_kept])

@[simp] theorem State.post_kept (s : State) (o : Output) : (s.post o).kept = s.kept := by
  unfold State.post
  simp

@[simp] theorem State.issueAsked_kept (s : State) : (s.issueAsked).kept = s.kept := by
  unfold State.issueAsked
  (try dsimp only)
  (repeat' split) <;> (first | with_reducible rfl | simp)

@[simp] theorem State.request_kept (s : State) (src : ReadSrc) (o : Output) : (s.request src o).kept = s.kept := by
  unfold State.request
  (try dsimp only)
  (repeat' split) <;> (first | with_reducible rfl | simp)

@[simp] theorem State.answered_kept (s : State) (src : ReadSrc) : (s.answered src).kept = s.kept := by
  unfold State.answered
  (try dsimp only)
  (first | with_reducible rfl | simp)

@[simp] theorem State.unask_kept (s : State) (r : Nat) : (s.unask r).kept = s.kept := by
  unfold State.unask
  (try dsimp only)
  (first | with_reducible rfl | simp)

@[simp] theorem State.sendVector_kept (s : State) (v : Nat) : (s.sendVector v).kept = s.kept := by
  unfold State.sendVector
  simp

@[simp] theorem State.msixWrite_kept (s : State) (off : Nat) (v : Word) : (s.msixWrite off v).kept = s.kept := by
  unfold State.msixWrite
  simp

@[simp] theorem State.writeOsb_kept (s : State) (x : LongOp) : (s.writeOsb x).kept = s.kept := by
  unfold State.writeOsb
  simp

@[simp] theorem State.updateOsbs_kept (s : State) : (s.updateOsbs).kept = s.kept := by
  unfold State.updateOsbs
  dsimp only
  rw [State.kept_mk, State.kept_eta, foldl_kept _ (by intros; simp), foldl_kept _ (by intros; exact foldl_kept _ (by intros; simp) _ _)]

@[simp] theorem State.acceptLong_kept (s : State) (x : LongOp) : (s.acceptLong x).kept = s.kept := by
  unfold State.acceptLong
  simp

@[simp] theorem State.ackRecord_kept (s : State) (uid : Nat) : (s.ackRecord uid).kept = s.kept := by
  unfold State.ackRecord
  (repeat' split) <;> simp

@[simp] theorem State.ackLatch_kept (s : State) : (s.ackLatch).kept = s.kept := by
  unfold State.ackLatch
  (repeat' split) <;> simp

@[simp] theorem State.latchEntry_kept (s : State) (age : Nat) : (s.latchEntry age).kept = s.kept := by
  unfold State.latchEntry
  (repeat' split) <;> simp

@[simp] theorem State.windowEnd_kept (s : State) (n : Nat) : (s.windowEnd n).kept = s.kept := by
  unfold State.windowEnd
  simp

@[simp] theorem State.pulseOver_kept (s : State) : (s.pulseOver).kept = s.kept := by
  unfold State.pulseOver
  (repeat' split) <;> simp

@[simp] theorem State.isoForLife_kept (s : State) (t : Nat) : (s.isoForLife t).kept = s.kept := by
  unfold State.isoForLife
  simp

@[simp] theorem State.breakSensors_kept (s : State) (t : Nat) : (s.breakSensors t).kept = s.kept := by
  unfold State.breakSensors
  simp

@[simp] theorem State.formTemp_kept (s : State) (t : Nat) : (s.formTemp t).kept = s.kept := by
  unfold State.formTemp
  (try dsimp only)
  (repeat' split) <;> (first | with_reducible rfl | simp)

@[simp] theorem State.formLevels_kept (s : State) (t : Nat) : (s.formLevels t).kept = s.kept := by
  unfold State.formLevels
  simp

@[simp] theorem State.sensorWear_kept (s : State) (t : Nat) : (s.sensorWear t).kept = s.kept := by
  unfold State.sensorWear
  simp

@[simp] theorem State.thermal_kept (s : State) (t : Nat) (a b : BitVec 16) : (s.thermal t a b).kept = s.kept := by
  unfold State.thermal
  simp

@[simp] theorem State.refuse_kept (s : State) (g : Tag) (d : Desc) (t : Target) (b : Bad) : (s.refuse g d t b).kept = s.kept := by
  unfold State.refuse
  (repeat' split) <;> simp

@[simp] theorem State.refuseField_kept (s : State) (g : Tag) (d : Desc) (t : Target) (w b : Nat) : (s.refuseField g d t w b).kept = s.kept := by
  unfold State.refuseField
  simp

@[simp] theorem State.refuseWith_kept (s : State) (g : Tag) (d : Desc) (t : Target) (st : Nat) : (s.refuseWith g d t st).kept = s.kept := by
  unfold State.refuseWith
  simp

@[simp] theorem State.takeProfile_kept (s : State) (g : Tag) (d : Desc) (k : UnitKind) (n : Nat) : (s.takeProfile g d k n).kept = s.kept := by
  unfold State.takeProfile
  simp

@[simp] theorem State.enter_kept (s : State) (k : UnitKind) (n : Nat) (v : Move) : (s.enter k n v).kept = s.kept := by
  unfold State.enter
  simp

@[simp] theorem State.takeZero_kept (s : State) (k : UnitKind) (n : Nat) (v : Move) : (s.takeZero k n v).kept = s.kept := by
  unfold State.takeZero
  simp

@[simp] theorem State.takeMove_kept (s : State) (g : Tag) (d : Desc) (k : UnitKind) (n : Nat) (p : Profile) : (s.takeMove g d k n p).kept = s.kept := by
  unfold State.takeMove
  simp

@[simp] theorem State.takeResume_kept (s : State) (g : Tag) (d : Desc) (k : UnitKind) (n : Nat) : (s.takeResume g d k n).kept = s.kept := by
  unfold State.takeResume
  (try dsimp only)
  (repeat' split) <;> (first | with_reducible rfl | simp)

@[simp] theorem State.takeStop_kept (s : State) (g : Tag) (d : Desc) (k : UnitKind) (n : Nat) : (s.takeStop g d k n).kept = s.kept := by
  unfold State.takeStop
  simp

@[simp] theorem State.takeCurrent_kept (s : State) (g : Tag) (d : Desc) (a : Nat) : (s.takeCurrent g d a).kept = s.kept := by
  unfold State.takeCurrent
  simp

@[simp] theorem State.enterLater_kept (s : State) (k : UnitKind) (n : Nat) (l : Nat → Later) : (s.enterLater k n l).kept = s.kept := by
  unfold State.enterLater
  simp

@[simp] theorem State.takeFollow_kept (s : State) (g : Tag) (d : Desc) (k : UnitKind) (n : Nat) : (s.takeFollow g d k n).kept = s.kept := by
  unfold State.takeFollow
  simp

@[simp] theorem State.takePlay_kept (s : State) (g : Tag) (d : Desc) (k : UnitKind) (n : Nat) : (s.takePlay g d k n).kept = s.kept := by
  unfold State.takePlay
  (try dsimp only)
  (repeat' split) <;> (first | with_reducible rfl | simp)

@[simp] theorem State.enterBind_kept (s : State) (b : BindReq) : (s.enterBind b).kept = s.kept := by
  unfold State.enterBind
  simp

@[simp] theorem State.takeBind_kept (s : State) (g : Tag) (d : Desc) (c : Nat) : (s.takeBind g d c).kept = s.kept := by
  unfold State.takeBind
  simp

@[simp] theorem State.takeUnbind_kept (s : State) (g : Tag) (d : Desc) (k : UnitKind) (n : Nat) : (s.takeUnbind g d k n).kept = s.kept := by
  unfold State.takeUnbind
  simp

@[simp] theorem State.takeSol_kept (s : State) (g : Tag) (d : Desc) (t mask : Nat) : (s.takeSol g d t mask).kept = s.kept := by
  unfold State.takeSol
  simp

@[simp] theorem State.takeHome_kept (s : State) (g : Tag) (d : Desc) (a : Nat) : (s.takeHome g d a).kept = s.kept := by
  unfold State.takeHome
  simp

@[simp] theorem State.takeChar_kept (s : State) (g : Tag) (d : Desc) (a : Nat) : (s.takeChar g d a).kept = s.kept := by
  unfold State.takeChar
  simp

@[simp] theorem State.takeHistory_kept (s : State) (g : Tag) (d : Desc) : (s.takeHistory g d).kept = s.kept := by
  unfold State.takeHistory
  (try dsimp only)
  (repeat' split) <;> (try simp (disch := (intros; (repeat' split) <;> (try simp))) [foldl_kept])

@[simp] theorem State.takeMode_kept (s : State) (g : Tag) (d : Desc) : (s.takeMode g d).kept = s.kept := by
  unfold State.takeMode
  simp

@[simp] theorem State.ownAsk_kept (s : State) (a : Nat) (v : Move) : (s.ownAsk a v).kept = s.kept := by
  unfold State.ownAsk
  simp

@[simp] theorem State.ownGo_kept (s : State) (a : Nat) (v : Move) : (s.ownGo a v).kept = s.kept := by
  unfold State.ownGo
  simp

@[simp] theorem State.updHome_kept (s : State) (a : Nat) (f : Home → Home) : (s.updHome a f).kept = s.kept := by
  unfold State.updHome
  simp

@[simp] theorem State.axisLong_kept (s : State) (o a : Nat) (f : LongOp → LongOp) : (s.axisLong o a f).kept = s.kept := by
  unfold State.axisLong
  (repeat' split) <;> simp

@[simp] theorem State.homeEntry_kept (s : State) (a : Nat) (e : List Word) : (s.homeEntry a e).kept = s.kept := by
  unfold State.homeEntry
  simp

@[simp] theorem State.homeTo_kept (s : State) (a : Nat) (st : HomeState) : (s.homeTo a st).kept = s.kept := by
  unfold State.homeTo
  simp

@[simp] theorem State.homeFail_kept (s : State) (a st reason : Nat) : (s.homeFail a st reason).kept = s.kept := by
  unfold State.homeFail
  simp

@[simp] theorem State.homeGo_kept (s : State) (a : Nat) (v : Move) : (s.homeGo a v).kept = s.kept := by
  unfold State.homeGo
  (repeat' split) <;> simp

@[simp] theorem State.homeSearch_kept (s : State) (a : Nat) (h : Home) : (s.homeSearch a h).kept = s.kept := by
  unfold State.homeSearch
  simp

@[simp] theorem State.homeCheck_kept (s : State) (a : Nat) (h : Home) : (s.homeCheck a h).kept = s.kept := by
  unfold State.homeCheck
  simp

@[simp] theorem State.homeSet_kept (s : State) (a : Nat) (h : Home) : (s.homeSet a h).kept = s.kept := by
  unfold State.homeSet
  simp

@[simp] theorem State.homeOver_kept (s : State) (a st reason : Nat) (h : Home) : (s.homeOver a st reason h).kept = s.kept := by
  unfold State.homeOver
  (try dsimp only)
  (repeat' split) <;> (first | with_reducible rfl | simp)

@[simp] theorem State.homeLatched_kept (s : State) (a : Nat) (h : Home) : (s.homeLatched a h).kept = s.kept := by
  unfold State.homeLatched
  simp

@[simp] theorem State.homeState_kept (s : State) (a : Nat) (h : Home) : (s.homeState a h).kept = s.kept := by
  unfold State.homeState
  (repeat' split) <;> simp

@[simp] theorem State.homeStates_kept (s : State) (a fuel : Nat) : (s.homeStates a fuel).kept = s.kept := by
  induction fuel generalizing s with
  | zero => unfold State.homeStates; rfl
  | succ f ih =>
    unfold State.homeStates
    split
    · rename_i e _
      obtain rfl := Nat.succ.inj e
      dsimp only
      (repeat' split) <;> simp [ih]
    · rfl

@[simp] theorem State.homeWatch_kept (s : State) (a : Nat) : (s.homeWatch a).kept = s.kept := by
  unfold State.homeWatch
  (repeat' split) <;> simp

@[simp] theorem State.homeSeen_kept (s : State) (a : Nat) : (s.homeSeen a).kept = s.kept := by
  unfold State.homeSeen
  (first | with_reducible rfl | simp)

@[simp] theorem State.homeStep_kept (s : State) (a : Nat) : (s.homeStep a).kept = s.kept := by
  unfold State.homeStep
  (try dsimp only)
  (repeat' split) <;> (first | with_reducible rfl | simp)

@[simp] theorem State.homeEdge_kept (s : State) (a i : Nat) (level : Bool) (sdt : Nat) : (s.homeEdge a i level sdt).kept = s.kept := by
  unfold State.homeEdge
  (repeat' split) <;> simp

@[simp] theorem State.homeStall_kept (s : State) (a : Nat) : (s.homeStall a).kept = s.kept := by
  unfold State.homeStall
  simp

@[simp] theorem State.updChar_kept (s : State) (a : Nat) (f : Char → Char) : (s.updChar a f).kept = s.kept := by
  unfold State.updChar
  simp

@[simp] theorem State.setBase_kept (s : State) (a i : Nat) (v : Word) : (s.setBase a i v).kept = s.kept := by
  unfold State.setBase
  simp

@[simp] theorem State.charNext_kept (s : State) (a : Nat) : (s.charNext a).kept = s.kept := by
  unfold State.charNext
  (try dsimp only)
  (repeat' split) <;> (first | with_reducible rfl | simp)

@[simp] theorem State.charFail_kept (s : State) (a st : Nat) : (s.charFail a st).kept = s.kept := by
  unfold State.charFail
  simp

@[simp] theorem State.charGo_kept (s : State) (a : Nat) (v : Move) : (s.charGo a v).kept = s.kept := by
  unfold State.charGo
  (repeat' split) <;> simp

@[simp] theorem State.ownStart_kept (s : State) (a : Nat) : (s.ownStart a).kept = s.kept := by
  unfold State.ownStart
  (try dsimp only)
  (repeat' split) <;> (first | with_reducible rfl | simp)

@[simp] theorem State.charStand_kept (s : State) (a : Nat) (h : Char) (p : Profile) : (s.charStand a h p).kept = s.kept := by
  unfold State.charStand
  (try dsimp only)
  (repeat' split) <;> (try simp (disch := (intros; (repeat' split) <;> (try simp))) [foldl_kept])

@[simp] theorem State.charBin_kept (s : State) (a : Nat) (h : Char) (p : Profile) : (s.charBin a h p).kept = s.kept := by
  unfold State.charBin
  (try dsimp only)
  (repeat' split) <;> (try simp (disch := (intros; (repeat' split) <;> (try simp))) [foldl_kept])

@[simp] theorem State.unpower_kept (s : State) (a : Nat) : (s.unpower a).kept = s.kept := by
  unfold State.unpower
  (try dsimp only)
  (repeat' split) <;> (try simp (disch := (intros; (repeat' split) <;> (try simp))) [foldl_kept])

@[simp] theorem State.charOver_kept (s : State) (a st : Nat) (h : Char) : (s.charOver a st h).kept = s.kept := by
  unfold State.charOver
  (try dsimp only)
  (repeat' split) <;> (first | with_reducible rfl | simp)

@[simp] theorem State.charHeader_kept (s : State) (a : Nat) (h : Char) : (s.charHeader a h).kept = s.kept := by
  unfold State.charHeader
  simp

@[simp] theorem State.charReturn_kept (s : State) (a : Nat) (h : Char) (p : Profile) : (s.charReturn a h p).kept = s.kept := by
  unfold State.charReturn
  (repeat' split) <;> simp

@[simp] theorem State.charWatch_kept (s : State) (a : Nat) : (s.charWatch a).kept = s.kept := by
  unfold State.charWatch
  (repeat' split) <;> simp

@[simp] theorem State.charStep_kept (s : State) (a : Nat) : (s.charStep a).kept = s.kept := by
  unfold State.charStep
  (repeat' split) <;> simp

@[simp] theorem State.bindFail_kept (s : State) (b : BindReq) (f : Bad) : (s.bindFail b f).kept = s.kept := by
  unfold State.bindFail
  simp

@[simp] theorem State.bindDone_kept (s : State) (g : Tag) (word0 : Word) (c slot : Nat) (mb : Member) : (s.bindDone g word0 c slot mb).kept = s.kept := by
  unfold State.bindDone
  simp

@[simp] theorem State.bindNow_kept (s : State) (b : BindReq) : (s.bindNow b).kept = s.kept := by
  unfold State.bindNow
  simp

@[simp] theorem State.freeSlot_kept (s : State) (c slot : Nat) : (s.freeSlot c slot).kept = s.kept := by
  unfold State.freeSlot
  simp

@[simp] theorem State.unbindNow_kept (s : State) (b : BindReq) (c slot : Nat) : (s.unbindNow b c slot).kept = s.kept := by
  unfold State.unbindNow
  simp

@[simp] theorem State.bindStep_kept (s : State) (b : BindReq) : (s.bindStep b).2.kept = s.kept := by
  unfold State.bindStep
  (repeat' split) <;> simp

@[simp] theorem State.entryOver_kept (s : State) (c slot : Nat) : (s.entryOver c slot).kept = s.kept := by
  unfold State.entryOver
  (try dsimp only)
  (repeat' split) <;> (first | with_reducible rfl | simp)

@[simp] theorem State.bonds_kept (s : State) : (s.bonds).kept = s.kept := by
  unfold State.bonds
  (try dsimp only)
  (repeat' split) <;> (try simp (disch := (intros; (repeat' split) <;> (try simp))) [foldl_kept])

@[simp] theorem State.safetyInput_kept (s : State) (n : Nat) : (s.safetyInput n).kept = s.kept := by
  unfold State.safetyInput
  simp

@[simp] theorem State.safetyScan_kept (s : State) : (s.safetyScan).kept = s.kept := by
  unfold State.safetyScan
  (try simp (disch := (intros; (repeat' split) <;> (try simp))) [foldl_kept])

@[simp] theorem State.limitHit_kept (s : State) (a n : Nat) (neg edge : Bool) : (s.limitHit a n neg edge).kept = s.kept := by
  unfold State.limitHit
  simp

@[simp] theorem State.limitInput_kept (s : State) (a n : Nat) (edge : Bool) : (s.limitInput a n edge).kept = s.kept := by
  unfold State.limitInput
  simp

@[simp] theorem State.senseEdge_kept (s : State) (n : Nat) (samples : List Bool) : (s.senseEdge n samples).kept = s.kept := by
  unfold State.senseEdge
  (try dsimp only)
  (repeat' split) <;> (try simp (disch := (intros; (repeat' split) <;> (try simp))) [foldl_kept])

@[simp] theorem State.senseKnown_kept (s : State) (n : Nat) (samples : List Bool) : (s.senseKnown n samples).kept = s.kept := by
  unfold State.senseKnown
  (try dsimp only)
  (repeat' split) <;> (try simp (disch := (intros; (repeat' split) <;> (try simp))) [foldl_kept])

@[simp] theorem State.stepEdge_kept (s : State) (n : Nat) (dirHigh : Bool) : (s.stepEdge n dirHigh).kept = s.kept := by
  unfold State.stepEdge
  simp

@[simp] theorem State.loadCount_kept (s : State) (v : Nat) : (s.loadCount v).kept = s.kept := by
  unfold State.loadCount
  simp

@[simp] theorem State.encCount_kept (s : State) (n : Nat) (up both : Bool) : (s.encCount n up both).kept = s.kept := by
  unfold State.encCount
  (try dsimp only)
  (repeat' split) <;> (first | with_reducible rfl | simp)

@[simp] theorem State.encEdge_kept (s : State) (n : Nat) (up both : Bool) : (s.encEdge n up both).kept = s.kept := by
  unfold State.encEdge
  simp

@[simp] theorem State.encIndex_kept (s : State) (n : Nat) : (s.encIndex n).kept = s.kept := by
  unfold State.encIndex
  simp

@[simp] theorem State.encTimeout_kept (s : State) (n : Nat) : (s.encTimeout n).kept = s.kept := by
  unfold State.encTimeout
  simp

@[simp] theorem State.safeClr_kept (s : State) (j : Nat) (v : Word) : (s.safeClr j v).kept = s.kept := by
  unfold State.safeClr
  (try dsimp only)
  (try simp (disch := (intros; (repeat' split) <;> (try simp))) [foldl_kept])

@[simp] theorem State.pairOn_kept (s : State) (n : Nat) : (s.pairOn n).kept = s.kept := by
  unfold State.pairOn
  simp

@[simp] theorem State.pairOff_kept (s : State) (n : Nat) : (s.pairOff n).kept = s.kept := by
  unfold State.pairOff
  simp

@[simp] theorem State.encOn_kept (s : State) (n : Nat) : (s.encOn n).kept = s.kept := by
  unfold State.encOn
  simp

@[simp] theorem State.filtWrite_kept (s : State) (j : Nat) (v : Word) : (s.filtWrite j v).kept = s.kept := by
  unfold State.filtWrite
  (try dsimp only)
  (try simp (disch := (intros; (repeat' split) <;> (try simp))) [foldl_kept])

@[simp] theorem State.lineEdgeAt_kept (s : State) (n : Nat) : (s.lineEdgeAt n).kept = s.kept := by
  unfold State.lineEdgeAt
  simp

@[simp] theorem State.lineEdge_kept (s : State) (n : Nat) (level : Bool) : (s.lineEdge n level).kept = s.kept := by
  unfold State.lineEdge
  simp

@[simp] theorem State.lineHold_kept (s : State) (n : Nat) : (s.lineHold n).kept = s.kept := by
  unfold State.lineHold
  simp

@[simp] theorem State.lineGone_kept (s : State) (n : Nat) : (s.lineGone n).kept = s.kept := by
  unfold State.lineGone
  simp

@[simp] theorem State.rcBegin_kept (s : State) : (s.rcBegin).kept = s.kept := by
  unfold State.rcBegin
  simp

@[simp] theorem State.outPulse_kept (s : State) (n : Nat) : (s.outPulse n).kept = s.kept := by
  unfold State.outPulse
  simp

@[simp] theorem State.outMark_kept (s : State) (n : Nat) : (s.outMark n).kept = s.kept := by
  unfold State.outMark
  simp

@[simp] theorem State.outEnd_kept (s : State) (n : Nat) : (s.outEnd n).kept = s.kept := by
  unfold State.outEnd
  simp

@[simp] theorem State.outTicks_kept (s : State) : (s.outTicks).kept = s.kept := by
  unfold State.outTicks
  (try simp (disch := (intros; (repeat' split) <;> (try simp))) [foldl_kept])

@[simp] theorem State.dieTemp_kept (s : State) : (s.dieTemp).kept = s.kept := by
  unfold State.dieTemp
  simp

@[simp] theorem State.oscSwitch_kept (s : State) : (s.oscSwitch).kept = s.kept := by
  unfold State.oscSwitch
  simp

@[simp] theorem State.primaryFails_kept (s : State) : (s.primaryFails).kept = s.kept := by
  unfold State.primaryFails
  simp

@[simp] theorem State.primaryGood_kept (s : State) : (s.primaryGood).kept = s.kept := by
  unfold State.primaryGood
  simp

@[simp] theorem State.oscReturn_kept (s : State) : (s.oscReturn).kept = s.kept := by
  unfold State.oscReturn
  simp

@[simp] theorem State.bkpFail_kept (s : State) : (s.bkpFail).kept = s.kept := by
  unfold State.bkpFail
  simp

@[simp] theorem State.clockLost_kept (s : State) : (s.clockLost).kept = s.kept := by
  unfold State.clockLost
  simp

@[simp] theorem State.updStr_kept (s : State) (f : Strait → Strait) : (s.updStr f).kept = s.kept := by
  unfold State.updStr
  simp

@[simp] theorem State.sendFrame_kept (s : State) (port : Nat) (f : List Byte) : (s.sendFrame port f).kept = s.kept := by
  unfold State.sendFrame
  simp

@[simp] theorem State.receiveFlt_kept (s : State) (b : Nat) : (s.receiveFlt b).kept = s.kept := by
  unfold State.receiveFlt
  simp

@[simp] theorem State.discardFrame_kept (s : State) (port : Nat) (good : Bool) : (s.discardFrame port good).kept = s.kept := by
  unfold State.discardFrame
  simp

@[simp] theorem State.syncSend_kept (s : State) : (s.syncSend).kept = s.kept := by
  unfold State.syncSend
  simp

@[simp] theorem State.repeatSync_kept (s : State) (f : List Byte) (good : Bool) : (s.repeatSync f good).kept = s.kept := by
  unfold State.repeatSync
  simp

@[simp] theorem State.align_kept (s : State) (f : List Byte) : (s.align f).kept = s.kept := by
  unfold State.align
  extract_lets b e e'
  clear_value b e'
  split
  · rfl
  · split
    · exact State.kept_mk ..
    · split
      · exact State.kept_mk ..
      · rfl

@[simp] theorem State.correct_kept (s : State) (f : List Byte) : (s.correct f).kept = s.kept := by
  unfold State.correct
  simp

@[simp] theorem State.missSync_kept (s : State) : (s.missSync).kept = s.kept := by
  unfold State.missSync
  simp

@[simp] theorem State.takeSync_kept (s : State) (f : List Byte) : (s.takeSync f).kept = s.kept := by
  unfold State.takeSync
  simp

@[simp] theorem State.syncReceive_kept (s : State) (f : List Byte) : (s.syncReceive f).kept = s.kept := by
  unfold State.syncReceive
  simp

@[simp] theorem State.syncMissing_kept (s : State) : (s.syncMissing).kept = s.kept := by
  unfold State.syncMissing
  simp

@[simp] theorem State.loadStep_kept (s : State) : (s.loadStep).kept = s.kept := by
  unfold State.loadStep
  (repeat' split) <;> simp

@[simp] theorem State.repeatFault_kept (s : State) (port : Nat) (f : List Byte) (good : Bool) : (s.repeatFault port f good).kept = s.kept := by
  unfold State.repeatFault
  simp

@[simp] theorem State.faultFrame_kept (s : State) (port : Nat) (f : List Byte) : (s.faultFrame port f).kept = s.kept := by
  unfold State.faultFrame
  simp

@[simp] theorem State.upSend_kept (s : State) : (s.upSend).kept = s.kept := by
  unfold State.upSend
  simp

@[simp] theorem State.upReceive_kept (s : State) (f : List Byte) : (s.upReceive f).kept = s.kept := by
  unfold State.upReceive
  simp

@[simp] theorem State.retrain_kept (s : State) : (s.retrain).kept = s.kept := by
  unfold State.retrain
  simp

@[simp] theorem State.alignGained_kept (s : State) (port : Nat) : (s.alignGained port).kept = s.kept := by
  unfold State.alignGained
  simp

@[simp] theorem State.alignLost_kept (s : State) (port : Nat) : (s.alignLost port).kept = s.kept := by
  unfold State.alignLost
  simp

@[simp] theorem State.reqSend_kept (s : State) : (s.reqSend).kept = s.kept := by
  unfold State.reqSend
  simp

@[simp] theorem State.reqReceive_kept (s : State) (port : Nat) (f : List Byte) (wait : Nat) : (s.reqReceive port f wait).kept = s.kept := by
  unfold State.reqReceive
  simp

@[simp] theorem State.echoReceive_kept (s : State) (f : List Byte) (rtt : Nat) : (s.echoReceive f rtt).kept = s.kept := by
  unfold State.echoReceive
  simp

@[simp] theorem State.ringError_kept (s : State) (r code : Nat) : (s.ringError r code).kept = s.kept := by
  unfold State.ringError
  simp

@[simp] theorem State.prefetch_kept (s : State) (r : Nat) : (s.prefetch r).kept = s.kept := by
  unfold State.prefetch
  (try dsimp only)
  (repeat' split) <;> (try simp (disch := (intros; (repeat' split) <;> (try simp))) [foldl_kept])

@[simp] theorem State.answer_kept (s : State) (src : ReadSrc) : (s.answer src).2.kept = s.kept := by
  unfold State.answer
  simp

@[simp] theorem State.doorbell_kept (s : State) (pis : List Word) : (s.doorbell pis).kept = s.kept := by
  unfold State.doorbell
  (try dsimp only)
  (repeat' split) <;> (try simp (disch := (intros; (repeat' split) <;> (try simp))) [foldl_kept])

@[simp] theorem State.takeIn_kept (s : State) (r : Nat) (ds : List Desc) (rest : List Nat) : (s.takeIn r ds rest).kept = s.kept := by
  unfold State.takeIn
  (try dsimp only)
  (try simp (disch := (intros; (repeat' split) <;> (try simp))) [foldl_kept])

@[simp] theorem State.prefetched_kept (s : State) (r : Nat) (ok : Bool) (ds : List Desc) : (s.prefetched r ok ds).kept = s.kept := by
  unfold State.prefetched
  extract_lets a u
  have hu : u.kept = s.kept := by simp [u, a]
  split
  · split <;> simp [hu]
  · exact hu

@[simp] theorem State.paramDone_kept (s : State) (r : Nat) (ok : Bool) (param : List Word) : (s.paramDone r ok param).kept = s.kept := by
  unfold State.paramDone
  simp

@[simp] theorem State.refillQuota_kept (s : State) : (s.refillQuota).kept = s.kept := by
  unfold State.refillQuota
  (try dsimp only)
  (try simp (disch := (intros; (repeat' split) <;> (try simp))) [State.each_kept])

@[simp] theorem State.streamAsk_kept (s : State) (w : Nat) : (s.streamAsk w).kept = s.kept := by
  unfold State.streamAsk
  (try dsimp only)
  (repeat' split) <;> (first | with_reducible rfl | simp)

@[simp] theorem State.streamed_kept (s : State) (w : Nat) (ok : Bool) (bytes : List Byte) : (s.streamed w ok bytes).kept = s.kept := by
  unfold State.streamed
  extract_lets a u
  have hu : u.kept = s.kept := by simp [u, a]
  split
  · exact hu
  · split
    · exact hu
    · (repeat' split) <;> simp [hu]

@[simp] theorem State.readTimeout_kept (s : State) (src : ReadSrc) : (s.readTimeout src).kept = s.kept := by
  unfold State.readTimeout
  (try dsimp only)
  (repeat' split) <;> (first | with_reducible rfl | simp)

@[simp] theorem State.readTimeouts_kept (s : State) : (s.readTimeouts).kept = s.kept := by
  unfold State.readTimeouts
  (try simp (disch := (intros; (repeat' split) <;> (try simp))) [foldl_kept])

@[simp] theorem State.streamAll_kept (s : State) : (s.streamAll).kept = s.kept := by
  unfold State.streamAll
  (try simp (disch := (intros; (repeat' split) <;> (try simp))) [foldl_kept])

@[simp] theorem State.linkDown_kept (s : State) (cause : Nat) : (s.linkDown cause).kept = s.kept := by
  unfold State.linkDown
  (try dsimp only)
  (repeat' split) <;> (try simp (disch := (intros; (repeat' split) <;> (try simp))) [foldl_kept])

@[simp] theorem State.linkUpNow_kept (s : State) : (s.linkUpNow).kept = s.kept := by
  unfold State.linkUpNow
  simp

@[simp] theorem State.diagBegin_kept (s : State) (tiles legs : Nat) : (s.diagBegin tiles legs).kept = s.kept := by
  unfold State.diagBegin
  (try dsimp only)
  (try simp (disch := (intros; (repeat' split) <;> (try simp))) [foldl_kept])

@[simp] theorem State.diagPhase_kept (s : State) (t : Nat) (first second : BitVec 12) : (s.diagPhase t first second).kept = s.kept := by
  unfold State.diagPhase
  (try dsimp only)
  (repeat' split) <;> (first | with_reducible rfl | simp)

@[simp] theorem State.diagStep_kept (s : State) : (s.diagStep).kept = s.kept := by
  unfold State.diagStep
  (repeat' split) <;> simp

@[simp] theorem State.updSpr_kept (s : State) (f : Spr → Spr) : (s.updSpr f).kept = s.kept := by
  unfold State.updSpr
  simp

@[simp] theorem State.sprFlag_kept (s : State) (i : Nat) : (s.sprFlag i).kept = s.kept := by
  unfold State.sprFlag
  simp

@[simp] theorem State.coreLoss_kept (s : State) : (s.coreLoss).kept = s.kept := by
  unfold State.coreLoss
  simp

@[simp] theorem State.resyncStart_kept (s : State) (n slot : Nat) (inPlace : Bool) : (s.resyncStart n slot inPlace).kept = s.kept := by
  unfold State.resyncStart
  simp

@[simp] theorem State.coreStop_kept (s : State) (n slot : Nat) (spare : Bool) : (s.coreStop n slot spare).kept = s.kept := by
  unfold State.coreStop
  simp

@[simp] theorem State.coreReplace_kept (s : State) (slot : Nat) : (s.coreReplace slot).kept = s.kept := by
  unfold State.coreReplace
  (repeat' split) <;> simp

@[simp] theorem State.coreRetire_kept (s : State) (n : Nat) : (s.coreRetire n).kept = s.kept := by
  unfold State.coreRetire
  simp

@[simp] theorem State.unresolved_kept (s : State) : (s.unresolved).kept = s.kept := by
  unfold State.unresolved
  simp

@[simp] theorem State.countMinority_kept (s : State) (n : Nat) (inj : Bool) : (s.countMinority n inj).kept = s.kept := by
  unfold State.countMinority
  simp

@[simp] theorem State.resyncNext_kept (s : State) : (s.resyncNext).kept = s.kept := by
  unfold State.resyncNext
  (try dsimp only)
  (repeat' split) <;> (first | with_reducible rfl | simp)

@[simp] theorem State.minorityAct_kept (s : State) (n : Nat) (inj : Bool) : (s.minorityAct n inj).kept = s.kept := by
  unfold State.minorityAct
  simp

@[simp] theorem State.resyncBack_kept (s : State) (n : Nat) : (s.resyncBack n).kept = s.kept := by
  unfold State.resyncBack
  (try dsimp only)
  (repeat' split) <;> (first | with_reducible rfl | simp)

@[simp] theorem State.minority_kept (s : State) (n src detail : Nat) (inj : Bool) : (s.minority n src detail inj).kept = s.kept := by
  unfold State.minority
  simp

@[simp] theorem State.votersDiffer_kept (s : State) : (s.votersDiffer).2.kept = s.kept := by
  unfold State.votersDiffer
  (try dsimp only)
  (repeat' split) <;> (first | with_reducible rfl | simp)

@[simp] theorem State.lostVote_kept (s : State) (slot : Nat) (inj : Bool) : (s.lostVote slot inj).kept = s.kept := by
  unfold State.lostVote
  (repeat' split) <;> (first | with_reducible rfl | simp)

@[simp] theorem State.vote_kept (s : State) (copies : List (Nat × BusCopy)) : (s.vote copies).kept = s.kept := by
  unfold State.vote
  (repeat' split) <;> simp

@[simp] theorem State.busVote_kept (s : State) (c0 c1 c2 : Option BusCopy) (agree : Bool) : (s.busVote c0 c1 c2 agree).kept = s.kept := by
  unfold State.busVote
  (repeat' split) <;> simp

@[simp] theorem State.parity_kept (s : State) (slot : Nat) (writeSide real : Bool) : (s.parity slot writeSide real).kept = s.kept := by
  unfold State.parity
  (repeat' split) <;> simp

@[simp] theorem State.resyncDone_kept (s : State) (good : Bool) : (s.resyncDone good).kept = s.kept := by
  unfold State.resyncDone
  (repeat' split) <;> simp

@[simp] theorem State.repeated_kept (s : State) : (s.repeated).kept = s.kept := by
  unfold State.repeated
  (repeat' split) <;> simp

@[simp] theorem State.pairFails_kept (s : State) : (s.pairFails).kept = s.kept := by
  unfold State.pairFails
  (repeat' split) <;> simp

@[simp] theorem State.katEnd_kept (s : State) (passed : List Nat) : (s.katEnd passed).kept = s.kept := by
  unfold State.katEnd
  (try dsimp only)
  (repeat' split) <;> (try simp (disch := (intros; (repeat' split) <;> (try simp))) [foldl_kept])

@[simp] theorem State.scrubCompare_kept (s : State) (sigs : List Word) : (s.scrubCompare sigs).kept = s.kept := by
  unfold State.scrubCompare
  (try dsimp only)
  (repeat' split) <;> (first | with_reducible rfl | simp)

@[simp] theorem State.setRow_kept (s : State) (r : Nat) (x : SramRow) : (s.setRow r x).kept = s.kept := by
  unfold State.setRow
  simp

@[simp] theorem State.rowCopy_kept (s : State) (r : Nat) : (s.rowCopy r).kept = s.kept := by
  unfold State.rowCopy
  simp

@[simp] theorem State.rowFails_kept (s : State) (r : Nat) : (s.rowFails r).kept = s.kept := by
  unfold State.rowFails
  simp

@[simp] theorem State.markSram_kept (s : State) (w : Nat) : (s.markSram w).kept = s.kept := by
  unfold State.markSram
  (try dsimp only)
  (repeat' split) <;> (first | with_reducible rfl | simp)

@[simp] theorem State.scrubTo_kept (s : State) (w : Nat) : (s.scrubTo w).kept = s.kept := by
  unfold State.scrubTo
  (try dsimp only)
  (first | with_reducible rfl | simp)

@[simp] theorem State.sramRead_kept (s : State) (w : Nat) (f : SramFinding) : (s.sramRead w f).kept = s.kept := by
  unfold State.sramRead
  (repeat' split) <;> simp

@[simp] theorem State.rowDone_kept (s : State) (r : Nat) : (s.rowDone r).kept = s.kept := by
  unfold State.rowDone
  simp

@[simp] theorem State.sramInject_kept (s : State) : (s.sramInject).kept = s.kept := by
  unfold State.sramInject
  simp

@[simp] theorem State.serveRunner_kept (s : State) (i a : Nat) : (s.serveRunner i a).kept = s.kept := by
  unfold State.serveRunner
  simp

@[simp] theorem State.runnerFails_kept (s : State) (a : Nat) : (s.runnerFails a).kept = s.kept := by
  unfold State.runnerFails
  (try dsimp only)
  (repeat' split) <;> (first | with_reducible rfl | simp)

@[simp] theorem State.detachMember_kept (s : State) (c slot : Nat) : (s.detachMember c slot).kept = s.kept := by
  unfold State.detachMember
  (try dsimp only)
  (repeat' split) <;> (first | with_reducible rfl | simp)

@[simp] theorem State.engineFails_kept (s : State) (n : Nat) : (s.engineFails n).kept = s.kept := by
  unfold State.engineFails
  (try dsimp only)
  (repeat' split) <;> (try simp (disch := (intros; (repeat' split) <;> (try simp))) [foldl_kept])

@[simp] theorem State.inputPaths_kept (s : State) (ds : List InputDiffer) : (s.inputPaths ds).kept = s.kept := by
  unfold State.inputPaths
  (try dsimp only)
  (try simp (disch := (intros; (repeat' split) <;> (try simp))) [foldl_kept])

@[simp] theorem State.voterCheck_kept (s : State) (o : TickObs) : (s.voterCheck o).kept = s.kept := by
  unfold State.voterCheck
  simp

@[simp] theorem State.approveCore_kept (s : State) : (s.approveCore).kept = s.kept := by
  unfold State.approveCore
  (repeat' split) <;> simp

@[simp] theorem State.approveRunner_kept (s : State) (a : Nat) : (s.approveRunner a).kept = s.kept := by
  unfold State.approveRunner
  (repeat' split) <;> simp

@[simp] theorem State.approveCmp_kept (s : State) (t : Nat) : (s.approveCmp t).kept = s.kept := by
  unfold State.approveCmp
  simp

@[simp] theorem State.approveRows_kept (s : State) : (s.approveRows).kept = s.kept := by
  unfold State.approveRows
  (try simp (disch := (intros; (repeat' split) <;> (try simp))) [foldl_kept])

@[simp] theorem State.policyAuto_kept (s : State) : (s.policyAuto).kept = s.kept := by
  unfold State.policyAuto
  (try dsimp only)
  (repeat' split) <;> (try simp (disch := (intros; (repeat' split) <;> (try simp))) [foldl_kept])

@[simp] theorem State.approve_kept (s : State) (w : Word) : (s.approve w).kept = s.kept := by
  unfold State.approve
  (repeat' split) <;> simp

@[simp] theorem State.approveStep_kept (s : State) (x : Approve) : (s.approveStep x).kept = s.kept := by
  unfold State.approveStep
  simp

@[simp] theorem State.approveAll_kept (s : State) : (s.approveAll).kept = s.kept := by
  unfold State.approveAll
  (try simp (disch := (intros; (repeat' split) <;> (try simp))) [foldl_kept])

@[simp] theorem State.refStore_kept (s : State) (o : Nat) (v : Word) : (s.refStore o v).kept = s.kept := by
  unfold State.refStore
  (repeat' split) <;> simp

@[simp] theorem State.clearRoc_kept (s : State) (l : Loc) : (s.clearRoc l).kept = s.kept := by
  unfold State.clearRoc
  split <;> first
    | with_reducible exact State.updRing_kept _ _ _
    | with_reducible exact State.updSpr_kept _ _
    | with_reducible exact State.updAxis_kept _ _ _
    | with_reducible exact State.updCourse_kept _ _ _
    | with_reducible exact State.updTile_kept _ _ _
    | with_reducible exact State.updLeg_kept _ _ _ _
    | exact (State.kept_mk ..).trans (State.kept_eta _)
    | with_reducible rfl

@[simp] theorem State.latchShadow_kept (s : State) (off : Nat) (l : Loc) : (s.latchShadow off l).kept = s.kept := by
  unfold State.latchShadow
  (repeat' split) <;> simp

@[simp] theorem State.noteAccess_kept (s : State) (bitNo kind off : Nat) : (s.noteAccess bitNo kind off).kept = s.kept := by
  unfold State.noteAccess
  simp

@[simp] theorem State.enableAxis_kept (s : State) (a : Nat) : (s.enableAxis a).kept = s.kept := by
  unfold State.enableAxis
  (try dsimp only)
  (try simp (disch := (intros; (repeat' split) <;> (try simp))) [foldl_kept])

@[simp] theorem State.enableCourse_kept (s : State) (c : Nat) : (s.enableCourse c).kept = s.kept := by
  unfold State.enableCourse
  simp

@[simp] theorem State.enableUnit_kept (s : State) (k : UnitKind) (n : Nat) : (s.enableUnit k n).kept = s.kept := by
  unfold State.enableUnit
  (repeat' split) <;> simp

@[simp] theorem State.releaseLegs_kept (s : State) (a : Nat) : (s.releaseLegs a).kept = s.kept := by
  unfold State.releaseLegs
  (try dsimp only)
  (try simp (disch := (intros; (repeat' split) <;> (try simp))) [foldl_kept])

@[simp] theorem State.endLongs_kept (s : State) (a : Nat) : (s.endLongs a).kept = s.kept := by
  unfold State.endLongs
  (try dsimp only)
  (repeat' split) <;> (first | with_reducible rfl | simp)

@[simp] theorem State.disableUnit_kept (s : State) (k : UnitKind) (n : Nat) : (s.disableUnit k n).kept = s.kept := by
  unfold State.disableUnit
  (repeat' split) <;> simp

@[simp] theorem State.disableNow_kept (s : State) (k : UnitKind) (n : Nat) : (s.disableNow k n).kept = s.kept := by
  unfold State.disableNow
  simp

@[simp] theorem State.clearing_kept (s : State) (off : Nat) (old v : Word) : (s.clearing off old v).kept = s.kept := by
  unfold State.clearing
  simp

@[simp] theorem State.noteMode_kept (s : State) (v : Word) : (s.noteMode v).kept = s.kept := by
  unfold State.noteMode
  simp

@[simp] theorem State.anchorHiWritten_kept (s : State) : (s.anchorHiWritten).kept = s.kept := by
  unfold State.anchorHiWritten
  simp

@[simp] theorem State.refCtrlWritten_kept (s : State) (old v : Word) : (s.refCtrlWritten old v).kept = s.kept := by
  unfold State.refCtrlWritten
  simp

@[simp] theorem State.strCtrlWritten_kept (s : State) (raw old v : Word) : (s.strCtrlWritten raw old v).kept = s.kept := by
  unfold State.strCtrlWritten
  simp

@[simp] theorem State.ringCtrlWritten_kept (s : State) (r : Nat) (old v : Word) : (s.ringCtrlWritten r old v).kept = s.kept := by
  unfold State.ringCtrlWritten
  simp

@[simp] theorem State.injWritten_kept (s : State) (raw : Word) : (s.injWritten raw).kept = s.kept := by
  unfold State.injWritten
  simp

@[simp] theorem State.unitCtrlWritten_kept (s : State) (k : UnitKind) (n : Nat) (old v : Word) : (s.unitCtrlWritten k n old v).kept = s.kept := by
  unfold State.unitCtrlWritten
  simp

@[simp] theorem State.clearUnc_kept (s : State) (k : UnitKind) (n : Nat) (raw : Word) : (s.clearUnc k n raw).kept = s.kept := by
  unfold State.clearUnc
  simp

@[simp] theorem State.clearTrip_kept (s : State) (t l : Nat) (raw : Word) : (s.clearTrip t l raw).kept = s.kept := by
  unfold State.clearTrip
  simp

@[simp] theorem State.clearIso_kept (s : State) (t : Nat) (raw : Word) : (s.clearIso t raw).kept = s.kept := by
  unfold State.clearIso
  simp

@[simp] theorem State.wrote_kept (s : State) (l : Loc) (off : Nat) (raw old v : Word) : (s.wrote l off raw old v).kept = s.kept := by
  unfold State.wrote
  (repeat' split) <;> simp

@[simp] theorem State.absentWrite_kept (s : State) (off : Nat) : (s.absentWrite off).kept = s.kept := by
  unfold State.absentWrite
  simp

@[simp] theorem State.lockedWrite_kept (s : State) (off : Nat) : (s.lockedWrite off).kept = s.kept := by
  unfold State.lockedWrite
  simp

@[simp] theorem State.violWrite_kept (s : State) (off : Nat) : (s.violWrite off).kept = s.kept := by
  unfold State.violWrite
  simp

@[simp] theorem State.comparePass_kept (s : State) (run : Word) : (s.comparePass run).kept = s.kept := by
  unfold State.comparePass
  simp

@[simp] theorem State.passEnd_kept (s : State) : (s.passEnd).kept = s.kept := by
  unfold State.passEnd
  (repeat' split) <;> simp

@[simp] theorem State.passBegin_kept (s : State) : (s.passBegin).kept = s.kept := by
  unfold State.passBegin
  simp

@[simp] theorem State.nvEnd_kept (s : State) (status : Nat) : (s.nvEnd status).kept = s.kept := by
  unfold State.nvEnd
  (repeat' split) <;> simp

@[simp] theorem State.nvAbort_kept (s : State) : (s.nvAbort).kept = s.kept := by
  unfold State.nvAbort
  simp

@[simp] theorem State.thermalStep_kept (s : State) (t : Nat) (a b : BitVec 16) : (s.thermalStep t a b).kept = s.kept := by
  unfold State.thermalStep
  simp

@[simp] theorem State.nvStep_kept (s : State) (ok : Bool) : (s.nvStep ok).kept = s.kept := by
  unfold State.nvStep
  (try dsimp only)
  (repeat' split) <;> (first | with_reducible rfl | simp)

@[simp] theorem State.nvBegin_kept (s : State) : (s.nvBegin).kept = s.kept := by
  unfold State.nvBegin
  simp

@[simp] theorem State.loadSev_kept (s : State) (n : Nat) (w : Word) : (s.loadSev n w).kept = s.kept := by
  unfold State.loadSev
  (repeat' split) <;> simp

@[simp] theorem State.loadProfs_kept (s : State) (index profs : List Word) : (s.loadProfs index profs).kept = s.kept := by
  unfold State.loadProfs
  (try dsimp only)
  (try simp (disch := (intros; (repeat' split) <;> (try simp))) [foldl_kept])

@[simp] theorem State.selfTestStep_kept (s : State) : (s.selfTestStep).kept = s.kept := by
  unfold State.selfTestStep
  (repeat' split) <;> simp

@[simp] theorem State.endDeviceLongs_kept (s : State) : (s.endDeviceLongs).kept = s.kept := by
  unfold State.endDeviceLongs
  (repeat' split) <;> simp

theorem State.eachUnit_kept (s : State) (f : State → UnitKind → Nat → State) (h : ∀ t k n, State.kept (f t k n) = t.kept) : (s.eachUnit f).kept = s.kept := by
  unfold State.eachUnit
  exact foldl_kept _ (fun t (p : UnitKind × Nat) => h t p.1 p.2) _ s

@[simp] theorem State.replaceStep_kept (s : State) (k : UnitKind) (n : Nat) : (s.replaceStep k n).kept = s.kept := by
  unfold State.replaceStep
  (try dsimp only)
  (repeat' split) <;> (try simp (disch := (intros; (repeat' split) <;> (try simp))) [foldl_kept])

@[simp] theorem State.lapse_kept (s : State) (k : UnitKind) (n : Nat) : (s.lapse k n).kept = s.kept := by
  unfold State.lapse
  (try dsimp only)
  (repeat' split) <;> (first | with_reducible rfl | simp)

@[simp] theorem State.lapseLeg_kept (s : State) (t l : Nat) : (s.lapseLeg t l).kept = s.kept := by
  unfold State.lapseLeg
  (repeat' split) <;> simp

@[simp] theorem State.startsAll_kept (s : State) : (s.startsAll).kept = s.kept := by
  unfold State.startsAll
  (try dsimp only)
  (repeat' split) <;> (try simp (disch := (intros; (repeat' split) <;> (try simp))) [foldl_kept, State.eachUnit_kept])

@[simp] theorem State.unreadyAll_kept (s : State) : (s.unreadyAll).kept = s.kept := by
  unfold State.unreadyAll
  (try dsimp only)
  (repeat' split) <;> (try simp (disch := (intros; (repeat' split) <;> (try simp))) [foldl_kept, State.eachUnit_kept])

@[simp] theorem State.syncUnit_kept (s : State) (k : UnitKind) (n : Nat) : (s.syncUnit k n).kept = s.kept := by
  unfold State.syncUnit
  simp

@[simp] theorem State.syncUnits_kept (s : State) : (s.syncUnits).kept = s.kept := by
  unfold State.syncUnits
  (try dsimp only)
  (try simp (disch := (intros; (repeat' split) <;> (try simp))) [foldl_kept])

@[simp] theorem State.leaveConfigure_kept (s : State) : (s.leaveConfigure).kept = s.kept := by
  unfold State.leaveConfigure
  (try dsimp only)
  (try simp (disch := (intros; (repeat' split) <;> (try simp))) [foldl_kept])

@[simp] theorem State.leftByLock_kept (s : State) : (s.leftByLock).kept = s.kept := by
  unfold State.leftByLock
  (try dsimp only)
  (repeat' split) <;> (try simp (disch := (intros; (repeat' split) <;> (try simp))) [foldl_kept])

@[simp] theorem State.enterConfigure_kept (s : State) : (s.enterConfigure).kept = s.kept := by
  unfold State.enterConfigure
  (try dsimp only)
  (try simp (disch := (intros; (repeat' split) <;> (try simp))) [foldl_kept])

@[simp] theorem State.powerAll_kept (s : State) : (s.powerAll).kept = s.kept := by
  unfold State.powerAll
  (try simp (disch := (intros; (repeat' split) <;> (try simp))) [foldl_kept])

@[simp] theorem State.unpowerAll_kept (s : State) (was : DevMode) : (s.unpowerAll was).kept = s.kept := by
  unfold State.unpowerAll
  (repeat' split) <;> (try simp (disch := (intros; (repeat' split) <;> (try simp))) [foldl_kept])

@[simp] theorem State.holdAll_kept (s : State) : (s.holdAll).kept = s.kept := by
  unfold State.holdAll
  (try dsimp only)
  (try simp (disch := (intros; (repeat' split) <;> (try simp))) [foldl_kept])

@[simp] theorem State.changeMode_kept (s : State) (b : DevMode) (cause : Nat) : (s.changeMode b cause).kept = s.kept := by
  unfold State.changeMode
  (try dsimp only)
  (repeat' split) <;> (try simp (disch := (intros; (repeat' split) <;> (try simp))) [State.eachUnit_kept])

@[simp] theorem State.takeRequest_kept (s : State) (target cause : Nat) (g : Option Tag) : (s.takeRequest target cause g).kept = s.kept := by
  unfold State.takeRequest
  (repeat' split) <;> simp

@[simp] theorem State.modeStep_kept (s : State) : (s.modeStep).kept = s.kept := by
  unfold State.modeStep
  (try dsimp only)
  (repeat' split) <;> (first | with_reducible rfl | simp)

@[simp] theorem State.bootRetire_kept (s : State) (n : Nat) (spare : Bool) : (s.bootRetire n spare).kept = s.kept := by
  unfold State.bootRetire
  simp

@[simp] theorem State.bootCores_kept (s : State) (pass : List Bool) : (s.bootCores pass).kept = s.kept := by
  unfold State.bootCores
  (try dsimp only)
  (repeat' split) <;> (try simp (disch := (intros; (repeat' split) <;> (try simp))) [foldl_kept])

@[simp] theorem State.tcmDiffers_kept (s : State) (n : Nat) : (s.tcmDiffers n).kept = s.kept := by
  unfold State.tcmDiffers
  simp

@[simp] theorem State.boot_kept (s : State) (o : BootObs) : (s.boot o).kept = s.kept := by
  unfold State.boot
  (try dsimp only)
  (repeat' split) <;> (try simp (disch := (intros; (repeat' split) <;> (try simp))) [foldl_kept])

@[simp] theorem State.ringDone_kept (s : State) (r idx : Nat) (late : Bool) : (s.ringDone r idx late).kept = s.kept := by
  unfold State.ringDone
  (repeat' split) <;> simp

@[simp] theorem State.fenceCheck_kept (s : State) (r : Nat) : (s.fenceCheck r).kept = s.kept := by
  unfold State.fenceCheck
  (repeat' split) <;> simp

@[simp] theorem State.takeFence_kept (s : State) (g : Tag) (d : Desc) : (s.takeFence g d).kept = s.kept := by
  unfold State.takeFence
  simp

@[simp] theorem State.takeWait_kept (s : State) (g : Tag) (d : Desc) : (s.takeWait g d).kept = s.kept := by
  unfold State.takeWait
  simp

@[simp] theorem State.waitRcStep_kept (s : State) (r : Nat) : (s.waitRcStep r).kept = s.kept := by
  unfold State.waitRcStep
  (repeat' split) <;> simp

@[simp] theorem State.takeDiag_kept (s : State) (g : Tag) (d : Desc) : (s.takeDiag g d).kept = s.kept := by
  unfold State.takeDiag
  simp

@[simp] theorem State.takeNv_kept (s : State) (g : Tag) (d : Desc) : (s.takeNv g d).kept = s.kept := by
  unfold State.takeNv
  simp

@[simp] theorem State.takeSelfTest_kept (s : State) (g : Tag) (d : Desc) : (s.takeSelfTest g d).kept = s.kept := by
  unfold State.takeSelfTest
  simp

@[simp] theorem State.takeApprove_kept (s : State) (g : Tag) (d : Desc) : (s.takeApprove g d).kept = s.kept := by
  unfold State.takeApprove
  simp

@[simp] theorem State.carryNow_kept (s : State) (g : Tag) (d : Desc) (t : Target) (p : Profile) : (s.carryNow g d t p).kept = s.kept := by
  unfold State.carryNow
  (repeat' split) <;> simp

@[simp] theorem State.carry_kept (s : State) (g : Tag) (d : Desc) (t : Target) : (s.carry g d t).kept = s.kept := by
  unfold State.carry
  (repeat' split) <;> simp

@[simp] theorem State.carryDeferred_kept (s : State) (k : UnitKind) (n : Nat) : (s.carryDeferred k n).kept = s.kept := by
  unfold State.carryDeferred
  (try dsimp only)
  (repeat' split) <;> (try simp (disch := (intros; (repeat' split) <;> (try simp))) [foldl_kept])

@[simp] theorem State.takeUp_kept (s : State) (r : Nat) (d : Desc) : (s.takeUp r d).kept = s.kept := by
  unfold State.takeUp
  (try dsimp only)
  (repeat' split) <;> (first | with_reducible rfl | simp)

@[simp] theorem State.takeOne_kept (s : State) (r : Nat) (d : Desc) : (s.takeOne r d).kept = s.kept := by
  unfold State.takeOne
  simp

@[simp] theorem State.takeRow_kept (s : State) (o r : Nat) (d : Desc) : (s.takeRow o r d).kept = s.kept := by
  unfold State.takeRow
  simp

@[simp] theorem State.takeRing_kept (s : State) (r a_ : Nat) : (s.takeRing r a_).kept = s.kept := by
  induction a_ generalizing s with
  | zero => unfold State.takeRing; first | rfl | ((repeat' split) <;> first | rfl | simp)
  | succ f ih => unfold State.takeRing; (try dsimp only); (repeat' split) <;> first | rfl | simp [ih]

@[simp] theorem State.takePass_kept (s : State) : (s.takePass).kept = s.kept := by
  unfold State.takePass
  (try simp (disch := (intros; (repeat' split) <;> (try simp))) [State.each_kept])

@[simp] theorem State.watchStart_kept (s : State) (a : Nat) : (s.watchStart a).kept = s.kept := by
  unfold State.watchStart
  simp

@[simp] theorem State.catchUp_kept (s : State) : (s.catchUp).kept = s.kept := by
  unfold State.catchUp
  (try dsimp only)
  (try simp (disch := (intros; (repeat' split) <;> (try simp))) [foldl_kept, State.eachUnit_kept])

@[simp] theorem State.toBoundary_kept (s : State) : (s.toBoundary).kept = s.kept := by
  unfold State.toBoundary
  simp

@[simp] theorem State.sample_kept (s : State) : (s.sample).kept = s.kept := by
  unfold State.sample
  simp

@[simp] theorem State.queuePeriod_kept (s : State) (k : UnitKind) (n : Nat) : (s.queuePeriod k n).1.kept = s.kept := by
  unfold State.queuePeriod
  simp

@[simp] theorem State.playPeriod_kept (s : State) (k : UnitKind) (n : Nat) (p : Play) (adv : Int) : (s.playPeriod k n p adv).kept = s.kept := by
  unfold State.playPeriod
  (repeat' split) <;> simp

@[simp] theorem State.ownPeriod_kept (s : State) (k : UnitKind) (n : Nat) (adv : Int) : (s.ownPeriod k n adv).1.kept = s.kept := by
  unfold State.ownPeriod
  (try dsimp only)
  (repeat' split) <;> (first | with_reducible rfl | simp)

@[simp] theorem State.courseBond_kept (s : State) (c : Nat) : (s.courseBond c).kept = s.kept := by
  unfold State.courseBond
  (repeat' split) <;> simp

@[simp] theorem State.memberAxes_kept (s : State) (c : Nat) : (s.memberAxes c).kept = s.kept := by
  unfold State.memberAxes
  (try simp (disch := (intros; (repeat' split) <;> (try simp))) [foldl_kept])

@[simp] theorem State.coursePeriod_kept (s : State) (c : Nat) (adv : Int) : (s.coursePeriod c adv).1.kept = s.kept := by
  unfold State.coursePeriod
  simp

@[simp] theorem State.integrate_kept (s : State) (adv : Int) : (s.integrate adv).1.kept = s.kept := by
  unfold State.integrate
  dsimp only
  rw [foldl_kept_pair _ (by intros; simp), foldl_kept_pair _ (by intros; apply foldl_kept_pair; intros; split <;> simp)]

@[simp] theorem State.periodEnds_kept (s : State) (l : Ends) : (s.periodEnds l).kept = s.kept := by
  unfold State.periodEnds
  (try dsimp only)
  (try simp (disch := (intros; (repeat' split) <;> (try simp))) [foldl_kept])

@[simp] theorem State.stallReact_kept (s : State) (a : Nat) : (s.stallReact a).kept = s.kept := by
  unfold State.stallReact
  (try dsimp only)
  (repeat' split) <;> (first | with_reducible rfl | simp)

@[simp] theorem State.stallStep_kept (s : State) (a : Nat) : (s.stallStep a).kept = s.kept := by
  unfold State.stallStep
  simp

@[simp] theorem State.fallen_kept (s : State) (k : UnitKind) (n : Nat) : (s.fallen k n).kept = s.kept := by
  unfold State.fallen
  (try dsimp only)
  (repeat' split) <;> (first | with_reducible rfl | simp)

@[simp] theorem State.stopStep_kept (s : State) (k : UnitKind) (n : Nat) : (s.stopStep k n).kept = s.kept := by
  unfold State.stopStep
  (repeat' split) <;> simp

@[simp] theorem State.postpone_kept (s : State) : (s.postpone).kept = s.kept := by
  unfold State.postpone
  (try dsimp only)
  (repeat' split) <;> (try simp (disch := (intros; (repeat' split) <;> (try simp))) [foldl_kept, State.eachUnit_kept])

@[simp] theorem State.feedAll_kept (s : State) : (s.feedAll).kept = s.kept := by
  unfold State.feedAll
  (repeat' split) <;> (try simp (disch := (intros; (repeat' split) <;> (try simp))) [State.eachUnit_kept])

@[simp] theorem State.extendStep_kept (s : State) (k : UnitKind) (n : Nat) : (s.extendStep k n).kept = s.kept := by
  unfold State.extendStep
  simp

@[simp] theorem State.ownStep_kept (s : State) (k : UnitKind) (n : Nat) : (s.ownStep k n).kept = s.kept := by
  unfold State.ownStep
  (repeat' split) <;> simp

@[simp] theorem State.velocityStep_kept (s : State) (k : UnitKind) (n : Nat) : (s.velocityStep k n).kept = s.kept := by
  unfold State.velocityStep
  (try dsimp only)
  (repeat' split) <;> (first | with_reducible rfl | simp)

@[simp] theorem State.laterWatch_kept (s : State) (k : UnitKind) (n : Nat) : (s.laterWatch k n).kept = s.kept := by
  unfold State.laterWatch
  (try dsimp only)
  (repeat' split) <;> (try simp (disch := (intros; (repeat' split) <;> (try simp))) [foldl_kept])

@[simp] theorem State.bookStep_kept (s : State) (a : Nat) : (s.bookStep a).kept = s.kept := by
  unfold State.bookStep
  simp

@[simp] theorem State.budgets_kept (s : State) : (s.budgets).kept = s.kept := by
  unfold State.budgets
  simp

@[simp] theorem State.usedAtBoundary_kept (s : State) : (s.usedAtBoundary).kept = s.kept := by
  unfold State.usedAtBoundary
  simp

@[simp] theorem State.currentStep_kept (s : State) (a : Nat) : (s.currentStep a).kept = s.kept := by
  unfold State.currentStep
  (try dsimp only)
  (repeat' split) <;> (try simp (disch := (intros; (repeat' split) <;> (try simp))) [foldl_kept])

@[simp] theorem State.deliverStep_kept (s : State) (a : Nat) : (s.deliverStep a).kept = s.kept := by
  unfold State.deliverStep
  simp

@[simp] theorem State.watchStep_kept (s : State) (a : Nat) : (s.watchStep a).kept = s.kept := by
  unfold State.watchStep
  simp

@[simp] theorem State.doorbellStep_kept (s : State) : (s.doorbellStep).kept = s.kept := by
  unfold State.doorbellStep
  (repeat' split) <;> simp

@[simp] theorem State.vector15_kept (s : State) : (s.vector15).kept = s.kept := by
  unfold State.vector15
  simp

@[simp] theorem State.waitRcs_kept (s : State) : (s.waitRcs).kept = s.kept := by
  unfold State.waitRcs
  (repeat' split) <;> (try simp (disch := (intros; (repeat' split) <;> (try simp))) [foldl_kept])

@[simp] theorem State.markDue_kept (s : State) : (s.markDue).kept = s.kept := by
  unfold State.markDue
  (try dsimp only)
  (try simp (disch := (intros; (repeat' split) <;> (try simp))) [foldl_kept, State.eachUnit_kept])

@[simp] theorem State.withhold_kept (s : State) : (s.withhold).kept = s.kept := by
  unfold State.withhold
  (try simp (disch := (intros; (repeat' split) <;> (try simp))) [State.eachUnit_kept])

@[simp] theorem State.unitsAtBoundary_kept (s : State) (adv : Int) (o : PeriodObs) : (s.unitsAtBoundary adv o).kept = s.kept := by
  unfold State.unitsAtBoundary
  (try dsimp only)
  (repeat' split) <;> (try simp (disch := (intros; (repeat' split) <;> (try simp))) [foldl_kept, State.eachUnit_kept])

@[simp] theorem State.coilsAtBoundary_kept (s : State) : (s.coilsAtBoundary).kept = s.kept := by
  unfold State.coilsAtBoundary
  (try dsimp only)
  (repeat' split) <;> (try simp (disch := (intros; (repeat' split) <;> (try simp))) [foldl_kept])

@[simp] theorem State.interpolate_kept (s : State) (o : PeriodObs) : (s.interpolate o).kept = s.kept := by
  unfold State.interpolate
  (try dsimp only)
  (repeat' split) <;> (try simp (disch := (intros; (repeat' split) <;> (try simp))) [State.each_kept])

@[simp] theorem State.writeStatus_kept (s : State) (ws : List Word) : (s.writeStatus ws).kept = s.kept := by
  unfold State.writeStatus
  (repeat' split) <;> simp

@[simp] theorem State.writeBack_kept (s : State) (r : Nat) (o : Outst) : (s.writeBack r o).kept = s.kept := by
  unfold State.writeBack
  simp

@[simp] theorem State.ringBack_kept (s : State) (r : Nat) : (s.ringBack r).1.kept = s.kept := by
  unfold State.ringBack
  (try dsimp only)
  (try simp (disch := (intros; (repeat' split) <;> (try simp))) [foldl_kept])

@[simp] theorem State.writeBacks_kept (s : State) : (s.writeBacks).1.kept = s.kept := by
  unfold State.writeBacks
  rw [foldl_kept_pair _ (by intros; simp)]

@[simp] theorem State.vectors_kept (s : State) (rs : List Nat) : (s.vectors rs).kept = s.kept := by
  unfold State.vectors
  (try dsimp only)
  (try simp (disch := (intros; (repeat' split) <;> (try simp))) [foldl_kept])

@[simp] theorem State.toTick_kept (s : State) : (s.toTick).kept = s.kept := by
  unfold State.toTick
  simp

@[simp] theorem State.refillAll_kept (s : State) : (s.refillAll).kept = s.kept := by
  unfold State.refillAll
  (try dsimp only)
  (repeat' split) <;> (try simp (disch := (intros; (repeat' split) <;> (try simp))) [State.eachUnit_kept])

@[simp] theorem State.planTick_kept (s : State) : (s.planTick).kept = s.kept := by
  unfold State.planTick
  simp

@[simp] theorem State.newWaits_kept (s : State) : (s.newWaits).kept = s.kept := by
  unfold State.newWaits
  (try simp (disch := (intros; (repeat' split) <;> (try simp))) [foldl_kept])

@[simp] theorem State.tick_kept (s : State) (o : TickObs) : (s.tick o).kept = s.kept := by
  unfold State.tick
  simp

@[simp] theorem idle_kept (s : State) : (idle s).kept = s.kept := by
  unfold idle
  simp

end Sys2Proof.Machine
end

