-- ==== Sys2Proof/Laws/Map.lean ====
section
/-! SUPPORT. The register map: where the offset of each unit's registers leads (R458). -/

namespace Sys2Proof.Machine

theorem Variant.axes_le (v : Variant) : v.axes ≤ 48 := by cases v <;> decide
theorem Variant.courses_le (v : Variant) : v.courses ≤ 16 := by cases v <;> decide
theorem Variant.tiles_le (v : Variant) : v.tiles ≤ 12 := by cases v <;> decide
theorem Variant.rings_le (v : Variant) : v.rings ≤ 64 := by cases v <;> decide
theorem Variant.pairs_le (v : Variant) : v.pairs ≤ 16 := by cases v <;> decide
theorem Variant.encoders_le (v : Variant) : v.encoders ≤ 4 := by cases v <;> decide

theorem instOff_lt {base stride count n o : Nat} (h : n < count) : instOff base stride count n o = base + stride * n + o := by
  simp [instOff, h]

theorem locIf_true {b : Bool} {l : Loc} (h : b = true) : locIf b l = some l := by simp [locIf, h]

theorem unit_offs (o : Nat) (h : o ∈ motionOffs ++ axisOffs ++ courseOffs) : o < 256 ∧ o % 4 = 0 := by
  revert h o; decide

theorem course_offs (o : Nat) (h : o ∈ motionOffs ++ courseOffs) : o < 128 ∧ o % 4 = 0 := by
  revert h o; decide

/-- A word offset lies in one region of the map and is looked up there alone (R458). -/
theorem locOf_region (v : Variant) {off : Nat} (h4 : off % 4 = 0) :
    (0x2000 ≤ off → off < 0x3000 → locOf v off = hostLoc v (off - 0x2000)) ∧
    (0x6000 ≤ off → off < 0x7000 → locOf v off = inpLoc v (off - 0x6000)) ∧
    (0x8000 ≤ off → off < 0x10000 → locOf v off = unitLoc v off) ∧
    (0x10000 ≤ off → off < 0x20000 → locOf v off = tileLoc v off) := by
  refine ⟨?_, ?_, ?_, ?_⟩ <;> intro lo hi <;> unfold locOf <;> (repeat' split) <;> first | omega | rfl

/-- A register of an axis. -/
theorem locOf_axis (v : Variant) (a o : Nat) (ha : a < v.axes) (ho : o ∈ motionOffs ∨ o ∈ axisOffs) :
    locOf v (unitReg .axis a o) = some (.unit .axis a o) := by
  have h48 := v.axes_le
  have hb := unit_offs o (by simp only [List.mem_append]; exact Or.inl ho)
  unfold unitReg
  dsimp only
  rw [instOff_lt (by omega)]
  rw [(locOf_region v (by omega)).2.2.1 (by omega) (by omega)]
  unfold unitLoc
  rw [if_pos (by omega)]
  have e1 : (0x8000 + 0x100 * a + o - 0x8000) / 256 = a := by omega
  have e2 : (0x8000 + 0x100 * a + o) % 256 = o := by omega
  rw [e1, e2]
  apply locIf_true
  simp only [Bool.and_eq_true, decide_eq_true_eq, Bool.or_eq_true]
  exact ⟨ha, ho⟩

/-- A register of a course. -/
theorem locOf_course (v : Variant) (c o : Nat) (hc : c < v.courses) (ho : o ∈ motionOffs ∨ o ∈ courseOffs) :
    locOf v (unitReg .course c o) = some (.unit .course c o) := by
  have h16 := v.courses_le
  have hb := course_offs o (by simp only [List.mem_append]; exact ho)
  unfold unitReg
  dsimp only
  rw [instOff_lt (by omega)]
  rw [(locOf_region v (by omega)).2.2.1 (by omega) (by omega)]
  unfold unitLoc
  rw [if_neg (by omega), if_pos (by omega)]
  have e1 : (0xC000 + 0x80 * c + o - 0xC000) / 128 = c := by omega
  have e2 : (0xC000 + 0x80 * c + o) % 128 = o := by omega
  rw [e1, e2]
  apply locIf_true
  simp only [Bool.and_eq_true, decide_eq_true_eq, Bool.or_eq_true]
  exact ⟨hc, ho⟩

/-- A register of a unit that each unit has. -/
theorem locOf_unit (s : State) (k : UnitKind) (n o : Nat) (h : s.present k n = true) (ho : o ∈ motionOffs) :
    locOf s.variant (unitReg k n o) = some (.unit k n o) := by
  cases k <;> simp only [State.present, decide_eq_true_eq] at h
  · exact locOf_axis _ _ _ h (Or.inl ho)
  · exact locOf_course _ _ _ h (Or.inl ho)

/-- A register of a ring. -/
theorem locOf_ring (v : Variant) (r o : Nat) (hr : r < v.rings) (ho : o < 32) (h4 : o % 4 = 0) :
    locOf v (ringReg r o) = some (.ring r o) := by
  have h64 := v.rings_le
  unfold ringReg
  rw [instOff_lt (by omega)]
  rw [(locOf_region v (by omega)).1 (by omega) (by omega)]
  unfold hostLoc
  simp (disch := omega) only [if_neg]
  have e1 : (0x2200 + 0x20 * r + o - 0x2000 - 0x200) / 32 = r := by omega
  have e2 : (0x2200 + 0x20 * r + o - 0x2000) % 32 = o := by omega
  rw [e1, e2]
  exact locIf_true (by simpa using hr)

/-- A budget. -/
theorem locOf_budget (v : Variant) (t : Nat) (ht : t < v.tiles) : locOf v (instOff 0x2040 4 12 t 0) = some (.budget t) := by
  have h12 := v.tiles_le
  rw [instOff_lt (by omega)]
  rw [(locOf_region v (by omega)).1 (by omega) (by omega)]
  unfold hostLoc
  rw [if_neg (by omega), if_pos (by omega)]
  have e1 : (0x2040 + 4 * t + 0 - 0x2000 - 0x40) / 4 = t := by omega
  rw [e1]
  exact locIf_true (by simpa using ht)

theorem tile_offs (o : Nat) (h : o ∈ tileOffs) : o < 256 ∧ o % 4 = 0 := by revert h o; decide
theorem leg_offs (o : Nat) (h : o ∈ legOffs) : o < 64 ∧ o % 4 = 0 := by revert h o; decide

/-- A register of a tile. -/
theorem locOf_tile (v : Variant) (t o : Nat) (ht : t < v.tiles) (ho : o ∈ tileOffs) : locOf v (tileReg t o) = some (.tile t o) := by
  have h12 := v.tiles_le
  have hb := tile_offs o ho
  unfold tileReg
  rw [instOff_lt (by omega)]
  rw [(locOf_region v (by omega)).2.2.2 (by omega) (by omega)]
  unfold tileLoc
  have e1 : (0x10000 + 0x1000 * t + o - 0x10000) / 4096 = t := by omega
  have e2 : (0x10000 + 0x1000 * t + o) % 4096 = o := by omega
  rw [e1, e2, if_pos ht, if_pos (by omega)]
  exact locIf_true (by simpa using ho)

/-- A register of a leg. -/
theorem locOf_leg (v : Variant) (t l o : Nat) (ht : t < v.tiles) (hl : l < 16) (ho : o ∈ legOffs) :
    locOf v (legReg t l o) = some (.leg t l o) := by
  have h12 := v.tiles_le
  have hb := leg_offs o ho
  unfold legReg tileReg
  rw [if_pos hl, instOff_lt (by omega)]
  rw [(locOf_region v (by omega)).2.2.2 (by omega) (by omega)]
  unfold tileLoc
  have e1 : (0x10000 + 0x1000 * t + (0x100 + 0x40 * l + o) - 0x10000) / 4096 = t := by omega
  have e2 : (0x10000 + 0x1000 * t + (0x100 + 0x40 * l + o)) % 4096 = 0x100 + 0x40 * l + o := by omega
  have e3 : (0x100 + 0x40 * l + o - 0x100) / 64 = l := by rw [Nat.add_assoc, Nat.add_sub_cancel_left]; omega
  have e4 : (0x100 + 0x40 * l + o) % 64 = o := by omega
  rw [e1, e2, if_pos ht, if_neg (by omega), if_pos (by omega), e3, e4]
  exact locIf_true (by simpa using ho)

/-- The configuration of a step/direction pair, and of an encoder. -/
theorem locOf_pair (v : Variant) (n : Nat) (hn : n < v.pairs) : locOf v (instOff 0x6100 4 16 n 0) = some (.inp (0x100 + 4 * n)) := by
  have h := v.pairs_le
  rw [instOff_lt (by omega)]
  rw [(locOf_region v (by omega)).2.1 (by omega) (by omega)]
  have e1 : 0x6100 + 4 * n + 0 - 0x6000 = 0x100 + 4 * n := by omega
  rw [e1]
  unfold inpLoc
  apply locIf_true
  have a : 0x100 ≤ 0x100 + 4 * n := by omega
  have b : 0x100 + 4 * n < 0x100 + 4 * v.pairs := by omega
  simp only [decide_eq_true a, decide_eq_true b, Bool.and_true, Bool.or_true, Bool.true_or]

theorem locOf_encoder (v : Variant) (n : Nat) (hn : n < v.encoders) :
    locOf v (instOff 0x6180 4 4 n 0) = some (.inp (0x180 + 4 * n)) := by
  have h := v.encoders_le
  rw [instOff_lt (by omega)]
  rw [(locOf_region v (by omega)).2.1 (by omega) (by omega)]
  have e1 : 0x6180 + 4 * n + 0 - 0x6000 = 0x180 + 4 * n := by omega
  rw [e1]
  unfold inpLoc
  apply locIf_true
  have a : 0x180 ≤ 0x180 + 4 * n := by omega
  have b : 0x180 + 4 * n < 0x180 + 4 * v.encoders := by omega
  simp only [decide_eq_true a, decide_eq_true b, Bool.and_true, Bool.or_true, Bool.true_or]

/-- None of these offsets lies in the MSI-X structures. -/
theorem msixOff_low {off : Nat} (h : off < 0x3E000) : msixOff off = false := by
  simp only [msixOff, Bool.or_eq_false_iff, Bool.and_eq_false_iff, decide_eq_false_iff_not]
  omega

end Sys2Proof.Machine
end

