-- ==== Sys2Proof/Laws/Memory.lean ====
section
/-! SUPPORT. The laws of banks and of the cam pool's byte memory: a read after a write to the same place gives what was written, a write leaves every
other place alone, and every write keeps the canonical form. -/

namespace Sys2Proof.Machine

/-! ### Banks -/

@[simp] theorem Bank.get_nil (d : α) (k : Nat) : Bank.get d ([] : Bank α) k = d := rfl

theorem Bank.get_cons (d : α) (j k : Nat) (w : α) (b : Bank α) :
    Bank.get d ((j, w) :: b) k = if k = j then w else Bank.get d b k := by
  rw [Bank.get, Bank.get, List.lookup_cons]
  cases e : k == j <;> simp_all

/-- A unit read after a store in the bank: the stored one under its own number, every other one as it stood. -/
theorem Bank.get_set (d : α) (b : Bank α) (k i : Nat) (v : α) :
    Bank.get d (Bank.set b k v) i = if i = k then v else Bank.get d b i := by
  fun_induction Bank.set b k v <;> grind [Bank.get_cons]

@[simp] theorem Bank.get_set_self (d : α) (b : Bank α) (k : Nat) (v : α) : Bank.get d (Bank.set b k v) k = v :=
  (Bank.get_set ..).trans (if_pos rfl)

theorem Bank.get_set_ne (d : α) (b : Bank α) (k i : Nat) (v : α) (h : i ≠ k) : Bank.get d (Bank.set b k v) i = Bank.get d b i :=
  (Bank.get_set ..).trans (if_neg h)

/-- Of two stores at one number the later stands. -/
theorem Bank.set_set (b : Bank α) (k : Nat) (v w : α) : Bank.set (Bank.set b k v) k w = Bank.set b k w := by
  fun_induction Bank.set b k v <;> grind [Bank.set]

/-! ### The cam pool -/

theorem Memory.read_cons (j a : Nat) (w : BitVec 8) (m : List Host.Cell) :
    Memory.read ((j, w) :: m) a = if a = j then w else Memory.read m a :=
  Bank.get_cons Memory.unlisted j a w m

/-- A byte below every listed address reads as an unlisted one. -/
theorem Memory.read_below (m : List Host.Cell) (lo a : Nat) (h : Memory.wfFrom lo m = true) (ha : a < lo) :
    Memory.read m a = Memory.unlisted := by
  induction m generalizing lo with
  | nil => rfl
  | cons p m ih =>
    obtain ⟨j, w⟩ := p
    simp only [Memory.wfFrom, Bool.and_eq_true, decide_eq_true_eq] at h
    obtain ⟨⟨h1, -⟩, h3⟩ := h
    rw [Memory.read_cons, if_neg (by omega)]
    exact ih (j + 1) h3 (by omega)

/-- The canonical form from a bound holds from every lower one. -/
theorem Memory.wfFrom_mono (m : List Host.Cell) (lo lo' : Nat) (h : Memory.wfFrom lo m = true) (hl : lo' ≤ lo) :
    Memory.wfFrom lo' m = true := by
  cases m with
  | nil => rfl
  | cons p m =>
    obtain ⟨j, w⟩ := p
    simp only [Memory.wfFrom, Bool.and_eq_true, decide_eq_true_eq] at h ⊢
    exact ⟨⟨by omega, h.1.2⟩, h.2⟩

theorem Memory.write_wfFrom (m : List Host.Cell) (lo a : Nat) (v : BitVec 8) (h : Memory.wfFrom lo m = true) (ha : lo ≤ a) :
    Memory.wfFrom lo (Memory.write m a v) = true := by
  induction m generalizing lo with
  | nil =>
    unfold Memory.write
    split
    · rfl
    · rename_i hv; simp [Memory.wfFrom, ha, hv]
  | cons p m ih =>
    obtain ⟨j, w⟩ := p
    have h0 := h
    simp only [Memory.wfFrom, Bool.and_eq_true, decide_eq_true_eq] at h
    obtain ⟨⟨h1, h2⟩, h3⟩ := h
    unfold Memory.write
    split
    · split
      · exact h0
      · rename_i hv
        simp only [Memory.wfFrom, Bool.and_eq_true, decide_eq_true_eq]
        exact ⟨⟨ha, hv⟩, ⟨by omega, h2⟩, h3⟩
    · split
      · rename_i hj; subst hj
        split
        · exact Memory.wfFrom_mono m (j + 1) lo h3 (by omega)
        · rename_i hv
          simp only [Memory.wfFrom, Bool.and_eq_true, decide_eq_true_eq]
          exact ⟨⟨ha, hv⟩, h3⟩
      · simp only [Memory.wfFrom, Bool.and_eq_true, decide_eq_true_eq]
        exact ⟨⟨h1, h2⟩, ih (j + 1) h3 (by omega)⟩

/-- A write keeps the canonical form. -/
theorem Memory.write_wf (m : List Host.Cell) (a : Nat) (v : BitVec 8) (h : Memory.wf m = true) : Memory.wf (Memory.write m a v) = true :=
  Memory.write_wfFrom m 0 a v h (Nat.zero_le a)

/-- A write of a word keeps the canonical form. -/
theorem Memory.writeWord_wf (m : List Host.Cell) (a : Nat) (v : Word) (h : Memory.wf m = true) :
    Memory.wf (Memory.writeWord m a v) = true := by
  unfold Memory.writeWord
  exact Memory.write_wf _ _ _ (Memory.write_wf _ _ _ (Memory.write_wf _ _ _ (Memory.write_wf _ _ _ h)))

theorem Memory.read_write_from (m : List Host.Cell) (lo a b : Nat) (v : BitVec 8) (h : Memory.wfFrom lo m = true) :
    Memory.read (Memory.write m a v) b = if b = a then v else Memory.read m b := by
  induction m generalizing lo with
  | nil =>
    unfold Memory.write
    split
    · rename_i hv; subst hv; split <;> rfl
    · exact Memory.read_cons ..
  | cons p m ih =>
    obtain ⟨j, w⟩ := p
    have h0 := h
    simp only [Memory.wfFrom, Bool.and_eq_true, decide_eq_true_eq] at h
    obtain ⟨⟨h1, h2⟩, h3⟩ := h
    unfold Memory.write
    split
    · rename_i hlt
      split
      · rename_i hv; subst hv
        split
        · rename_i hb; subst hb
          rw [Memory.read_cons, if_neg (by omega)]
          exact Memory.read_below m (j + 1) b h3 (by omega)
        · rfl
      · exact Memory.read_cons ..
    · split
      · rename_i hj; subst hj
        split
        · rename_i hv; subst hv
          split
          · rename_i hb; subst hb; exact Memory.read_below m (b + 1) b h3 (by omega)
          · rename_i hb; rw [Memory.read_cons, if_neg hb]
        · rw [Memory.read_cons]
          split
          · rfl
          · rename_i hb; rw [Memory.read_cons, if_neg hb]
      · rename_i hn
        rw [Memory.read_cons, Memory.read_cons, ih (j + 1) h3]
        split
        · rename_i hb; subst hb; rw [if_neg hn]
        · rfl

/-- The byte read after a byte written: the byte written at its address, else the byte that stood there. -/
theorem Memory.read_write (m : List Host.Cell) (a b : Nat) (v : BitVec 8) (h : Memory.wf m = true) :
    Memory.read (Memory.write m a v) b = if b = a then v else Memory.read m b :=
  Memory.read_write_from m 0 a b v h

/-- What the byte at `b` reads as after a word is written: its own quarter of the word, or what stood there. -/
theorem Memory.read_writeWord (m : List Host.Cell) (a b : Nat) (v : Word) (h : Memory.wf m = true) :
    Memory.read (Memory.writeWord m a v) b = if b / 4 = a then v.extractLsb' (8 * (b % 4)) 8 else Memory.read m b := by
  unfold Memory.writeWord
  simp (disch := (repeat' apply Memory.write_wf) <;> exact h) only [Memory.read_write]
  have cut : b / 4 = a ↔ b = 4 * a ∨ b = 4 * a + 1 ∨ b = 4 * a + 2 ∨ b = 4 * a + 3 := by omega
  by_cases hb : b / 4 = a
  · rcases cut.1 hb with rfl | rfl | rfl | rfl <;> simp [Nat.mul_add_div]
  · grind

/-- A word written reads back. -/
theorem Memory.readWord_writeWord (m : List Host.Cell) (a : Nat) (v : Word) (h : Memory.wf m = true) :
    Memory.readWord (Memory.writeWord m a v) a = v := by
  unfold Memory.readWord
  simp only [Memory.read_writeWord _ _ _ _ h, Nat.mul_add_mod]
  ext i hi
  simp
  grind

/-- A word written leaves every byte outside its four alone. -/
theorem Memory.read_writeWord_ne (m : List Host.Cell) (a b : Nat) (v : Word) (h : Memory.wf m = true) (hb : b / 4 ≠ a) :
    Memory.read (Memory.writeWord m a v) b = Memory.read m b :=
  (Memory.read_writeWord m a b v h).trans (if_neg hb)

end Sys2Proof.Machine
end

