-- ==== Sys2Proof/WellFormed.lean ====
section
/-! DEFINITION. Well-formed commands: the operands name a unit that the largest variant has (R1), an offset that the interface
carries (R27, R431), a register of the row's own kind, or a frame, descriptor or list of the length its rule gives.
A command that is not well formed names nothing of the block: as a register access it is one to an absent unit, and
any other changes nothing. -/

namespace Sys2Proof

/-- A ring of R377. -/
def ringOk (r : Nat) : Bool := decide (r < 64)

/-- An axis of R1. -/
def axisOk (a : Nat) : Bool := decide (a < 48)

/-- A course of R1. -/
def courseOk (c : Nat) : Bool := decide (c < 16)

/-- An axis or a course. -/
def unitOk (k : UnitKind) (n : Nat) : Bool :=
  match k with
  | .axis => axisOk n
  | .course => courseOk n

/-- A tile of R1. -/
def tileOk (t : Nat) : Bool := decide (t < 12)

/-- A leg of a tile (R19). -/
def legOk (t l : Nat) : Bool := tileOk t && decide (l < 16)

/-- A step and direction pair of R1. -/
def pairOk (n : Nat) : Bool := decide (n < 16)

/-- An encoder of R1. -/
def encoderOk (n : Nat) : Bool := decide (n < 4)

/-- A sense input of R1. -/
def senseOk (n : Nat) : Bool := decide (n < 64)

/-- A register of 32 sense inputs. -/
def senseBankOk (j : Nat) : Bool := decide (j < 2)

/-- A line input, strait port or REFOUT output. -/
def twoOk (n : Nat) : Bool := decide (n < 2)

/-- A table window of R1. -/
def windowOk (w : Nat) : Bool := decide (w < 16)

/-- A BAR0 offset of a register: below 2^18 and a multiple of 4 (R27, R431). -/
def offOk (off : Nat) : Bool := decide (off < 262144) && decide (off % 4 = 0)

/-- A request to BAR0 carries at least one byte and at most 4 KiB, and lies within BAR0 (R431, R435). -/
def requestOk (addr n : Nat) : Bool := decide (1 ≤ n) && decide (n ≤ 4096) && decide (addr + n ≤ 262144)

/-- An image fills at most its patch slot of 2 KiB, which is one of four; a scan shifts at most one bit for each ball (R453, R540). -/
def tapOk : TapInstr → Bool
  | .patchUpdate slot image => decide (slot < 4) && decide (image.length ≤ 512)
  | .scan cells => decide (cells.length ≤ 256)
  | _ => true

/-- A descriptor has the eight words it carries, and none or eight words were read with it (R404, R408). -/
def descOk (d : Desc) : Bool := decide (d.param.length = 0) || decide (d.param.length = 8)

/-- A frame as a port delivers it: 27 characters between the ends of a frame (R98). -/
def frameOk (f : List Byte) : Bool := decide (f.length ≤ 64)

/-- A core's number (R467). -/
def coreOk (n : Nat) : Bool := decide (n < 4)

/-- What the checkers find names present units. -/
def periodObsOk (o : PeriodObs) : Bool :=
  o.differ.all (fun d => decide (d.kind < 4) && decide (d.index < 64) && decide (d.cores < 8)) &&
  o.runnerFail.all axisOk && o.engineFail.all courseOk

/-- What the boot checks find: four cores and four patch slots, and present units (R542). -/
def bootObsOk (o : BootObs) : Bool :=
  decide (o.patchGood.length = 4) && decide (o.corePass.length = 4) && o.rowFail.all (fun r => decide (r < 1024)) &&
  o.tcmDiffer.all coreOk && o.runnerFail.all axisOk && o.engineFail.all courseOk && o.lineFail.all (fun p => decide (p.1 < 3))

/-- A copy of a bus write addresses a word (R469). -/
def busCopyOk (c : Option BusCopy) : Bool :=
  match c with
  | none => true
  | some b => decide (b.addr.toNat % 4 = 0)

/-- A command is well formed. -/
def Instr.wf (i : Instr) : Bool :=
  match i with
  | .nop r d => ringOk r && descOk d
  | .fence r d => ringOk r && descOk d
  | .waitRc r d => ringOk r && descOk d
  | .setProfile r d => ringOk r && descOk d
  | .moveTo r d => ringOk r && descOk d
  | .moveBy r d => ringOk r && descOk d
  | .velocity r d => ringOk r && descOk d
  | .stop r d => ringOk r && descOk d
  | .qstop r d => ringOk r && descOk d
  | .resume r d => ringOk r && descOk d
  | .setCurrent r d => ringOk r && descOk d
  | .home r d => ringOk r && descOk d
  | .characterize r d => ringOk r && descOk d
  | .playTable r d => ringOk r && descOk d
  | .followSteps r d => ringOk r && descOk d
  | .bindCourse r d => ringOk r && descOk d
  | .unbindCourse r d => ringOk r && descOk d
  | .solPulse r d => ringOk r && descOk d
  | .solHold r d => ringOk r && descOk d
  | .diagOffstate r d => ringOk r && descOk d
  | .readHistory r d => ringOk r && descOk d
  | .setMode r d => ringOk r && descOk d
  | .nvCommit r d => ringOk r && descOk d
  | .selfTest r d => ringOk r && descOk d
  | .spareApprove r d => ringOk r && descOk d
  | .glbModeReqWrite _ => true
  | .modeRequestTaken => true
  | .anchorSet _ => true
  | .refRcLoRead => true
  | .loRegisterRead off => offOk off
  | .rocRead off => offOk off
  | .narrowRead addr en => requestOk addr en.length
  | .narrowWrite addr en bytes => requestOk addr bytes.length && decide (en.length = bytes.length)
  | .registerWrite off _ => offOk off
  | .crsCamDataAccess _ => true
  | .fltHistSelWrite _ => true
  | .fltAck _ => true
  | .fltInjArm _ => true
  | .fltInjDisarm _ => true
  | .fltPinLevel _ => true
  | .clrUnc k n _ => unitOk k n
  | .clrTrip t l _ => legOk t l
  | .clrIso t _ => tileOk t
  | .inpSafeClr j _ => senseBankOk j
  | .train _ => true
  | .arm t l _ => legOk t l
  | .legPwmPerWrite t l _ => legOk t l
  | .commit _ => true
  | .uncommit _ => true
  | .cfgCrcRefWrite _ => true
  | .cfgLockWrite _ => true
  | .unitEnable k n _ => unitOk k n
  | .unitDisable k n _ => unitOk k n
  | .disableTakesEffect k n => unitOk k n
  | .refEnable _ => true
  | .rcStart => true
  | .refDisable _ => true
  | .tcompEnWrite _ => true
  | .hostEnable _ => true
  | .hostDisable _ => true
  | .ringEnable r _ => ringOk r
  | .ringDisable r _ => ringOk r
  | .hostRingQuotaWrite r _ => ringOk r
  | .hostTileBudgetWrite t _ => tileOk t
  | .tileCtrlEnWrite t _ => tileOk t
  | .legModeWrite t l _ => legOk t l
  | .stepPairEnable n _ => pairOk n
  | .encoderEnable n _ => encoderOk n
  | .inpFiltWrite j _ => senseBankOk j
  | .policyAutomatic => true
  | .interpolationPeriod o => periodObsOk o
  | .doorbellReadComplete pis => decide (pis.length ≤ 64)
  | .prefetchComplete r _ ds => ringOk r && decide (ds.length ≤ 16) && ds.all descOk
  | .parameterReadComplete r _ param => ringOk r && decide (param.length ≤ 8)
  | .planningTick _ => true
  | .quotaRefill => true
  | .crcPassStart => true
  | .crcPassEnd => true
  | .coreScrub sigs => decide (sigs.length ≤ 4)
  | .sramScrubRead w _ => decide (w < 294912)
  | .rowSpareCopyComplete row => decide (row < 9216)
  | .streamReadComplete w _ bytes => windowOk w && decide (bytes.length ≤ 256)
  | .revDwellEnd k n => unitOk k n
  | .throttleDwellEnd k n => unitOk k n
  | .startRelease k n => unitOk k n
  | .axisEnergize a => axisOk a
  | .displacementWatchStart a => axisOk a
  | .solPulseStart t l => legOk t l
  | .pullInEnd t l => legOk t l
  | .holdEnd t l => legOk t l
  | .freewheelEnd t l => legOk t l
  | .diagLegPhaseEnd t _ _ => tileOk t
  | .nvStepComplete _ => true
  | .resetRelease _ _ => true
  | .internalReset => true
  | .bootComplete o => bootObsOk o
  | .sealedToConfigure => true
  | .logicSupplyFail => true
  | .enLow => true
  | .vgateUv t => tileOk t
  | .vgateOv t => tileOk t
  | .vmUv t => tileOk t
  | .vmOv t => tileOk t
  | .bstUv t l => legOk t l
  | .prechargeTimeout t l => legOk t l
  | .handshakeConfirm t l _ => legOk t l
  | .deadTimeEnd t l _ => legOk t l
  | .gateHsTimeout t l _ => legOk t l
  | .crossCmd t l => legOk t l
  | .gateEdgeMeasured t l _ _ _ seg _ => legOk t l && decide (seg < 16)
  | .segmentConductsOff t l _ seg => legOk t l && decide (seg < 16)
  | .desaturation t l _ => legOk t l
  | .grossDesaturation t l _ => legOk t l
  | .shuntTrip t l => legOk t l
  | .reactionWindowEnd _ => true
  | .nfaultPulseEnd => true
  | .coilComparatorTrip a _ _ _ => axisOk a
  | .blankingEnd a _ _ _ => axisOk a
  | .onTimeSaturation a _ _ => axisOk a
  | .fastPortionEnd a _ => axisOk a
  | .offTimeEnd a _ => axisOk a
  | .spareTakeover t => tileOk t
  | .pwmPeriodBoundary t l => legOk t l
  | .pwmDriveOn t l => legOk t l
  | .pwmDriveOff t l => legOk t l
  | .converterTrigger t l _ => legOk t l
  | .adcConversionDone t _ => tileOk t
  | .senseQualifiedEdge n _ _ => senseOk n
  | .inputKnown n _ => senseOk n
  | .stpEdge n _ => pairOk n
  | .encoderEdge n _ _ => encoderOk n
  | .encoderIndexEdge n => encoderOk n
  | .encoderRateTimeout n => encoderOk n
  | .lineEdge e => twoOk e.n
  | .lineHoldover n => twoOk n
  | .lineLost n => twoOk n
  | .thermalSample t _ _ => tileOk t
  | .dieTempUpdate => true
  | .syncSend => true
  | .syncReceive f => frameOk f
  | .syncMissing => true
  | .faultFrameReceive p f => twoOk p && frameOk f
  | .upstatusReceive f => frameOk f
  | .linkAlignmentGained p => twoOk p
  | .trainReqSend => true
  | .trainReqReceive p f _ => twoOk p && frameOk f
  | .trainEchoReceive f _ => frameOk f
  | .oscSwitch => true
  | .returnToPrimary => true
  | .oscBkpFail => true
  | .clkLost => true
  | .hostLinkDown c => decide (c < 4)
  | .hotReset => true
  | .busWriteVote a b c _ => busCopyOk a && busCopyOk b && busCopyOk c
  | .delayParity slot _ => decide (slot < 3)
  | .resyncComplete _ => true
  | .repetitionPassed => true
  | .pairDisagree => true
  | .knownAnswerTestEnd passed => passed.all coreOk
  | .dbgFreeze => true
  | .freezeRelease => true
  | .coreHold => true
  | .coreHoldRelease => true
  | .refoutPulseEnd n => twoOk n
  | .vgateGood t => tileOk t
  | .vmGood t => tileOk t
  | .bootstrapGood t l => legOk t l
  | .enHigh => true
  | .primaryOscGood => true
  | .hostLinkUp => true
  | .straitAlignmentLost p => twoOk p
  | .stepPairDisable n _ => pairOk n
  | .refoutMark n => twoOk n
  | .shadowCheckTimeout t => tileOk t
  | .dbgTapInstruction i => tapOk i

end Sys2Proof
end

