-- ==== Sys2Proof/Laws/PerInstr.lean ====
section
/-! SUPPORT. What a well-formed command names, constructor by constructor: each number that names a unit or a register lies below the count of
the largest variant (R1) or the size of BAR0 (R27). -/

namespace Sys2Proof

/-- The count of the units of a kind on the largest variant (R1). -/
def UnitKind.count (k : UnitKind) : Nat :=
  match k with
  | .axis => 48
  | .course => 16

/-- The numbers of a command that name a unit or a register, each with the bound that R1 or R27 sets. -/
def Instr.numbers (i : Instr) : List (Nat × Nat) :=
  match i with
  | .nop r _ => [(r, 64)]
  | .fence r _ => [(r, 64)]
  | .waitRc r _ => [(r, 64)]
  | .setProfile r _ => [(r, 64)]
  | .moveTo r _ => [(r, 64)]
  | .moveBy r _ => [(r, 64)]
  | .velocity r _ => [(r, 64)]
  | .stop r _ => [(r, 64)]
  | .qstop r _ => [(r, 64)]
  | .resume r _ => [(r, 64)]
  | .setCurrent r _ => [(r, 64)]
  | .home r _ => [(r, 64)]
  | .characterize r _ => [(r, 64)]
  | .playTable r _ => [(r, 64)]
  | .followSteps r _ => [(r, 64)]
  | .bindCourse r _ => [(r, 64)]
  | .unbindCourse r _ => [(r, 64)]
  | .solPulse r _ => [(r, 64)]
  | .solHold r _ => [(r, 64)]
  | .diagOffstate r _ => [(r, 64)]
  | .readHistory r _ => [(r, 64)]
  | .setMode r _ => [(r, 64)]
  | .nvCommit r _ => [(r, 64)]
  | .selfTest r _ => [(r, 64)]
  | .spareApprove r _ => [(r, 64)]
  | .glbModeReqWrite _ => []
  | .modeRequestTaken => []
  | .anchorSet _ => []
  | .refRcLoRead => []
  | .loRegisterRead off => [(off, 262144)]
  | .rocRead off => [(off, 262144)]
  | .narrowRead addr _ => [(addr, 262144)]
  | .narrowWrite addr _ _ => [(addr, 262144)]
  | .registerWrite off _ => [(off, 262144)]
  | .crsCamDataAccess _ => []
  | .fltHistSelWrite _ => []
  | .fltAck _ => []
  | .fltInjArm _ => []
  | .fltInjDisarm _ => []
  | .fltPinLevel _ => []
  | .clrUnc k n _ => [(n, k.count)]
  | .clrTrip t l _ => [(t, 12), (l, 16)]
  | .clrIso t _ => [(t, 12)]
  | .inpSafeClr j _ => [(j, 2)]
  | .train _ => []
  | .arm t l _ => [(t, 12), (l, 16)]
  | .legPwmPerWrite t l _ => [(t, 12), (l, 16)]
  | .commit _ => []
  | .uncommit _ => []
  | .cfgCrcRefWrite _ => []
  | .cfgLockWrite _ => []
  | .unitEnable k n _ => [(n, k.count)]
  | .unitDisable k n _ => [(n, k.count)]
  | .disableTakesEffect k n => [(n, k.count)]
  | .refEnable _ => []
  | .rcStart => []
  | .refDisable _ => []
  | .tcompEnWrite _ => []
  | .hostEnable _ => []
  | .hostDisable _ => []
  | .ringEnable r _ => [(r, 64)]
  | .ringDisable r _ => [(r, 64)]
  | .hostRingQuotaWrite r _ => [(r, 64)]
  | .hostTileBudgetWrite t _ => [(t, 12)]
  | .tileCtrlEnWrite t _ => [(t, 12)]
  | .legModeWrite t l _ => [(t, 12), (l, 16)]
  | .stepPairEnable n _ => [(n, 16)]
  | .encoderEnable n _ => [(n, 4)]
  | .inpFiltWrite j _ => [(j, 2)]
  | .policyAutomatic => []
  | .interpolationPeriod _ => []
  | .doorbellReadComplete _ => []
  | .prefetchComplete r _ _ => [(r, 64)]
  | .parameterReadComplete r _ _ => [(r, 64)]
  | .planningTick _ => []
  | .quotaRefill => []
  | .crcPassStart => []
  | .crcPassEnd => []
  | .coreScrub _ => []
  | .sramScrubRead _ _ => []
  | .rowSpareCopyComplete _ => []
  | .streamReadComplete w _ _ => [(w, 16)]
  | .revDwellEnd k n => [(n, k.count)]
  | .throttleDwellEnd k n => [(n, k.count)]
  | .startRelease k n => [(n, k.count)]
  | .axisEnergize a => [(a, 48)]
  | .displacementWatchStart a => [(a, 48)]
  | .solPulseStart t l => [(t, 12), (l, 16)]
  | .pullInEnd t l => [(t, 12), (l, 16)]
  | .holdEnd t l => [(t, 12), (l, 16)]
  | .freewheelEnd t l => [(t, 12), (l, 16)]
  | .diagLegPhaseEnd t _ _ => [(t, 12)]
  | .nvStepComplete _ => []
  | .resetRelease _ _ => []
  | .internalReset => []
  | .bootComplete _ => []
  | .sealedToConfigure => []
  | .logicSupplyFail => []
  | .enLow => []
  | .vgateUv t => [(t, 12)]
  | .vgateOv t => [(t, 12)]
  | .vmUv t => [(t, 12)]
  | .vmOv t => [(t, 12)]
  | .bstUv t l => [(t, 12), (l, 16)]
  | .prechargeTimeout t l => [(t, 12), (l, 16)]
  | .handshakeConfirm t l _ => [(t, 12), (l, 16)]
  | .deadTimeEnd t l _ => [(t, 12), (l, 16)]
  | .gateHsTimeout t l _ => [(t, 12), (l, 16)]
  | .crossCmd t l => [(t, 12), (l, 16)]
  | .gateEdgeMeasured t l _ _ _ _ _ => [(t, 12), (l, 16)]
  | .segmentConductsOff t l _ _ => [(t, 12), (l, 16)]
  | .desaturation t l _ => [(t, 12), (l, 16)]
  | .grossDesaturation t l _ => [(t, 12), (l, 16)]
  | .shuntTrip t l => [(t, 12), (l, 16)]
  | .reactionWindowEnd _ => []
  | .nfaultPulseEnd => []
  | .coilComparatorTrip a _ _ _ => [(a, 48)]
  | .blankingEnd a _ _ _ => [(a, 48)]
  | .onTimeSaturation a _ _ => [(a, 48)]
  | .fastPortionEnd a _ => [(a, 48)]
  | .offTimeEnd a _ => [(a, 48)]
  | .spareTakeover t => [(t, 12)]
  | .pwmPeriodBoundary t l => [(t, 12), (l, 16)]
  | .pwmDriveOn t l => [(t, 12), (l, 16)]
  | .pwmDriveOff t l => [(t, 12), (l, 16)]
  | .converterTrigger t l _ => [(t, 12), (l, 16)]
  | .adcConversionDone t _ => [(t, 12)]
  | .senseQualifiedEdge n _ _ => [(n, 64)]
  | .inputKnown n _ => [(n, 64)]
  | .stpEdge n _ => [(n, 16)]
  | .encoderEdge n _ _ => [(n, 4)]
  | .encoderIndexEdge n => [(n, 4)]
  | .encoderRateTimeout n => [(n, 4)]
  | .lineEdge e => [(e.n, 2)]
  | .lineHoldover n => [(n, 2)]
  | .lineLost n => [(n, 2)]
  | .thermalSample t _ _ => [(t, 12)]
  | .dieTempUpdate => []
  | .syncSend => []
  | .syncReceive _ => []
  | .syncMissing => []
  | .faultFrameReceive p _ => [(p, 2)]
  | .upstatusReceive _ => []
  | .linkAlignmentGained p => [(p, 2)]
  | .trainReqSend => []
  | .trainReqReceive p _ _ => [(p, 2)]
  | .trainEchoReceive _ _ => []
  | .oscSwitch => []
  | .returnToPrimary => []
  | .oscBkpFail => []
  | .clkLost => []
  | .hostLinkDown _ => []
  | .hotReset => []
  | .busWriteVote _ _ _ _ => []
  | .delayParity _ _ => []
  | .resyncComplete _ => []
  | .repetitionPassed => []
  | .pairDisagree => []
  | .knownAnswerTestEnd _ => []
  | .dbgFreeze => []
  | .freezeRelease => []
  | .coreHold => []
  | .coreHoldRelease => []
  | .refoutPulseEnd n => [(n, 2)]
  | .vgateGood t => [(t, 12)]
  | .vmGood t => [(t, 12)]
  | .bootstrapGood t l => [(t, 12), (l, 16)]
  | .enHigh => []
  | .primaryOscGood => []
  | .hostLinkUp => []
  | .straitAlignmentLost p => [(p, 2)]
  | .stepPairDisable n _ => [(n, 16)]
  | .refoutMark n => [(n, 2)]
  | .shadowCheckTimeout t => [(t, 12)]
  | .dbgTapInstruction i =>
    match i with
    | .patchUpdate slot _ => [(slot, 4)]
    | _ => []

end Sys2Proof

namespace Sys2Proof.Laws.WellFormed

/-- A well-formed command names only units and registers within their bounds. -/
def Statement (i : Instr) : Prop := i.wf = true → ∀ p ∈ i.numbers, p.1 < p.2

/-- It holds of every command, by the checks of its arm of wf. -/
theorem every (i : Instr) : Statement i := by
  unfold Statement
  cases i <;> unfold Instr.wf Instr.numbers <;> intro h <;>
    simp only [legOk, tileOk, requestOk, offOk, Bool.and_eq_true] at h <;> simp_all
  all_goals first
    | (simp_all [ringOk, axisOk, pairOk, encoderOk, senseOk, senseBankOk, twoOk, windowOk]; done)
    | (cases ‹UnitKind› <;> simp_all [unitOk, axisOk, courseOk, UnitKind.count]; done)
    | (cases ‹TapInstr› <;> simp_all [tapOk]; done)
    | omega

theorem nop (ring : Nat) (d : Desc) : Statement (.nop ring d) := every _
theorem fence (ring : Nat) (d : Desc) : Statement (.fence ring d) := every _
theorem waitRc (ring : Nat) (d : Desc) : Statement (.waitRc ring d) := every _
theorem setProfile (ring : Nat) (d : Desc) : Statement (.setProfile ring d) := every _
theorem moveTo (ring : Nat) (d : Desc) : Statement (.moveTo ring d) := every _
theorem moveBy (ring : Nat) (d : Desc) : Statement (.moveBy ring d) := every _
theorem velocity (ring : Nat) (d : Desc) : Statement (.velocity ring d) := every _
theorem stop (ring : Nat) (d : Desc) : Statement (.stop ring d) := every _
theorem qstop (ring : Nat) (d : Desc) : Statement (.qstop ring d) := every _
theorem resume (ring : Nat) (d : Desc) : Statement (.resume ring d) := every _
theorem setCurrent (ring : Nat) (d : Desc) : Statement (.setCurrent ring d) := every _
theorem home (ring : Nat) (d : Desc) : Statement (.home ring d) := every _
theorem characterize (ring : Nat) (d : Desc) : Statement (.characterize ring d) := every _
theorem playTable (ring : Nat) (d : Desc) : Statement (.playTable ring d) := every _
theorem followSteps (ring : Nat) (d : Desc) : Statement (.followSteps ring d) := every _
theorem bindCourse (ring : Nat) (d : Desc) : Statement (.bindCourse ring d) := every _
theorem unbindCourse (ring : Nat) (d : Desc) : Statement (.unbindCourse ring d) := every _
theorem solPulse (ring : Nat) (d : Desc) : Statement (.solPulse ring d) := every _
theorem solHold (ring : Nat) (d : Desc) : Statement (.solHold ring d) := every _
theorem diagOffstate (ring : Nat) (d : Desc) : Statement (.diagOffstate ring d) := every _
theorem readHistory (ring : Nat) (d : Desc) : Statement (.readHistory ring d) := every _
theorem setMode (ring : Nat) (d : Desc) : Statement (.setMode ring d) := every _
theorem nvCommit (ring : Nat) (d : Desc) : Statement (.nvCommit ring d) := every _
theorem selfTest (ring : Nat) (d : Desc) : Statement (.selfTest ring d) := every _
theorem spareApprove (ring : Nat) (d : Desc) : Statement (.spareApprove ring d) := every _
theorem glbModeReqWrite (v : Word) : Statement (.glbModeReqWrite v) := every _
theorem modeRequestTaken : Statement .modeRequestTaken := every _
theorem anchorSet (v : Word) : Statement (.anchorSet v) := every _
theorem refRcLoRead : Statement .refRcLoRead := every _
theorem loRegisterRead (off : Nat) : Statement (.loRegisterRead off) := every _
theorem rocRead (off : Nat) : Statement (.rocRead off) := every _
theorem narrowRead (addr : Nat) (en : List Bool) : Statement (.narrowRead addr en) := every _
theorem narrowWrite (addr : Nat) (en : List Bool) (bytes : List Byte) : Statement (.narrowWrite addr en bytes) := every _
theorem registerWrite (off : Nat) (v : Word) : Statement (.registerWrite off v) := every _
theorem crsCamDataAccess (v : Option Word) : Statement (.crsCamDataAccess v) := every _
theorem fltHistSelWrite (v : Word) : Statement (.fltHistSelWrite v) := every _
theorem fltAck (v : Word) : Statement (.fltAck v) := every _
theorem fltInjArm (v : Word) : Statement (.fltInjArm v) := every _
theorem fltInjDisarm (v : Word) : Statement (.fltInjDisarm v) := every _
theorem fltPinLevel (v : Word) : Statement (.fltPinLevel v) := every _
theorem clrUnc (k : UnitKind) (n : Nat) (v : Word) : Statement (.clrUnc k n v) := every _
theorem clrTrip (t l : Nat) (v : Word) : Statement (.clrTrip t l v) := every _
theorem clrIso (t : Nat) (v : Word) : Statement (.clrIso t v) := every _
theorem inpSafeClr (j : Nat) (v : Word) : Statement (.inpSafeClr j v) := every _
theorem train (v : Word) : Statement (.train v) := every _
theorem arm (t l : Nat) (v : Word) : Statement (.arm t l v) := every _
theorem legPwmPerWrite (t l : Nat) (v : Word) : Statement (.legPwmPerWrite t l v) := every _
theorem commit (v : Word) : Statement (.commit v) := every _
theorem uncommit (v : Word) : Statement (.uncommit v) := every _
theorem cfgCrcRefWrite (v : Word) : Statement (.cfgCrcRefWrite v) := every _
theorem cfgLockWrite (v : Word) : Statement (.cfgLockWrite v) := every _
theorem unitEnable (k : UnitKind) (n : Nat) (v : Word) : Statement (.unitEnable k n v) := every _
theorem unitDisable (k : UnitKind) (n : Nat) (v : Word) : Statement (.unitDisable k n v) := every _
theorem disableTakesEffect (k : UnitKind) (n : Nat) : Statement (.disableTakesEffect k n) := every _
theorem refEnable (v : Word) : Statement (.refEnable v) := every _
theorem rcStart : Statement .rcStart := every _
theorem refDisable (v : Word) : Statement (.refDisable v) := every _
theorem tcompEnWrite (v : Word) : Statement (.tcompEnWrite v) := every _
theorem hostEnable (v : Word) : Statement (.hostEnable v) := every _
theorem hostDisable (v : Word) : Statement (.hostDisable v) := every _
theorem ringEnable (r : Nat) (v : Word) : Statement (.ringEnable r v) := every _
theorem ringDisable (r : Nat) (v : Word) : Statement (.ringDisable r v) := every _
theorem hostRingQuotaWrite (r : Nat) (v : Word) : Statement (.hostRingQuotaWrite r v) := every _
theorem hostTileBudgetWrite (t : Nat) (v : Word) : Statement (.hostTileBudgetWrite t v) := every _
theorem tileCtrlEnWrite (t : Nat) (v : Word) : Statement (.tileCtrlEnWrite t v) := every _
theorem legModeWrite (t l : Nat) (v : Word) : Statement (.legModeWrite t l v) := every _
theorem stepPairEnable (n : Nat) (v : Word) : Statement (.stepPairEnable n v) := every _
theorem encoderEnable (n : Nat) (v : Word) : Statement (.encoderEnable n v) := every _
theorem inpFiltWrite (j : Nat) (v : Word) : Statement (.inpFiltWrite j v) := every _
theorem policyAutomatic : Statement .policyAutomatic := every _
theorem interpolationPeriod (o : PeriodObs) : Statement (.interpolationPeriod o) := every _
theorem doorbellReadComplete (pis : List Word) : Statement (.doorbellReadComplete pis) := every _
theorem prefetchComplete (ring : Nat) (ok : Bool) (ds : List Desc) : Statement (.prefetchComplete ring ok ds) := every _
theorem parameterReadComplete (ring : Nat) (ok : Bool) (param : List Word) : Statement (.parameterReadComplete ring ok param) := every _
theorem planningTick (o : TickObs) : Statement (.planningTick o) := every _
theorem quotaRefill : Statement .quotaRefill := every _
theorem crcPassStart : Statement .crcPassStart := every _
theorem crcPassEnd : Statement .crcPassEnd := every _
theorem coreScrub (sigs : List Word) : Statement (.coreScrub sigs) := every _
theorem sramScrubRead (word : Nat) (f : SramFinding) : Statement (.sramScrubRead word f) := every _
theorem rowSpareCopyComplete (row : Nat) : Statement (.rowSpareCopyComplete row) := every _
theorem streamReadComplete (w : Nat) (ok : Bool) (bytes : List Byte) : Statement (.streamReadComplete w ok bytes) := every _
theorem revDwellEnd (k : UnitKind) (n : Nat) : Statement (.revDwellEnd k n) := every _
theorem throttleDwellEnd (k : UnitKind) (n : Nat) : Statement (.throttleDwellEnd k n) := every _
theorem startRelease (k : UnitKind) (n : Nat) : Statement (.startRelease k n) := every _
theorem axisEnergize (a : Nat) : Statement (.axisEnergize a) := every _
theorem displacementWatchStart (a : Nat) : Statement (.displacementWatchStart a) := every _
theorem solPulseStart (t l : Nat) : Statement (.solPulseStart t l) := every _
theorem pullInEnd (t l : Nat) : Statement (.pullInEnd t l) := every _
theorem holdEnd (t l : Nat) : Statement (.holdEnd t l) := every _
theorem freewheelEnd (t l : Nat) : Statement (.freewheelEnd t l) := every _
theorem diagLegPhaseEnd (t : Nat) (first second : BitVec 12) : Statement (.diagLegPhaseEnd t first second) := every _
theorem nvStepComplete (ok : Bool) : Statement (.nvStepComplete ok) := every _
theorem resetRelease (en : Bool) (primaryGood : Bool) : Statement (.resetRelease en primaryGood) := every _
theorem internalReset : Statement .internalReset := every _
theorem bootComplete (o : BootObs) : Statement (.bootComplete o) := every _
theorem sealedToConfigure : Statement .sealedToConfigure := every _
theorem logicSupplyFail : Statement .logicSupplyFail := every _
theorem enLow : Statement .enLow := every _
theorem vgateUv (t : Nat) : Statement (.vgateUv t) := every _
theorem vgateOv (t : Nat) : Statement (.vgateOv t) := every _
theorem vmUv (t : Nat) : Statement (.vmUv t) := every _
theorem vmOv (t : Nat) : Statement (.vmOv t) := every _
theorem bstUv (t l : Nat) : Statement (.bstUv t l) := every _
theorem prechargeTimeout (t l : Nat) : Statement (.prechargeTimeout t l) := every _
theorem handshakeConfirm (t l : Nat) (sw : Switch) : Statement (.handshakeConfirm t l sw) := every _
theorem deadTimeEnd (t l : Nat) (sw : Switch) : Statement (.deadTimeEnd t l sw) := every _
theorem gateHsTimeout (t l : Nat) (sw : Switch) : Statement (.gateHsTimeout t l sw) := every _
theorem crossCmd (t l : Nat) : Statement (.crossCmd t l) := every _
theorem gateEdgeMeasured (t l : Nat) (sw : Switch) (on : Bool) (ticks : Nat) (seg : Nat) (deviates : Bool) : Statement (.gateEdgeMeasured t l sw on ticks seg deviates) := every _
theorem segmentConductsOff (t l : Nat) (sw : Switch) (seg : Nat) : Statement (.segmentConductsOff t l sw seg) := every _
theorem desaturation (t l : Nat) (sw : Switch) : Statement (.desaturation t l sw) := every _
theorem grossDesaturation (t l : Nat) (sw : Switch) : Statement (.grossDesaturation t l sw) := every _
theorem shuntTrip (t l : Nat) : Statement (.shuntTrip t l) := every _
theorem reactionWindowEnd (rec : Nat) : Statement (.reactionWindowEnd rec) := every _
theorem nfaultPulseEnd : Statement .nfaultPulseEnd := every _
theorem coilComparatorTrip (a : Nat) (c : Coil) (ticks : Nat) (spare : SpareTrip) : Statement (.coilComparatorTrip a c ticks spare) := every _
theorem blankingEnd (a : Nat) (c : Coil) (above : Bool) (spare : SpareTrip) : Statement (.blankingEnd a c above spare) := every _
theorem onTimeSaturation (a : Nat) (c : Coil) (spareTripped : Bool) : Statement (.onTimeSaturation a c spareTripped) := every _
theorem fastPortionEnd (a : Nat) (c : Coil) : Statement (.fastPortionEnd a c) := every _
theorem offTimeEnd (a : Nat) (c : Coil) : Statement (.offTimeEnd a c) := every _
theorem spareTakeover (t : Nat) : Statement (.spareTakeover t) := every _
theorem pwmPeriodBoundary (t l : Nat) : Statement (.pwmPeriodBoundary t l) := every _
theorem pwmDriveOn (t l : Nat) : Statement (.pwmDriveOn t l) := every _
theorem pwmDriveOff (t l : Nat) : Statement (.pwmDriveOff t l) := every _
theorem converterTrigger (t l : Nat) (which : Bool) : Statement (.converterTrigger t l which) := every _
theorem adcConversionDone (t : Nat) (code : BitVec 12) : Statement (.adcConversionDone t code) := every _
theorem senseQualifiedEdge (n : Nat) (level : Bool) (earlier : List Bool) : Statement (.senseQualifiedEdge n level earlier) := every _
theorem inputKnown (n : Nat) (samples : List Bool) : Statement (.inputKnown n samples) := every _
theorem stpEdge (n : Nat) (dirHigh : Bool) : Statement (.stpEdge n dirHigh) := every _
theorem encoderEdge (n : Nat) (up : Bool) (both : Bool) : Statement (.encoderEdge n up both) := every _
theorem encoderIndexEdge (n : Nat) : Statement (.encoderIndexEdge n) := every _
theorem encoderRateTimeout (n : Nat) : Statement (.encoderRateTimeout n) := every _
theorem lineEdge (e : LineEdge) : Statement (.lineEdge e) := every _
theorem lineHoldover (n : Nat) : Statement (.lineHoldover n) := every _
theorem lineLost (n : Nat) : Statement (.lineLost n) := every _
theorem thermalSample (t : Nat) (s0 s1 : BitVec 16) : Statement (.thermalSample t s0 s1) := every _
theorem dieTempUpdate : Statement .dieTempUpdate := every _
theorem syncSend : Statement .syncSend := every _
theorem syncReceive (frame : List Byte) : Statement (.syncReceive frame) := every _
theorem syncMissing : Statement .syncMissing := every _
theorem faultFrameReceive (port : Nat) (frame : List Byte) : Statement (.faultFrameReceive port frame) := every _
theorem upstatusReceive (frame : List Byte) : Statement (.upstatusReceive frame) := every _
theorem linkAlignmentGained (port : Nat) : Statement (.linkAlignmentGained port) := every _
theorem trainReqSend : Statement .trainReqSend := every _
theorem trainReqReceive (port : Nat) (frame : List Byte) (wait : Nat) : Statement (.trainReqReceive port frame wait) := every _
theorem trainEchoReceive (frame : List Byte) (rtt : Nat) : Statement (.trainEchoReceive frame rtt) := every _
theorem oscSwitch : Statement .oscSwitch := every _
theorem returnToPrimary : Statement .returnToPrimary := every _
theorem oscBkpFail : Statement .oscBkpFail := every _
theorem clkLost : Statement .clkLost := every _
theorem hostLinkDown (cause : Nat) : Statement (.hostLinkDown cause) := every _
theorem hotReset : Statement .hotReset := every _
theorem busWriteVote (c0 c1 c2 : Option BusCopy) (agree : Bool) : Statement (.busWriteVote c0 c1 c2 agree) := every _
theorem delayParity (slot : Nat) (check : DelayCheck) : Statement (.delayParity slot check) := every _
theorem resyncComplete (matches' : Bool) : Statement (.resyncComplete matches') := every _
theorem repetitionPassed : Statement .repetitionPassed := every _
theorem pairDisagree : Statement .pairDisagree := every _
theorem knownAnswerTestEnd (passed : List Nat) : Statement (.knownAnswerTestEnd passed) := every _
theorem dbgFreeze : Statement .dbgFreeze := every _
theorem freezeRelease : Statement .freezeRelease := every _
theorem coreHold : Statement .coreHold := every _
theorem coreHoldRelease : Statement .coreHoldRelease := every _
theorem refoutPulseEnd (n : Nat) : Statement (.refoutPulseEnd n) := every _
theorem vgateGood (t : Nat) : Statement (.vgateGood t) := every _
theorem vmGood (t : Nat) : Statement (.vmGood t) := every _
theorem bootstrapGood (t l : Nat) : Statement (.bootstrapGood t l) := every _
theorem enHigh : Statement .enHigh := every _
theorem primaryOscGood : Statement .primaryOscGood := every _
theorem hostLinkUp : Statement .hostLinkUp := every _
theorem straitAlignmentLost (port : Nat) : Statement (.straitAlignmentLost port) := every _
theorem stepPairDisable (n : Nat) (v : Word) : Statement (.stepPairDisable n v) := every _
theorem refoutMark (n : Nat) : Statement (.refoutMark n) := every _
theorem shadowCheckTimeout (t : Nat) : Statement (.shadowCheckTimeout t) := every _
theorem dbgTapInstruction (i : TapInstr) : Statement (.dbgTapInstruction i) := every _

end Sys2Proof.Laws.WellFormed
end

