-- ==== Sys2Proof/Laws/State.lean ====
section
/-! SUPPORT. What each update of one unit leaves as it is, field by field of the state, and what reading a unit gives after it. -/

namespace Sys2Proof.Machine

@[simp] theorem State.setAxis_variant (s : State) (a : Nat) (x : Axis) : (s.setAxis a x).variant = s.variant := rfl
@[simp] theorem State.setAxis_dt (s : State) (a : Nat) (x : Axis) : (s.setAxis a x).dt = s.dt := rfl
@[simp] theorem State.setAxis_lastPeriod (s : State) (a : Nat) (x : Axis) : (s.setAxis a x).lastPeriod = s.lastPeriod := rfl
@[simp] theorem State.setAxis_lastTick (s : State) (a : Nat) (x : Axis) : (s.setAxis a x).lastTick = s.lastTick := rfl
@[simp] theorem State.setAxis_inReset (s : State) (a : Nat) (x : Axis) : (s.setAxis a x).inReset = s.inReset := rfl
@[simp] theorem State.setAxis_bootDone (s : State) (a : Nat) (x : Axis) : (s.setAxis a x).bootDone = s.bootDone := rfl
@[simp] theorem State.setAxis_bootPassed (s : State) (a : Nat) (x : Axis) : (s.setAxis a x).bootPassed = s.bootPassed := rfl
@[simp] theorem State.setAxis_tap (s : State) (a : Nat) (x : Axis) : (s.setAxis a x).tap = s.tap := rfl
@[simp] theorem State.setAxis_glb (s : State) (a : Nat) (x : Axis) : (s.setAxis a x).glb = s.glb := rfl
@[simp] theorem State.setAxis_ref (s : State) (a : Nat) (x : Axis) : (s.setAxis a x).ref = s.ref := rfl
@[simp] theorem State.setAxis_str (s : State) (a : Nat) (x : Axis) : (s.setAxis a x).str = s.str := rfl
@[simp] theorem State.setAxis_host (s : State) (a : Nat) (x : Axis) : (s.setAxis a x).host = s.host := rfl
@[simp] theorem State.setAxis_flt (s : State) (a : Nat) (x : Axis) : (s.setAxis a x).flt = s.flt := rfl
@[simp] theorem State.setAxis_thm (s : State) (a : Nat) (x : Axis) : (s.setAxis a x).thm = s.thm := rfl
@[simp] theorem State.setAxis_spr (s : State) (a : Nat) (x : Axis) : (s.setAxis a x).spr = s.spr := rfl
@[simp] theorem State.setAxis_inp (s : State) (a : Nat) (x : Axis) : (s.setAxis a x).inp = s.inp := rfl
@[simp] theorem State.setAxis_courses (s : State) (a : Nat) (x : Axis) : (s.setAxis a x).courses = s.courses := rfl
@[simp] theorem State.setAxis_camAddr (s : State) (a : Nat) (x : Axis) : (s.setAxis a x).camAddr = s.camAddr := rfl
@[simp] theorem State.setAxis_cam (s : State) (a : Nat) (x : Axis) : (s.setAxis a x).cam = s.cam := rfl
@[simp] theorem State.setAxis_camBad (s : State) (a : Nat) (x : Axis) : (s.setAxis a x).camBad = s.camBad := rfl
@[simp] theorem State.setAxis_tiles (s : State) (a : Nat) (x : Axis) : (s.setAxis a x).tiles = s.tiles := rfl
@[simp] theorem State.setAxis_tbl (s : State) (a : Nat) (x : Axis) : (s.setAxis a x).tbl = s.tbl := rfl
@[simp] theorem State.setAxis_cfg (s : State) (a : Nat) (x : Axis) : (s.setAxis a x).cfg = s.cfg := rfl
@[simp] theorem State.setAxis_diag (s : State) (a : Nat) (x : Axis) : (s.setAxis a x).diag = s.diag := rfl
@[simp] theorem State.setAxis_shadows (s : State) (a : Nat) (x : Axis) : (s.setAxis a x).shadows = s.shadows := rfl
@[simp] theorem State.setAxis_rdata (s : State) (a : Nat) (x : Axis) : (s.setAxis a x).rdata = s.rdata := rfl
@[simp] theorem State.setAxis_out (s : State) (a : Nat) (x : Axis) : (s.setAxis a x).out = s.out := rfl
@[simp] theorem State.setAxis_fresh (s : State) (a : Nat) (x : Axis) : (s.setAxis a x).fresh = s.fresh := rfl
@[simp] theorem State.setAxis_pending (s : State) (a : Nat) (x : Axis) : (s.setAxis a x).pending = s.pending := rfl

@[simp] theorem State.setCourse_variant (s : State) (c : Nat) (x : Course) : (s.setCourse c x).variant = s.variant := rfl
@[simp] theorem State.setCourse_dt (s : State) (c : Nat) (x : Course) : (s.setCourse c x).dt = s.dt := rfl
@[simp] theorem State.setCourse_lastPeriod (s : State) (c : Nat) (x : Course) : (s.setCourse c x).lastPeriod = s.lastPeriod := rfl
@[simp] theorem State.setCourse_lastTick (s : State) (c : Nat) (x : Course) : (s.setCourse c x).lastTick = s.lastTick := rfl
@[simp] theorem State.setCourse_inReset (s : State) (c : Nat) (x : Course) : (s.setCourse c x).inReset = s.inReset := rfl
@[simp] theorem State.setCourse_bootDone (s : State) (c : Nat) (x : Course) : (s.setCourse c x).bootDone = s.bootDone := rfl
@[simp] theorem State.setCourse_bootPassed (s : State) (c : Nat) (x : Course) : (s.setCourse c x).bootPassed = s.bootPassed := rfl
@[simp] theorem State.setCourse_tap (s : State) (c : Nat) (x : Course) : (s.setCourse c x).tap = s.tap := rfl
@[simp] theorem State.setCourse_glb (s : State) (c : Nat) (x : Course) : (s.setCourse c x).glb = s.glb := rfl
@[simp] theorem State.setCourse_ref (s : State) (c : Nat) (x : Course) : (s.setCourse c x).ref = s.ref := rfl
@[simp] theorem State.setCourse_str (s : State) (c : Nat) (x : Course) : (s.setCourse c x).str = s.str := rfl
@[simp] theorem State.setCourse_host (s : State) (c : Nat) (x : Course) : (s.setCourse c x).host = s.host := rfl
@[simp] theorem State.setCourse_flt (s : State) (c : Nat) (x : Course) : (s.setCourse c x).flt = s.flt := rfl
@[simp] theorem State.setCourse_thm (s : State) (c : Nat) (x : Course) : (s.setCourse c x).thm = s.thm := rfl
@[simp] theorem State.setCourse_spr (s : State) (c : Nat) (x : Course) : (s.setCourse c x).spr = s.spr := rfl
@[simp] theorem State.setCourse_inp (s : State) (c : Nat) (x : Course) : (s.setCourse c x).inp = s.inp := rfl
@[simp] theorem State.setCourse_axes (s : State) (c : Nat) (x : Course) : (s.setCourse c x).axes = s.axes := rfl
@[simp] theorem State.setCourse_camAddr (s : State) (c : Nat) (x : Course) : (s.setCourse c x).camAddr = s.camAddr := rfl
@[simp] theorem State.setCourse_cam (s : State) (c : Nat) (x : Course) : (s.setCourse c x).cam = s.cam := rfl
@[simp] theorem State.setCourse_camBad (s : State) (c : Nat) (x : Course) : (s.setCourse c x).camBad = s.camBad := rfl
@[simp] theorem State.setCourse_tiles (s : State) (c : Nat) (x : Course) : (s.setCourse c x).tiles = s.tiles := rfl
@[simp] theorem State.setCourse_tbl (s : State) (c : Nat) (x : Course) : (s.setCourse c x).tbl = s.tbl := rfl
@[simp] theorem State.setCourse_cfg (s : State) (c : Nat) (x : Course) : (s.setCourse c x).cfg = s.cfg := rfl
@[simp] theorem State.setCourse_diag (s : State) (c : Nat) (x : Course) : (s.setCourse c x).diag = s.diag := rfl
@[simp] theorem State.setCourse_shadows (s : State) (c : Nat) (x : Course) : (s.setCourse c x).shadows = s.shadows := rfl
@[simp] theorem State.setCourse_rdata (s : State) (c : Nat) (x : Course) : (s.setCourse c x).rdata = s.rdata := rfl
@[simp] theorem State.setCourse_out (s : State) (c : Nat) (x : Course) : (s.setCourse c x).out = s.out := rfl
@[simp] theorem State.setCourse_fresh (s : State) (c : Nat) (x : Course) : (s.setCourse c x).fresh = s.fresh := rfl
@[simp] theorem State.setCourse_pending (s : State) (c : Nat) (x : Course) : (s.setCourse c x).pending = s.pending := rfl

@[simp] theorem State.setTile_variant (s : State) (t : Nat) (x : Tile) : (s.setTile t x).variant = s.variant := rfl
@[simp] theorem State.setTile_dt (s : State) (t : Nat) (x : Tile) : (s.setTile t x).dt = s.dt := rfl
@[simp] theorem State.setTile_lastPeriod (s : State) (t : Nat) (x : Tile) : (s.setTile t x).lastPeriod = s.lastPeriod := rfl
@[simp] theorem State.setTile_lastTick (s : State) (t : Nat) (x : Tile) : (s.setTile t x).lastTick = s.lastTick := rfl
@[simp] theorem State.setTile_inReset (s : State) (t : Nat) (x : Tile) : (s.setTile t x).inReset = s.inReset := rfl
@[simp] theorem State.setTile_bootDone (s : State) (t : Nat) (x : Tile) : (s.setTile t x).bootDone = s.bootDone := rfl
@[simp] theorem State.setTile_bootPassed (s : State) (t : Nat) (x : Tile) : (s.setTile t x).bootPassed = s.bootPassed := rfl
@[simp] theorem State.setTile_tap (s : State) (t : Nat) (x : Tile) : (s.setTile t x).tap = s.tap := rfl
@[simp] theorem State.setTile_glb (s : State) (t : Nat) (x : Tile) : (s.setTile t x).glb = s.glb := rfl
@[simp] theorem State.setTile_ref (s : State) (t : Nat) (x : Tile) : (s.setTile t x).ref = s.ref := rfl
@[simp] theorem State.setTile_str (s : State) (t : Nat) (x : Tile) : (s.setTile t x).str = s.str := rfl
@[simp] theorem State.setTile_host (s : State) (t : Nat) (x : Tile) : (s.setTile t x).host = s.host := rfl
@[simp] theorem State.setTile_flt (s : State) (t : Nat) (x : Tile) : (s.setTile t x).flt = s.flt := rfl
@[simp] theorem State.setTile_thm (s : State) (t : Nat) (x : Tile) : (s.setTile t x).thm = s.thm := rfl
@[simp] theorem State.setTile_spr (s : State) (t : Nat) (x : Tile) : (s.setTile t x).spr = s.spr := rfl
@[simp] theorem State.setTile_inp (s : State) (t : Nat) (x : Tile) : (s.setTile t x).inp = s.inp := rfl
@[simp] theorem State.setTile_axes (s : State) (t : Nat) (x : Tile) : (s.setTile t x).axes = s.axes := rfl
@[simp] theorem State.setTile_courses (s : State) (t : Nat) (x : Tile) : (s.setTile t x).courses = s.courses := rfl
@[simp] theorem State.setTile_camAddr (s : State) (t : Nat) (x : Tile) : (s.setTile t x).camAddr = s.camAddr := rfl
@[simp] theorem State.setTile_cam (s : State) (t : Nat) (x : Tile) : (s.setTile t x).cam = s.cam := rfl
@[simp] theorem State.setTile_camBad (s : State) (t : Nat) (x : Tile) : (s.setTile t x).camBad = s.camBad := rfl
@[simp] theorem State.setTile_tbl (s : State) (t : Nat) (x : Tile) : (s.setTile t x).tbl = s.tbl := rfl
@[simp] theorem State.setTile_cfg (s : State) (t : Nat) (x : Tile) : (s.setTile t x).cfg = s.cfg := rfl
@[simp] theorem State.setTile_diag (s : State) (t : Nat) (x : Tile) : (s.setTile t x).diag = s.diag := rfl
@[simp] theorem State.setTile_shadows (s : State) (t : Nat) (x : Tile) : (s.setTile t x).shadows = s.shadows := rfl
@[simp] theorem State.setTile_rdata (s : State) (t : Nat) (x : Tile) : (s.setTile t x).rdata = s.rdata := rfl
@[simp] theorem State.setTile_out (s : State) (t : Nat) (x : Tile) : (s.setTile t x).out = s.out := rfl
@[simp] theorem State.setTile_fresh (s : State) (t : Nat) (x : Tile) : (s.setTile t x).fresh = s.fresh := rfl
@[simp] theorem State.setTile_pending (s : State) (t : Nat) (x : Tile) : (s.setTile t x).pending = s.pending := rfl

@[simp] theorem State.setLeg_variant (s : State) (t l : Nat) (x : Leg) : (s.setLeg t l x).variant = s.variant := rfl
@[simp] theorem State.setLeg_dt (s : State) (t l : Nat) (x : Leg) : (s.setLeg t l x).dt = s.dt := rfl
@[simp] theorem State.setLeg_lastPeriod (s : State) (t l : Nat) (x : Leg) : (s.setLeg t l x).lastPeriod = s.lastPeriod := rfl
@[simp] theorem State.setLeg_lastTick (s : State) (t l : Nat) (x : Leg) : (s.setLeg t l x).lastTick = s.lastTick := rfl
@[simp] theorem State.setLeg_inReset (s : State) (t l : Nat) (x : Leg) : (s.setLeg t l x).inReset = s.inReset := rfl
@[simp] theorem State.setLeg_bootDone (s : State) (t l : Nat) (x : Leg) : (s.setLeg t l x).bootDone = s.bootDone := rfl
@[simp] theorem State.setLeg_bootPassed (s : State) (t l : Nat) (x : Leg) : (s.setLeg t l x).bootPassed = s.bootPassed := rfl
@[simp] theorem State.setLeg_tap (s : State) (t l : Nat) (x : Leg) : (s.setLeg t l x).tap = s.tap := rfl
@[simp] theorem State.setLeg_glb (s : State) (t l : Nat) (x : Leg) : (s.setLeg t l x).glb = s.glb := rfl
@[simp] theorem State.setLeg_ref (s : State) (t l : Nat) (x : Leg) : (s.setLeg t l x).ref = s.ref := rfl
@[simp] theorem State.setLeg_str (s : State) (t l : Nat) (x : Leg) : (s.setLeg t l x).str = s.str := rfl
@[simp] theorem State.setLeg_host (s : State) (t l : Nat) (x : Leg) : (s.setLeg t l x).host = s.host := rfl
@[simp] theorem State.setLeg_flt (s : State) (t l : Nat) (x : Leg) : (s.setLeg t l x).flt = s.flt := rfl
@[simp] theorem State.setLeg_thm (s : State) (t l : Nat) (x : Leg) : (s.setLeg t l x).thm = s.thm := rfl
@[simp] theorem State.setLeg_spr (s : State) (t l : Nat) (x : Leg) : (s.setLeg t l x).spr = s.spr := rfl
@[simp] theorem State.setLeg_inp (s : State) (t l : Nat) (x : Leg) : (s.setLeg t l x).inp = s.inp := rfl
@[simp] theorem State.setLeg_axes (s : State) (t l : Nat) (x : Leg) : (s.setLeg t l x).axes = s.axes := rfl
@[simp] theorem State.setLeg_courses (s : State) (t l : Nat) (x : Leg) : (s.setLeg t l x).courses = s.courses := rfl
@[simp] theorem State.setLeg_camAddr (s : State) (t l : Nat) (x : Leg) : (s.setLeg t l x).camAddr = s.camAddr := rfl
@[simp] theorem State.setLeg_cam (s : State) (t l : Nat) (x : Leg) : (s.setLeg t l x).cam = s.cam := rfl
@[simp] theorem State.setLeg_camBad (s : State) (t l : Nat) (x : Leg) : (s.setLeg t l x).camBad = s.camBad := rfl
@[simp] theorem State.setLeg_tbl (s : State) (t l : Nat) (x : Leg) : (s.setLeg t l x).tbl = s.tbl := rfl
@[simp] theorem State.setLeg_cfg (s : State) (t l : Nat) (x : Leg) : (s.setLeg t l x).cfg = s.cfg := rfl
@[simp] theorem State.setLeg_diag (s : State) (t l : Nat) (x : Leg) : (s.setLeg t l x).diag = s.diag := rfl
@[simp] theorem State.setLeg_shadows (s : State) (t l : Nat) (x : Leg) : (s.setLeg t l x).shadows = s.shadows := rfl
@[simp] theorem State.setLeg_rdata (s : State) (t l : Nat) (x : Leg) : (s.setLeg t l x).rdata = s.rdata := rfl
@[simp] theorem State.setLeg_out (s : State) (t l : Nat) (x : Leg) : (s.setLeg t l x).out = s.out := rfl
@[simp] theorem State.setLeg_fresh (s : State) (t l : Nat) (x : Leg) : (s.setLeg t l x).fresh = s.fresh := rfl
@[simp] theorem State.setLeg_pending (s : State) (t l : Nat) (x : Leg) : (s.setLeg t l x).pending = s.pending := rfl

@[simp] theorem State.setRing_variant (s : State) (r : Nat) (x : Ring) : (s.setRing r x).variant = s.variant := rfl
@[simp] theorem State.setRing_dt (s : State) (r : Nat) (x : Ring) : (s.setRing r x).dt = s.dt := rfl
@[simp] theorem State.setRing_lastPeriod (s : State) (r : Nat) (x : Ring) : (s.setRing r x).lastPeriod = s.lastPeriod := rfl
@[simp] theorem State.setRing_lastTick (s : State) (r : Nat) (x : Ring) : (s.setRing r x).lastTick = s.lastTick := rfl
@[simp] theorem State.setRing_inReset (s : State) (r : Nat) (x : Ring) : (s.setRing r x).inReset = s.inReset := rfl
@[simp] theorem State.setRing_bootDone (s : State) (r : Nat) (x : Ring) : (s.setRing r x).bootDone = s.bootDone := rfl
@[simp] theorem State.setRing_bootPassed (s : State) (r : Nat) (x : Ring) : (s.setRing r x).bootPassed = s.bootPassed := rfl
@[simp] theorem State.setRing_tap (s : State) (r : Nat) (x : Ring) : (s.setRing r x).tap = s.tap := rfl
@[simp] theorem State.setRing_glb (s : State) (r : Nat) (x : Ring) : (s.setRing r x).glb = s.glb := rfl
@[simp] theorem State.setRing_ref (s : State) (r : Nat) (x : Ring) : (s.setRing r x).ref = s.ref := rfl
@[simp] theorem State.setRing_str (s : State) (r : Nat) (x : Ring) : (s.setRing r x).str = s.str := rfl
@[simp] theorem State.setRing_flt (s : State) (r : Nat) (x : Ring) : (s.setRing r x).flt = s.flt := rfl
@[simp] theorem State.setRing_thm (s : State) (r : Nat) (x : Ring) : (s.setRing r x).thm = s.thm := rfl
@[simp] theorem State.setRing_spr (s : State) (r : Nat) (x : Ring) : (s.setRing r x).spr = s.spr := rfl
@[simp] theorem State.setRing_inp (s : State) (r : Nat) (x : Ring) : (s.setRing r x).inp = s.inp := rfl
@[simp] theorem State.setRing_axes (s : State) (r : Nat) (x : Ring) : (s.setRing r x).axes = s.axes := rfl
@[simp] theorem State.setRing_courses (s : State) (r : Nat) (x : Ring) : (s.setRing r x).courses = s.courses := rfl
@[simp] theorem State.setRing_camAddr (s : State) (r : Nat) (x : Ring) : (s.setRing r x).camAddr = s.camAddr := rfl
@[simp] theorem State.setRing_cam (s : State) (r : Nat) (x : Ring) : (s.setRing r x).cam = s.cam := rfl
@[simp] theorem State.setRing_camBad (s : State) (r : Nat) (x : Ring) : (s.setRing r x).camBad = s.camBad := rfl
@[simp] theorem State.setRing_tiles (s : State) (r : Nat) (x : Ring) : (s.setRing r x).tiles = s.tiles := rfl
@[simp] theorem State.setRing_tbl (s : State) (r : Nat) (x : Ring) : (s.setRing r x).tbl = s.tbl := rfl
@[simp] theorem State.setRing_cfg (s : State) (r : Nat) (x : Ring) : (s.setRing r x).cfg = s.cfg := rfl
@[simp] theorem State.setRing_diag (s : State) (r : Nat) (x : Ring) : (s.setRing r x).diag = s.diag := rfl
@[simp] theorem State.setRing_shadows (s : State) (r : Nat) (x : Ring) : (s.setRing r x).shadows = s.shadows := rfl
@[simp] theorem State.setRing_rdata (s : State) (r : Nat) (x : Ring) : (s.setRing r x).rdata = s.rdata := rfl
@[simp] theorem State.setRing_out (s : State) (r : Nat) (x : Ring) : (s.setRing r x).out = s.out := rfl
@[simp] theorem State.setRing_fresh (s : State) (r : Nat) (x : Ring) : (s.setRing r x).fresh = s.fresh := rfl
@[simp] theorem State.setRing_pending (s : State) (r : Nat) (x : Ring) : (s.setRing r x).pending = s.pending := rfl

@[simp] theorem State.setTwin_variant (s : State) (w : Nat) (x : TWin) : (s.setTwin w x).variant = s.variant := rfl
@[simp] theorem State.setTwin_dt (s : State) (w : Nat) (x : TWin) : (s.setTwin w x).dt = s.dt := rfl
@[simp] theorem State.setTwin_lastPeriod (s : State) (w : Nat) (x : TWin) : (s.setTwin w x).lastPeriod = s.lastPeriod := rfl
@[simp] theorem State.setTwin_lastTick (s : State) (w : Nat) (x : TWin) : (s.setTwin w x).lastTick = s.lastTick := rfl
@[simp] theorem State.setTwin_inReset (s : State) (w : Nat) (x : TWin) : (s.setTwin w x).inReset = s.inReset := rfl
@[simp] theorem State.setTwin_bootDone (s : State) (w : Nat) (x : TWin) : (s.setTwin w x).bootDone = s.bootDone := rfl
@[simp] theorem State.setTwin_bootPassed (s : State) (w : Nat) (x : TWin) : (s.setTwin w x).bootPassed = s.bootPassed := rfl
@[simp] theorem State.setTwin_tap (s : State) (w : Nat) (x : TWin) : (s.setTwin w x).tap = s.tap := rfl
@[simp] theorem State.setTwin_glb (s : State) (w : Nat) (x : TWin) : (s.setTwin w x).glb = s.glb := rfl
@[simp] theorem State.setTwin_ref (s : State) (w : Nat) (x : TWin) : (s.setTwin w x).ref = s.ref := rfl
@[simp] theorem State.setTwin_str (s : State) (w : Nat) (x : TWin) : (s.setTwin w x).str = s.str := rfl
@[simp] theorem State.setTwin_flt (s : State) (w : Nat) (x : TWin) : (s.setTwin w x).flt = s.flt := rfl
@[simp] theorem State.setTwin_thm (s : State) (w : Nat) (x : TWin) : (s.setTwin w x).thm = s.thm := rfl
@[simp] theorem State.setTwin_spr (s : State) (w : Nat) (x : TWin) : (s.setTwin w x).spr = s.spr := rfl
@[simp] theorem State.setTwin_inp (s : State) (w : Nat) (x : TWin) : (s.setTwin w x).inp = s.inp := rfl
@[simp] theorem State.setTwin_axes (s : State) (w : Nat) (x : TWin) : (s.setTwin w x).axes = s.axes := rfl
@[simp] theorem State.setTwin_courses (s : State) (w : Nat) (x : TWin) : (s.setTwin w x).courses = s.courses := rfl
@[simp] theorem State.setTwin_camAddr (s : State) (w : Nat) (x : TWin) : (s.setTwin w x).camAddr = s.camAddr := rfl
@[simp] theorem State.setTwin_cam (s : State) (w : Nat) (x : TWin) : (s.setTwin w x).cam = s.cam := rfl
@[simp] theorem State.setTwin_camBad (s : State) (w : Nat) (x : TWin) : (s.setTwin w x).camBad = s.camBad := rfl
@[simp] theorem State.setTwin_tiles (s : State) (w : Nat) (x : TWin) : (s.setTwin w x).tiles = s.tiles := rfl
@[simp] theorem State.setTwin_tbl (s : State) (w : Nat) (x : TWin) : (s.setTwin w x).tbl = s.tbl := rfl
@[simp] theorem State.setTwin_cfg (s : State) (w : Nat) (x : TWin) : (s.setTwin w x).cfg = s.cfg := rfl
@[simp] theorem State.setTwin_diag (s : State) (w : Nat) (x : TWin) : (s.setTwin w x).diag = s.diag := rfl
@[simp] theorem State.setTwin_shadows (s : State) (w : Nat) (x : TWin) : (s.setTwin w x).shadows = s.shadows := rfl
@[simp] theorem State.setTwin_rdata (s : State) (w : Nat) (x : TWin) : (s.setTwin w x).rdata = s.rdata := rfl
@[simp] theorem State.setTwin_out (s : State) (w : Nat) (x : TWin) : (s.setTwin w x).out = s.out := rfl
@[simp] theorem State.setTwin_fresh (s : State) (w : Nat) (x : TWin) : (s.setTwin w x).fresh = s.fresh := rfl
@[simp] theorem State.setTwin_pending (s : State) (w : Nat) (x : TWin) : (s.setTwin w x).pending = s.pending := rfl

@[simp] theorem State.setThmTile_variant (s : State) (t : Nat) (x : ThmTile) : (s.setThmTile t x).variant = s.variant := rfl
@[simp] theorem State.setThmTile_dt (s : State) (t : Nat) (x : ThmTile) : (s.setThmTile t x).dt = s.dt := rfl
@[simp] theorem State.setThmTile_lastPeriod (s : State) (t : Nat) (x : ThmTile) : (s.setThmTile t x).lastPeriod = s.lastPeriod := rfl
@[simp] theorem State.setThmTile_lastTick (s : State) (t : Nat) (x : ThmTile) : (s.setThmTile t x).lastTick = s.lastTick := rfl
@[simp] theorem State.setThmTile_inReset (s : State) (t : Nat) (x : ThmTile) : (s.setThmTile t x).inReset = s.inReset := rfl
@[simp] theorem State.setThmTile_bootDone (s : State) (t : Nat) (x : ThmTile) : (s.setThmTile t x).bootDone = s.bootDone := rfl
@[simp] theorem State.setThmTile_bootPassed (s : State) (t : Nat) (x : ThmTile) : (s.setThmTile t x).bootPassed = s.bootPassed := rfl
@[simp] theorem State.setThmTile_tap (s : State) (t : Nat) (x : ThmTile) : (s.setThmTile t x).tap = s.tap := rfl
@[simp] theorem State.setThmTile_glb (s : State) (t : Nat) (x : ThmTile) : (s.setThmTile t x).glb = s.glb := rfl
@[simp] theorem State.setThmTile_ref (s : State) (t : Nat) (x : ThmTile) : (s.setThmTile t x).ref = s.ref := rfl
@[simp] theorem State.setThmTile_str (s : State) (t : Nat) (x : ThmTile) : (s.setThmTile t x).str = s.str := rfl
@[simp] theorem State.setThmTile_host (s : State) (t : Nat) (x : ThmTile) : (s.setThmTile t x).host = s.host := rfl
@[simp] theorem State.setThmTile_flt (s : State) (t : Nat) (x : ThmTile) : (s.setThmTile t x).flt = s.flt := rfl
@[simp] theorem State.setThmTile_spr (s : State) (t : Nat) (x : ThmTile) : (s.setThmTile t x).spr = s.spr := rfl
@[simp] theorem State.setThmTile_inp (s : State) (t : Nat) (x : ThmTile) : (s.setThmTile t x).inp = s.inp := rfl
@[simp] theorem State.setThmTile_axes (s : State) (t : Nat) (x : ThmTile) : (s.setThmTile t x).axes = s.axes := rfl
@[simp] theorem State.setThmTile_courses (s : State) (t : Nat) (x : ThmTile) : (s.setThmTile t x).courses = s.courses := rfl
@[simp] theorem State.setThmTile_camAddr (s : State) (t : Nat) (x : ThmTile) : (s.setThmTile t x).camAddr = s.camAddr := rfl
@[simp] theorem State.setThmTile_cam (s : State) (t : Nat) (x : ThmTile) : (s.setThmTile t x).cam = s.cam := rfl
@[simp] theorem State.setThmTile_camBad (s : State) (t : Nat) (x : ThmTile) : (s.setThmTile t x).camBad = s.camBad := rfl
@[simp] theorem State.setThmTile_tiles (s : State) (t : Nat) (x : ThmTile) : (s.setThmTile t x).tiles = s.tiles := rfl
@[simp] theorem State.setThmTile_tbl (s : State) (t : Nat) (x : ThmTile) : (s.setThmTile t x).tbl = s.tbl := rfl
@[simp] theorem State.setThmTile_cfg (s : State) (t : Nat) (x : ThmTile) : (s.setThmTile t x).cfg = s.cfg := rfl
@[simp] theorem State.setThmTile_diag (s : State) (t : Nat) (x : ThmTile) : (s.setThmTile t x).diag = s.diag := rfl
@[simp] theorem State.setThmTile_shadows (s : State) (t : Nat) (x : ThmTile) : (s.setThmTile t x).shadows = s.shadows := rfl
@[simp] theorem State.setThmTile_rdata (s : State) (t : Nat) (x : ThmTile) : (s.setThmTile t x).rdata = s.rdata := rfl
@[simp] theorem State.setThmTile_out (s : State) (t : Nat) (x : ThmTile) : (s.setThmTile t x).out = s.out := rfl
@[simp] theorem State.setThmTile_fresh (s : State) (t : Nat) (x : ThmTile) : (s.setThmTile t x).fresh = s.fresh := rfl
@[simp] theorem State.setThmTile_pending (s : State) (t : Nat) (x : ThmTile) : (s.setThmTile t x).pending = s.pending := rfl

@[simp] theorem State.setCore_variant (s : State) (n : Nat) (x : CoreU) : (s.setCore n x).variant = s.variant := rfl
@[simp] theorem State.setCore_dt (s : State) (n : Nat) (x : CoreU) : (s.setCore n x).dt = s.dt := rfl
@[simp] theorem State.setCore_lastPeriod (s : State) (n : Nat) (x : CoreU) : (s.setCore n x).lastPeriod = s.lastPeriod := rfl
@[simp] theorem State.setCore_lastTick (s : State) (n : Nat) (x : CoreU) : (s.setCore n x).lastTick = s.lastTick := rfl
@[simp] theorem State.setCore_inReset (s : State) (n : Nat) (x : CoreU) : (s.setCore n x).inReset = s.inReset := rfl
@[simp] theorem State.setCore_bootDone (s : State) (n : Nat) (x : CoreU) : (s.setCore n x).bootDone = s.bootDone := rfl
@[simp] theorem State.setCore_bootPassed (s : State) (n : Nat) (x : CoreU) : (s.setCore n x).bootPassed = s.bootPassed := rfl
@[simp] theorem State.setCore_tap (s : State) (n : Nat) (x : CoreU) : (s.setCore n x).tap = s.tap := rfl
@[simp] theorem State.setCore_glb (s : State) (n : Nat) (x : CoreU) : (s.setCore n x).glb = s.glb := rfl
@[simp] theorem State.setCore_ref (s : State) (n : Nat) (x : CoreU) : (s.setCore n x).ref = s.ref := rfl
@[simp] theorem State.setCore_str (s : State) (n : Nat) (x : CoreU) : (s.setCore n x).str = s.str := rfl
@[simp] theorem State.setCore_host (s : State) (n : Nat) (x : CoreU) : (s.setCore n x).host = s.host := rfl
@[simp] theorem State.setCore_flt (s : State) (n : Nat) (x : CoreU) : (s.setCore n x).flt = s.flt := rfl
@[simp] theorem State.setCore_thm (s : State) (n : Nat) (x : CoreU) : (s.setCore n x).thm = s.thm := rfl
@[simp] theorem State.setCore_inp (s : State) (n : Nat) (x : CoreU) : (s.setCore n x).inp = s.inp := rfl
@[simp] theorem State.setCore_axes (s : State) (n : Nat) (x : CoreU) : (s.setCore n x).axes = s.axes := rfl
@[simp] theorem State.setCore_courses (s : State) (n : Nat) (x : CoreU) : (s.setCore n x).courses = s.courses := rfl
@[simp] theorem State.setCore_camAddr (s : State) (n : Nat) (x : CoreU) : (s.setCore n x).camAddr = s.camAddr := rfl
@[simp] theorem State.setCore_cam (s : State) (n : Nat) (x : CoreU) : (s.setCore n x).cam = s.cam := rfl
@[simp] theorem State.setCore_camBad (s : State) (n : Nat) (x : CoreU) : (s.setCore n x).camBad = s.camBad := rfl
@[simp] theorem State.setCore_tiles (s : State) (n : Nat) (x : CoreU) : (s.setCore n x).tiles = s.tiles := rfl
@[simp] theorem State.setCore_tbl (s : State) (n : Nat) (x : CoreU) : (s.setCore n x).tbl = s.tbl := rfl
@[simp] theorem State.setCore_cfg (s : State) (n : Nat) (x : CoreU) : (s.setCore n x).cfg = s.cfg := rfl
@[simp] theorem State.setCore_diag (s : State) (n : Nat) (x : CoreU) : (s.setCore n x).diag = s.diag := rfl
@[simp] theorem State.setCore_shadows (s : State) (n : Nat) (x : CoreU) : (s.setCore n x).shadows = s.shadows := rfl
@[simp] theorem State.setCore_rdata (s : State) (n : Nat) (x : CoreU) : (s.setCore n x).rdata = s.rdata := rfl
@[simp] theorem State.setCore_out (s : State) (n : Nat) (x : CoreU) : (s.setCore n x).out = s.out := rfl
@[simp] theorem State.setCore_fresh (s : State) (n : Nat) (x : CoreU) : (s.setCore n x).fresh = s.fresh := rfl
@[simp] theorem State.setCore_pending (s : State) (n : Nat) (x : CoreU) : (s.setCore n x).pending = s.pending := rfl

@[simp] theorem State.updAxis_variant (s : State) (a : Nat) (f : Axis → Axis) : (s.updAxis a f).variant = s.variant := rfl
@[simp] theorem State.updAxis_dt (s : State) (a : Nat) (f : Axis → Axis) : (s.updAxis a f).dt = s.dt := rfl
@[simp] theorem State.updAxis_lastPeriod (s : State) (a : Nat) (f : Axis → Axis) : (s.updAxis a f).lastPeriod = s.lastPeriod := rfl
@[simp] theorem State.updAxis_lastTick (s : State) (a : Nat) (f : Axis → Axis) : (s.updAxis a f).lastTick = s.lastTick := rfl
@[simp] theorem State.updAxis_inReset (s : State) (a : Nat) (f : Axis → Axis) : (s.updAxis a f).inReset = s.inReset := rfl
@[simp] theorem State.updAxis_bootDone (s : State) (a : Nat) (f : Axis → Axis) : (s.updAxis a f).bootDone = s.bootDone := rfl
@[simp] theorem State.updAxis_bootPassed (s : State) (a : Nat) (f : Axis → Axis) : (s.updAxis a f).bootPassed = s.bootPassed := rfl
@[simp] theorem State.updAxis_tap (s : State) (a : Nat) (f : Axis → Axis) : (s.updAxis a f).tap = s.tap := rfl
@[simp] theorem State.updAxis_glb (s : State) (a : Nat) (f : Axis → Axis) : (s.updAxis a f).glb = s.glb := rfl
@[simp] theorem State.updAxis_ref (s : State) (a : Nat) (f : Axis → Axis) : (s.updAxis a f).ref = s.ref := rfl
@[simp] theorem State.updAxis_str (s : State) (a : Nat) (f : Axis → Axis) : (s.updAxis a f).str = s.str := rfl
@[simp] theorem State.updAxis_host (s : State) (a : Nat) (f : Axis → Axis) : (s.updAxis a f).host = s.host := rfl
@[simp] theorem State.updAxis_flt (s : State) (a : Nat) (f : Axis → Axis) : (s.updAxis a f).flt = s.flt := rfl
@[simp] theorem State.updAxis_thm (s : State) (a : Nat) (f : Axis → Axis) : (s.updAxis a f).thm = s.thm := rfl
@[simp] theorem State.updAxis_spr (s : State) (a : Nat) (f : Axis → Axis) : (s.updAxis a f).spr = s.spr := rfl
@[simp] theorem State.updAxis_inp (s : State) (a : Nat) (f : Axis → Axis) : (s.updAxis a f).inp = s.inp := rfl
@[simp] theorem State.updAxis_courses (s : State) (a : Nat) (f : Axis → Axis) : (s.updAxis a f).courses = s.courses := rfl
@[simp] theorem State.updAxis_camAddr (s : State) (a : Nat) (f : Axis → Axis) : (s.updAxis a f).camAddr = s.camAddr := rfl
@[simp] theorem State.updAxis_cam (s : State) (a : Nat) (f : Axis → Axis) : (s.updAxis a f).cam = s.cam := rfl
@[simp] theorem State.updAxis_camBad (s : State) (a : Nat) (f : Axis → Axis) : (s.updAxis a f).camBad = s.camBad := rfl
@[simp] theorem State.updAxis_tiles (s : State) (a : Nat) (f : Axis → Axis) : (s.updAxis a f).tiles = s.tiles := rfl
@[simp] theorem State.updAxis_tbl (s : State) (a : Nat) (f : Axis → Axis) : (s.updAxis a f).tbl = s.tbl := rfl
@[simp] theorem State.updAxis_cfg (s : State) (a : Nat) (f : Axis → Axis) : (s.updAxis a f).cfg = s.cfg := rfl
@[simp] theorem State.updAxis_diag (s : State) (a : Nat) (f : Axis → Axis) : (s.updAxis a f).diag = s.diag := rfl
@[simp] theorem State.updAxis_shadows (s : State) (a : Nat) (f : Axis → Axis) : (s.updAxis a f).shadows = s.shadows := rfl
@[simp] theorem State.updAxis_rdata (s : State) (a : Nat) (f : Axis → Axis) : (s.updAxis a f).rdata = s.rdata := rfl
@[simp] theorem State.updAxis_out (s : State) (a : Nat) (f : Axis → Axis) : (s.updAxis a f).out = s.out := rfl
@[simp] theorem State.updAxis_fresh (s : State) (a : Nat) (f : Axis → Axis) : (s.updAxis a f).fresh = s.fresh := rfl
@[simp] theorem State.updAxis_pending (s : State) (a : Nat) (f : Axis → Axis) : (s.updAxis a f).pending = s.pending := rfl

@[simp] theorem State.updCourse_variant (s : State) (c : Nat) (f : Course → Course) : (s.updCourse c f).variant = s.variant := rfl
@[simp] theorem State.updCourse_dt (s : State) (c : Nat) (f : Course → Course) : (s.updCourse c f).dt = s.dt := rfl
@[simp] theorem State.updCourse_lastPeriod (s : State) (c : Nat) (f : Course → Course) : (s.updCourse c f).lastPeriod = s.lastPeriod := rfl
@[simp] theorem State.updCourse_lastTick (s : State) (c : Nat) (f : Course → Course) : (s.updCourse c f).lastTick = s.lastTick := rfl
@[simp] theorem State.updCourse_inReset (s : State) (c : Nat) (f : Course → Course) : (s.updCourse c f).inReset = s.inReset := rfl
@[simp] theorem State.updCourse_bootDone (s : State) (c : Nat) (f : Course → Course) : (s.updCourse c f).bootDone = s.bootDone := rfl
@[simp] theorem State.updCourse_bootPassed (s : State) (c : Nat) (f : Course → Course) : (s.updCourse c f).bootPassed = s.bootPassed := rfl
@[simp] theorem State.updCourse_tap (s : State) (c : Nat) (f : Course → Course) : (s.updCourse c f).tap = s.tap := rfl
@[simp] theorem State.updCourse_glb (s : State) (c : Nat) (f : Course → Course) : (s.updCourse c f).glb = s.glb := rfl
@[simp] theorem State.updCourse_ref (s : State) (c : Nat) (f : Course → Course) : (s.updCourse c f).ref = s.ref := rfl
@[simp] theorem State.updCourse_str (s : State) (c : Nat) (f : Course → Course) : (s.updCourse c f).str = s.str := rfl
@[simp] theorem State.updCourse_host (s : State) (c : Nat) (f : Course → Course) : (s.updCourse c f).host = s.host := rfl
@[simp] theorem State.updCourse_flt (s : State) (c : Nat) (f : Course → Course) : (s.updCourse c f).flt = s.flt := rfl
@[simp] theorem State.updCourse_thm (s : State) (c : Nat) (f : Course → Course) : (s.updCourse c f).thm = s.thm := rfl
@[simp] theorem State.updCourse_spr (s : State) (c : Nat) (f : Course → Course) : (s.updCourse c f).spr = s.spr := rfl
@[simp] theorem State.updCourse_inp (s : State) (c : Nat) (f : Course → Course) : (s.updCourse c f).inp = s.inp := rfl
@[simp] theorem State.updCourse_axes (s : State) (c : Nat) (f : Course → Course) : (s.updCourse c f).axes = s.axes := rfl
@[simp] theorem State.updCourse_camAddr (s : State) (c : Nat) (f : Course → Course) : (s.updCourse c f).camAddr = s.camAddr := rfl
@[simp] theorem State.updCourse_cam (s : State) (c : Nat) (f : Course → Course) : (s.updCourse c f).cam = s.cam := rfl
@[simp] theorem State.updCourse_camBad (s : State) (c : Nat) (f : Course → Course) : (s.updCourse c f).camBad = s.camBad := rfl
@[simp] theorem State.updCourse_tiles (s : State) (c : Nat) (f : Course → Course) : (s.updCourse c f).tiles = s.tiles := rfl
@[simp] theorem State.updCourse_tbl (s : State) (c : Nat) (f : Course → Course) : (s.updCourse c f).tbl = s.tbl := rfl
@[simp] theorem State.updCourse_cfg (s : State) (c : Nat) (f : Course → Course) : (s.updCourse c f).cfg = s.cfg := rfl
@[simp] theorem State.updCourse_diag (s : State) (c : Nat) (f : Course → Course) : (s.updCourse c f).diag = s.diag := rfl
@[simp] theorem State.updCourse_shadows (s : State) (c : Nat) (f : Course → Course) : (s.updCourse c f).shadows = s.shadows := rfl
@[simp] theorem State.updCourse_rdata (s : State) (c : Nat) (f : Course → Course) : (s.updCourse c f).rdata = s.rdata := rfl
@[simp] theorem State.updCourse_out (s : State) (c : Nat) (f : Course → Course) : (s.updCourse c f).out = s.out := rfl
@[simp] theorem State.updCourse_fresh (s : State) (c : Nat) (f : Course → Course) : (s.updCourse c f).fresh = s.fresh := rfl
@[simp] theorem State.updCourse_pending (s : State) (c : Nat) (f : Course → Course) : (s.updCourse c f).pending = s.pending := rfl

@[simp] theorem State.updTile_variant (s : State) (t : Nat) (f : Tile → Tile) : (s.updTile t f).variant = s.variant := rfl
@[simp] theorem State.updTile_dt (s : State) (t : Nat) (f : Tile → Tile) : (s.updTile t f).dt = s.dt := rfl
@[simp] theorem State.updTile_lastPeriod (s : State) (t : Nat) (f : Tile → Tile) : (s.updTile t f).lastPeriod = s.lastPeriod := rfl
@[simp] theorem State.updTile_lastTick (s : State) (t : Nat) (f : Tile → Tile) : (s.updTile t f).lastTick = s.lastTick := rfl
@[simp] theorem State.updTile_inReset (s : State) (t : Nat) (f : Tile → Tile) : (s.updTile t f).inReset = s.inReset := rfl
@[simp] theorem State.updTile_bootDone (s : State) (t : Nat) (f : Tile → Tile) : (s.updTile t f).bootDone = s.bootDone := rfl
@[simp] theorem State.updTile_bootPassed (s : State) (t : Nat) (f : Tile → Tile) : (s.updTile t f).bootPassed = s.bootPassed := rfl
@[simp] theorem State.updTile_tap (s : State) (t : Nat) (f : Tile → Tile) : (s.updTile t f).tap = s.tap := rfl
@[simp] theorem State.updTile_glb (s : State) (t : Nat) (f : Tile → Tile) : (s.updTile t f).glb = s.glb := rfl
@[simp] theorem State.updTile_ref (s : State) (t : Nat) (f : Tile → Tile) : (s.updTile t f).ref = s.ref := rfl
@[simp] theorem State.updTile_str (s : State) (t : Nat) (f : Tile → Tile) : (s.updTile t f).str = s.str := rfl
@[simp] theorem State.updTile_host (s : State) (t : Nat) (f : Tile → Tile) : (s.updTile t f).host = s.host := rfl
@[simp] theorem State.updTile_flt (s : State) (t : Nat) (f : Tile → Tile) : (s.updTile t f).flt = s.flt := rfl
@[simp] theorem State.updTile_thm (s : State) (t : Nat) (f : Tile → Tile) : (s.updTile t f).thm = s.thm := rfl
@[simp] theorem State.updTile_spr (s : State) (t : Nat) (f : Tile → Tile) : (s.updTile t f).spr = s.spr := rfl
@[simp] theorem State.updTile_inp (s : State) (t : Nat) (f : Tile → Tile) : (s.updTile t f).inp = s.inp := rfl
@[simp] theorem State.updTile_axes (s : State) (t : Nat) (f : Tile → Tile) : (s.updTile t f).axes = s.axes := rfl
@[simp] theorem State.updTile_courses (s : State) (t : Nat) (f : Tile → Tile) : (s.updTile t f).courses = s.courses := rfl
@[simp] theorem State.updTile_camAddr (s : State) (t : Nat) (f : Tile → Tile) : (s.updTile t f).camAddr = s.camAddr := rfl
@[simp] theorem State.updTile_cam (s : State) (t : Nat) (f : Tile → Tile) : (s.updTile t f).cam = s.cam := rfl
@[simp] theorem State.updTile_camBad (s : State) (t : Nat) (f : Tile → Tile) : (s.updTile t f).camBad = s.camBad := rfl
@[simp] theorem State.updTile_tbl (s : State) (t : Nat) (f : Tile → Tile) : (s.updTile t f).tbl = s.tbl := rfl
@[simp] theorem State.updTile_cfg (s : State) (t : Nat) (f : Tile → Tile) : (s.updTile t f).cfg = s.cfg := rfl
@[simp] theorem State.updTile_diag (s : State) (t : Nat) (f : Tile → Tile) : (s.updTile t f).diag = s.diag := rfl
@[simp] theorem State.updTile_shadows (s : State) (t : Nat) (f : Tile → Tile) : (s.updTile t f).shadows = s.shadows := rfl
@[simp] theorem State.updTile_rdata (s : State) (t : Nat) (f : Tile → Tile) : (s.updTile t f).rdata = s.rdata := rfl
@[simp] theorem State.updTile_out (s : State) (t : Nat) (f : Tile → Tile) : (s.updTile t f).out = s.out := rfl
@[simp] theorem State.updTile_fresh (s : State) (t : Nat) (f : Tile → Tile) : (s.updTile t f).fresh = s.fresh := rfl
@[simp] theorem State.updTile_pending (s : State) (t : Nat) (f : Tile → Tile) : (s.updTile t f).pending = s.pending := rfl

@[simp] theorem State.updLeg_variant (s : State) (t l : Nat) (f : Leg → Leg) : (s.updLeg t l f).variant = s.variant := rfl
@[simp] theorem State.updLeg_dt (s : State) (t l : Nat) (f : Leg → Leg) : (s.updLeg t l f).dt = s.dt := rfl
@[simp] theorem State.updLeg_lastPeriod (s : State) (t l : Nat) (f : Leg → Leg) : (s.updLeg t l f).lastPeriod = s.lastPeriod := rfl
@[simp] theorem State.updLeg_lastTick (s : State) (t l : Nat) (f : Leg → Leg) : (s.updLeg t l f).lastTick = s.lastTick := rfl
@[simp] theorem State.updLeg_inReset (s : State) (t l : Nat) (f : Leg → Leg) : (s.updLeg t l f).inReset = s.inReset := rfl
@[simp] theorem State.updLeg_bootDone (s : State) (t l : Nat) (f : Leg → Leg) : (s.updLeg t l f).bootDone = s.bootDone := rfl
@[simp] theorem State.updLeg_bootPassed (s : State) (t l : Nat) (f : Leg → Leg) : (s.updLeg t l f).bootPassed = s.bootPassed := rfl
@[simp] theorem State.updLeg_tap (s : State) (t l : Nat) (f : Leg → Leg) : (s.updLeg t l f).tap = s.tap := rfl
@[simp] theorem State.updLeg_glb (s : State) (t l : Nat) (f : Leg → Leg) : (s.updLeg t l f).glb = s.glb := rfl
@[simp] theorem State.updLeg_ref (s : State) (t l : Nat) (f : Leg → Leg) : (s.updLeg t l f).ref = s.ref := rfl
@[simp] theorem State.updLeg_str (s : State) (t l : Nat) (f : Leg → Leg) : (s.updLeg t l f).str = s.str := rfl
@[simp] theorem State.updLeg_host (s : State) (t l : Nat) (f : Leg → Leg) : (s.updLeg t l f).host = s.host := rfl
@[simp] theorem State.updLeg_flt (s : State) (t l : Nat) (f : Leg → Leg) : (s.updLeg t l f).flt = s.flt := rfl
@[simp] theorem State.updLeg_thm (s : State) (t l : Nat) (f : Leg → Leg) : (s.updLeg t l f).thm = s.thm := rfl
@[simp] theorem State.updLeg_spr (s : State) (t l : Nat) (f : Leg → Leg) : (s.updLeg t l f).spr = s.spr := rfl
@[simp] theorem State.updLeg_inp (s : State) (t l : Nat) (f : Leg → Leg) : (s.updLeg t l f).inp = s.inp := rfl
@[simp] theorem State.updLeg_axes (s : State) (t l : Nat) (f : Leg → Leg) : (s.updLeg t l f).axes = s.axes := rfl
@[simp] theorem State.updLeg_courses (s : State) (t l : Nat) (f : Leg → Leg) : (s.updLeg t l f).courses = s.courses := rfl
@[simp] theorem State.updLeg_camAddr (s : State) (t l : Nat) (f : Leg → Leg) : (s.updLeg t l f).camAddr = s.camAddr := rfl
@[simp] theorem State.updLeg_cam (s : State) (t l : Nat) (f : Leg → Leg) : (s.updLeg t l f).cam = s.cam := rfl
@[simp] theorem State.updLeg_camBad (s : State) (t l : Nat) (f : Leg → Leg) : (s.updLeg t l f).camBad = s.camBad := rfl
@[simp] theorem State.updLeg_tbl (s : State) (t l : Nat) (f : Leg → Leg) : (s.updLeg t l f).tbl = s.tbl := rfl
@[simp] theorem State.updLeg_cfg (s : State) (t l : Nat) (f : Leg → Leg) : (s.updLeg t l f).cfg = s.cfg := rfl
@[simp] theorem State.updLeg_diag (s : State) (t l : Nat) (f : Leg → Leg) : (s.updLeg t l f).diag = s.diag := rfl
@[simp] theorem State.updLeg_shadows (s : State) (t l : Nat) (f : Leg → Leg) : (s.updLeg t l f).shadows = s.shadows := rfl
@[simp] theorem State.updLeg_rdata (s : State) (t l : Nat) (f : Leg → Leg) : (s.updLeg t l f).rdata = s.rdata := rfl
@[simp] theorem State.updLeg_out (s : State) (t l : Nat) (f : Leg → Leg) : (s.updLeg t l f).out = s.out := rfl
@[simp] theorem State.updLeg_fresh (s : State) (t l : Nat) (f : Leg → Leg) : (s.updLeg t l f).fresh = s.fresh := rfl
@[simp] theorem State.updLeg_pending (s : State) (t l : Nat) (f : Leg → Leg) : (s.updLeg t l f).pending = s.pending := rfl

@[simp] theorem State.updRing_variant (s : State) (r : Nat) (f : Ring → Ring) : (s.updRing r f).variant = s.variant := rfl
@[simp] theorem State.updRing_dt (s : State) (r : Nat) (f : Ring → Ring) : (s.updRing r f).dt = s.dt := rfl
@[simp] theorem State.updRing_lastPeriod (s : State) (r : Nat) (f : Ring → Ring) : (s.updRing r f).lastPeriod = s.lastPeriod := rfl
@[simp] theorem State.updRing_lastTick (s : State) (r : Nat) (f : Ring → Ring) : (s.updRing r f).lastTick = s.lastTick := rfl
@[simp] theorem State.updRing_inReset (s : State) (r : Nat) (f : Ring → Ring) : (s.updRing r f).inReset = s.inReset := rfl
@[simp] theorem State.updRing_bootDone (s : State) (r : Nat) (f : Ring → Ring) : (s.updRing r f).bootDone = s.bootDone := rfl
@[simp] theorem State.updRing_bootPassed (s : State) (r : Nat) (f : Ring → Ring) : (s.updRing r f).bootPassed = s.bootPassed := rfl
@[simp] theorem State.updRing_tap (s : State) (r : Nat) (f : Ring → Ring) : (s.updRing r f).tap = s.tap := rfl
@[simp] theorem State.updRing_glb (s : State) (r : Nat) (f : Ring → Ring) : (s.updRing r f).glb = s.glb := rfl
@[simp] theorem State.updRing_ref (s : State) (r : Nat) (f : Ring → Ring) : (s.updRing r f).ref = s.ref := rfl
@[simp] theorem State.updRing_str (s : State) (r : Nat) (f : Ring → Ring) : (s.updRing r f).str = s.str := rfl
@[simp] theorem State.updRing_flt (s : State) (r : Nat) (f : Ring → Ring) : (s.updRing r f).flt = s.flt := rfl
@[simp] theorem State.updRing_thm (s : State) (r : Nat) (f : Ring → Ring) : (s.updRing r f).thm = s.thm := rfl
@[simp] theorem State.updRing_spr (s : State) (r : Nat) (f : Ring → Ring) : (s.updRing r f).spr = s.spr := rfl
@[simp] theorem State.updRing_inp (s : State) (r : Nat) (f : Ring → Ring) : (s.updRing r f).inp = s.inp := rfl
@[simp] theorem State.updRing_axes (s : State) (r : Nat) (f : Ring → Ring) : (s.updRing r f).axes = s.axes := rfl
@[simp] theorem State.updRing_courses (s : State) (r : Nat) (f : Ring → Ring) : (s.updRing r f).courses = s.courses := rfl
@[simp] theorem State.updRing_camAddr (s : State) (r : Nat) (f : Ring → Ring) : (s.updRing r f).camAddr = s.camAddr := rfl
@[simp] theorem State.updRing_cam (s : State) (r : Nat) (f : Ring → Ring) : (s.updRing r f).cam = s.cam := rfl
@[simp] theorem State.updRing_camBad (s : State) (r : Nat) (f : Ring → Ring) : (s.updRing r f).camBad = s.camBad := rfl
@[simp] theorem State.updRing_tiles (s : State) (r : Nat) (f : Ring → Ring) : (s.updRing r f).tiles = s.tiles := rfl
@[simp] theorem State.updRing_tbl (s : State) (r : Nat) (f : Ring → Ring) : (s.updRing r f).tbl = s.tbl := rfl
@[simp] theorem State.updRing_cfg (s : State) (r : Nat) (f : Ring → Ring) : (s.updRing r f).cfg = s.cfg := rfl
@[simp] theorem State.updRing_diag (s : State) (r : Nat) (f : Ring → Ring) : (s.updRing r f).diag = s.diag := rfl
@[simp] theorem State.updRing_shadows (s : State) (r : Nat) (f : Ring → Ring) : (s.updRing r f).shadows = s.shadows := rfl
@[simp] theorem State.updRing_rdata (s : State) (r : Nat) (f : Ring → Ring) : (s.updRing r f).rdata = s.rdata := rfl
@[simp] theorem State.updRing_out (s : State) (r : Nat) (f : Ring → Ring) : (s.updRing r f).out = s.out := rfl
@[simp] theorem State.updRing_fresh (s : State) (r : Nat) (f : Ring → Ring) : (s.updRing r f).fresh = s.fresh := rfl
@[simp] theorem State.updRing_pending (s : State) (r : Nat) (f : Ring → Ring) : (s.updRing r f).pending = s.pending := rfl

@[simp] theorem State.complete_variant (s : State) (g : Tag) (r : List Word) : (s.complete g r).variant = s.variant := rfl
@[simp] theorem State.complete_dt (s : State) (g : Tag) (r : List Word) : (s.complete g r).dt = s.dt := rfl
@[simp] theorem State.complete_lastPeriod (s : State) (g : Tag) (r : List Word) : (s.complete g r).lastPeriod = s.lastPeriod := rfl
@[simp] theorem State.complete_lastTick (s : State) (g : Tag) (r : List Word) : (s.complete g r).lastTick = s.lastTick := rfl
@[simp] theorem State.complete_inReset (s : State) (g : Tag) (r : List Word) : (s.complete g r).inReset = s.inReset := rfl
@[simp] theorem State.complete_bootDone (s : State) (g : Tag) (r : List Word) : (s.complete g r).bootDone = s.bootDone := rfl
@[simp] theorem State.complete_bootPassed (s : State) (g : Tag) (r : List Word) : (s.complete g r).bootPassed = s.bootPassed := rfl
@[simp] theorem State.complete_tap (s : State) (g : Tag) (r : List Word) : (s.complete g r).tap = s.tap := rfl
@[simp] theorem State.complete_glb (s : State) (g : Tag) (r : List Word) : (s.complete g r).glb = s.glb := rfl
@[simp] theorem State.complete_ref (s : State) (g : Tag) (r : List Word) : (s.complete g r).ref = s.ref := rfl
@[simp] theorem State.complete_str (s : State) (g : Tag) (r : List Word) : (s.complete g r).str = s.str := rfl
@[simp] theorem State.complete_flt (s : State) (g : Tag) (r : List Word) : (s.complete g r).flt = s.flt := rfl
@[simp] theorem State.complete_thm (s : State) (g : Tag) (r : List Word) : (s.complete g r).thm = s.thm := rfl
@[simp] theorem State.complete_spr (s : State) (g : Tag) (r : List Word) : (s.complete g r).spr = s.spr := rfl
@[simp] theorem State.complete_inp (s : State) (g : Tag) (r : List Word) : (s.complete g r).inp = s.inp := rfl
@[simp] theorem State.complete_axes (s : State) (g : Tag) (r : List Word) : (s.complete g r).axes = s.axes := rfl
@[simp] theorem State.complete_courses (s : State) (g : Tag) (r : List Word) : (s.complete g r).courses = s.courses := rfl
@[simp] theorem State.complete_camAddr (s : State) (g : Tag) (r : List Word) : (s.complete g r).camAddr = s.camAddr := rfl
@[simp] theorem State.complete_cam (s : State) (g : Tag) (r : List Word) : (s.complete g r).cam = s.cam := rfl
@[simp] theorem State.complete_camBad (s : State) (g : Tag) (r : List Word) : (s.complete g r).camBad = s.camBad := rfl
@[simp] theorem State.complete_tiles (s : State) (g : Tag) (r : List Word) : (s.complete g r).tiles = s.tiles := rfl
@[simp] theorem State.complete_tbl (s : State) (g : Tag) (r : List Word) : (s.complete g r).tbl = s.tbl := rfl
@[simp] theorem State.complete_cfg (s : State) (g : Tag) (r : List Word) : (s.complete g r).cfg = s.cfg := rfl
@[simp] theorem State.complete_diag (s : State) (g : Tag) (r : List Word) : (s.complete g r).diag = s.diag := rfl
@[simp] theorem State.complete_shadows (s : State) (g : Tag) (r : List Word) : (s.complete g r).shadows = s.shadows := rfl
@[simp] theorem State.complete_rdata (s : State) (g : Tag) (r : List Word) : (s.complete g r).rdata = s.rdata := rfl
@[simp] theorem State.complete_out (s : State) (g : Tag) (r : List Word) : (s.complete g r).out = s.out := rfl
@[simp] theorem State.complete_fresh (s : State) (g : Tag) (r : List Word) : (s.complete g r).fresh = s.fresh := rfl
@[simp] theorem State.complete_pending (s : State) (g : Tag) (r : List Word) : (s.complete g r).pending = s.pending := rfl

@[simp] theorem State.setMotion_variant (s : State) (k : UnitKind) (n : Nat) (m : Motion) : (s.setMotion k n m).variant = s.variant := by cases k <;> rfl
@[simp] theorem State.setMotion_dt (s : State) (k : UnitKind) (n : Nat) (m : Motion) : (s.setMotion k n m).dt = s.dt := by cases k <;> rfl
@[simp] theorem State.setMotion_lastPeriod (s : State) (k : UnitKind) (n : Nat) (m : Motion) : (s.setMotion k n m).lastPeriod = s.lastPeriod := by cases k <;> rfl
@[simp] theorem State.setMotion_lastTick (s : State) (k : UnitKind) (n : Nat) (m : Motion) : (s.setMotion k n m).lastTick = s.lastTick := by cases k <;> rfl
@[simp] theorem State.setMotion_inReset (s : State) (k : UnitKind) (n : Nat) (m : Motion) : (s.setMotion k n m).inReset = s.inReset := by cases k <;> rfl
@[simp] theorem State.setMotion_bootDone (s : State) (k : UnitKind) (n : Nat) (m : Motion) : (s.setMotion k n m).bootDone = s.bootDone := by cases k <;> rfl
@[simp] theorem State.setMotion_bootPassed (s : State) (k : UnitKind) (n : Nat) (m : Motion) : (s.setMotion k n m).bootPassed = s.bootPassed := by cases k <;> rfl
@[simp] theorem State.setMotion_tap (s : State) (k : UnitKind) (n : Nat) (m : Motion) : (s.setMotion k n m).tap = s.tap := by cases k <;> rfl
@[simp] theorem State.setMotion_glb (s : State) (k : UnitKind) (n : Nat) (m : Motion) : (s.setMotion k n m).glb = s.glb := by cases k <;> rfl
@[simp] theorem State.setMotion_ref (s : State) (k : UnitKind) (n : Nat) (m : Motion) : (s.setMotion k n m).ref = s.ref := by cases k <;> rfl
@[simp] theorem State.setMotion_str (s : State) (k : UnitKind) (n : Nat) (m : Motion) : (s.setMotion k n m).str = s.str := by cases k <;> rfl
@[simp] theorem State.setMotion_host (s : State) (k : UnitKind) (n : Nat) (m : Motion) : (s.setMotion k n m).host = s.host := by cases k <;> rfl
@[simp] theorem State.setMotion_flt (s : State) (k : UnitKind) (n : Nat) (m : Motion) : (s.setMotion k n m).flt = s.flt := by cases k <;> rfl
@[simp] theorem State.setMotion_thm (s : State) (k : UnitKind) (n : Nat) (m : Motion) : (s.setMotion k n m).thm = s.thm := by cases k <;> rfl
@[simp] theorem State.setMotion_spr (s : State) (k : UnitKind) (n : Nat) (m : Motion) : (s.setMotion k n m).spr = s.spr := by cases k <;> rfl
@[simp] theorem State.setMotion_inp (s : State) (k : UnitKind) (n : Nat) (m : Motion) : (s.setMotion k n m).inp = s.inp := by cases k <;> rfl
@[simp] theorem State.setMotion_camAddr (s : State) (k : UnitKind) (n : Nat) (m : Motion) : (s.setMotion k n m).camAddr = s.camAddr := by cases k <;> rfl
@[simp] theorem State.setMotion_cam (s : State) (k : UnitKind) (n : Nat) (m : Motion) : (s.setMotion k n m).cam = s.cam := by cases k <;> rfl
@[simp] theorem State.setMotion_camBad (s : State) (k : UnitKind) (n : Nat) (m : Motion) : (s.setMotion k n m).camBad = s.camBad := by cases k <;> rfl
@[simp] theorem State.setMotion_tiles (s : State) (k : UnitKind) (n : Nat) (m : Motion) : (s.setMotion k n m).tiles = s.tiles := by cases k <;> rfl
@[simp] theorem State.setMotion_tbl (s : State) (k : UnitKind) (n : Nat) (m : Motion) : (s.setMotion k n m).tbl = s.tbl := by cases k <;> rfl
@[simp] theorem State.setMotion_cfg (s : State) (k : UnitKind) (n : Nat) (m : Motion) : (s.setMotion k n m).cfg = s.cfg := by cases k <;> rfl
@[simp] theorem State.setMotion_diag (s : State) (k : UnitKind) (n : Nat) (m : Motion) : (s.setMotion k n m).diag = s.diag := by cases k <;> rfl
@[simp] theorem State.setMotion_shadows (s : State) (k : UnitKind) (n : Nat) (m : Motion) : (s.setMotion k n m).shadows = s.shadows := by cases k <;> rfl
@[simp] theorem State.setMotion_rdata (s : State) (k : UnitKind) (n : Nat) (m : Motion) : (s.setMotion k n m).rdata = s.rdata := by cases k <;> rfl
@[simp] theorem State.setMotion_out (s : State) (k : UnitKind) (n : Nat) (m : Motion) : (s.setMotion k n m).out = s.out := by cases k <;> rfl
@[simp] theorem State.setMotion_fresh (s : State) (k : UnitKind) (n : Nat) (m : Motion) : (s.setMotion k n m).fresh = s.fresh := by cases k <;> rfl
@[simp] theorem State.setMotion_pending (s : State) (k : UnitKind) (n : Nat) (m : Motion) : (s.setMotion k n m).pending = s.pending := by cases k <;> rfl

@[simp] theorem State.updMotion_variant (s : State) (k : UnitKind) (n : Nat) (f : Motion → Motion) : (s.updMotion k n f).variant = s.variant := by cases k <;> rfl
@[simp] theorem State.updMotion_dt (s : State) (k : UnitKind) (n : Nat) (f : Motion → Motion) : (s.updMotion k n f).dt = s.dt := by cases k <;> rfl
@[simp] theorem State.updMotion_lastPeriod (s : State) (k : UnitKind) (n : Nat) (f : Motion → Motion) : (s.updMotion k n f).lastPeriod = s.lastPeriod := by cases k <;> rfl
@[simp] theorem State.updMotion_lastTick (s : State) (k : UnitKind) (n : Nat) (f : Motion → Motion) : (s.updMotion k n f).lastTick = s.lastTick := by cases k <;> rfl
@[simp] theorem State.updMotion_inReset (s : State) (k : UnitKind) (n : Nat) (f : Motion → Motion) : (s.updMotion k n f).inReset = s.inReset := by cases k <;> rfl
@[simp] theorem State.updMotion_bootDone (s : State) (k : UnitKind) (n : Nat) (f : Motion → Motion) : (s.updMotion k n f).bootDone = s.bootDone := by cases k <;> rfl
@[simp] theorem State.updMotion_bootPassed (s : State) (k : UnitKind) (n : Nat) (f : Motion → Motion) : (s.updMotion k n f).bootPassed = s.bootPassed := by cases k <;> rfl
@[simp] theorem State.updMotion_tap (s : State) (k : UnitKind) (n : Nat) (f : Motion → Motion) : (s.updMotion k n f).tap = s.tap := by cases k <;> rfl
@[simp] theorem State.updMotion_glb (s : State) (k : UnitKind) (n : Nat) (f : Motion → Motion) : (s.updMotion k n f).glb = s.glb := by cases k <;> rfl
@[simp] theorem State.updMotion_ref (s : State) (k : UnitKind) (n : Nat) (f : Motion → Motion) : (s.updMotion k n f).ref = s.ref := by cases k <;> rfl
@[simp] theorem State.updMotion_str (s : State) (k : UnitKind) (n : Nat) (f : Motion → Motion) : (s.updMotion k n f).str = s.str := by cases k <;> rfl
@[simp] theorem State.updMotion_host (s : State) (k : UnitKind) (n : Nat) (f : Motion → Motion) : (s.updMotion k n f).host = s.host := by cases k <;> rfl
@[simp] theorem State.updMotion_flt (s : State) (k : UnitKind) (n : Nat) (f : Motion → Motion) : (s.updMotion k n f).flt = s.flt := by cases k <;> rfl
@[simp] theorem State.updMotion_thm (s : State) (k : UnitKind) (n : Nat) (f : Motion → Motion) : (s.updMotion k n f).thm = s.thm := by cases k <;> rfl
@[simp] theorem State.updMotion_spr (s : State) (k : UnitKind) (n : Nat) (f : Motion → Motion) : (s.updMotion k n f).spr = s.spr := by cases k <;> rfl
@[simp] theorem State.updMotion_inp (s : State) (k : UnitKind) (n : Nat) (f : Motion → Motion) : (s.updMotion k n f).inp = s.inp := by cases k <;> rfl
@[simp] theorem State.updMotion_camAddr (s : State) (k : UnitKind) (n : Nat) (f : Motion → Motion) : (s.updMotion k n f).camAddr = s.camAddr := by cases k <;> rfl
@[simp] theorem State.updMotion_cam (s : State) (k : UnitKind) (n : Nat) (f : Motion → Motion) : (s.updMotion k n f).cam = s.cam := by cases k <;> rfl
@[simp] theorem State.updMotion_camBad (s : State) (k : UnitKind) (n : Nat) (f : Motion → Motion) : (s.updMotion k n f).camBad = s.camBad := by cases k <;> rfl
@[simp] theorem State.updMotion_tiles (s : State) (k : UnitKind) (n : Nat) (f : Motion → Motion) : (s.updMotion k n f).tiles = s.tiles := by cases k <;> rfl
@[simp] theorem State.updMotion_tbl (s : State) (k : UnitKind) (n : Nat) (f : Motion → Motion) : (s.updMotion k n f).tbl = s.tbl := by cases k <;> rfl
@[simp] theorem State.updMotion_cfg (s : State) (k : UnitKind) (n : Nat) (f : Motion → Motion) : (s.updMotion k n f).cfg = s.cfg := by cases k <;> rfl
@[simp] theorem State.updMotion_diag (s : State) (k : UnitKind) (n : Nat) (f : Motion → Motion) : (s.updMotion k n f).diag = s.diag := by cases k <;> rfl
@[simp] theorem State.updMotion_shadows (s : State) (k : UnitKind) (n : Nat) (f : Motion → Motion) : (s.updMotion k n f).shadows = s.shadows := by cases k <;> rfl
@[simp] theorem State.updMotion_rdata (s : State) (k : UnitKind) (n : Nat) (f : Motion → Motion) : (s.updMotion k n f).rdata = s.rdata := by cases k <;> rfl
@[simp] theorem State.updMotion_out (s : State) (k : UnitKind) (n : Nat) (f : Motion → Motion) : (s.updMotion k n f).out = s.out := by cases k <;> rfl
@[simp] theorem State.updMotion_fresh (s : State) (k : UnitKind) (n : Nat) (f : Motion → Motion) : (s.updMotion k n f).fresh = s.fresh := by cases k <;> rfl
@[simp] theorem State.updMotion_pending (s : State) (k : UnitKind) (n : Nat) (f : Motion → Motion) : (s.updMotion k n f).pending = s.pending := by cases k <;> rfl

@[simp] theorem State.emit_variant (s : State) (o : Output) : (s.emit o).variant = s.variant := rfl
@[simp] theorem State.emit_dt (s : State) (o : Output) : (s.emit o).dt = s.dt := rfl
@[simp] theorem State.emit_lastPeriod (s : State) (o : Output) : (s.emit o).lastPeriod = s.lastPeriod := rfl
@[simp] theorem State.emit_lastTick (s : State) (o : Output) : (s.emit o).lastTick = s.lastTick := rfl
@[simp] theorem State.emit_inReset (s : State) (o : Output) : (s.emit o).inReset = s.inReset := rfl
@[simp] theorem State.emit_bootDone (s : State) (o : Output) : (s.emit o).bootDone = s.bootDone := rfl
@[simp] theorem State.emit_bootPassed (s : State) (o : Output) : (s.emit o).bootPassed = s.bootPassed := rfl
@[simp] theorem State.emit_tap (s : State) (o : Output) : (s.emit o).tap = s.tap := rfl
@[simp] theorem State.emit_glb (s : State) (o : Output) : (s.emit o).glb = s.glb := rfl
@[simp] theorem State.emit_ref (s : State) (o : Output) : (s.emit o).ref = s.ref := rfl
@[simp] theorem State.emit_str (s : State) (o : Output) : (s.emit o).str = s.str := rfl
@[simp] theorem State.emit_host (s : State) (o : Output) : (s.emit o).host = s.host := rfl
@[simp] theorem State.emit_flt (s : State) (o : Output) : (s.emit o).flt = s.flt := rfl
@[simp] theorem State.emit_thm (s : State) (o : Output) : (s.emit o).thm = s.thm := rfl
@[simp] theorem State.emit_spr (s : State) (o : Output) : (s.emit o).spr = s.spr := rfl
@[simp] theorem State.emit_inp (s : State) (o : Output) : (s.emit o).inp = s.inp := rfl
@[simp] theorem State.emit_axes (s : State) (o : Output) : (s.emit o).axes = s.axes := rfl
@[simp] theorem State.emit_courses (s : State) (o : Output) : (s.emit o).courses = s.courses := rfl
@[simp] theorem State.emit_camAddr (s : State) (o : Output) : (s.emit o).camAddr = s.camAddr := rfl
@[simp] theorem State.emit_cam (s : State) (o : Output) : (s.emit o).cam = s.cam := rfl
@[simp] theorem State.emit_camBad (s : State) (o : Output) : (s.emit o).camBad = s.camBad := rfl
@[simp] theorem State.emit_tiles (s : State) (o : Output) : (s.emit o).tiles = s.tiles := rfl
@[simp] theorem State.emit_tbl (s : State) (o : Output) : (s.emit o).tbl = s.tbl := rfl
@[simp] theorem State.emit_cfg (s : State) (o : Output) : (s.emit o).cfg = s.cfg := rfl
@[simp] theorem State.emit_diag (s : State) (o : Output) : (s.emit o).diag = s.diag := rfl
@[simp] theorem State.emit_shadows (s : State) (o : Output) : (s.emit o).shadows = s.shadows := rfl
@[simp] theorem State.emit_rdata (s : State) (o : Output) : (s.emit o).rdata = s.rdata := rfl
@[simp] theorem State.emit_fresh (s : State) (o : Output) : (s.emit o).fresh = s.fresh := rfl
@[simp] theorem State.emit_pending (s : State) (o : Output) : (s.emit o).pending = s.pending := rfl

@[simp] theorem State.spend_variant (s : State) : (s.spend).variant = s.variant := rfl
@[simp] theorem State.spend_dt (s : State) : (s.spend).dt = s.dt := rfl
@[simp] theorem State.spend_lastPeriod (s : State) : (s.spend).lastPeriod = s.lastPeriod := rfl
@[simp] theorem State.spend_lastTick (s : State) : (s.spend).lastTick = s.lastTick := rfl
@[simp] theorem State.spend_inReset (s : State) : (s.spend).inReset = s.inReset := rfl
@[simp] theorem State.spend_bootDone (s : State) : (s.spend).bootDone = s.bootDone := rfl
@[simp] theorem State.spend_bootPassed (s : State) : (s.spend).bootPassed = s.bootPassed := rfl
@[simp] theorem State.spend_tap (s : State) : (s.spend).tap = s.tap := rfl
@[simp] theorem State.spend_glb (s : State) : (s.spend).glb = s.glb := rfl
@[simp] theorem State.spend_ref (s : State) : (s.spend).ref = s.ref := rfl
@[simp] theorem State.spend_str (s : State) : (s.spend).str = s.str := rfl
@[simp] theorem State.spend_host (s : State) : (s.spend).host = s.host := rfl
@[simp] theorem State.spend_flt (s : State) : (s.spend).flt = s.flt := rfl
@[simp] theorem State.spend_thm (s : State) : (s.spend).thm = s.thm := rfl
@[simp] theorem State.spend_spr (s : State) : (s.spend).spr = s.spr := rfl
@[simp] theorem State.spend_inp (s : State) : (s.spend).inp = s.inp := rfl
@[simp] theorem State.spend_axes (s : State) : (s.spend).axes = s.axes := rfl
@[simp] theorem State.spend_courses (s : State) : (s.spend).courses = s.courses := rfl
@[simp] theorem State.spend_camAddr (s : State) : (s.spend).camAddr = s.camAddr := rfl
@[simp] theorem State.spend_cam (s : State) : (s.spend).cam = s.cam := rfl
@[simp] theorem State.spend_camBad (s : State) : (s.spend).camBad = s.camBad := rfl
@[simp] theorem State.spend_tiles (s : State) : (s.spend).tiles = s.tiles := rfl
@[simp] theorem State.spend_tbl (s : State) : (s.spend).tbl = s.tbl := rfl
@[simp] theorem State.spend_cfg (s : State) : (s.spend).cfg = s.cfg := rfl
@[simp] theorem State.spend_diag (s : State) : (s.spend).diag = s.diag := rfl
@[simp] theorem State.spend_shadows (s : State) : (s.spend).shadows = s.shadows := rfl
@[simp] theorem State.spend_rdata (s : State) : (s.spend).rdata = s.rdata := rfl
@[simp] theorem State.spend_out (s : State) : (s.spend).out = s.out := rfl
@[simp] theorem State.spend_pending (s : State) : (s.spend).pending = s.pending := rfl

@[simp] theorem State.pass_variant (s : State) (n : Nat) : (s.pass n).variant = s.variant := rfl
@[simp] theorem State.pass_lastPeriod (s : State) (n : Nat) : (s.pass n).lastPeriod = s.lastPeriod := rfl
@[simp] theorem State.pass_lastTick (s : State) (n : Nat) : (s.pass n).lastTick = s.lastTick := rfl
@[simp] theorem State.pass_inReset (s : State) (n : Nat) : (s.pass n).inReset = s.inReset := rfl
@[simp] theorem State.pass_bootDone (s : State) (n : Nat) : (s.pass n).bootDone = s.bootDone := rfl
@[simp] theorem State.pass_bootPassed (s : State) (n : Nat) : (s.pass n).bootPassed = s.bootPassed := rfl
@[simp] theorem State.pass_tap (s : State) (n : Nat) : (s.pass n).tap = s.tap := rfl
@[simp] theorem State.pass_glb (s : State) (n : Nat) : (s.pass n).glb = s.glb := rfl
@[simp] theorem State.pass_host (s : State) (n : Nat) : (s.pass n).host = s.host := rfl
@[simp] theorem State.pass_flt (s : State) (n : Nat) : (s.pass n).flt = s.flt := rfl
@[simp] theorem State.pass_thm (s : State) (n : Nat) : (s.pass n).thm = s.thm := rfl
@[simp] theorem State.pass_spr (s : State) (n : Nat) : (s.pass n).spr = s.spr := rfl
@[simp] theorem State.pass_inp (s : State) (n : Nat) : (s.pass n).inp = s.inp := rfl
@[simp] theorem State.pass_axes (s : State) (n : Nat) : (s.pass n).axes = s.axes := rfl
@[simp] theorem State.pass_courses (s : State) (n : Nat) : (s.pass n).courses = s.courses := rfl
@[simp] theorem State.pass_camAddr (s : State) (n : Nat) : (s.pass n).camAddr = s.camAddr := rfl
@[simp] theorem State.pass_cam (s : State) (n : Nat) : (s.pass n).cam = s.cam := rfl
@[simp] theorem State.pass_camBad (s : State) (n : Nat) : (s.pass n).camBad = s.camBad := rfl
@[simp] theorem State.pass_tiles (s : State) (n : Nat) : (s.pass n).tiles = s.tiles := rfl
@[simp] theorem State.pass_tbl (s : State) (n : Nat) : (s.pass n).tbl = s.tbl := rfl
@[simp] theorem State.pass_cfg (s : State) (n : Nat) : (s.pass n).cfg = s.cfg := rfl
@[simp] theorem State.pass_diag (s : State) (n : Nat) : (s.pass n).diag = s.diag := rfl
@[simp] theorem State.pass_shadows (s : State) (n : Nat) : (s.pass n).shadows = s.shadows := rfl
@[simp] theorem State.pass_rdata (s : State) (n : Nat) : (s.pass n).rdata = s.rdata := rfl
@[simp] theorem State.pass_out (s : State) (n : Nat) : (s.pass n).out = s.out := rfl
@[simp] theorem State.pass_fresh (s : State) (n : Nat) : (s.pass n).fresh = s.fresh := rfl
@[simp] theorem State.pass_pending (s : State) (n : Nat) : (s.pass n).pending = s.pending := rfl

/-! ### Other units after an update -/

@[simp] theorem State.course_setAxis (s : State) (a : Nat) (x : Axis) (b : Nat) : (s.setAxis a x).course b = s.course b := rfl
@[simp] theorem State.tile_setAxis (s : State) (a : Nat) (x : Axis) (b : Nat) : (s.setAxis a x).tile b = s.tile b := rfl
@[simp] theorem State.leg_setAxis (s : State) (a : Nat) (x : Axis) (b j : Nat) : (s.setAxis a x).leg b j = s.leg b j := rfl
@[simp] theorem State.ring_setAxis (s : State) (a : Nat) (x : Axis) (b : Nat) : (s.setAxis a x).ring b = s.ring b := rfl
@[simp] theorem State.twin_setAxis (s : State) (a : Nat) (x : Axis) (b : Nat) : (s.setAxis a x).twin b = s.twin b := rfl
@[simp] theorem State.thmTile_setAxis (s : State) (a : Nat) (x : Axis) (b : Nat) : (s.setAxis a x).thmTile b = s.thmTile b := rfl
@[simp] theorem State.core_setAxis (s : State) (a : Nat) (x : Axis) (b : Nat) : (s.setAxis a x).core b = s.core b := rfl

@[simp] theorem State.axis_setCourse (s : State) (c : Nat) (x : Course) (b : Nat) : (s.setCourse c x).axis b = s.axis b := rfl
@[simp] theorem State.tile_setCourse (s : State) (c : Nat) (x : Course) (b : Nat) : (s.setCourse c x).tile b = s.tile b := rfl
@[simp] theorem State.leg_setCourse (s : State) (c : Nat) (x : Course) (b j : Nat) : (s.setCourse c x).leg b j = s.leg b j := rfl
@[simp] theorem State.ring_setCourse (s : State) (c : Nat) (x : Course) (b : Nat) : (s.setCourse c x).ring b = s.ring b := rfl
@[simp] theorem State.twin_setCourse (s : State) (c : Nat) (x : Course) (b : Nat) : (s.setCourse c x).twin b = s.twin b := rfl
@[simp] theorem State.thmTile_setCourse (s : State) (c : Nat) (x : Course) (b : Nat) : (s.setCourse c x).thmTile b = s.thmTile b := rfl
@[simp] theorem State.core_setCourse (s : State) (c : Nat) (x : Course) (b : Nat) : (s.setCourse c x).core b = s.core b := rfl

@[simp] theorem State.axis_setTile (s : State) (t : Nat) (x : Tile) (b : Nat) : (s.setTile t x).axis b = s.axis b := rfl
@[simp] theorem State.course_setTile (s : State) (t : Nat) (x : Tile) (b : Nat) : (s.setTile t x).course b = s.course b := rfl
@[simp] theorem State.ring_setTile (s : State) (t : Nat) (x : Tile) (b : Nat) : (s.setTile t x).ring b = s.ring b := rfl
@[simp] theorem State.twin_setTile (s : State) (t : Nat) (x : Tile) (b : Nat) : (s.setTile t x).twin b = s.twin b := rfl
@[simp] theorem State.thmTile_setTile (s : State) (t : Nat) (x : Tile) (b : Nat) : (s.setTile t x).thmTile b = s.thmTile b := rfl
@[simp] theorem State.core_setTile (s : State) (t : Nat) (x : Tile) (b : Nat) : (s.setTile t x).core b = s.core b := rfl
@[simp] theorem State.motion_setTile (s : State) (t : Nat) (x : Tile) (k : UnitKind) (b : Nat) : (s.setTile t x).motion k b = s.motion k b := by cases k <;> rfl

@[simp] theorem State.axis_setLeg (s : State) (t l : Nat) (x : Leg) (b : Nat) : (s.setLeg t l x).axis b = s.axis b := rfl
@[simp] theorem State.course_setLeg (s : State) (t l : Nat) (x : Leg) (b : Nat) : (s.setLeg t l x).course b = s.course b := rfl
@[simp] theorem State.ring_setLeg (s : State) (t l : Nat) (x : Leg) (b : Nat) : (s.setLeg t l x).ring b = s.ring b := rfl
@[simp] theorem State.twin_setLeg (s : State) (t l : Nat) (x : Leg) (b : Nat) : (s.setLeg t l x).twin b = s.twin b := rfl
@[simp] theorem State.thmTile_setLeg (s : State) (t l : Nat) (x : Leg) (b : Nat) : (s.setLeg t l x).thmTile b = s.thmTile b := rfl
@[simp] theorem State.core_setLeg (s : State) (t l : Nat) (x : Leg) (b : Nat) : (s.setLeg t l x).core b = s.core b := rfl
@[simp] theorem State.motion_setLeg (s : State) (t l : Nat) (x : Leg) (k : UnitKind) (b : Nat) : (s.setLeg t l x).motion k b = s.motion k b := by cases k <;> rfl

@[simp] theorem State.axis_setRing (s : State) (r : Nat) (x : Ring) (b : Nat) : (s.setRing r x).axis b = s.axis b := rfl
@[simp] theorem State.course_setRing (s : State) (r : Nat) (x : Ring) (b : Nat) : (s.setRing r x).course b = s.course b := rfl
@[simp] theorem State.tile_setRing (s : State) (r : Nat) (x : Ring) (b : Nat) : (s.setRing r x).tile b = s.tile b := rfl
@[simp] theorem State.leg_setRing (s : State) (r : Nat) (x : Ring) (b j : Nat) : (s.setRing r x).leg b j = s.leg b j := rfl
@[simp] theorem State.twin_setRing (s : State) (r : Nat) (x : Ring) (b : Nat) : (s.setRing r x).twin b = s.twin b := rfl
@[simp] theorem State.thmTile_setRing (s : State) (r : Nat) (x : Ring) (b : Nat) : (s.setRing r x).thmTile b = s.thmTile b := rfl
@[simp] theorem State.core_setRing (s : State) (r : Nat) (x : Ring) (b : Nat) : (s.setRing r x).core b = s.core b := rfl
@[simp] theorem State.motion_setRing (s : State) (r : Nat) (x : Ring) (k : UnitKind) (b : Nat) : (s.setRing r x).motion k b = s.motion k b := by cases k <;> rfl

@[simp] theorem State.axis_setTwin (s : State) (w : Nat) (x : TWin) (b : Nat) : (s.setTwin w x).axis b = s.axis b := rfl
@[simp] theorem State.course_setTwin (s : State) (w : Nat) (x : TWin) (b : Nat) : (s.setTwin w x).course b = s.course b := rfl
@[simp] theorem State.tile_setTwin (s : State) (w : Nat) (x : TWin) (b : Nat) : (s.setTwin w x).tile b = s.tile b := rfl
@[simp] theorem State.leg_setTwin (s : State) (w : Nat) (x : TWin) (b j : Nat) : (s.setTwin w x).leg b j = s.leg b j := rfl
@[simp] theorem State.ring_setTwin (s : State) (w : Nat) (x : TWin) (b : Nat) : (s.setTwin w x).ring b = s.ring b := rfl
@[simp] theorem State.thmTile_setTwin (s : State) (w : Nat) (x : TWin) (b : Nat) : (s.setTwin w x).thmTile b = s.thmTile b := rfl
@[simp] theorem State.core_setTwin (s : State) (w : Nat) (x : TWin) (b : Nat) : (s.setTwin w x).core b = s.core b := rfl
@[simp] theorem State.motion_setTwin (s : State) (w : Nat) (x : TWin) (k : UnitKind) (b : Nat) : (s.setTwin w x).motion k b = s.motion k b := by cases k <;> rfl

@[simp] theorem State.axis_setThmTile (s : State) (t : Nat) (x : ThmTile) (b : Nat) : (s.setThmTile t x).axis b = s.axis b := rfl
@[simp] theorem State.course_setThmTile (s : State) (t : Nat) (x : ThmTile) (b : Nat) : (s.setThmTile t x).course b = s.course b := rfl
@[simp] theorem State.tile_setThmTile (s : State) (t : Nat) (x : ThmTile) (b : Nat) : (s.setThmTile t x).tile b = s.tile b := rfl
@[simp] theorem State.leg_setThmTile (s : State) (t : Nat) (x : ThmTile) (b j : Nat) : (s.setThmTile t x).leg b j = s.leg b j := rfl
@[simp] theorem State.ring_setThmTile (s : State) (t : Nat) (x : ThmTile) (b : Nat) : (s.setThmTile t x).ring b = s.ring b := rfl
@[simp] theorem State.twin_setThmTile (s : State) (t : Nat) (x : ThmTile) (b : Nat) : (s.setThmTile t x).twin b = s.twin b := rfl
@[simp] theorem State.core_setThmTile (s : State) (t : Nat) (x : ThmTile) (b : Nat) : (s.setThmTile t x).core b = s.core b := rfl
@[simp] theorem State.motion_setThmTile (s : State) (t : Nat) (x : ThmTile) (k : UnitKind) (b : Nat) : (s.setThmTile t x).motion k b = s.motion k b := by cases k <;> rfl

@[simp] theorem State.axis_setCore (s : State) (n : Nat) (x : CoreU) (b : Nat) : (s.setCore n x).axis b = s.axis b := rfl
@[simp] theorem State.course_setCore (s : State) (n : Nat) (x : CoreU) (b : Nat) : (s.setCore n x).course b = s.course b := rfl
@[simp] theorem State.tile_setCore (s : State) (n : Nat) (x : CoreU) (b : Nat) : (s.setCore n x).tile b = s.tile b := rfl
@[simp] theorem State.leg_setCore (s : State) (n : Nat) (x : CoreU) (b j : Nat) : (s.setCore n x).leg b j = s.leg b j := rfl
@[simp] theorem State.ring_setCore (s : State) (n : Nat) (x : CoreU) (b : Nat) : (s.setCore n x).ring b = s.ring b := rfl
@[simp] theorem State.twin_setCore (s : State) (n : Nat) (x : CoreU) (b : Nat) : (s.setCore n x).twin b = s.twin b := rfl
@[simp] theorem State.thmTile_setCore (s : State) (n : Nat) (x : CoreU) (b : Nat) : (s.setCore n x).thmTile b = s.thmTile b := rfl
@[simp] theorem State.motion_setCore (s : State) (n : Nat) (x : CoreU) (k : UnitKind) (b : Nat) : (s.setCore n x).motion k b = s.motion k b := by cases k <;> rfl

@[simp] theorem State.course_updAxis (s : State) (a : Nat) (f : Axis → Axis) (b : Nat) : (s.updAxis a f).course b = s.course b := rfl
@[simp] theorem State.tile_updAxis (s : State) (a : Nat) (f : Axis → Axis) (b : Nat) : (s.updAxis a f).tile b = s.tile b := rfl
@[simp] theorem State.leg_updAxis (s : State) (a : Nat) (f : Axis → Axis) (b j : Nat) : (s.updAxis a f).leg b j = s.leg b j := rfl
@[simp] theorem State.ring_updAxis (s : State) (a : Nat) (f : Axis → Axis) (b : Nat) : (s.updAxis a f).ring b = s.ring b := rfl
@[simp] theorem State.twin_updAxis (s : State) (a : Nat) (f : Axis → Axis) (b : Nat) : (s.updAxis a f).twin b = s.twin b := rfl
@[simp] theorem State.thmTile_updAxis (s : State) (a : Nat) (f : Axis → Axis) (b : Nat) : (s.updAxis a f).thmTile b = s.thmTile b := rfl
@[simp] theorem State.core_updAxis (s : State) (a : Nat) (f : Axis → Axis) (b : Nat) : (s.updAxis a f).core b = s.core b := rfl

@[simp] theorem State.axis_updCourse (s : State) (c : Nat) (f : Course → Course) (b : Nat) : (s.updCourse c f).axis b = s.axis b := rfl
@[simp] theorem State.tile_updCourse (s : State) (c : Nat) (f : Course → Course) (b : Nat) : (s.updCourse c f).tile b = s.tile b := rfl
@[simp] theorem State.leg_updCourse (s : State) (c : Nat) (f : Course → Course) (b j : Nat) : (s.updCourse c f).leg b j = s.leg b j := rfl
@[simp] theorem State.ring_updCourse (s : State) (c : Nat) (f : Course → Course) (b : Nat) : (s.updCourse c f).ring b = s.ring b := rfl
@[simp] theorem State.twin_updCourse (s : State) (c : Nat) (f : Course → Course) (b : Nat) : (s.updCourse c f).twin b = s.twin b := rfl
@[simp] theorem State.thmTile_updCourse (s : State) (c : Nat) (f : Course → Course) (b : Nat) : (s.updCourse c f).thmTile b = s.thmTile b := rfl
@[simp] theorem State.core_updCourse (s : State) (c : Nat) (f : Course → Course) (b : Nat) : (s.updCourse c f).core b = s.core b := rfl

@[simp] theorem State.axis_updTile (s : State) (t : Nat) (f : Tile → Tile) (b : Nat) : (s.updTile t f).axis b = s.axis b := rfl
@[simp] theorem State.course_updTile (s : State) (t : Nat) (f : Tile → Tile) (b : Nat) : (s.updTile t f).course b = s.course b := rfl
@[simp] theorem State.ring_updTile (s : State) (t : Nat) (f : Tile → Tile) (b : Nat) : (s.updTile t f).ring b = s.ring b := rfl
@[simp] theorem State.twin_updTile (s : State) (t : Nat) (f : Tile → Tile) (b : Nat) : (s.updTile t f).twin b = s.twin b := rfl
@[simp] theorem State.thmTile_updTile (s : State) (t : Nat) (f : Tile → Tile) (b : Nat) : (s.updTile t f).thmTile b = s.thmTile b := rfl
@[simp] theorem State.core_updTile (s : State) (t : Nat) (f : Tile → Tile) (b : Nat) : (s.updTile t f).core b = s.core b := rfl
@[simp] theorem State.motion_updTile (s : State) (t : Nat) (f : Tile → Tile) (k : UnitKind) (b : Nat) : (s.updTile t f).motion k b = s.motion k b := by cases k <;> rfl

@[simp] theorem State.axis_updLeg (s : State) (t l : Nat) (f : Leg → Leg) (b : Nat) : (s.updLeg t l f).axis b = s.axis b := rfl
@[simp] theorem State.course_updLeg (s : State) (t l : Nat) (f : Leg → Leg) (b : Nat) : (s.updLeg t l f).course b = s.course b := rfl
@[simp] theorem State.ring_updLeg (s : State) (t l : Nat) (f : Leg → Leg) (b : Nat) : (s.updLeg t l f).ring b = s.ring b := rfl
@[simp] theorem State.twin_updLeg (s : State) (t l : Nat) (f : Leg → Leg) (b : Nat) : (s.updLeg t l f).twin b = s.twin b := rfl
@[simp] theorem State.thmTile_updLeg (s : State) (t l : Nat) (f : Leg → Leg) (b : Nat) : (s.updLeg t l f).thmTile b = s.thmTile b := rfl
@[simp] theorem State.core_updLeg (s : State) (t l : Nat) (f : Leg → Leg) (b : Nat) : (s.updLeg t l f).core b = s.core b := rfl
@[simp] theorem State.motion_updLeg (s : State) (t l : Nat) (f : Leg → Leg) (k : UnitKind) (b : Nat) : (s.updLeg t l f).motion k b = s.motion k b := by cases k <;> rfl

@[simp] theorem State.axis_updRing (s : State) (r : Nat) (f : Ring → Ring) (b : Nat) : (s.updRing r f).axis b = s.axis b := rfl
@[simp] theorem State.course_updRing (s : State) (r : Nat) (f : Ring → Ring) (b : Nat) : (s.updRing r f).course b = s.course b := rfl
@[simp] theorem State.tile_updRing (s : State) (r : Nat) (f : Ring → Ring) (b : Nat) : (s.updRing r f).tile b = s.tile b := rfl
@[simp] theorem State.leg_updRing (s : State) (r : Nat) (f : Ring → Ring) (b j : Nat) : (s.updRing r f).leg b j = s.leg b j := rfl
@[simp] theorem State.twin_updRing (s : State) (r : Nat) (f : Ring → Ring) (b : Nat) : (s.updRing r f).twin b = s.twin b := rfl
@[simp] theorem State.thmTile_updRing (s : State) (r : Nat) (f : Ring → Ring) (b : Nat) : (s.updRing r f).thmTile b = s.thmTile b := rfl
@[simp] theorem State.core_updRing (s : State) (r : Nat) (f : Ring → Ring) (b : Nat) : (s.updRing r f).core b = s.core b := rfl
@[simp] theorem State.motion_updRing (s : State) (r : Nat) (f : Ring → Ring) (k : UnitKind) (b : Nat) : (s.updRing r f).motion k b = s.motion k b := by cases k <;> rfl

@[simp] theorem State.axis_complete (s : State) (g : Tag) (r : List Word) (b : Nat) : (s.complete g r).axis b = s.axis b := rfl
@[simp] theorem State.course_complete (s : State) (g : Tag) (r : List Word) (b : Nat) : (s.complete g r).course b = s.course b := rfl
@[simp] theorem State.tile_complete (s : State) (g : Tag) (r : List Word) (b : Nat) : (s.complete g r).tile b = s.tile b := rfl
@[simp] theorem State.leg_complete (s : State) (g : Tag) (r : List Word) (b j : Nat) : (s.complete g r).leg b j = s.leg b j := rfl
@[simp] theorem State.twin_complete (s : State) (g : Tag) (r : List Word) (b : Nat) : (s.complete g r).twin b = s.twin b := rfl
@[simp] theorem State.thmTile_complete (s : State) (g : Tag) (r : List Word) (b : Nat) : (s.complete g r).thmTile b = s.thmTile b := rfl
@[simp] theorem State.core_complete (s : State) (g : Tag) (r : List Word) (b : Nat) : (s.complete g r).core b = s.core b := rfl
@[simp] theorem State.motion_complete (s : State) (g : Tag) (r : List Word) (k : UnitKind) (b : Nat) : (s.complete g r).motion k b = s.motion k b := by cases k <;> rfl

@[simp] theorem State.tile_setMotion (s : State) (k : UnitKind) (n : Nat) (m : Motion) (b : Nat) : (s.setMotion k n m).tile b = s.tile b := by cases k <;> rfl
@[simp] theorem State.leg_setMotion (s : State) (k : UnitKind) (n : Nat) (m : Motion) (b j : Nat) : (s.setMotion k n m).leg b j = s.leg b j := by cases k <;> rfl
@[simp] theorem State.ring_setMotion (s : State) (k : UnitKind) (n : Nat) (m : Motion) (b : Nat) : (s.setMotion k n m).ring b = s.ring b := by cases k <;> rfl
@[simp] theorem State.twin_setMotion (s : State) (k : UnitKind) (n : Nat) (m : Motion) (b : Nat) : (s.setMotion k n m).twin b = s.twin b := by cases k <;> rfl
@[simp] theorem State.thmTile_setMotion (s : State) (k : UnitKind) (n : Nat) (m : Motion) (b : Nat) : (s.setMotion k n m).thmTile b = s.thmTile b := by cases k <;> rfl
@[simp] theorem State.core_setMotion (s : State) (k : UnitKind) (n : Nat) (m : Motion) (b : Nat) : (s.setMotion k n m).core b = s.core b := by cases k <;> rfl

@[simp] theorem State.tile_updMotion (s : State) (k : UnitKind) (n : Nat) (f : Motion → Motion) (b : Nat) : (s.updMotion k n f).tile b = s.tile b := by cases k <;> rfl
@[simp] theorem State.leg_updMotion (s : State) (k : UnitKind) (n : Nat) (f : Motion → Motion) (b j : Nat) : (s.updMotion k n f).leg b j = s.leg b j := by cases k <;> rfl
@[simp] theorem State.ring_updMotion (s : State) (k : UnitKind) (n : Nat) (f : Motion → Motion) (b : Nat) : (s.updMotion k n f).ring b = s.ring b := by cases k <;> rfl
@[simp] theorem State.twin_updMotion (s : State) (k : UnitKind) (n : Nat) (f : Motion → Motion) (b : Nat) : (s.updMotion k n f).twin b = s.twin b := by cases k <;> rfl
@[simp] theorem State.thmTile_updMotion (s : State) (k : UnitKind) (n : Nat) (f : Motion → Motion) (b : Nat) : (s.updMotion k n f).thmTile b = s.thmTile b := by cases k <;> rfl
@[simp] theorem State.core_updMotion (s : State) (k : UnitKind) (n : Nat) (f : Motion → Motion) (b : Nat) : (s.updMotion k n f).core b = s.core b := by cases k <;> rfl

@[simp] theorem State.axis_emit (s : State) (o : Output) (b : Nat) : (s.emit o).axis b = s.axis b := rfl
@[simp] theorem State.course_emit (s : State) (o : Output) (b : Nat) : (s.emit o).course b = s.course b := rfl
@[simp] theorem State.tile_emit (s : State) (o : Output) (b : Nat) : (s.emit o).tile b = s.tile b := rfl
@[simp] theorem State.leg_emit (s : State) (o : Output) (b j : Nat) : (s.emit o).leg b j = s.leg b j := rfl
@[simp] theorem State.ring_emit (s : State) (o : Output) (b : Nat) : (s.emit o).ring b = s.ring b := rfl
@[simp] theorem State.twin_emit (s : State) (o : Output) (b : Nat) : (s.emit o).twin b = s.twin b := rfl
@[simp] theorem State.thmTile_emit (s : State) (o : Output) (b : Nat) : (s.emit o).thmTile b = s.thmTile b := rfl
@[simp] theorem State.core_emit (s : State) (o : Output) (b : Nat) : (s.emit o).core b = s.core b := rfl
@[simp] theorem State.motion_emit (s : State) (o : Output) (k : UnitKind) (b : Nat) : (s.emit o).motion k b = s.motion k b := by cases k <;> rfl

@[simp] theorem State.axis_spend (s : State) (b : Nat) : (s.spend).axis b = s.axis b := rfl
@[simp] theorem State.course_spend (s : State) (b : Nat) : (s.spend).course b = s.course b := rfl
@[simp] theorem State.tile_spend (s : State) (b : Nat) : (s.spend).tile b = s.tile b := rfl
@[simp] theorem State.leg_spend (s : State) (b j : Nat) : (s.spend).leg b j = s.leg b j := rfl
@[simp] theorem State.ring_spend (s : State) (b : Nat) : (s.spend).ring b = s.ring b := rfl
@[simp] theorem State.twin_spend (s : State) (b : Nat) : (s.spend).twin b = s.twin b := rfl
@[simp] theorem State.thmTile_spend (s : State) (b : Nat) : (s.spend).thmTile b = s.thmTile b := rfl
@[simp] theorem State.core_spend (s : State) (b : Nat) : (s.spend).core b = s.core b := rfl
@[simp] theorem State.motion_spend (s : State) (k : UnitKind) (b : Nat) : (s.spend).motion k b = s.motion k b := by cases k <;> rfl

@[simp] theorem State.axis_pass (s : State) (n : Nat) (b : Nat) : (s.pass n).axis b = s.axis b := rfl
@[simp] theorem State.course_pass (s : State) (n : Nat) (b : Nat) : (s.pass n).course b = s.course b := rfl
@[simp] theorem State.tile_pass (s : State) (n : Nat) (b : Nat) : (s.pass n).tile b = s.tile b := rfl
@[simp] theorem State.leg_pass (s : State) (n : Nat) (b j : Nat) : (s.pass n).leg b j = s.leg b j := rfl
@[simp] theorem State.ring_pass (s : State) (n : Nat) (b : Nat) : (s.pass n).ring b = s.ring b := rfl
@[simp] theorem State.twin_pass (s : State) (n : Nat) (b : Nat) : (s.pass n).twin b = s.twin b := rfl
@[simp] theorem State.thmTile_pass (s : State) (n : Nat) (b : Nat) : (s.pass n).thmTile b = s.thmTile b := rfl
@[simp] theorem State.core_pass (s : State) (n : Nat) (b : Nat) : (s.pass n).core b = s.core b := rfl
@[simp] theorem State.motion_pass (s : State) (n : Nat) (k : UnitKind) (b : Nat) : (s.pass n).motion k b = s.motion k b := by cases k <;> rfl

/-! ### Reading a unit after an update -/

theorem State.axis_setAxis (s : State) (a b : Nat) (x : Axis) : (s.setAxis a x).axis b = if b = a then x else s.axis b :=
  Bank.get_set ..
@[simp] theorem State.axis_setAxis_self (s : State) (a : Nat) (x : Axis) : (s.setAxis a x).axis a = x := Bank.get_set_self ..
theorem State.course_setCourse (s : State) (a b : Nat) (x : Course) : (s.setCourse a x).course b = if b = a then x else s.course b :=
  Bank.get_set ..
@[simp] theorem State.course_setCourse_self (s : State) (a : Nat) (x : Course) : (s.setCourse a x).course a = x := Bank.get_set_self ..
theorem State.tile_setTile (s : State) (a b : Nat) (x : Tile) : (s.setTile a x).tile b = if b = a then x else s.tile b :=
  Bank.get_set ..
@[simp] theorem State.tile_setTile_self (s : State) (a : Nat) (x : Tile) : (s.setTile a x).tile a = x := Bank.get_set_self ..
theorem State.ring_setRing (s : State) (a b : Nat) (x : Ring) : (s.setRing a x).ring b = if b = a then x else s.ring b :=
  Bank.get_set ..
@[simp] theorem State.ring_setRing_self (s : State) (a : Nat) (x : Ring) : (s.setRing a x).ring a = x := Bank.get_set_self ..
@[simp] theorem State.thmTile_setThmTile_self (s : State) (a : Nat) (x : ThmTile) : (s.setThmTile a x).thmTile a = x :=
  Bank.get_set_self ..
theorem State.thmTile_setThmTile (s : State) (a b : Nat) (x : ThmTile) :
    (s.setThmTile a x).thmTile b = if b = a then x else s.thmTile b := Bank.get_set ..
@[simp] theorem State.twin_setTwin_self (s : State) (a : Nat) (x : TWin) : (s.setTwin a x).twin a = x := Bank.get_set_self ..

@[simp] theorem State.axis_updAxis_self (s : State) (a : Nat) (f : Axis → Axis) : (s.updAxis a f).axis a = f (s.axis a) := by
  simp [State.updAxis]
theorem State.axis_updAxis (s : State) (a b : Nat) (f : Axis → Axis) :
    (s.updAxis a f).axis b = if b = a then f (s.axis a) else s.axis b := State.axis_setAxis ..
@[simp] theorem State.course_updCourse_self (s : State) (a : Nat) (f : Course → Course) : (s.updCourse a f).course a = f (s.course a) := by
  simp [State.updCourse]
theorem State.course_updCourse (s : State) (a b : Nat) (f : Course → Course) :
    (s.updCourse a f).course b = if b = a then f (s.course a) else s.course b := State.course_setCourse ..
@[simp] theorem State.tile_updTile_self (s : State) (t : Nat) (f : Tile → Tile) : (s.updTile t f).tile t = f (s.tile t) := by
  simp [State.updTile]
theorem State.tile_updTile (s : State) (t u : Nat) (f : Tile → Tile) :
    (s.updTile t f).tile u = if u = t then f (s.tile t) else s.tile u := State.tile_setTile ..
@[simp] theorem State.ring_updRing_self (s : State) (r : Nat) (f : Ring → Ring) : (s.updRing r f).ring r = f (s.ring r) := by
  simp [State.updRing]
theorem State.ring_updRing (s : State) (r q : Nat) (f : Ring → Ring) :
    (s.updRing r f).ring q = if q = r then f (s.ring r) else s.ring q := State.ring_setRing ..

/-- A leg after an update of a leg. -/
theorem State.leg_setLeg (s : State) (t l u j : Nat) (x : Leg) :
    (s.setLeg t l x).leg u j = if u = t ∧ j = l then x else s.leg u j := by
  unfold State.leg State.setLeg
  rw [State.tile_setTile]
  by_cases h : u = t
  · subst h
    simp only [if_true, true_and]
    exact Bank.get_set ..
  · simp [h]
@[simp] theorem State.leg_setLeg_self (s : State) (t l : Nat) (x : Leg) : (s.setLeg t l x).leg t l = x := by simp [State.leg_setLeg]
@[simp] theorem State.leg_updLeg_self (s : State) (t l : Nat) (f : Leg → Leg) : (s.updLeg t l f).leg t l = f (s.leg t l) := by
  simp [State.updLeg]
theorem State.leg_updLeg (s : State) (t l u j : Nat) (f : Leg → Leg) :
    (s.updLeg t l f).leg u j = if u = t ∧ j = l then f (s.leg t l) else s.leg u j := State.leg_setLeg ..

/-- The motion of a unit after an update of a motion. -/
theorem State.motion_setMotion (s : State) (k j : UnitKind) (n i : Nat) (m : Motion) :
    (s.setMotion k n m).motion j i = if j = k ∧ i = n then m else s.motion j i := by
  cases k <;> cases j <;> simp only [State.motion, State.setMotion, State.axis_setAxis, State.course_setCourse] <;>
    first
      | (by_cases h : i = n <;> simp [h])
      | (simp [State.axis, State.course, State.setAxis, State.setCourse])
@[simp] theorem State.motion_setMotion_self (s : State) (k : UnitKind) (n : Nat) (m : Motion) : (s.setMotion k n m).motion k n = m := by
  simp [State.motion_setMotion]
@[simp] theorem State.motion_updMotion_self (s : State) (k : UnitKind) (n : Nat) (f : Motion → Motion) :
    (s.updMotion k n f).motion k n = f (s.motion k n) := by
  simp [State.updMotion]
theorem State.motion_updMotion (s : State) (k j : UnitKind) (n i : Nat) (f : Motion → Motion) :
    (s.updMotion k n f).motion j i = if j = k ∧ i = n then f (s.motion k n) else s.motion j i := State.motion_setMotion ..

/-! ### Carrying out a command -/

/-- Outside internal reset a command is its change of the state, with nothing sent before it. -/
theorem State.command_next (s : State) (f : State → State) (h : s.inReset = false) :
    s.command f = .next (f { s with out := [] }) := by
  unfold State.command
  simp [h]

/-- In internal reset a command does nothing. -/
theorem State.command_held (s : State) (f : State → State) (h : s.inReset = true) : s.command f = .next { s with out := [] } := by
  unfold State.command
  simp [h]

theorem State.setTile_setTile (s : State) (t : Nat) (x y : Tile) : (s.setTile t x).setTile t y = s.setTile t y := by
  simp [State.setTile, Bank.set_set]

theorem State.setLeg_setLeg (s : State) (t l : Nat) (x y : Leg) : (s.setLeg t l x).setLeg t l y = s.setLeg t l y := by
  simp [State.setLeg, State.setTile, Bank.set_set, State.tile]

end Sys2Proof.Machine
end

