-- ==== Sys2Proof/Laws/Quiet.lean ====
section
/-! SUPPORT. The state on which a command is carried out: nothing sent out, all else as it was. -/

namespace Sys2Proof.Machine

@[simp] theorem State.quiet_variant (s : State) : s.quiet.variant = s.variant := rfl
@[simp] theorem State.quiet_dt (s : State) : s.quiet.dt = s.dt := rfl
@[simp] theorem State.quiet_lastPeriod (s : State) : s.quiet.lastPeriod = s.lastPeriod := rfl
@[simp] theorem State.quiet_lastTick (s : State) : s.quiet.lastTick = s.lastTick := rfl
@[simp] theorem State.quiet_inReset (s : State) : s.quiet.inReset = s.inReset := rfl
@[simp] theorem State.quiet_bootDone (s : State) : s.quiet.bootDone = s.bootDone := rfl
@[simp] theorem State.quiet_bootPassed (s : State) : s.quiet.bootPassed = s.bootPassed := rfl
@[simp] theorem State.quiet_tap (s : State) : s.quiet.tap = s.tap := rfl
@[simp] theorem State.quiet_glb (s : State) : s.quiet.glb = s.glb := rfl
@[simp] theorem State.quiet_ref (s : State) : s.quiet.ref = s.ref := rfl
@[simp] theorem State.quiet_str (s : State) : s.quiet.str = s.str := rfl
@[simp] theorem State.quiet_host (s : State) : s.quiet.host = s.host := rfl
@[simp] theorem State.quiet_flt (s : State) : s.quiet.flt = s.flt := rfl
@[simp] theorem State.quiet_thm (s : State) : s.quiet.thm = s.thm := rfl
@[simp] theorem State.quiet_spr (s : State) : s.quiet.spr = s.spr := rfl
@[simp] theorem State.quiet_inp (s : State) : s.quiet.inp = s.inp := rfl
@[simp] theorem State.quiet_axes (s : State) : s.quiet.axes = s.axes := rfl
@[simp] theorem State.quiet_courses (s : State) : s.quiet.courses = s.courses := rfl
@[simp] theorem State.quiet_camAddr (s : State) : s.quiet.camAddr = s.camAddr := rfl
@[simp] theorem State.quiet_cam (s : State) : s.quiet.cam = s.cam := rfl
@[simp] theorem State.quiet_camBad (s : State) : s.quiet.camBad = s.camBad := rfl
@[simp] theorem State.quiet_tiles (s : State) : s.quiet.tiles = s.tiles := rfl
@[simp] theorem State.quiet_tbl (s : State) : s.quiet.tbl = s.tbl := rfl
@[simp] theorem State.quiet_cfg (s : State) : s.quiet.cfg = s.cfg := rfl
@[simp] theorem State.quiet_diag (s : State) : s.quiet.diag = s.diag := rfl
@[simp] theorem State.quiet_shadows (s : State) : s.quiet.shadows = s.shadows := rfl
@[simp] theorem State.quiet_rdata (s : State) : s.quiet.rdata = s.rdata := rfl
@[simp] theorem State.quiet_out (s : State) : s.quiet.out = [] := rfl
@[simp] theorem State.quiet_fresh (s : State) : s.quiet.fresh = s.fresh := rfl
@[simp] theorem State.quiet_pending (s : State) : s.quiet.pending = s.pending := rfl
@[simp] theorem State.quiet_axis (s : State) (a : Nat) : s.quiet.axis a = s.axis a := rfl
@[simp] theorem State.quiet_course (s : State) (c : Nat) : s.quiet.course c = s.course c := rfl
@[simp] theorem State.quiet_tile (s : State) (t : Nat) : s.quiet.tile t = s.tile t := rfl
@[simp] theorem State.quiet_ring (s : State) (r : Nat) : s.quiet.ring r = s.ring r := rfl
@[simp] theorem State.quiet_twin (s : State) (w : Nat) : s.quiet.twin w = s.twin w := rfl
@[simp] theorem State.quiet_thmTile (s : State) (t : Nat) : s.quiet.thmTile t = s.thmTile t := rfl
@[simp] theorem State.quiet_core (s : State) (n : Nat) : s.quiet.core n = s.core n := rfl
@[simp] theorem State.quiet_leg (s : State) (t l : Nat) : s.quiet.leg t l = s.leg t l := rfl
@[simp] theorem State.quiet_motion (s : State) (k : UnitKind) (n : Nat) : s.quiet.motion k n = s.motion k n := by cases k <;> rfl
@[simp] theorem State.quiet_present (s : State) (k : UnitKind) (n : Nat) : s.quiet.present k n = s.present k n := by cases k <;> rfl

/-- Outside internal reset a command is its own change on the quiet state. -/
theorem State.command_quiet {s : State} (f : State → State) (h : s.inReset = false) : s.command f = .next (f s.quiet) := by
  unfold State.command State.quiet; simp [h]

/-- In internal reset a command changes nothing. -/
theorem State.command_reset {s : State} (f : State → State) (h : s.inReset = true) : s.command f = .next s.quiet := by
  unfold State.command State.quiet; simp [h]

/-- A state is quiet when nothing has been sent out. -/
theorem State.quiet_of_out {s : State} (h : s.out = []) : s.quiet = s := by
  unfold State.quiet; rw [← h]

end Sys2Proof.Machine
end

