-- ==== Sys2Proof/Laws/Sound.lean ====
section
/-! SUPPORT. Every operation, every command and every step keeps the invariant State.Sound (the two switches of a leg interlock,
R279; the fault history holds at most 32 entries, R513). -/

namespace Sys2Proof.Machine

/-- The interlock on a bank of tiles. -/
def tilesOk (b : Bank Tile) : Prop :=
  ∀ t l, interlocked (Bank.get Leg.reset (Bank.get Tile.reset b t).legs l).hi (Bank.get Leg.reset (Bank.get Tile.reset b t).legs l).lo

/-- The interlock on a bank of legs. -/
def legsOk (b : Bank Leg) : Prop := ∀ l, interlocked (Bank.get Leg.reset b l).hi (Bank.get Leg.reset b l).lo

theorem State.sound_mk (variant_ : Variant) (dt_ : Nat) (lastPeriod_ : Option Nat) (lastTick_ : Option Nat) (inReset_ : Bool) (bootDone_ : Bool) (bootPassed_ : Bool) (tap_ : TapPort) (glb_ : Glb) (ref_ : Ref) (str_ : Strait) (host_ : HostB) (flt_ : Flt) (thm_ : Thm) (spr_ : Spr) (inp_ : Inp) (axes_ : Bank Axis) (courses_ : Bank Course) (camAddr_ : Nat) (cam_ : List Host.Cell) (camBad_ : List Nat) (tiles_ : Bank Tile) (tbl_ : Bank Word) (cfg_ : CfgB) (diag_ : Bank DiagTile) (shadows_ : Bank Word) (rdata_ : Word) (out_ : List Output) (fresh_ : Nat) (pending_ : List Instr) :
    (State.mk variant_ dt_ lastPeriod_ lastTick_ inReset_ bootDone_ bootPassed_ tap_ glb_ ref_ str_ host_ flt_ thm_ spr_ inp_ axes_ courses_ camAddr_ cam_ camBad_ tiles_ tbl_ cfg_ diag_ shadows_ rdata_ out_ fresh_ pending_).Sound ↔ tilesOk tiles_ ∧ flt_.hist.length ≤ 32 := Iff.rfl

theorem State.Sound.tiles {s : State} (h : s.Sound) : tilesOk s.tiles := h.1
theorem State.Sound.hist {s : State} (h : s.Sound) : s.flt.hist.length ≤ 32 := h.2
theorem State.Sound.legs {s : State} (h : s.Sound) (t : Nat) : legsOk (s.tile t).legs := h.1 t
theorem State.Sound.leg {s : State} (h : s.Sound) (t l : Nat) : interlocked (s.leg t l).hi (s.leg t l).lo := h.1 t l
theorem legsOk.get {b : Bank Leg} (h : legsOk b) (l : Nat) : interlocked (Bank.get Leg.reset b l).hi (Bank.get Leg.reset b l).lo := h l

theorem State.setTile_sound {s : State} (h : s.Sound) (t : Nat) (x : Tile) (hx : legsOk x.legs) : (s.setTile t x).Sound := by
  refine ⟨fun u l => ?_, h.2⟩
  unfold State.leg
  rw [State.tile_setTile]
  split
  · exact hx l
  · exact h.1 u l

theorem legsOk_set {b : Bank Leg} (h : legsOk b) (l : Nat) (x : Leg) (hx : interlocked x.hi x.lo) : legsOk (Bank.set b l x) := by
  intro j
  rw [Bank.get_set]
  split
  · exact hx
  · exact h j

theorem State.setLeg_sound {s : State} (h : s.Sound) (t l : Nat) (x : Leg) (hx : interlocked x.hi x.lo) : (s.setLeg t l x).Sound :=
  State.setTile_sound h _ _ (legsOk_set (h.legs t) l x hx)

theorem State.updLeg_sound {s : State} (h : s.Sound) (t l : Nat) (f : Leg → Leg)
    (hf : ∀ x : Leg, interlocked x.hi x.lo → interlocked (f x).hi (f x).lo) : (s.updLeg t l f).Sound :=
  State.setLeg_sound h _ _ _ (hf _ (h.leg t l))

theorem State.updTile_sound {s : State} (h : s.Sound) (t : Nat) (f : Tile → Tile) (hf : ∀ x : Tile, legsOk x.legs → legsOk (f x).legs) :
    (s.updTile t f).Sound := State.setTile_sound h _ _ (hf _ (h.legs t))

theorem State.reset_sound : State.reset.Sound := by
  refine ⟨fun t l => ?_, by decide⟩
  show interlocked (Leg.reset).hi (Leg.reset).lo
  simp [interlocked, Leg.reset, GateSw.reset]

theorem foldl_sound (f : State → α → State) (h : ∀ s a, s.Sound → (f s a).Sound) (l : List α) {s : State} (hs : s.Sound) :
    (l.foldl f s).Sound := by
  exact List.foldlRecOn l f hs fun t ht a _ => h t a ht

theorem foldl_sound_pair (f : State × β → α → State × β) (h : ∀ r a, r.1.Sound → (f r a).1.Sound) (l : List α) (r : State × β)
    (hr : r.1.Sound) : (l.foldl f r).1.Sound := by
  exact List.foldlRecOn l f (motive := fun q => q.1.Sound) hr fun q hq a _ => h q a hq

/-! ### Legs -/

theorem interlocked_off (a b : GateSw) : interlocked a.off b.off := by simp [interlocked, GateSw.off]

theorem Leg.toHiz_ok (x : Leg) : interlocked x.toHiz.hi x.toHiz.lo := interlocked_off ..

theorem Leg.latchCause_ok {x : Leg} (h : interlocked x.hi x.lo) (c : Nat) : interlocked (x.latchCause c).hi (x.latchCause c).lo := by
  unfold Leg.latchCause; split <;> exact h

theorem Leg.cmdOff_ok {x : Leg} (h : interlocked x.hi x.lo) (w : Switch) : interlocked (x.cmdOff w).hi (x.cmdOff w).lo := by
  cases w <;> simp only [Leg.cmdOff, Leg.setSw, Leg.sw, interlocked] at * <;> simp_all

theorem Leg.cmdOn_ok {x : Leg} (h : interlocked x.hi x.lo) (w : Switch) : interlocked (x.cmdOn w).hi (x.cmdOn w).lo := by
  unfold Leg.cmdOn
  split
  · rename_i hm
    cases w <;> simp_all [Leg.mayTurnOn, Leg.setSw, Leg.sw, otherSw, interlocked]
  · cases w <;> simp_all [Leg.setSw, Leg.sw, interlocked]

theorem Leg.drive_ok {x : Leg} (h : interlocked x.hi x.lo) (w : Switch) : interlocked (x.drive w).hi (x.drive w).lo := by
  unfold Leg.drive
  dsimp only
  repeat' first
    | assumption
    | split
    | apply Leg.cmdOn_ok
    | apply Leg.cmdOff_ok

theorem Leg.retry_ok {x : Leg} (h : interlocked x.hi x.lo) : interlocked x.retry.hi x.retry.lo := by
  unfold Leg.retry
  dsimp only
  repeat' first
    | assumption
    | split
    | apply Leg.cmdOn_ok

theorem interlocked_counts {a b c d : GateSw} (h : interlocked a b) (h1 : c.on = a.on) (h2 : c.cmd = a.cmd) (h3 : c.hs = a.hs) (h4 : c.dead = a.dead)
    (h5 : d.on = b.on) (h6 : d.cmd = b.cmd) (h7 : d.hs = b.hs) (h8 : d.dead = b.dead) : interlocked c d := by
  unfold interlocked
  rw [h1, h2, h3, h4, h5, h6, h7, h8]
  exact h

theorem Leg.leaveHiz_ok {x : Leg} (h : interlocked x.hi x.lo) : interlocked x.leaveHiz.hi x.leaveHiz.lo := by
  unfold Leg.leaveHiz
  dsimp only
  split
  · apply Leg.cmdOn_ok
    exact interlocked_counts h rfl rfl rfl rfl rfl rfl rfl rfl
  · exact interlocked_counts h rfl rfl rfl rfl rfl rfl rfl rfl

theorem Leg.transfer_ok {x : Leg} (h : interlocked x.hi x.lo) : interlocked x.transfer.1.hi x.transfer.1.lo := by
  unfold Leg.transfer; split <;> exact h

theorem Leg.unready_ok {x : Leg} (h : interlocked x.hi x.lo) : interlocked x.unready.hi x.unready.lo := h

theorem Leg.modeWritten_ok {x : Leg} (h : interlocked x.hi x.lo) (old : Nat) : interlocked (x.modeWritten old).hi (x.modeWritten old).lo := by
  unfold Leg.modeWritten
  dsimp only
  (repeat' split) <;> first | exact h | exact interlocked_off ..

theorem Leg.store_ok {x : Leg} (h : interlocked x.hi x.lo) (o : Nat) (v : Word) : interlocked (x.store o v).hi (x.store o v).lo := by
  unfold Leg.store
  split <;> exact h

theorem State.updLeg_at_sound {s : State} (h : s.Sound) (t l : Nat) (f : Leg → Leg)
    (hf : interlocked (f (s.leg t l)).hi (f (s.leg t l)).lo) : (s.updLeg t l f).Sound := State.setLeg_sound h _ _ _ hf

/-- A switch record that differs in what the interlock does not read. -/
theorem Leg.setSw_ok {x : Leg} (h : interlocked x.hi x.lo) (w : Switch) (g : GateSw) (h1 : g.on = (x.sw w).on) (h2 : g.cmd = (x.sw w).cmd)
    (h3 : g.hs = (x.sw w).hs) (h4 : g.dead = (x.sw w).dead) : interlocked (x.setSw w g).hi (x.setSw w g).lo := by
  cases w
  · exact interlocked_counts h rfl rfl rfl rfl h1 h2 h3 h4
  · exact interlocked_counts h h1 h2 h3 h4 rfl rfl rfl rfl

/-- A handshake confirms where the switch is off and had not confirmed. -/
theorem Leg.setSw_confirm {x : Leg} (h : interlocked x.hi x.lo) (w : Switch) (h1 : (x.sw w).on = false) (h2 : (x.sw w).hs = false) :
    interlocked (x.setSw w { x.sw w with hs := true, dead := true }).hi (x.setSw w { x.sw w with hs := true, dead := true }).lo := by
  cases w <;> simp_all [Leg.setSw, Leg.sw, interlocked]

/-- A dead time ends. -/
theorem Leg.setSw_dead {x : Leg} (h : interlocked x.hi x.lo) (w : Switch) :
    interlocked (x.setSw w { x.sw w with dead := false }).hi (x.setSw w { x.sw w with dead := false }).lo := by
  cases w <;> simp_all [Leg.setSw, Leg.sw, interlocked]

/-! ### The history queue -/

theorem Flt.startPulse_hist (f : Flt) (n : Nat) (c : FClass) : (f.startPulse n c).hist = f.hist := by
  unfold Flt.startPulse; split <;> rfl

theorem updFirst_length (l : List α) (p : α → Bool) (f : α → α) : (updFirst l p f).length = l.length := by
  induction l with
  | nil => rfl
  | cons x xs ih => unfold updFirst; split <;> simp [ih]

theorem insertCycle_length (e : Entry) (l : List Entry) : (insertCycle e l).length = l.length + 1 := by
  induction l with
  | nil => rfl
  | cons x xs ih => unfold insertCycle; split <;> simp [ih]

theorem renumber_length (k top : Nat) (l : List Entry) : (renumber k top l).length = l.length := by
  induction l generalizing k top with
  | nil => cases k <;> rfl
  | cons x xs ih =>
    cases k with
    | zero => rfl
    | succ k => unfold renumber; simp [ih]

theorem dropLast?_length (l : List α) (p : α → Bool) : ∀ m, dropLast? l p = some m → m.length + 1 = l.length := by
  fun_induction dropLast? l p <;> grind

theorem Tile.checkOn_legs (x : Tile) (k : Nat) : (x.checkOn k).legs = x.legs := rfl

theorem tilesOk_reset (b : Bank Tile) (h : ∀ p ∈ b, p.2.legs = []) : tilesOk b := by
  have key : ∀ t, (Bank.get Tile.reset b t).legs = [] := by
    intro t
    induction b with
    | nil => rfl
    | cons p b ih =>
      obtain ⟨j, w⟩ := p
      rw [Bank.get_cons]
      split
      · exact h _ (List.mem_cons_self ..)
      · exact ih fun q hq => h q (List.mem_cons_of_mem _ hq)
  intro t l
  rw [key t]
  simp [Bank.get, interlocked, Leg.reset, GateSw.reset]

theorem State.latched_sound (s : State) {t : State} (ht : t.flt.hist.length ≤ 32) : (s.latched t).Sound := by
  refine ⟨tilesOk_reset _ fun p hp => ?_, ht⟩
  obtain ⟨q, -, rfl⟩ := List.mem_map.mp hp
  rfl

theorem supply_ok {x : Tile} (h : legsOk x.legs) : legsOk x.supplySlots.legs := h

theorem Leg.soften_ok {x : Leg} (h : interlocked x.hi x.lo) (w : Switch) : interlocked (x.soften w).hi (x.soften w).lo := by
  unfold Leg.soften
  split
  · exact Leg.setSw_ok h w _ rfl rfl rfl rfl
  · exact h

theorem Tile.checkCalled_ok {x : Tile} (h : legsOk x.legs) (k : Nat) : legsOk (x.checkCalled k).legs := by
  unfold Tile.checkCalled
  split <;> exact h

/-- The dead time that a suppressed drive switch leaves behind (R224) holds the other switch, which is off. -/
theorem Leg.skip_ok {x : Leg} (h : interlocked x.hi x.lo) (w : Switch) (hc : (x.sw (otherSw w)).cmd = false) :
    interlocked ((x.cmdOff w).setSw w { (x.cmdOff w).sw w with dead := true }).hi
      ((x.cmdOff w).setSw w { (x.cmdOff w).sw w with dead := true }).lo := by
  cases w <;> simp only [Leg.cmdOff, Leg.setSw, Leg.sw, otherSw, interlocked] at * <;> simp_all

theorem State.setAxis_sound {s : State} (h : s.Sound) (a : Nat) (x : Axis) : (s.setAxis a x).Sound := by
  unfold State.setAxis
  repeat' first
    | (with_reducible first | assumption | intro _)
    | split
    | (rw [State.sound_mk]; refine ⟨?_, ?_⟩)
    | (with_reducible first | apply State.Sound.tiles | apply State.Sound.hist | apply State.Sound.leg | apply State.Sound.legs | apply legsOk.get)
    | dsimp only

theorem State.setCourse_sound {s : State} (h : s.Sound) (c : Nat) (x : Course) : (s.setCourse c x).Sound := by
  unfold State.setCourse
  repeat' first
    | (with_reducible first | assumption | intro _)
    | split
    | (rw [State.sound_mk]; refine ⟨?_, ?_⟩)
    | (with_reducible first | apply State.Sound.tiles | apply State.Sound.hist | apply State.Sound.leg | apply State.Sound.legs | apply legsOk.get)
    | dsimp only

theorem State.setRing_sound {s : State} (h : s.Sound) (r : Nat) (x : Ring) : (s.setRing r x).Sound := by
  unfold State.setRing
  (try dsimp only)
  repeat' first
    | (with_reducible first | assumption | intro _)
    | split
    | (rw [State.sound_mk]; refine ⟨?_, ?_⟩)
    | (with_reducible first | apply State.Sound.tiles | apply State.Sound.hist | apply State.Sound.leg | apply State.Sound.legs | apply legsOk.get)
    | dsimp only

theorem State.setTwin_sound {s : State} (h : s.Sound) (w : Nat) (x : TWin) : (s.setTwin w x).Sound := by
  unfold State.setTwin
  (try dsimp only)
  repeat' first
    | (with_reducible first | assumption | intro _)
    | split
    | (rw [State.sound_mk]; refine ⟨?_, ?_⟩)
    | (with_reducible first | apply State.Sound.tiles | apply State.Sound.hist | apply State.Sound.leg | apply State.Sound.legs | apply legsOk.get)
    | dsimp only

theorem State.setThmTile_sound {s : State} (h : s.Sound) (t : Nat) (x : ThmTile) : (s.setThmTile t x).Sound := by
  unfold State.setThmTile
  (try dsimp only)
  repeat' first
    | (with_reducible first | assumption | intro _)
    | split
    | (rw [State.sound_mk]; refine ⟨?_, ?_⟩)
    | (with_reducible first | apply State.Sound.tiles | apply State.Sound.hist | apply State.Sound.leg | apply State.Sound.legs | apply legsOk.get)
    | dsimp only

theorem State.setCore_sound {s : State} (h : s.Sound) (n : Nat) (x : CoreU) : (s.setCore n x).Sound := by
  unfold State.setCore
  (try dsimp only)
  repeat' first
    | (with_reducible first | assumption | intro _)
    | split
    | (rw [State.sound_mk]; refine ⟨?_, ?_⟩)
    | (with_reducible first | apply State.Sound.tiles | apply State.Sound.hist | apply State.Sound.leg | apply State.Sound.legs | apply legsOk.get)
    | dsimp only

theorem State.setMotion_sound {s : State} (h : s.Sound) (k : UnitKind) (n : Nat) (m : Motion) : (s.setMotion k n m).Sound := by
  unfold State.setMotion
  (try dsimp only)
  repeat' first
    | (with_reducible first | assumption | intro _ | apply State.setAxis_sound | apply State.setCourse_sound)
    | split

theorem State.updAxis_sound {s : State} (h : s.Sound) (a : Nat) (f : Axis → Axis) : (s.updAxis a f).Sound := by
  unfold State.updAxis
  repeat' first
    | (with_reducible first | assumption | intro _ | apply State.setAxis_sound)
    | split

theorem State.updCourse_sound {s : State} (h : s.Sound) (c : Nat) (f : Course → Course) : (s.updCourse c f).Sound := by
  unfold State.updCourse
  repeat' first
    | (with_reducible first | assumption | intro _ | apply State.setCourse_sound)
    | split

theorem State.updRing_sound {s : State} (h : s.Sound) (r : Nat) (f : Ring → Ring) : (s.updRing r f).Sound := by
  unfold State.updRing
  repeat' first
    | (with_reducible first | assumption | intro _ | apply State.setRing_sound)
    | split

theorem State.updMotion_sound {s : State} (h : s.Sound) (k : UnitKind) (n : Nat) (f : Motion → Motion) : (s.updMotion k n f).Sound := by
  unfold State.updMotion
  repeat' first
    | (with_reducible first | assumption | intro _ | apply State.setMotion_sound)
    | split

theorem State.each_sound {s : State} (h : s.Sound) (l : List Nat) (f : Nat → State → State) (hf : ∀ (n : Nat) (t : State), t.Sound → State.Sound (f n t)) : (s.each l f).Sound := by
  exact foldl_sound _ (fun t n ht => hf n t ht) l h

theorem State.emit_sound {s : State} (h : s.Sound) (o : Output) : (s.emit o).Sound := by
  unfold State.emit
  repeat' first
    | (with_reducible first | assumption | intro _)
    | split
    | (rw [State.sound_mk]; refine ⟨?_, ?_⟩)
    | (with_reducible first | apply State.Sound.tiles | apply State.Sound.hist | apply State.Sound.leg | apply State.Sound.legs | apply legsOk.get)
    | dsimp only

theorem State.spend_sound {s : State} (h : s.Sound) : (s.spend).Sound := by
  unfold State.spend
  repeat' first
    | (with_reducible first | assumption | intro _)
    | split
    | (rw [State.sound_mk]; refine ⟨?_, ?_⟩)
    | (with_reducible first | apply State.Sound.tiles | apply State.Sound.hist | apply State.Sound.leg | apply State.Sound.legs | apply legsOk.get)
    | dsimp only

theorem State.pass_sound {s : State} (h : s.Sound) (n : Nat) : (s.pass n).Sound := by
  unfold State.pass
  (try dsimp only)
  repeat' first
    | (with_reducible first | assumption | intro _)
    | split
    | (rw [State.sound_mk]; refine ⟨?_, ?_⟩)
    | (with_reducible first | apply State.Sound.tiles | apply State.Sound.hist | apply State.Sound.leg | apply State.Sound.legs | apply legsOk.get)
    | dsimp only

theorem State.complete_sound {s : State} (h : s.Sound) (g : Tag) (r : List Word) : (s.complete g r).Sound := by
  unfold State.complete
  repeat' first
    | (with_reducible first | assumption | intro _ | apply State.updRing_sound | apply State.record_sound)
    | split

theorem State.sendFault_sound {s : State} (h : s.Sound) (c : FClass) : (s.sendFault c).Sound := by
  unfold State.sendFault
  repeat' first
    | (with_reducible first | assumption | intro _ | apply State.emit_sound | apply foldl_sound)
    | split

theorem State.announce_sound {s : State} (h : s.Sound) (c : FClass) : (s.announce c).Sound := by
  unfold State.announce
  (try dsimp only)
  repeat' first
    | rw [Flt.startPulse_hist]
    | (with_reducible first | assumption | intro _ | apply State.sendFault_sound)
    | split
    | (rw [State.sound_mk]; refine ⟨?_, ?_⟩)
    | (with_reducible first | apply State.Sound.tiles | apply State.Sound.hist | apply State.Sound.leg | apply State.Sound.legs | apply legsOk.get)
    | dsimp only

theorem crowd_length (e x : Entry) (l : List Entry) : (crowd e x l).length = l.length + 1 := by
  unfold crowd
  dsimp only
  split
  · rw [List.length_map]
    split
    · rw [List.length_map, insertCycle_length]
    · exact insertCycle_length e l
  · exact insertCycle_length e l

/-- A change of every listed tile that leaves its legs alone. -/
theorem tilesOk_map {b : Bank Tile} (h : tilesOk b) (f : Tile → Tile) (hf : ∀ x, (f x).legs = x.legs) :
    tilesOk (b.map fun p => (p.1, f p.2)) := by
  have q (t : Nat) : (Bank.get Tile.reset (b.map fun p => (p.1, f p.2)) t).legs = (Bank.get Tile.reset b t).legs := by
    clear h
    induction b with
    | nil => rfl
    | cons p b ih =>
      unfold Bank.get at ih ⊢
      rw [List.map_cons, List.lookup_cons, List.lookup_cons]
      split
      · exact hf p.2
      · exact ih
  intro t l
  rw [q t]
  exact h t l

theorem State.rehold_sound {s : State} (h : s.Sound) (u v : Nat) : (s.rehold u v).Sound := by
  unfold State.rehold
  dsimp only
  rw [State.sound_mk]
  exact ⟨tilesOk_map h.1 (fun x => { x with isoHold := x.isoHold.map fun y => if y = u then v else y }) fun _ => rfl, h.2⟩

theorem State.fifth_sound {s : State} (h : s.Sound) (e x : Entry) (l older : List Entry) (hl : l.length + 1 + older.length ≤ 32) :
    (s.fifth e x l older).1.Sound := by
  unfold State.fifth
  split
  · refine State.announce_sound ?_ _
    rw [State.sound_mk]
    refine ⟨?_, ?_⟩
    · split
      · exact h.1
      · exact (State.rehold_sound h _ _).1
    · rw [List.length_append, renumber_length, crowd_length]
      exact hl
  · rw [State.sound_mk, updFirst_length]; exact h

theorem State.record_sound {s : State} (h : s.Sound) (src : Nat) (c : FClass) (detail : Word) (inj : Bool) : (s.record src c detail inj).1.Sound := by
  unfold State.record
  extract_lets src' s1 target src2 cycle e room uid f
  have h1 : s1.Sound := by
    unfold s1
    split
    · rw [State.sound_mk]; exact ⟨h.1, h.2⟩
    · exact h
  have hr : ∀ l ovf, room = some (l, ovf) → l.length + 1 ≤ 32 := by
    intro l ovf
    unfold room
    split
    · intro q
      obtain ⟨rfl, rfl⟩ := Prod.mk.inj (Option.some.inj q)
      assumption
    · intro q
      rw [Option.map_eq_some_iff] at q
      obtain ⟨m, hm, q⟩ := q
      obtain ⟨rfl, rfl⟩ := Prod.mk.inj q
      rw [dropLast?_length _ _ _ hm]
      exact h1.2
  have hc : ∀ x l, (if 4 ≤ cycle.length then cycle else []) = x :: l →
      l.length + 1 + (s1.flt.hist.drop cycle.length).length ≤ 32 := by
    intro x l hx
    split at hx
    · have e1 : l.length + 1 = cycle.length := by rw [hx]; rfl
      have e2 : cycle.length ≤ s1.flt.hist.length := by
        unfold cycle
        exact (List.takeWhile_sublist _).length_le
      have e3 := h1.2
      rw [List.length_drop]
      omega
    · cases hx
  clear_value s1 room cycle
  split
  · rw [State.sound_mk, List.length_map]; exact h1
  · split
    · rw [State.sound_mk, updFirst_length]; exact h1
    · split
      · rename_i x l hx
        exact State.fifth_sound h1 _ _ _ _ (hc x l hx)
      · split
        · refine State.announce_sound ?_ _
          rw [State.sound_mk]
          refine ⟨h1.1, ?_⟩
          dsimp only
          rw [renumber_length, insertCycle_length]
          exact hr _ _ rfl
        · refine State.announce_sound ?_ _
          rw [State.sound_mk]
          exact ⟨h1.1, by rw [updFirst_length]; exact h1.2⟩

theorem State.postStop_sound {s : State} (h : s.Sound) (k : UnitKind) (n : Nat) (c : StopCause) : (s.postStop k n c).Sound := by
  unfold State.postStop
  repeat' first
    | (with_reducible first | assumption | intro _ | apply State.updMotion_sound)
    | split

theorem State.endSol_sound {s : State} (h : s.Sound) (t l : Nat) : (s.endSol t l).Sound := by
  unfold State.endSol
  (try dsimp only)
  repeat' first
    | (with_reducible first | assumption | intro _ | apply State.updLeg_sound)
    | split
    | (rw [State.sound_mk]; refine ⟨?_, ?_⟩)
    | (with_reducible first | apply State.Sound.tiles | apply State.Sound.hist | apply State.Sound.leg | apply State.Sound.legs | apply legsOk.get)
    | dsimp only

theorem State.payOwed_sound {s : State} (h : s.Sound) : (s.payOwed).Sound := by
  unfold State.payOwed
  (try dsimp only)
  repeat' first
    | (with_reducible first | assumption | intro _ | apply State.complete_sound | apply foldl_sound)
    | split
    | (rw [State.sound_mk]; refine ⟨?_, ?_⟩)
    | (with_reducible first | apply State.Sound.tiles | apply State.Sound.hist | apply State.Sound.leg | apply State.Sound.legs | apply legsOk.get)
    | dsimp only

theorem State.legHiz_sound {s : State} (h : s.Sound) (t l : Nat) : (s.legHiz t l).Sound := by
  unfold State.legHiz
  repeat' first
    | (with_reducible first | assumption | intro _ | apply State.updLeg_sound | apply State.endSol_sound | apply Leg.toHiz_ok)
    | split

theorem State.axisHiz_sound {s : State} (h : s.Sound) (a : Nat) (c : StopCause) : (s.axisHiz a c).Sound := by
  unfold State.axisHiz
  (try dsimp only)
  repeat' first
    | (with_reducible first | assumption | intro _ | apply State.updLeg_sound | apply State.updAxis_sound)
    | (with_reducible first | apply State.postStop_sound | apply Leg.toHiz_ok | apply foldl_sound)
    | split

theorem State.allHiz_sound {s : State} (h : s.Sound) (c : StopCause) : (s.allHiz c).Sound := by
  unfold State.allHiz
  (try dsimp only)
  repeat' first
    | (with_reducible first | assumption | intro _ | apply State.legHiz_sound | apply State.axisHiz_sound)
    | (with_reducible first | apply State.updMotion_sound | apply State.postStop_sound | apply foldl_sound)
    | split

theorem State.answerMode_sound {s : State} (h : s.Sound) (g : Tag) (status : Nat) : (s.answerMode g status).Sound := by
  unfold State.answerMode
  (try dsimp only)
  repeat' first
    | (with_reducible first | assumption | intro _ | apply State.complete_sound)
    | split

theorem State.overtake_sound {s : State} (h : s.Sound) : (s.overtake).Sound := by
  unfold State.overtake
  (try dsimp only)
  repeat' first
    | (with_reducible first | assumption | intro _ | apply State.answerMode_sound)
    | split
    | (rw [State.sound_mk]; refine ⟨?_, ?_⟩)
    | (with_reducible first | apply State.Sound.tiles | apply State.Sound.hist | apply State.Sound.leg | apply State.Sound.legs | apply legsOk.get)
    | dsimp only

theorem State.answerOvertaken_sound {s : State} (h : s.Sound) : (s.answerOvertaken).Sound := by
  unfold State.answerOvertaken
  (try dsimp only)
  repeat' first
    | (with_reducible first | assumption | intro _ | apply State.answerMode_sound | apply foldl_sound)
    | split
    | (rw [State.sound_mk]; refine ⟨?_, ?_⟩)
    | (with_reducible first | apply State.Sound.tiles | apply State.Sound.hist | apply State.Sound.leg | apply State.Sound.legs | apply legsOk.get)
    | dsimp only

theorem State.eventMode_sound {s : State} (h : s.Sound) (m : DevMode) (cause : Nat) : (s.eventMode m cause).Sound := by
  unfold State.eventMode
  (try dsimp only)
  repeat' first
    | (with_reducible first | assumption | intro _ | apply State.overtake_sound | apply State.enter_sound)
    | split
    | (rw [State.sound_mk]; refine ⟨?_, ?_⟩)
    | (with_reducible first | apply State.Sound.tiles | apply State.Sound.hist | apply State.Sound.leg | apply State.Sound.legs | apply legsOk.get)
    | dsimp only

theorem State.holdAxis_sound {s : State} (h : s.Sound) (uid a : Nat) : (s.holdAxis uid a).Sound := by
  unfold State.holdAxis
  repeat' first
    | (with_reducible first | assumption | intro _ | apply State.updAxis_sound)
    | split

theorem State.isoAxis_sound {s : State} (h : s.Sound) (a uid : Nat) : (s.isoAxis a uid).Sound := by
  unfold State.isoAxis
  repeat' first
    | (with_reducible first | assumption | intro _ | apply State.axisHiz_sound | apply State.holdAxis_sound)
    | split

theorem State.holdTile_sound {s : State} (h : s.Sound) (uid t : Nat) : (s.holdTile uid t).Sound := by
  unfold State.holdTile
  repeat' first
    | (with_reducible first | assumption | intro _ | apply State.holdAxis_sound | apply State.updTile_sound)
    | (with_reducible first | apply foldl_sound)
    | (rw [State.sound_mk]; exact ⟨h.1, h.2⟩)
    | split

theorem State.isoTile_sound {s : State} (h : s.Sound) (t : Nat) : (s.isoTile t).Sound := by
  unfold State.isoTile
  (try dsimp only)
  repeat' first
    | (with_reducible first | assumption | intro _ | apply State.updTile_sound | apply State.updLeg_sound | apply State.legHiz_sound)
    | (with_reducible first | apply State.axisHiz_sound | apply Leg.latchCause_ok | apply foldl_sound)
    | split

theorem State.legsFollow_sound {s : State} (h : s.Sound) (t l : Nat) : (s.legsFollow t l).Sound := by
  unfold State.legsFollow
  (try dsimp only)
  repeat' first
    | (with_reducible first | assumption | intro _ | apply State.updLeg_sound | apply State.axisHiz_sound | apply State.legHiz_sound)
    | (with_reducible first | apply Leg.latchCause_ok | apply foldl_sound)
    | split

theorem State.isolateLeg_sound {s : State} (h : s.Sound) (t l uid : Nat) : (s.isolateLeg t l uid).Sound := by
  unfold State.isolateLeg
  (try dsimp only)
  repeat' first
    | (with_reducible first | assumption | intro _ | apply State.updLeg_sound | apply State.legsFollow_sound)
    | (with_reducible first | apply State.holdAxis_sound | apply Leg.latchCause_ok)
    | split

theorem State.isolate_sound {s : State} (h : s.Sound) (u : FUnit) (uid : Nat) : (s.isolate u uid).Sound := by
  unfold State.isolate
  repeat' first
    | (with_reducible first | assumption | intro _ | apply State.isolateLeg_sound | apply State.isoAxis_sound)
    | (with_reducible first | apply State.isoTile_sound | apply State.holdTile_sound | apply foldl_sound)
    | split
    | (rw [State.sound_mk]; refine ⟨?_, ?_⟩)
    | (with_reducible first | apply State.Sound.tiles | apply State.Sound.hist | apply State.Sound.leg | apply State.Sound.legs | apply legsOk.get)
    | dsimp only

theorem State.haltAll_sound {s : State} (h : s.Sound) (starved : Bool) (except : Option (UnitKind × Nat)) : (s.haltAll starved except).Sound := by
  unfold State.haltAll
  (try dsimp only)
  repeat' first
    | (with_reducible first | assumption | intro _ | apply State.updAxis_sound | apply State.postStop_sound)
    | (with_reducible first | apply State.updMotion_sound | apply foldl_sound)
    | split

theorem State.react_sound {s : State} (h : s.Sound) (c : FClass) (u : FUnit) (uid : Nat) (starved : Bool) (except : Option (UnitKind × Nat)) : (s.react c u uid starved except).Sound := by
  unfold State.react
  (try dsimp only)
  repeat' first
    | (with_reducible first | assumption | intro _ | apply State.isolate_sound | apply State.haltAll_sound)
    | (with_reducible first | apply State.eventMode_sound | apply State.allHiz_sound)
    | split
    | (rw [State.sound_mk]; refine ⟨?_, ?_⟩)
    | (with_reducible first | apply State.Sound.tiles | apply State.Sound.hist | apply State.Sound.leg | apply State.Sound.legs | apply legsOk.get)
    | dsimp only

theorem State.raiseAs_sound {s : State} (h : s.Sound) (src : Nat) (c : FClass) (detail : Word) (inj : Bool) (u : FUnit) : (s.raiseAs src c detail inj u).Sound := by
  unfold State.raiseAs
  (try dsimp only)
  repeat' first
    | (with_reducible first | assumption | intro _ | apply State.record_sound | apply State.react_sound)
    | split

theorem State.raise_sound {s : State} (h : s.Sound) (src : Nat) (detail : Word) (u : FUnit) : (s.raise src detail u).Sound := by
  unfold State.raise
  repeat' first
    | (with_reducible first | assumption | intro _ | apply State.raiseAs_sound)
    | split

theorem State.raiseDev_sound {s : State} (h : s.Sound) (src : Nat) (detail : Word) : (s.raiseDev src detail).Sound := by
  unfold State.raiseDev
  repeat' first
    | (with_reducible first | assumption | intro _ | apply State.raise_sound)
    | split

theorem State.wear_sound {s : State} (h : s.Sound) (idx : Nat) : (s.wear idx).Sound := by
  unfold State.wear
  (try dsimp only)
  repeat' first
    | (with_reducible first | assumption | intro _)
    | split
    | (rw [State.sound_mk]; refine ⟨?_, ?_⟩)
    | (with_reducible first | apply State.Sound.tiles | apply State.Sound.hist | apply State.Sound.leg | apply State.Sound.legs | apply legsOk.get)
    | dsimp only

theorem State.raiseStarved_sound {s : State} (h : s.Sound) (k : UnitKind) (n : Nat) : (s.raiseStarved k n).Sound := by
  unfold State.raiseStarved
  (try dsimp only)
  repeat' first
    | (with_reducible first | assumption | intro _ | apply State.record_sound | apply State.react_sound)
    | split

theorem State.entryEnded_sound {s : State} (h : s.Sound) (k : UnitKind) (n status : Nat) : (s.entryEnded k n status).Sound := by
  unfold State.entryEnded
  (try dsimp only)
  repeat' first
    | (with_reducible first | assumption | intro _ | apply State.updCourse_sound)
    | split

theorem State.silentEnd_sound {s : State} (h : s.Sound) (k : UnitKind) (n : Nat) (a : Move) (status : Nat) : (s.silentEnd k n a status).Sound := by
  unfold State.silentEnd
  repeat' first
    | (with_reducible first | assumption | intro _ | apply State.entryEnded_sound)
    | split

theorem State.completeMove_sound {s : State} (h : s.Sound) (k : UnitKind) (n : Nat) (a : Move) (status : Nat) : (s.completeMove k n a status).Sound := by
  unfold State.completeMove
  repeat' first
    | (with_reducible first | assumption | intro _ | apply State.silentEnd_sound | apply State.complete_sound)
    | split

theorem State.completeMoveBy_sound {s : State} (h : s.Sound) (k : UnitKind) (n : Nat) (a : Move) (status : Nat) (mem : Option (Nat × Nat)) : (s.completeMoveBy k n a status mem).Sound := by
  unfold State.completeMoveBy
  repeat' first
    | (with_reducible first | assumption | intro _ | apply State.silentEnd_sound | apply State.complete_sound)
    | split

theorem State.entryCaught_sound {s : State} (h : s.Sound) (k : UnitKind) (n : Nat) (c : StopCause) : (s.entryCaught k n c).Sound := by
  unfold State.entryCaught
  (try dsimp only)
  repeat' first
    | (with_reducible first | assumption | intro _ | apply State.entryEnded_sound)
    | split

theorem State.cancelLook_sound {s : State} (h : s.Sound) (k : UnitKind) (n : Nat) : (s.cancelLook k n).Sound := by
  unfold State.cancelLook
  (try dsimp only)
  repeat' first
    | (with_reducible first | assumption | intro _ | apply State.completeMove_sound | apply State.complete_sound)
    | (with_reducible first | apply State.updMotion_sound | apply foldl_sound)
    | split

theorem State.cancelDwell_sound {s : State} (h : s.Sound) (k : UnitKind) (n : Nat) : (s.cancelDwell k n).Sound := by
  unfold State.cancelDwell
  repeat' first
    | (with_reducible first | assumption | intro _ | apply State.completeMove_sound | apply State.updMotion_sound)
    | split

theorem State.completeStops_sound {s : State} (h : s.Sound) (k : UnitKind) (n : Nat) : (s.completeStops k n).Sound := by
  unfold State.completeStops
  (try dsimp only)
  repeat' first
    | (with_reducible first | assumption | intro _ | apply State.complete_sound | apply State.updMotion_sound | apply foldl_sound)
    | split

theorem State.freeWindow_sound {s : State} (h : s.Sound) (k : UnitKind) (n : Nat) : (s.freeWindow k n).Sound := by
  unfold State.freeWindow
  (try dsimp only)
  repeat' first
    | (with_reducible first | assumption | intro _)
    | split
    | (rw [State.sound_mk]; refine ⟨?_, ?_⟩)
    | (with_reducible first | apply State.Sound.tiles | apply State.Sound.hist | apply State.Sound.leg | apply State.Sound.legs | apply legsOk.get)
    | dsimp only

theorem State.cancelLater_sound {s : State} (h : s.Sound) (k : UnitKind) (n : Nat) : (s.cancelLater k n).Sound := by
  unfold State.cancelLater
  (try dsimp only)
  repeat' first
    | (with_reducible first | assumption | intro _ | apply State.complete_sound | apply State.freeWindow_sound)
    | (with_reducible first | apply State.updMotion_sound | apply foldl_sound)
    | split

theorem State.endFollowed_sound {s : State} (h : s.Sound) (k : UnitKind) (n status : Nat) (mem : Option (Nat × Nat)) : (s.endFollowed k n status mem).Sound := by
  unfold State.endFollowed
  (try dsimp only)
  repeat' first
    | (with_reducible first | assumption | intro _ | apply State.complete_sound | apply State.freeWindow_sound)
    | (with_reducible first | apply State.updMotion_sound)
    | split

theorem State.finishStop_sound {s : State} (h : s.Sound) (k : UnitKind) (n : Nat) : (s.finishStop k n).Sound := by
  unfold State.finishStop
  (try dsimp only)
  repeat' first
    | (with_reducible first | assumption | intro _ | apply State.updMotion_sound | apply State.endFollowed_sound)
    | (with_reducible first | apply State.completeMoveBy_sound | apply State.completeStops_sound)
    | split

theorem State.beginStop_sound {s : State} (h : s.Sound) (k : UnitKind) (n : Nat) : (s.beginStop k n).Sound := by
  unfold State.beginStop
  (try dsimp only)
  repeat' first
    | (with_reducible first | assumption | intro _ | apply State.cancelLook_sound | apply State.updMotion_sound)
    | (with_reducible first | apply State.entryCaught_sound | apply State.cancelDwell_sound | apply State.finishStop_sound)
    | split

theorem State.setMember_sound {s : State} (h : s.Sound) (c slot : Nat) (m : Member) : (s.setMember c slot m).Sound := by
  unfold State.setMember
  repeat' first
    | (with_reducible first | assumption | intro _ | apply State.updCourse_sound)
    | split

theorem State.setParent_sound {s : State} (h : s.Sound) (k : UnitKind) (n : Nat) (p : Option (Nat × Nat)) : (s.setParent k n p).Sound := by
  unfold State.setParent
  repeat' first
    | (with_reducible first | assumption | intro _ | apply State.updAxis_sound | apply State.updCourse_sound)
    | split

theorem State.detach_sound {s : State} (h : s.Sound) (c slot : Nat) : (s.detach c slot).Sound := by
  unfold State.detach
  (try dsimp only)
  repeat' first
    | (with_reducible first | assumption | intro _ | apply State.setMember_sound | apply State.setParent_sound)
    | (with_reducible first | apply State.updMotion_sound)
    | split

theorem State.markMember_sound {s : State} (h : s.Sound) (c slot a : Nat) : (s.markMember c slot a).Sound := by
  unfold State.markMember
  (try dsimp only)
  repeat' first
    | (with_reducible first | assumption | intro _ | apply State.updCourse_sound)
    | split

theorem State.memberReport_sound {s : State} (h : s.Sound) (a : Nat) : (s.memberReport a).Sound := by
  unfold State.memberReport
  repeat' first
    | (with_reducible first | assumption | intro _ | apply State.updCourse_sound | apply foldl_sound)
    | split

theorem State.memberEvent_sound {s : State} (h : s.Sound) (a : Nat) (cause : Option StopCause) : (s.memberEvent a cause).Sound := by
  unfold State.memberEvent
  (try dsimp only)
  repeat' first
    | (with_reducible first | assumption | intro _ | apply State.memberReport_sound | apply State.markMember_sound)
    | (with_reducible first | apply State.detach_sound | apply State.postStop_sound | apply State.updMotion_sound | apply foldl_sound)
    | split

theorem State.settleAxis_sound {s : State} (h : s.Sound) (c : FClass) (a : Nat) : (s.settleAxis c a).Sound := by
  unfold State.settleAxis
  (try dsimp only)
  repeat' first
    | (with_reducible first | assumption | intro _ | apply State.memberEvent_sound | apply State.memberReport_sound)
    | (with_reducible first | apply State.detach_sound | apply State.updMotion_sound)
    | split

theorem State.settle_sound {s : State} (h : s.Sound) (c : optParam FClass FClass.log) : (s.settle c).Sound := by
  unfold State.settle
  repeat' first
    | (with_reducible first | assumption | intro _ | apply State.settleAxis_sound | apply foldl_sound)
    | split

theorem State.fault_sound {s : State} (h : s.Sound) (src : Nat) (detail : Word) (u : FUnit) : (s.fault src detail u).Sound := by
  unfold State.fault
  repeat' first
    | (with_reducible first | assumption | intro _ | apply State.raise_sound | apply State.settle_sound)
    | split

theorem State.trackAxis_sound {s : State} (h : s.Sound) (a : Nat) (y : Int) : (s.trackAxis a y).Sound := by
  unfold State.trackAxis
  (try dsimp only)
  repeat' first
    | (with_reducible first | assumption | intro _ | apply State.updAxis_sound | apply State.raise_sound | apply State.settle_sound)
    | (with_reducible first | apply State.memberEvent_sound)
    | split

theorem State.trackUnit_sound {s : State} (h : s.Sound) (k : UnitKind) (n : Nat) (y : Int) : (s.trackUnit k n y).Sound := by
  unfold State.trackUnit
  repeat' first
    | (with_reducible first | assumption | intro _ | apply State.trackAxis_sound | apply State.updMotion_sound)
    | split

theorem State.playOver_sound {s : State} (h : s.Sound) (k : UnitKind) (n status : Nat) : (s.playOver k n status).Sound := by
  unfold State.playOver
  (try dsimp only)
  repeat' first
    | (with_reducible first | assumption | intro _ | apply State.updMotion_sound | apply State.endFollowed_sound)
    | split

theorem State.playUnderrun_sound {s : State} (h : s.Sound) (k : UnitKind) (n : Nat) (p : Play) : (s.playUnderrun k n p).Sound := by
  unfold State.playUnderrun
  (try dsimp only)
  repeat' first
    | (with_reducible first | assumption | intro _ | apply State.playOver_sound | apply State.fault_sound)
    | split

theorem State.tripLeg_sound {s : State} (h : s.Sound) (t l cause : Nat) : (s.tripLeg t l cause).Sound := by
  unfold State.tripLeg
  repeat' first
    | (with_reducible first | assumption | intro _ | apply State.updLeg_sound | apply State.legsFollow_sound)
    | (with_reducible first | apply Leg.latchCause_ok)
    | split

theorem State.faultHeld_sound {s : State} (h : s.Sound) (src : Nat) (detail : Word) (u : FUnit) (axes : List Nat) : (s.faultHeld src detail u axes).Sound := by
  unfold State.faultHeld
  (try dsimp only)
  repeat' first
    | (with_reducible first | assumption | intro _ | apply State.record_sound | apply State.holdAxis_sound | apply State.react_sound)
    | (with_reducible first | apply State.settle_sound | apply foldl_sound)
    | split

theorem State.faultTile_sound {s : State} (h : s.Sound) (src : Nat) (detail : Word) (t : Nat) : (s.faultTile src detail t).Sound := by
  unfold State.faultTile
  (try dsimp only)
  repeat' first
    | (with_reducible first | assumption | intro _ | apply State.record_sound | apply State.react_sound)
    | (with_reducible first | apply State.settle_sound | apply State.holdTile_sound)
    | (rw [State.sound_mk]; exact ⟨h.1, h.2⟩)
    | split

theorem State.tripAs_sound {s : State} (h : s.Sound) (t l cause src : Nat) (high : Bool) : (s.tripAs t l cause src high).Sound := by
  unfold State.tripAs
  repeat' first
    | (with_reducible first | assumption | intro _ | apply State.tripLeg_sound | apply State.faultHeld_sound)
    | split

theorem State.shortAs_sound {s : State} (h : s.Sound) (t l cause src : Nat) (high : Bool) (ws : List Switch) : (s.shortAs t l cause src high ws).Sound := by
  unfold State.shortAs
  extract_lets s1 s2
  have h1 : s1.Sound := State.updLeg_at_sound h _ _ _ (List.foldlRecOn ws Leg.soften (motive := fun y => interlocked y.hi y.lo) (h.leg t l)
    fun y hy w _ => Leg.soften_ok hy w)
  clear_value s1
  have h2 : s2.Sound := by
    unfold s2
    split
    · exact State.memberReport_sound h1 _
    · exact h1
  exact State.tripAs_sound h2 _ _ _ _ _

theorem State.bstFail_sound {s : State} (h : s.Sound) (t l : Nat) : (s.bstFail t l).Sound := by
  unfold State.bstFail
  (try dsimp only)
  repeat' first
    | (with_reducible first | assumption | intro _ | apply State.updLeg_sound | apply State.driveOn_sound | apply State.tripAs_sound)
    | (with_reducible first | apply State.fault_sound | apply Leg.cmdOff_ok)
    | split

theorem State.spareIn_sound {s : State} (h : s.Sound) : (s.spareIn).Sound := by
  unfold State.spareIn
  (try dsimp only)
  repeat' first
    | (with_reducible first | assumption | intro _)
    | split
    | (rw [State.sound_mk]; refine ⟨?_, ?_⟩)
    | (with_reducible first | apply State.Sound.tiles | apply State.Sound.hist | apply State.Sound.leg | apply State.Sound.legs | apply legsOk.get)
    | dsimp only

theorem State.capCheck_sound {s : State} (h : s.Sound) (t l : Nat) (w : Switch) : (s.capCheck t l w).Sound := by
  unfold State.capCheck
  extract_lets x g c high s1
  have h1 : s1.Sound := by
    unfold s1
    split
    · apply State.fault_sound
      refine State.updLeg_sound h _ _ _ fun y hy => ?_
      exact Leg.setSw_ok hy w _ rfl rfl rfl rfl
    · exact h
  clear_value s1
  split
  · exact State.tripAs_sound h1 _ _ _ _ _
  · exact h1

theorem State.retireSeg_sound {s : State} (h : s.Sound) (t l : Nat) (w : Switch) (i : Nat) : (s.retireSeg t l w i).Sound := by
  unfold State.retireSeg
  extract_lets x g used g1 sp auto g2 lim g3 s1 s2 s3
  have e1 : g1.on = g.on ∧ g1.cmd = g.cmd ∧ g1.hs = g.hs ∧ g1.dead = g.dead := ⟨rfl, rfl, rfl, rfl⟩
  have e2 : g2.on = g.on ∧ g2.cmd = g.cmd ∧ g2.hs = g.hs ∧ g2.dead = g.dead := by
    clear_value g1 sp auto
    unfold g2
    cases sp with
    | none => exact e1
    | some j => cases auto <;> exact e1
  have e3 : g3.on = g.on ∧ g3.cmd = g.cmd ∧ g3.hs = g.hs ∧ g3.dead = g.dead := e2
  clear_value g3
  have h1 : s1.Sound := by
    apply State.updLeg_at_sound h
    exact Leg.setSw_ok (h.leg t l) w _ e3.1 e3.2.1 e3.2.2.1 e3.2.2.2
  clear_value s1
  have h2 : s2.Sound := by
    unfold s2
    split
    · exact State.spareIn_sound h1
    · exact h1
  clear_value s2
  have h3 : s3.Sound := State.fault_sound h2 _ _ _
  clear_value s3
  split
  · exact h
  · exact State.capCheck_sound h3 _ _ _

theorem State.approveSeg_sound {s : State} (h : s.Sound) (t l : Nat) (w : Switch) : (s.approveSeg t l w).Sound := by
  unfold State.approveSeg
  extract_lets g
  split
  · dsimp only
    apply State.spareIn_sound
    apply State.updLeg_at_sound h
    exact Leg.setSw_ok (h.leg t l) w _ rfl rfl rfl rfl
  · apply State.updLeg_at_sound h
    exact Leg.setSw_ok (h.leg t l) w _ rfl rfl rfl rfl

theorem State.edgeMeasured_sound {s : State} (h : s.Sound) (t l : Nat) (w : Switch) (on : Bool) (ticks seg : Nat) (dev : Bool) : (s.edgeMeasured t l w on ticks seg dev).Sound := by
  unfold State.edgeMeasured
  extract_lets x g T tol lim n slow fast runS runF repS repF runS2 runF2 n2 tv cnt g1 gc g2 s1 s2 s3
  have e1 : g1.on = g.on ∧ g1.cmd = g.cmd ∧ g1.hs = g.hs ∧ g1.dead = g.dead := by
    clear_value n2 tv runS2 runF2
    unfold g1
    cases on <;> exact ⟨rfl, rfl, rfl, rfl⟩
  have e2 : g2.on = g.on ∧ g2.cmd = g.cmd ∧ g2.hs = g.hs ∧ g2.dead = g.dead := e1
  clear_value g2
  have h1 : s1.Sound := by
    clear_value repS repF
    apply State.updLeg_at_sound h
    exact Leg.setSw_ok (h.leg t l) w _ e2.1 e2.2.1 e2.2.2.1 e2.2.2.2
  clear_value s1
  have h2 : s2.Sound := by
    unfold s2
    split
    · exact State.fault_sound h1 _ _ _
    · exact h1
  clear_value s2
  have h3 : s3.Sound := by
    unfold s3
    split
    · exact State.wear_sound h2 _
    · exact h2
  clear_value s3
  split
  · exact State.retireSeg_sound h3 _ _ _ _
  · exact h3

theorem State.reenterAxis_sound {s : State} (h : s.Sound) (a : Nat) : (s.reenterAxis a).Sound := by
  unfold State.reenterAxis
  (try dsimp only)
  repeat' first
    | (with_reducible first | assumption | intro _ | apply State.updAxis_sound)
    | split

theorem State.energize_sound {s : State} (h : s.Sound) (a : Nat) : (s.energize a).Sound := by
  unfold State.energize
  (try dsimp only)
  repeat' first
    | (with_reducible first | assumption | intro _ | apply State.updLeg_sound | apply State.updAxis_sound | apply Leg.leaveHiz_ok)
    | (with_reducible first | apply foldl_sound)
    | split

theorem State.deliver_sound {s : State} (h : s.Sound) (a : Nat) : (s.deliver a).Sound := by
  unfold State.deliver
  (try dsimp only)
  repeat' first
    | (with_reducible first | assumption | intro _ | apply State.setAxis_sound)
    | split

theorem State.stallBoundary_sound {s : State} (h : s.Sound) (a thr : Nat) : (s.stallBoundary a thr).1.Sound := by
  unfold State.stallBoundary
  extract_lets
  split
  · exact State.setAxis_sound h _ _
  · dsimp only
    split
    · exact State.spend_sound (State.setAxis_sound h _ _)
    · exact State.setAxis_sound h _ _

theorem State.watchCapture_sound {s : State} (h : s.Sound) (a : Nat) (c : Coil) (tn : Nat) : (s.watchCapture a c tn).Sound := by
  unfold State.watchCapture
  (try dsimp only)
  repeat' first
    | (with_reducible first | assumption | intro _ | apply State.setAxis_sound | apply State.spend_sound | apply State.fault_sound)
    | split

theorem State.updCoil_sound {s : State} (h : s.Sound) (a : Nat) (c : Coil) (f : CoilSt → CoilSt) : (s.updCoil a c f).Sound := by
  unfold State.updCoil
  repeat' first
    | (with_reducible first | assumption | intro _ | apply State.updAxis_sound)
    | split

theorem State.towardSlow_sound {s : State} (h : s.Sound) (a : Nat) (c : Coil) : (s.towardSlow a c).Sound := by
  unfold State.towardSlow
  (try dsimp only)
  repeat' first
    | (with_reducible first | assumption | intro _ | apply State.updLeg_sound | apply Leg.drive_ok)
    | split

theorem State.towardFast_sound {s : State} (h : s.Sound) (a : Nat) (c : Coil) : (s.towardFast a c).Sound := by
  unfold State.towardFast
  (try dsimp only)
  repeat' first
    | (with_reducible first | assumption | intro _ | apply State.updLeg_sound | apply Leg.drive_ok)
    | split

theorem State.towardOn_sound {s : State} (h : s.Sound) (a : Nat) (c : Coil) : (s.towardOn a c).Sound := by
  unfold State.towardOn
  (try dsimp only)
  repeat' first
    | (with_reducible first | assumption | intro _ | apply State.updLeg_sound | apply Leg.cmdOff_ok | apply Leg.drive_ok)
    | split

theorem State.coilStep_sound {s : State} (h : s.Sound) (a : Nat) (c : Coil) : (s.coilStep a c).Sound := by
  unfold State.coilStep
  (try dsimp only)
  repeat' first
    | (with_reducible first | assumption | intro _ | apply State.turnOn_sound | apply State.updLeg_sound | apply State.updCoil_sound)
    | (with_reducible first | apply State.towardSlow_sound | apply Leg.cmdOn_ok)
    | split

theorem State.coilSettle_sound {s : State} (h : s.Sound) (a : Nat) (c : Coil) : (s.coilSettle a c).Sound := by
  unfold State.coilSettle
  repeat' first
    | (with_reducible first | assumption | intro _ | apply State.coilStep_sound)
    | split

theorem State.legSettle_sound {s : State} (h : s.Sound) (t l : Nat) : (s.legSettle t l).Sound := by
  unfold State.legSettle
  repeat' first
    | (with_reducible first | assumption | intro _ | apply State.coilSettle_sound)
    | split

theorem State.turnOn_sound {s : State} (h : s.Sound) (a : Nat) (c : Coil) : (s.turnOn a c).Sound := by
  unfold State.turnOn
  (try dsimp only)
  repeat' first
    | apply Tile.checkCalled_ok
    | (with_reducible first | assumption | intro _ | apply State.setAxis_sound | apply State.towardSlow_sound)
    | (with_reducible first | apply State.coilSettle_sound | apply State.updTile_sound | apply State.towardOn_sound)
    | split
    | (rw [State.sound_mk]; refine ⟨?_, ?_⟩)
    | (with_reducible first | apply State.Sound.tiles | apply State.Sound.hist | apply State.Sound.leg | apply State.Sound.legs | apply legsOk.get)
    | dsimp only

theorem State.startCoils_sound {s : State} (h : s.Sound) (a : Nat) : (s.startCoils a).Sound := by
  unfold State.startCoils
  repeat' first
    | (with_reducible first | assumption | intro _ | apply State.turnOn_sound)
    | split

theorem State.capture_sound {s : State} (h : s.Sound) (a : Nat) (c : Coil) (ticks : Nat) (valid : Bool) : (s.capture a c ticks valid).Sound := by
  unfold State.capture
  (try dsimp only)
  repeat' first
    | (with_reducible first | assumption | intro _ | apply State.setAxis_sound | apply State.watchCapture_sound)
    | split

theorem State.endOn_sound {s : State} (h : s.Sound) (a : Nat) (c : Coil) (comm blank sat : Bool) (ticks : Nat) : (s.endOn a c comm blank sat ticks).Sound := by
  unfold State.endOn
  (try dsimp only)
  repeat' first
    | (with_reducible first | assumption | intro _ | apply State.setAxis_sound | apply State.towardSlow_sound)
    | (with_reducible first | apply State.towardFast_sound | apply State.coilSettle_sound | apply State.capture_sound)
    | split

theorem State.forceFast_sound {s : State} (h : s.Sound) (a : Nat) (c : Coil) : (s.forceFast a c).Sound := by
  unfold State.forceFast
  (try dsimp only)
  repeat' first
    | (with_reducible first | assumption | intro _ | apply State.updCoil_sound | apply State.towardFast_sound)
    | (with_reducible first | apply State.coilSettle_sound)
    | split

theorem State.commutate_sound {s : State} (h : s.Sound) (a : Nat) (c : Coil) : (s.commutate a c).Sound := by
  unfold State.commutate
  (try dsimp only)
  repeat' first
    | (with_reducible first | assumption | intro _ | apply State.endOn_sound | apply State.turnOn_sound | apply State.updLeg_sound)
    | (with_reducible first | apply State.forceFast_sound | apply Leg.cmdOff_ok)
    | split

theorem State.checkMove_sound {s : State} (h : s.Sound) (t : Nat) : (s.checkMove t).Sound := by
  unfold State.checkMove
  repeat' first
    | rw [Tile.checkOn_legs]
    | (with_reducible first | assumption | intro _ | apply State.updTile_sound)
    | split
    | (rw [State.sound_mk]; refine ⟨?_, ?_⟩)
    | (with_reducible first | apply State.Sound.tiles | apply State.Sound.hist | apply State.Sound.leg | apply State.Sound.legs | apply legsOk.get)
    | dsimp only

theorem State.adcDrop_sound {s : State} (h : s.Sound) (t : Nat) (r : Option AdcReq) : (s.adcDrop t r).Sound := by
  unfold State.adcDrop
  repeat' first
    | (with_reducible first | assumption | intro _ | apply State.updTile_sound | apply State.updLeg_sound)
    | (rw [State.sound_mk]; exact ⟨h.1, h.2⟩)
    | split

theorem State.adcRequest_sound {s : State} (h : s.Sound) (t : Nat) (r : AdcReq) : (s.adcRequest t r).Sound := by
  unfold State.adcRequest
  (try dsimp only)
  repeat' first
    | (with_reducible first | assumption | intro _ | apply State.updTile_sound | apply State.adcDrop_sound)
    | (rw [State.sound_mk]; exact ⟨h.1, h.2⟩)
    | split

theorem State.steer_sound {s : State} (h : s.Sound) (t k : Nat) : (s.steer t k).Sound := by
  unfold State.steer
  (try dsimp only)
  repeat' first
    | (with_reducible first | assumption | intro _ | apply State.updTile_sound | apply State.updAxis_sound)
    | (with_reducible first | apply State.spareIn_sound)
    | split

theorem State.cmpFailed_sound {s : State} (h : s.Sound) (t k : Nat) : (s.cmpFailed t k).Sound := by
  unfold State.cmpFailed
  (try dsimp only)
  repeat' first
    | (with_reducible first | assumption | intro _ | apply State.updTile_sound | apply State.record_sound | apply State.react_sound)
    | (with_reducible first | apply State.settle_sound | apply State.isoAxis_sound)
    | split

theorem State.spareFailed_sound {s : State} (h : s.Sound) (t k : Nat) : (s.spareFailed t k).Sound := by
  unfold State.spareFailed
  (try dsimp only)
  repeat' first
    | (with_reducible first | assumption | intro _ | apply State.updTile_sound | apply State.record_sound)
    | (with_reducible first | apply State.react_sound | apply State.settle_sound | apply State.isoAxis_sound)
    | (rw [State.sound_mk]; exact ⟨h.1, h.2⟩)
    | split

theorem State.confirmDecide_sound {s : State} (h : s.Sound) (t : Nat) : (s.confirmDecide t).Sound := by
  unfold State.confirmDecide
  (try dsimp only)
  repeat' first
    | (with_reducible first | assumption | intro _ | apply State.updTile_sound | apply State.spareFailed_sound)
    | (with_reducible first | apply State.cmpFailed_sound | apply State.fault_sound | apply State.checkMove_sound)
    | split

theorem State.askJudge_sound {s : State} (h : s.Sound) (t k : Nat) (uv : Int) (first coilTrip spareTrip : Bool) : (s.askJudge t k uv first coilTrip spareTrip).Sound := by
  unfold State.askJudge
  (try dsimp only)
  repeat' first
    | (with_reducible first | assumption | intro _ | apply State.adcRequest_sound)
    | split

theorem State.compared_sound {s : State} (h : s.Sound) (a : Nat) (c : Coil) (mismatch first coilTrip spareTrip : Bool) : (s.compared a c mismatch first coilTrip spareTrip).Sound := by
  unfold State.compared
  extract_lets t k s1 uv conf s2 s3 s4
  have h1 : s1.Sound := by
    unfold s1
    split
    · exact h
    · exact State.updTile_sound h _ _ fun x hx => hx
  clear_value s1 conf uv
  have h2 : s2.Sound := by
    unfold s2
    split
    · exact State.askJudge_sound h1 _ _ _ _ _ _
    · exact h1
  clear_value s2
  have h3 : s3.Sound := State.updTile_sound h2 _ _ fun x hx => hx
  clear_value s3
  have h4 : s4.Sound := by
    unfold s4
    split
    · exact State.wear_sound h3 _
    · exact h3
  clear_value s4
  split
  · exact h
  · split
    · exact State.confirmDecide_sound h4 _
    · split
      · exact h4
      · split
        · exact State.updTile_sound h4 _ _ fun x hx => hx
        · exact State.checkMove_sound h4 _

theorem State.comparedTrip_sound {s : State} (h : s.Sound) (a : Nat) (c : Coil) (sp : SpareTrip) : (s.comparedTrip a c sp).Sound := by
  unfold State.comparedTrip
  repeat' first
    | (with_reducible first | assumption | intro _ | apply State.compared_sound)
    | split

theorem State.noTrip_sound {s : State} (h : s.Sound) (a : Nat) (c : Coil) : (s.noTrip a c).Sound := by
  unfold State.noTrip
  (try dsimp only)
  repeat' first
    | rw [Tile.checkOn_legs]
    | (with_reducible first | assumption | intro _ | apply State.fault_sound | apply State.updTile_sound)
    | split
    | (rw [State.sound_mk]; refine ⟨?_, ?_⟩)
    | (with_reducible first | apply State.Sound.tiles | apply State.Sound.hist | apply State.Sound.leg | apply State.Sound.legs | apply legsOk.get)
    | dsimp only

theorem State.comparatorTrip_sound {s : State} (h : s.Sound) (a : Nat) (c : Coil) (ticks : Nat) (sp : SpareTrip) : (s.comparatorTrip a c ticks sp).Sound := by
  unfold State.comparatorTrip
  repeat' first
    | (with_reducible first | assumption | intro _ | apply State.endOn_sound | apply State.comparedTrip_sound)
    | split

theorem State.blankEnd_sound {s : State} (h : s.Sound) (a : Nat) (c : Coil) (above : Bool) (sp : SpareTrip) : (s.blankEnd a c above sp).Sound := by
  unfold State.blankEnd
  (try dsimp only)
  repeat' first
    | (with_reducible first | assumption | intro _ | apply State.updCoil_sound | apply State.endOn_sound)
    | (with_reducible first | apply State.comparedTrip_sound)
    | split

theorem State.saturate_sound {s : State} (h : s.Sound) (a : Nat) (c : Coil) (spareTripped : Bool) : (s.saturate a c spareTripped).Sound := by
  unfold State.saturate
  repeat' first
    | (with_reducible first | assumption | intro _ | apply State.endOn_sound | apply State.compared_sound | apply State.noTrip_sound)
    | split

theorem State.fastEnd_sound {s : State} (h : s.Sound) (a : Nat) (c : Coil) : (s.fastEnd a c).Sound := by
  unfold State.fastEnd
  (try dsimp only)
  repeat' first
    | (with_reducible first | assumption | intro _ | apply State.towardSlow_sound | apply State.updCoil_sound)
    | (with_reducible first | apply State.coilSettle_sound)
    | split

theorem State.offEnd_sound {s : State} (h : s.Sound) (a : Nat) (c : Coil) : (s.offEnd a c).Sound := by
  unfold State.offEnd
  repeat' first
    | (with_reducible first | assumption | intro _ | apply State.turnOn_sound)
    | split

theorem State.takeOver_sound {s : State} (h : s.Sound) (t : Nat) : (s.takeOver t).Sound := by
  unfold State.takeOver
  repeat' first
    | (with_reducible first | assumption | intro _ | apply State.steer_sound)
    | split

theorem State.checkTimeout_sound {s : State} (h : s.Sound) (t : Nat) : (s.checkTimeout t).Sound := by
  unfold State.checkTimeout
  repeat' first
    | (with_reducible first | assumption | intro _ | apply State.checkMove_sound)
    | split

theorem State.pausePlan_sound {s : State} (h : s.Sound) : (s.pausePlan).Sound := by
  unfold State.pausePlan
  (try dsimp only)
  repeat' first
    | (with_reducible first | assumption | intro _)
    | (rw [State.sound_mk]; exact ⟨h.1, h.2⟩)
    | split

theorem State.freezeCoil_sound {s : State} (h : s.Sound) (a : Nat) (c : Coil) : (s.freezeCoil a c).Sound := by
  unfold State.freezeCoil
  (try dsimp only)
  repeat' first
    | (with_reducible first | assumption | intro _ | apply State.turnOn_sound | apply State.updLeg_sound | apply State.updCoil_sound)
    | (with_reducible first | apply State.coilSettle_sound | apply Leg.cmdOff_ok)
    | split

theorem State.freezeOn_sound {s : State} (h : s.Sound) : (s.freezeOn).Sound := by
  unfold State.freezeOn
  (try dsimp only)
  repeat' first
    | (with_reducible first | assumption | intro _ | apply State.pausePlan_sound | apply State.freezeCoil_sound)
    | (with_reducible first | apply State.raiseDev_sound | apply foldl_sound)
    | split
    | (rw [State.sound_mk]; refine ⟨?_, ?_⟩)
    | (with_reducible first | apply State.Sound.tiles | apply State.Sound.hist | apply State.Sound.leg | apply State.Sound.legs | apply legsOk.get)
    | dsimp only

theorem State.holdCores_sound {s : State} (h : s.Sound) : (s.holdCores).Sound := by
  unfold State.holdCores
  (try dsimp only)
  repeat' first
    | (with_reducible first | assumption | intro _ | apply State.pausePlan_sound)
    | split
    | (rw [State.sound_mk]; refine ⟨?_, ?_⟩)
    | (with_reducible first | apply State.Sound.tiles | apply State.Sound.hist | apply State.Sound.leg | apply State.Sound.legs | apply legsOk.get)
    | dsimp only

theorem State.releaseCores_sound {s : State} (h : s.Sound) : (s.releaseCores).Sound := by
  unfold State.releaseCores
  (try dsimp only)
  repeat' first
    | (with_reducible first | assumption | intro _)
    | split
    | (rw [State.sound_mk]; refine ⟨?_, ?_⟩)
    | (with_reducible first | apply State.Sound.tiles | apply State.Sound.hist | apply State.Sound.leg | apply State.Sound.legs | apply legsOk.get)
    | dsimp only

theorem State.handshake_sound {s : State} (h : s.Sound) (t l : Nat) (w : Switch) : (s.handshake t l w).Sound := by
  unfold State.handshake
  extract_lets g
  split
  · rename_i hc
    simp only [Bool.and_eq_true, Bool.not_eq_true'] at hc
    exact State.legSettle_sound (State.updLeg_at_sound h _ _ _ (Leg.setSw_confirm (h.leg t l) w hc.1.2 hc.2)) _ _
  · exact h

theorem State.deadEnd_sound {s : State} (h : s.Sound) (t l : Nat) (w : Switch) : (s.deadEnd t l w).Sound := by
  unfold State.deadEnd
  extract_lets g
  split
  · refine State.legSettle_sound (State.updLeg_at_sound h _ _ _ ?_) _ _
    apply Leg.retry_ok
    exact Leg.setSw_dead (h.leg t l) w
  · exact h

theorem State.hsTimeout_sound {s : State} (h : s.Sound) (t l : Nat) (w : Switch) : (s.hsTimeout t l w).Sound := by
  unfold State.hsTimeout
  (try dsimp only)
  repeat' first
    | (with_reducible first | assumption | intro _ | apply State.tripAs_sound)
    | split

theorem State.crossed_sound {s : State} (h : s.Sound) (t l : Nat) : (s.crossed t l).Sound := by
  unfold State.crossed
  repeat' first
    | (with_reducible first | assumption | intro _ | apply State.tripAs_sound)
    | split

theorem State.desat_sound {s : State} (h : s.Sound) (t l : Nat) (w : Switch) : (s.desat t l w).Sound := by
  unfold State.desat
  repeat' first
    | (with_reducible first | assumption | intro _ | apply State.shortAs_sound)
    | split

theorem State.grossDesat_sound {s : State} (h : s.Sound) (t l : Nat) (w : Switch) : (s.grossDesat t l w).Sound := by
  unfold State.grossDesat
  repeat' first
    | (with_reducible first | assumption | intro _ | apply State.shortAs_sound)
    | split

theorem State.shunted_sound {s : State} (h : s.Sound) (t l : Nat) : (s.shunted t l).Sound := by
  unfold State.shunted
  repeat' first
    | (with_reducible first | assumption | intro _ | apply State.shortAs_sound)
    | split

theorem State.edge_sound {s : State} (h : s.Sound) (t l : Nat) (w : Switch) (on : Bool) (ticks seg : Nat) (dev : Bool) : (s.edge t l w on ticks seg dev).Sound := by
  unfold State.edge
  repeat' first
    | (with_reducible first | assumption | intro _ | apply State.edgeMeasured_sound)
    | split

theorem State.conducts_sound {s : State} (h : s.Sound) (t l : Nat) (w : Switch) (seg : Nat) : (s.conducts t l w seg).Sound := by
  unfold State.conducts
  repeat' first
    | (with_reducible first | assumption | intro _ | apply State.retireSeg_sound)
    | split

theorem State.beginCoils_sound {s : State} (h : s.Sound) (a : Nat) : (s.beginCoils a).Sound := by
  unfold State.beginCoils
  repeat' first
    | (with_reducible first | assumption | intro _ | apply State.startCoils_sound)
    | split

theorem State.power_sound {s : State} (h : s.Sound) (a : Nat) : (s.power a).Sound := by
  unfold State.power
  repeat' first
    | (with_reducible first | assumption | intro _ | apply State.energize_sound | apply State.deliver_sound)
    | (with_reducible first | apply State.beginCoils_sound)
    | split

theorem State.powerAtBoundary_sound {s : State} (h : s.Sound) (a : Nat) : (s.powerAtBoundary a).Sound := by
  unfold State.powerAtBoundary
  repeat' first
    | (with_reducible first | assumption | intro _ | apply State.power_sound)
    | split

theorem State.bootLow_sound {s : State} (h : s.Sound) (t l : Nat) : (s.bootLow t l).Sound := by
  unfold State.bootLow
  repeat' first
    | (with_reducible first | assumption | intro _ | apply State.bstFail_sound)
    | split

theorem State.prechargeDone_sound {s : State} (h : s.Sound) (t l : Nat) : (s.prechargeDone t l).Sound := by
  unfold State.prechargeDone
  (try dsimp only)
  repeat' first
    | (with_reducible first | assumption | intro _ | apply State.beginCoils_sound | apply State.updLeg_sound)
    | (with_reducible first | apply State.driveOn_sound | apply Leg.cmdOff_ok | apply Leg.drive_ok)
    | split

theorem State.prechargeOut_sound {s : State} (h : s.Sound) (t l : Nat) : (s.prechargeOut t l).Sound := by
  unfold State.prechargeOut
  (try dsimp only)
  repeat' first
    | (with_reducible first | assumption | intro _ | apply State.bstFail_sound | apply State.prechargeDone_sound)
    | split

theorem State.bootGood_sound {s : State} (h : s.Sound) (t l : Nat) : (s.bootGood t l).Sound := by
  unfold State.bootGood
  (try dsimp only)
  repeat' first
    | (with_reducible first | assumption | intro _ | apply State.updLeg_sound | apply State.prechargeDone_sound)
    | (with_reducible first | apply State.legSettle_sound | apply Leg.retry_ok)
    | split

theorem State.vgateOut_sound {s : State} (h : s.Sound) (t src : Nat) : (s.vgateOut t src).Sound := by
  unfold State.vgateOut
  repeat' first
    | (with_reducible first | assumption | intro _ | apply State.isoTile_sound | apply State.faultTile_sound)
    | split
    | (rw [State.sound_mk]; refine ⟨?_, ?_⟩)
    | (with_reducible first | apply State.Sound.tiles | apply State.Sound.hist | apply State.Sound.leg | apply State.Sound.legs | apply legsOk.get)
    | dsimp only

theorem State.vgateLow_sound {s : State} (h : s.Sound) (t : Nat) : (s.vgateLow t).Sound := by
  unfold State.vgateLow
  repeat' first
    | (with_reducible first | assumption | intro _ | apply State.updTile_sound | apply State.vgateOut_sound)
    | split

theorem State.vgateHigh_sound {s : State} (h : s.Sound) (t : Nat) : (s.vgateHigh t).Sound := by
  unfold State.vgateHigh
  repeat' first
    | (with_reducible first | assumption | intro _ | apply State.updTile_sound | apply State.vgateOut_sound)
    | split

theorem State.vgateBack_sound {s : State} (h : s.Sound) (t : Nat) : (s.vgateBack t).Sound := by
  unfold State.vgateBack
  repeat' first
    | (with_reducible first | assumption | intro _ | apply State.updTile_sound)
    | split

theorem State.vmLow_sound {s : State} (h : s.Sound) (t : Nat) : (s.vmLow t).Sound := by
  unfold State.vmLow
  repeat' first
    | (with_reducible first | assumption | intro _ | apply State.updTile_sound | apply State.fault_sound)
    | split

theorem State.vmHigh_sound {s : State} (h : s.Sound) (t : Nat) : (s.vmHigh t).Sound := by
  unfold State.vmHigh
  repeat' first
    | (with_reducible first | assumption | intro _ | apply State.updTile_sound | apply State.fault_sound)
    | split

theorem State.vmBack_sound {s : State} (h : s.Sound) (t : Nat) : (s.vmBack t).Sound := by
  unfold State.vmBack
  repeat' first
    | (with_reducible first | assumption | intro _ | apply State.updTile_sound)
    | split

theorem State.enFalls_sound {s : State} (h : s.Sound) : (s.enFalls).Sound := by
  unfold State.enFalls
  (try dsimp only)
  repeat' first
    | (with_reducible first | assumption | intro _ | apply State.allHiz_sound | apply State.eventMode_sound | apply State.fault_sound)
    | split
    | (rw [State.sound_mk]; refine ⟨?_, ?_⟩)
    | (with_reducible first | apply State.Sound.tiles | apply State.Sound.hist | apply State.Sound.leg | apply State.Sound.legs | apply legsOk.get)
    | dsimp only

theorem State.book_sound {s : State} (h : s.Sound) (k : UnitKind) (n : Nat) : (s.book k n).Sound := by
  unfold State.book
  (try dsimp only)
  repeat' first
    | (with_reducible first | assumption | intro _ | apply State.updAxis_sound | apply foldl_sound)
    | split

theorem State.completeZeros_sound {s : State} (h : s.Sound) (k : UnitKind) (n : Nat) (prev : Move) (fuel : Nat) : (s.completeZeros k n prev fuel).Sound := by
  induction fuel generalizing s prev with
  | zero => unfold State.completeZeros; exact h
  | succ f ih =>
    unfold State.completeZeros
    split
    · rename_i e _
      obtain rfl := Nat.succ.inj e
      split
      · exact ih (State.updMotion_sound (State.completeMove_sound h _ _ _ _) _ _ _) _
      · exact h
    · exact h

theorem State.completeAct_sound {s : State} (h : s.Sound) (k : UnitKind) (n status : Nat) : (s.completeAct k n status).Sound := by
  unfold State.completeAct
  (try dsimp only)
  repeat' first
    | (with_reducible first | assumption | intro _ | apply State.updMotion_sound | apply State.completeMove_sound)
    | split

theorem State.takeNext_sound {s : State} (h : s.Sound) (k : UnitKind) (n : Nat) : (s.takeNext k n).Sound := by
  unfold State.takeNext
  (try dsimp only)
  repeat' first
    | (with_reducible first | assumption | intro _ | apply State.updMotion_sound)
    | split

theorem State.completeThrough_sound {s : State} (h : s.Sound) (k : UnitKind) (n o : Nat) (ends : Bool) (a_ : Nat) : (s.completeThrough k n o ends a_).Sound := by
  induction a_ generalizing s with
  | zero => unfold State.completeThrough; exact h
  | succ f ih =>
    unfold State.completeThrough
    repeat' first
      | with_reducible assumption
      | with_reducible apply ih
      | with_reducible apply State.takeNext_sound
      | with_reducible apply State.completeZeros_sound
      | with_reducible apply State.updMotion_sound
      | with_reducible apply State.completeMove_sound
      | with_reducible apply State.completeAct_sound
      | split
      | dsimp only

theorem State.moveEnded_sound {s : State} (h : s.Sound) (k : UnitKind) (n : Nat) (tag : Option Nat) : (s.moveEnded k n tag).Sound := by
  unfold State.moveEnded
  (try dsimp only)
  repeat' first
    | (with_reducible first | assumption | intro _ | apply State.completeThrough_sound | apply State.updMotion_sound)
    | split

theorem State.movePassed_sound {s : State} (h : s.Sound) (k : UnitKind) (n o : Nat) : (s.movePassed k n o).Sound := by
  unfold State.movePassed
  (try dsimp only)
  repeat' first
    | (with_reducible first | assumption | intro _ | apply State.completeThrough_sound | apply State.takeNext_sound)
    | split

theorem State.unitEnded_sound {s : State} (h : s.Sound) (k : UnitKind) (n : Nat) (tag : Option Nat) : (s.unitEnded k n tag).Sound := by
  unfold State.unitEnded
  (try dsimp only)
  repeat' first
    | (with_reducible first | assumption | intro _ | apply State.updMotion_sound | apply State.finishStop_sound)
    | (with_reducible first | apply State.endFollowed_sound | apply State.moveEnded_sound)
    | split

theorem State.periodEnd_sound {s : State} (h : s.Sound) (k : UnitKind) (n : Nat) (e : Motion.PeriodEnd) : (s.periodEnd k n e).Sound := by
  unfold State.periodEnd
  repeat' first
    | (with_reducible first | assumption | intro _ | apply State.movePassed_sound | apply State.unitEnded_sound)
    | split

theorem State.starve_sound {s : State} (h : s.Sound) (k : UnitKind) (n : Nat) : (s.starve k n).Sound := by
  unfold State.starve
  (try dsimp only)
  repeat' first
    | (with_reducible first | assumption | intro _ | apply State.updMotion_sound | apply State.postStop_sound)
    | (with_reducible first | apply State.raiseStarved_sound | apply State.beginStop_sound | apply State.settle_sound)
    | split

theorem State.go_sound {s : State} (h : s.Sound) (k : UnitKind) (n : Nat) : (s.go k n).Sound := by
  unfold State.go
  (try dsimp only)
  repeat' first
    | (with_reducible first | assumption | intro _ | apply State.updMotion_sound | apply State.movePassed_sound)
    | (with_reducible first | apply State.moveEnded_sound)
    | split

theorem State.refuseHead_sound {s : State} (h : s.Sound) (k : UnitKind) (n status : Nat) (cancel : Bool) : (s.refuseHead k n status cancel).Sound := by
  unfold State.refuseHead
  (try dsimp only)
  repeat' first
    | (with_reducible first | assumption | intro _ | apply State.completeMove_sound | apply State.updMotion_sound)
    | (with_reducible first | apply State.cancelLook_sound)
    | split

theorem State.updLong_sound {s : State} (h : s.Sound) (g : Tag) (f : LongOp → LongOp) : (s.updLong g f).Sound := by
  unfold State.updLong
  (try dsimp only)
  repeat' first
    | (with_reducible first | assumption | intro _)
    | split
    | (rw [State.sound_mk]; refine ⟨?_, ?_⟩)
    | (with_reducible first | apply State.Sound.tiles | apply State.Sound.hist | apply State.Sound.leg | apply State.Sound.legs | apply legsOk.get)
    | dsimp only

theorem State.endLong_sound {s : State} (h : s.Sound) (g : Tag) (status : Nat) : (s.endLong g status).Sound := by
  unfold State.endLong
  (try dsimp only)
  repeat' first
    | (with_reducible first | assumption | intro _ | apply State.updLong_sound | apply State.complete_sound)
    | split

theorem State.dropLong_sound {s : State} (h : s.Sound) (o a status : Nat) : (s.dropLong o a status).Sound := by
  unfold State.dropLong
  (try dsimp only)
  repeat' first
    | (with_reducible first | assumption | intro _ | apply State.updAxis_sound | apply State.endLong_sound)
    | (rw [State.sound_mk]; exact ⟨h.1, h.2⟩)
    | split

theorem State.dropItem_sound {s : State} (h : s.Sound) (k : UnitKind) (n : Nat) (status : Nat) : (s.dropItem k n status).Sound := by
  unfold State.dropItem
  (try dsimp only)
  repeat' first
    | (with_reducible first | assumption | intro _ | apply State.refuseHead_sound | apply State.complete_sound)
    | (with_reducible first | apply State.updMotion_sound | apply State.freeWindow_sound | apply State.dropLong_sound)
    | split
    | (rw [State.sound_mk]; refine ⟨?_, ?_⟩)
    | (with_reducible first | apply State.Sound.tiles | apply State.Sound.hist | apply State.Sound.leg | apply State.Sound.legs | apply legsOk.get)
    | dsimp only

theorem State.beginFollow_sound {s : State} (h : s.Sound) (k : UnitKind) (n : Nat) (f : Follow) : (s.beginFollow k n f).Sound := by
  unfold State.beginFollow
  (try dsimp only)
  repeat' first
    | (with_reducible first | assumption | intro _ | apply State.updMotion_sound)
    | split

theorem State.beginPlay_sound {s : State} (h : s.Sound) (k : UnitKind) (n : Nat) (p : Play) : (s.beginPlay k n p).Sound := by
  unfold State.beginPlay
  (try dsimp only)
  repeat' first
    | (with_reducible first | assumption | intro _ | apply State.updMotion_sound)
    | split

theorem State.beginUnit_sound {s : State} (h : s.Sound) (k : UnitKind) (n since : Nat) : (s.beginUnit k n since).Sound := by
  unfold State.beginUnit
  (try dsimp only)
  repeat' first
    | (with_reducible first | assumption | intro _ | apply State.completeAct_sound | apply State.updMotion_sound)
    | (with_reducible first | apply State.book_sound | apply State.go_sound | apply State.refuseHead_sound)
    | (with_reducible first | apply State.complete_sound | apply State.beginFollow_sound | apply State.beginPlay_sound)
    | (with_reducible first | apply State.updAxis_sound | apply State.power_sound)
    | split

theorem State.endPhase_sound {s : State} (h : s.Sound) (t l : Nat) : (s.endPhase t l).Sound := by
  unfold State.endPhase
  (try dsimp only)
  repeat' first
    | (with_reducible first | assumption | intro _ | apply State.updLeg_sound | apply Leg.drive_ok)
    | split

theorem State.pullInEnd_sound {s : State} (h : s.Sound) (t l : Nat) : (s.pullInEnd t l).Sound := by
  unfold State.pullInEnd
  (try dsimp only)
  repeat' first
    | (with_reducible first | assumption | intro _ | apply State.updLeg_sound | apply State.complete_sound)
    | (with_reducible first | apply State.endPhase_sound | apply Leg.transfer_ok)
    | split

theorem State.beginPulse_sound {s : State} (h : s.Sound) (t l : Nat) (d : SolDesc) (rest : List SolDesc) : (s.beginPulse t l d rest).Sound := by
  unfold State.beginPulse
  (try dsimp only)
  repeat' first
    | (with_reducible first | assumption | intro _ | apply State.setLeg_sound | apply State.pullInEnd_sound | apply Leg.leaveHiz_ok)
    | split
    | (rw [State.sound_mk]; refine ⟨?_, ?_⟩)
    | (with_reducible first | apply State.Sound.tiles | apply State.Sound.hist | apply State.Sound.leg | apply State.Sound.legs | apply legsOk.get)
    | dsimp only

theorem State.refusePulse_sound {s : State} (h : s.Sound) (t l status : Nat) : (s.refusePulse t l status).Sound := by
  unfold State.refusePulse
  repeat' first
    | (with_reducible first | assumption | intro _ | apply State.complete_sound | apply State.updLeg_sound)
    | split

theorem State.releasePulse_sound {s : State} (h : s.Sound) (t l since : Nat) : (s.releasePulse t l since).Sound := by
  unfold State.releasePulse
  repeat' first
    | (with_reducible first | assumption | intro _ | apply State.refusePulse_sound | apply State.beginPulse_sound)
    | split

theorem State.refuseStart_sound {s : State} (h : s.Sound) (w : Who) : (s.refuseStart w).Sound := by
  unfold State.refuseStart
  (try dsimp only)
  repeat' first
    | (with_reducible first | assumption | intro _ | apply State.refusePulse_sound | apply State.updMotion_sound)
    | (with_reducible first | apply State.completeAct_sound | apply State.cancelLook_sound | apply State.dropItem_sound)
    | split

theorem State.beginStart_sound {s : State} (h : s.Sound) (w : Who) (since : Nat) : (s.beginStart w since).Sound := by
  unfold State.beginStart
  repeat' first
    | (with_reducible first | assumption | intro _ | apply State.beginUnit_sound | apply State.releasePulse_sound)
    | split

theorem State.noteCount_sound {s : State} (h : s.Sound) (w : Who) : (s.noteCount w).Sound := by
  unfold State.noteCount
  repeat' first
    | (with_reducible first | assumption | intro _ | apply State.updMotion_sound)
    | split

theorem State.admitStart_sound {s : State} (h : s.Sound) (w : Who) (since : Nat) : (s.admitStart w since).Sound := by
  unfold State.admitStart
  repeat' first
    | (with_reducible first | assumption | intro _ | apply State.updMotion_sound | apply State.updLeg_sound)
    | split

theorem State.markHeld_sound {s : State} (h : s.Sound) (w : Who) (h : Bool) : (s.markHeld w h).Sound := by
  unfold State.markHeld
  repeat' first
    | (with_reducible first | assumption | intro _ | apply State.updMotion_sound | apply State.updLeg_sound)
    | split
    | (rw [State.sound_mk]; refine ⟨?_, ?_⟩)
    | (with_reducible first | apply State.Sound.tiles | apply State.Sound.hist | apply State.Sound.leg | apply State.Sound.legs | apply legsOk.get)
    | dsimp only

theorem State.release_sound {s : State} (h : s.Sound) (may : Waiter → Bool) (ws : List Waiter) (blocked : List Nat) : (s.release may ws blocked).Sound := by
  induction ws generalizing s blocked with
  | nil => unfold State.release; exact h
  | cons w ws ih =>
    unfold State.release
    extract_lets tiles
    split
    · exact ih (State.refuseStart_sound h _) _
    · split
      · exact ih h _
      · split
        · exact ih (State.markHeld_sound h _ _) _
        · split
          · exact ih (State.beginStart_sound (State.noteCount_sound h _) _ _) _
          · exact ih (State.admitStart_sound (State.noteCount_sound h _) _ _) _

theorem State.makeReady_sound {s : State} (h : s.Sound) (k : UnitKind) (n : Nat) : (s.makeReady k n).Sound := by
  unfold State.makeReady
  repeat' first
    | (with_reducible first | assumption | intro _ | apply State.updMotion_sound)
    | split

theorem State.readiness_sound {s : State} (h : s.Sound) (k : UnitKind) (n fuel : Nat) : (s.readiness k n fuel).Sound := by
  induction fuel generalizing s with
  | zero => unfold State.readiness; exact h
  | succ f ih =>
    unfold State.readiness
    (try dsimp only)
    repeat' first
      | with_reducible apply ih
      | (with_reducible first | assumption | intro _ | apply State.makeReady_sound | apply State.dropItem_sound)
      | (with_reducible first | apply State.refuseHead_sound | apply State.updMotion_sound | apply State.completeMove_sound | apply State.complete_sound)
      | split
      | (rw [State.sound_mk]; refine ⟨?_, ?_⟩)
      | (with_reducible first | apply State.Sound.tiles | apply State.Sound.hist | apply State.Sound.leg | apply State.Sound.legs | apply legsOk.get)
      | dsimp only

theorem State.dwellTick_sound {s : State} (h : s.Sound) (k : UnitKind) (n : Nat) : (s.dwellTick k n).Sound := by
  unfold State.dwellTick
  (try dsimp only)
  repeat' first
    | (with_reducible first | assumption | intro _ | apply State.updMotion_sound)
    | split

theorem State.dwellOver_sound {s : State} (h : s.Sound) (k : UnitKind) (n : Nat) : (s.dwellOver k n).Sound := by
  unfold State.dwellOver
  repeat' first
    | (with_reducible first | assumption | intro _ | apply State.updMotion_sound)
    | split

theorem State.revEnd_sound {s : State} (h : s.Sound) (k : UnitKind) (n : Nat) : (s.revEnd k n).Sound := by
  unfold State.revEnd
  (try dsimp only)
  repeat' first
    | (with_reducible first | assumption | intro _ | apply State.updMotion_sound | apply State.go_sound)
    | (with_reducible first | apply State.completeMove_sound)
    | split

theorem State.beginDue_sound {s : State} (h : s.Sound) (w : Who) : (s.beginDue w).Sound := by
  unfold State.beginDue
  (try dsimp only)
  repeat' first
    | (with_reducible first | assumption | intro _ | apply State.beginUnit_sound | apply State.updMotion_sound)
    | (with_reducible first | apply State.releasePulse_sound | apply State.updLeg_sound)
    | split

theorem State.releaseUnit_sound {s : State} (h : s.Sound) (k : UnitKind) (n : Nat) : (s.releaseUnit k n).Sound := by
  unfold State.releaseUnit
  (try dsimp only)
  repeat' first
    | (with_reducible first | assumption | intro _ | apply State.powerAtBoundary_sound | apply State.beginDue_sound)
    | split

theorem State.holdEnd_sound {s : State} (h : s.Sound) (t l : Nat) : (s.holdEnd t l).Sound := by
  unfold State.holdEnd
  repeat' first
    | (with_reducible first | assumption | intro _ | apply State.endPhase_sound)
    | split

theorem State.pwmBoundary_sound {s : State} (h : s.Sound) (t l : Nat) : (s.pwmBoundary t l).Sound := by
  unfold State.pwmBoundary
  (try dsimp only)
  repeat' first
    | (with_reducible first | assumption | intro _ | apply State.pullInEnd_sound | apply State.holdEnd_sound)
    | (with_reducible first | apply State.setLeg_sound | apply State.fault_sound | apply Leg.drive_ok | apply Leg.leaveHiz_ok)
    | (with_reducible first | apply Leg.transfer_ok)
    | split
    | (rw [State.sound_mk]; refine ⟨?_, ?_⟩)
    | (with_reducible first | apply State.Sound.tiles | apply State.Sound.hist | apply State.Sound.leg | apply State.Sound.legs | apply legsOk.get)
    | dsimp only

theorem State.driveOn_sound {s : State} (h : s.Sound) (t l : Nat) : (s.driveOn t l).Sound := by
  unfold State.driveOn
  (try dsimp only)
  repeat' first
    | (with_reducible first | assumption | intro _ | apply State.pullInEnd_sound | apply State.holdEnd_sound)
    | (with_reducible first | apply State.setLeg_sound | apply Leg.cmdOff_ok | apply Leg.drive_ok)
    | split
    | (rw [State.sound_mk]; refine ⟨?_, ?_⟩)
    | (with_reducible first | apply State.Sound.tiles | apply State.Sound.hist | apply State.Sound.leg | apply State.Sound.legs | apply legsOk.get)
    | dsimp only

theorem State.driveOff_sound {s : State} (h : s.Sound) (t l : Nat) : (s.driveOff t l).Sound := by
  unfold State.driveOff
  extract_lets s1 x w hs skipped y1 g1 y d
  have h1 : s1.Sound := State.holdEnd_sound (State.pullInEnd_sound h _ _) _ _
  clear_value s1
  have hx : interlocked x.hi x.lo := h1.leg t l
  clear_value x w
  have hy : interlocked y.hi y.lo := by
    by_cases hk : skipped = true
    · have hc := hk
      simp only [skipped, Bool.and_eq_true, Bool.not_eq_true'] at hc
      simp only [y, hk, if_true]
      exact Leg.skip_ok hx w hc.2
    · simp only [y, hk]
      exact Leg.cmdOff_ok hx w
  clear_value y
  split
  · split
    · exact State.setLeg_sound h1 _ _ _ hx
    · split
      · exact State.setLeg_sound h1 _ _ _ hy
      · exact State.setLeg_sound h1 _ _ _ (Leg.drive_ok hy _)
  · exact h1

theorem State.pulseGo_sound {s : State} (h : s.Sound) (t l : Nat) (d : SolDesc) (r : List SolDesc) : (s.pulseGo t l d r).Sound := by
  unfold State.pulseGo
  repeat' first
    | (with_reducible first | exact h | apply State.refusePulse_sound | apply State.endPhase_sound | apply State.beginPulse_sound)
    | split
    | exact State.updLeg_sound h _ _ _ fun _ hx => hx

theorem State.pulseStart_sound {s : State} (h : s.Sound) (t l : Nat) : (s.pulseStart t l).Sound := by
  unfold State.pulseStart
  extract_lets x y u
  have hu : u.Sound := State.setLeg_sound h _ _ _ (h.leg t l)
  split
  · exact h
  · split
    · exact hu
    · split
      · exact hu
      · extract_lets v
        have hv : v.Sound := State.setLeg_sound hu _ _ _ (h.leg t l)
        repeat' first
          | (with_reducible first | exact hv | apply State.refusePulse_sound | apply State.pulseGo_sound)
          | split

theorem State.pulseCommand_sound {s : State} (h : s.Sound) (t l : Nat) : (s.pulseCommand t l).Sound := by
  unfold State.pulseCommand
  repeat' first
    | (with_reducible first | assumption | intro _ | apply State.pulseStart_sound | apply State.beginDue_sound)
    | split
    | (rw [State.sound_mk]; refine ⟨?_, ?_⟩)
    | (with_reducible first | apply State.Sound.tiles | apply State.Sound.hist | apply State.Sound.leg | apply State.Sound.legs | apply legsOk.get)
    | dsimp only

theorem State.legTick_sound {s : State} (h : s.Sound) (t l : Nat) : (s.legTick t l).Sound := by
  unfold State.legTick
  (try dsimp only)
  repeat' first
    | (with_reducible first | assumption | intro _ | apply State.updLeg_sound)
    | split

theorem State.freewheelEnd_sound {s : State} (h : s.Sound) (t l : Nat) : (s.freewheelEnd t l).Sound := by
  unfold State.freewheelEnd
  (try dsimp only)
  repeat' first
    | (with_reducible first | assumption | intro _ | apply State.complete_sound | apply State.updLeg_sound)
    | (with_reducible first | apply State.pulseStart_sound | apply Leg.toHiz_ok)
    | split

theorem State.trigger_sound {s : State} (h : s.Sound) (t l : Nat) (which : Bool) : (s.trigger t l which).Sound := by
  unfold State.trigger
  (try dsimp only)
  repeat' first
    | (with_reducible first | assumption | intro _ | apply State.adcRequest_sound | apply State.updTile_sound)
    | (with_reducible first | apply State.updLeg_sound)
    | split

theorem State.judge_sound {s : State} (h : s.Sound) (t k : Nat) (spare : Bool) (uv : Int) (code : BitVec 12) : (s.judge t k spare uv code).Sound := by
  unfold State.judge
  (try dsimp only)
  repeat' first
    | (with_reducible first | assumption | intro _ | apply State.setTile_sound | apply State.confirmDecide_sound)
    | split
    | (rw [State.sound_mk]; refine ⟨?_, ?_⟩)
    | (with_reducible first | apply State.Sound.tiles | apply State.Sound.hist | apply State.Sound.leg | apply State.Sound.legs | apply legsOk.get)
    | dsimp only

theorem State.adcDone_sound {s : State} (h : s.Sound) (t : Nat) (code : BitVec 12) : (s.adcDone t code).Sound := by
  unfold State.adcDone
  (try dsimp only)
  repeat' first
    | (with_reducible first | assumption | intro _ | apply State.updTile_sound | apply State.updLeg_sound | apply State.judge_sound)
    | split

theorem State.thawIdle_sound {s : State} (h : s.Sound) (a : Nat) : (s.thawIdle a).Sound := by
  unfold State.thawIdle
  repeat' first
    | (with_reducible first | assumption | intro _ | apply State.beginCoils_sound)
    | split

theorem State.thawAxis_sound {s : State} (h : s.Sound) (a : Nat) : (s.thawAxis a).Sound := by
  unfold State.thawAxis
  (try dsimp only)
  repeat' first
    | (with_reducible first | assumption | intro _ | apply State.updCoil_sound | apply State.coilSettle_sound)
    | (with_reducible first | apply State.thawIdle_sound | apply State.updMotion_sound)
    | split

theorem State.freezeOff_sound {s : State} (h : s.Sound) : (s.freezeOff).Sound := by
  unfold State.freezeOff
  (try dsimp only)
  repeat' first
    | (with_reducible first | assumption | intro _ | apply State.thawAxis_sound | apply State.updMotion_sound)
    | (with_reducible first | apply State.updLeg_sound | apply State.raiseDev_sound | apply foldl_sound)
    | split
    | (rw [State.sound_mk]; refine ⟨?_, ?_⟩)
    | (with_reducible first | apply State.Sound.tiles | apply State.Sound.hist | apply State.Sound.leg | apply State.Sound.legs | apply legsOk.get)
    | dsimp only

theorem State.post_sound {s : State} (h : s.Sound) (o : Output) : (s.post o).Sound := by
  unfold State.post
  repeat' first
    | (with_reducible first | assumption | intro _)
    | split
    | (rw [State.sound_mk]; refine ⟨?_, ?_⟩)
    | (with_reducible first | apply State.Sound.tiles | apply State.Sound.hist | apply State.Sound.leg | apply State.Sound.legs | apply legsOk.get)
    | dsimp only

theorem State.issueAsked_sound {s : State} (h : s.Sound) : (s.issueAsked).Sound := by
  unfold State.issueAsked
  (try dsimp only)
  repeat' first
    | (with_reducible first | assumption | intro _)
    | (rw [State.sound_mk]; exact ⟨h.1, h.2⟩)
    | split

theorem State.request_sound {s : State} (h : s.Sound) (src : ReadSrc) (o : Output) : (s.request src o).Sound := by
  unfold State.request
  (try dsimp only)
  repeat' first
    | (with_reducible first | assumption | intro _ | apply State.issueAsked_sound)
    | (rw [State.sound_mk]; exact ⟨h.1, h.2⟩)
    | split

theorem State.answered_sound {s : State} (h : s.Sound) (src : ReadSrc) : (s.answered src).Sound := by
  unfold State.answered
  (try dsimp only)
  repeat' first
    | (with_reducible first | assumption | intro _ | apply State.issueAsked_sound)
    | (rw [State.sound_mk]; exact ⟨h.1, h.2⟩)
    | split

theorem State.unask_sound {s : State} (h : s.Sound) (r : Nat) : (s.unask r).Sound := by
  unfold State.unask
  (try dsimp only)
  repeat' first
    | (with_reducible first | assumption | intro _)
    | (rw [State.sound_mk]; exact ⟨h.1, h.2⟩)
    | split

theorem State.sendVector_sound {s : State} (h : s.Sound) (v : Nat) : (s.sendVector v).Sound := by
  unfold State.sendVector
  repeat' first
    | (with_reducible first | assumption | intro _ | apply State.post_sound)
    | split
    | (rw [State.sound_mk]; refine ⟨?_, ?_⟩)
    | (with_reducible first | apply State.Sound.tiles | apply State.Sound.hist | apply State.Sound.leg | apply State.Sound.legs | apply legsOk.get)
    | dsimp only

theorem State.msixWrite_sound {s : State} (h : s.Sound) (off : Nat) (v : Word) : (s.msixWrite off v).Sound := by
  unfold State.msixWrite
  (try dsimp only)
  repeat' first
    | (with_reducible first | assumption | intro _ | apply State.sendVector_sound)
    | split
    | (rw [State.sound_mk]; refine ⟨?_, ?_⟩)
    | (with_reducible first | apply State.Sound.tiles | apply State.Sound.hist | apply State.Sound.leg | apply State.Sound.legs | apply legsOk.get)
    | dsimp only

theorem State.writeOsb_sound {s : State} (h : s.Sound) (x : LongOp) : (s.writeOsb x).Sound := by
  unfold State.writeOsb
  (try dsimp only)
  repeat' first
    | (with_reducible first | assumption | intro _ | apply State.post_sound)
    | split

theorem State.updateOsbs_sound {s : State} (h : s.Sound) : (s.updateOsbs).Sound := by
  unfold State.updateOsbs
  (try dsimp only)
  repeat' first
    | (with_reducible first | assumption | intro _ | apply State.post_sound | apply State.writeOsb_sound | apply foldl_sound)
    | split
    | (rw [State.sound_mk]; refine ⟨?_, ?_⟩)
    | (with_reducible first | apply State.Sound.tiles | apply State.Sound.hist | apply State.Sound.leg | apply State.Sound.legs | apply legsOk.get)
    | dsimp only

theorem State.acceptLong_sound {s : State} (h : s.Sound) (x : LongOp) : (s.acceptLong x).Sound := by
  unfold State.acceptLong
  (try dsimp only)
  repeat' first
    | (with_reducible first | assumption | intro _ | apply State.post_sound)
    | split
    | (rw [State.sound_mk]; refine ⟨?_, ?_⟩)
    | (with_reducible first | apply State.Sound.tiles | apply State.Sound.hist | apply State.Sound.leg | apply State.Sound.legs | apply legsOk.get)
    | dsimp only

theorem State.ackRecord_sound {s : State} (h : s.Sound) (uid : Nat) : (s.ackRecord uid).Sound := by
  unfold State.ackRecord
  split
  · exact h
  · split
    · rw [State.sound_mk, List.length_map]
      exact ⟨tilesOk_map h.1 (fun x => { x with isoHold := x.isoHold.filter fun u => decide (u ≠ uid) }) fun _ => rfl, h.2⟩
    · exact h

theorem State.ackLatch_sound {s : State} (h : s.Sound) : (s.ackLatch).Sound := by
  unfold State.ackLatch
  repeat' first
    | (with_reducible first | assumption | intro _ | apply State.ackRecord_sound)
    | split

theorem State.latchEntry_sound {s : State} (h : s.Sound) (age : Nat) : (s.latchEntry age).Sound := by
  unfold State.latchEntry
  (try dsimp only)
  repeat' first
    | (with_reducible first | assumption | intro _)
    | split
    | (rw [State.sound_mk]; refine ⟨?_, ?_⟩)
    | (with_reducible first | apply State.Sound.tiles | apply State.Sound.hist | apply State.Sound.leg | apply State.Sound.legs | apply legsOk.get)
    | dsimp only

theorem State.windowEnd_sound {s : State} (h : s.Sound) (n : Nat) : (s.windowEnd n).Sound := by
  unfold State.windowEnd
  (try dsimp only)
  repeat' first
    | rw [List.length_map]
    | (with_reducible first | assumption | intro _)
    | split
    | (rw [State.sound_mk]; refine ⟨?_, ?_⟩)
    | (with_reducible first | apply State.Sound.tiles | apply State.Sound.hist | apply State.Sound.leg | apply State.Sound.legs | apply legsOk.get)
    | dsimp only

theorem State.pulseOver_sound {s : State} (h : s.Sound) : (s.pulseOver).Sound := by
  unfold State.pulseOver
  (try dsimp only)
  repeat' first
    | (with_reducible first | assumption | intro _)
    | split
    | (rw [State.sound_mk]; refine ⟨?_, ?_⟩)
    | (with_reducible first | apply State.Sound.tiles | apply State.Sound.hist | apply State.Sound.leg | apply State.Sound.legs | apply legsOk.get)
    | dsimp only

theorem State.isoForLife_sound {s : State} (h : s.Sound) (t : Nat) : (s.isoForLife t).Sound := by
  unfold State.isoForLife
  repeat' first
    | (with_reducible first | assumption | intro _ | apply State.isoTile_sound | apply State.updTile_sound | apply State.settle_sound)
    | split

theorem State.breakSensors_sound {s : State} (h : s.Sound) (t : Nat) : (s.breakSensors t).Sound := by
  unfold State.breakSensors
  (try dsimp only)
  repeat' first
    | (with_reducible first | assumption | intro _ | apply State.setThmTile_sound | apply State.fault_sound)
    | split
    | (rw [State.sound_mk]; refine ⟨?_, ?_⟩)
    | (with_reducible first | apply State.Sound.tiles | apply State.Sound.hist | apply State.Sound.leg | apply State.Sound.legs | apply legsOk.get)
    | dsimp only

theorem State.formTemp_sound {s : State} (h : s.Sound) (t : Nat) : (s.formTemp t).Sound := by
  unfold State.formTemp
  (try dsimp only)
  repeat' first
    | (with_reducible first | assumption | intro _ | apply State.isoForLife_sound | apply State.setThmTile_sound)
    | (with_reducible first | apply State.fault_sound | apply foldl_sound)
    | split

theorem State.formLevels_sound {s : State} (h : s.Sound) (t : Nat) : (s.formLevels t).Sound := by
  unfold State.formLevels
  (try dsimp only)
  repeat' first
    | (with_reducible first | assumption | intro _ | apply State.setThmTile_sound | apply State.fault_sound)
    | split
    | (rw [State.sound_mk]; refine ⟨?_, ?_⟩)
    | (with_reducible first | apply State.Sound.tiles | apply State.Sound.hist | apply State.Sound.leg | apply State.Sound.legs | apply legsOk.get)
    | dsimp only

theorem State.sensorWear_sound {s : State} (h : s.Sound) (t : Nat) : (s.sensorWear t).Sound := by
  unfold State.sensorWear
  (try dsimp only)
  repeat' first
    | (with_reducible first | assumption | intro _ | apply State.wear_sound)
    | split

theorem State.thermal_sound {s : State} (h : s.Sound) (t : Nat) (a b : BitVec 16) : (s.thermal t a b).Sound := by
  unfold State.thermal
  (try dsimp only)
  repeat' first
    | (with_reducible first | assumption | intro _ | apply State.setThmTile_sound | apply State.sensorWear_sound)
    | (with_reducible first | apply State.breakSensors_sound | apply State.formTemp_sound | apply State.formLevels_sound)
    | split

theorem State.refuse_sound {s : State} (h : s.Sound) (g : Tag) (d : Desc) (t : Target) (b : Bad) : (s.refuse g d t b).Sound := by
  unfold State.refuse
  (try dsimp only)
  repeat' first
    | (with_reducible first | assumption | intro _ | apply State.complete_sound)
    | split
    | (rw [State.sound_mk]; refine ⟨?_, ?_⟩)
    | (with_reducible first | apply State.Sound.tiles | apply State.Sound.hist | apply State.Sound.leg | apply State.Sound.legs | apply legsOk.get)
    | dsimp only

theorem State.refuseField_sound {s : State} (h : s.Sound) (g : Tag) (d : Desc) (t : Target) (w b : Nat) : (s.refuseField g d t w b).Sound := by
  unfold State.refuseField
  repeat' first
    | (with_reducible first | assumption | intro _ | apply State.refuse_sound)
    | split

theorem State.refuseWith_sound {s : State} (h : s.Sound) (g : Tag) (d : Desc) (t : Target) (st : Nat) : (s.refuseWith g d t st).Sound := by
  unfold State.refuseWith
  repeat' first
    | (with_reducible first | assumption | intro _ | apply State.refuse_sound)
    | split

theorem State.takeProfile_sound {s : State} (h : s.Sound) (g : Tag) (d : Desc) (k : UnitKind) (n : Nat) : (s.takeProfile g d k n).Sound := by
  unfold State.takeProfile
  (try dsimp only)
  repeat' first
    | (with_reducible first | assumption | intro _ | apply State.updMotion_sound | apply State.complete_sound)
    | split

theorem State.enter_sound {s : State} (h : s.Sound) (k : UnitKind) (n : Nat) (v : Move) : (s.enter k n v).Sound := by
  unfold State.enter
  repeat' first
    | (with_reducible first | assumption | intro _ | apply State.updMotion_sound)
    | split

theorem State.takeZero_sound {s : State} (h : s.Sound) (k : UnitKind) (n : Nat) (v : Move) : (s.takeZero k n v).Sound := by
  unfold State.takeZero
  (try dsimp only)
  repeat' first
    | (with_reducible first | assumption | intro _ | apply State.updMotion_sound | apply State.completeMove_sound)
    | split

theorem State.takeMove_sound {s : State} (h : s.Sound) (g : Tag) (d : Desc) (k : UnitKind) (n : Nat) (p : Profile) : (s.takeMove g d k n p).Sound := by
  unfold State.takeMove
  (try dsimp only)
  repeat' first
    | (with_reducible first | assumption | intro _ | apply State.enter_sound | apply State.refuseField_sound)
    | (with_reducible first | apply State.takeZero_sound)
    | split

theorem State.takeResume_sound {s : State} (h : s.Sound) (g : Tag) (d : Desc) (k : UnitKind) (n : Nat) : (s.takeResume g d k n).Sound := by
  unfold State.takeResume
  (try dsimp only)
  repeat' first
    | (with_reducible first | assumption | intro _ | apply State.refuseWith_sound | apply State.updMotion_sound)
    | (with_reducible first | apply State.complete_sound | apply State.enter_sound)
    | split

theorem State.takeStop_sound {s : State} (h : s.Sound) (g : Tag) (d : Desc) (k : UnitKind) (n : Nat) : (s.takeStop g d k n).Sound := by
  unfold State.takeStop
  (try dsimp only)
  repeat' first
    | (with_reducible first | assumption | intro _ | apply State.cancelDwell_sound | apply State.cancelLook_sound)
    | (with_reducible first | apply State.complete_sound | apply State.updMotion_sound | apply State.postStop_sound)
    | split

theorem State.takeCurrent_sound {s : State} (h : s.Sound) (g : Tag) (d : Desc) (a : Nat) : (s.takeCurrent g d a).Sound := by
  unfold State.takeCurrent
  (try dsimp only)
  repeat' first
    | (with_reducible first | assumption | intro _ | apply State.updAxis_sound)
    | split

theorem State.enterLater_sound {s : State} (h : s.Sound) (k : UnitKind) (n : Nat) (l : Nat → Later) : (s.enterLater k n l).Sound := by
  unfold State.enterLater
  repeat' first
    | (with_reducible first | assumption | intro _ | apply State.updMotion_sound)
    | split

theorem State.takeFollow_sound {s : State} (h : s.Sound) (g : Tag) (d : Desc) (k : UnitKind) (n : Nat) : (s.takeFollow g d k n).Sound := by
  unfold State.takeFollow
  repeat' first
    | (with_reducible first | assumption | intro _ | apply State.enterLater_sound)
    | split

theorem State.takePlay_sound {s : State} (h : s.Sound) (g : Tag) (d : Desc) (k : UnitKind) (n : Nat) : (s.takePlay g d k n).Sound := by
  unfold State.takePlay
  (try dsimp only)
  repeat' first
    | (with_reducible first | assumption | intro _ | apply State.setTwin_sound | apply State.enterLater_sound)
    | (with_reducible first | apply State.request_sound)
    | split
    | (rw [State.sound_mk]; refine ⟨?_, ?_⟩)
    | (with_reducible first | apply State.Sound.tiles | apply State.Sound.hist | apply State.Sound.leg | apply State.Sound.legs | apply legsOk.get)
    | dsimp only

theorem State.enterBind_sound {s : State} (h : s.Sound) (b : BindReq) : (s.enterBind b).Sound := by
  unfold State.enterBind
  (try dsimp only)
  repeat' first
    | (with_reducible first | assumption | intro _ | apply State.updMotion_sound)
    | split
    | (rw [State.sound_mk]; refine ⟨?_, ?_⟩)
    | (with_reducible first | apply State.Sound.tiles | apply State.Sound.hist | apply State.Sound.leg | apply State.Sound.legs | apply legsOk.get)
    | dsimp only

theorem State.takeBind_sound {s : State} (h : s.Sound) (g : Tag) (d : Desc) (c : Nat) : (s.takeBind g d c).Sound := by
  unfold State.takeBind
  repeat' first
    | (with_reducible first | assumption | intro _ | apply State.enterBind_sound)
    | split

theorem State.takeUnbind_sound {s : State} (h : s.Sound) (g : Tag) (d : Desc) (k : UnitKind) (n : Nat) : (s.takeUnbind g d k n).Sound := by
  unfold State.takeUnbind
  (try dsimp only)
  repeat' first
    | (with_reducible first | assumption | intro _ | apply State.enterBind_sound)
    | split

theorem State.takeSol_sound {s : State} (h : s.Sound) (g : Tag) (d : Desc) (t mask : Nat) : (s.takeSol g d t mask).Sound := by
  unfold State.takeSol
  (try dsimp only)
  repeat' first
    | (with_reducible first | assumption | intro _ | apply State.refuseField_sound | apply State.refuseWith_sound)
    | (with_reducible first | apply State.setLeg_sound | apply State.pulseStart_sound)
    | split
    | (rw [State.sound_mk]; refine ⟨?_, ?_⟩)
    | (with_reducible first | apply State.Sound.tiles | apply State.Sound.hist | apply State.Sound.leg | apply State.Sound.legs | apply legsOk.get)
    | dsimp only

theorem State.takeHome_sound {s : State} (h : s.Sound) (g : Tag) (d : Desc) (a : Nat) : (s.takeHome g d a).Sound := by
  unfold State.takeHome
  (try dsimp only)
  repeat' first
    | (with_reducible first | assumption | intro _ | apply State.updAxis_sound | apply State.acceptLong_sound)
    | split

theorem State.takeChar_sound {s : State} (h : s.Sound) (g : Tag) (d : Desc) (a : Nat) : (s.takeChar g d a).Sound := by
  unfold State.takeChar
  (try dsimp only)
  repeat' first
    | (with_reducible first | assumption | intro _ | apply State.updAxis_sound | apply State.acceptLong_sound)
    | split

theorem State.takeHistory_sound {s : State} (h : s.Sound) (g : Tag) (d : Desc) : (s.takeHistory g d).Sound := by
  unfold State.takeHistory
  (try dsimp only)
  repeat' first
    | (with_reducible first | assumption | intro _ | apply State.post_sound | apply State.ackRecord_sound)
    | (with_reducible first | apply State.complete_sound | apply foldl_sound)
    | split

theorem State.takeMode_sound {s : State} (h : s.Sound) (g : Tag) (d : Desc) : (s.takeMode g d).Sound := by
  unfold State.takeMode
  (try dsimp only)
  repeat' first
    | (with_reducible first | assumption | intro _)
    | split
    | (rw [State.sound_mk]; refine ⟨?_, ?_⟩)
    | (with_reducible first | apply State.Sound.tiles | apply State.Sound.hist | apply State.Sound.leg | apply State.Sound.legs | apply legsOk.get)
    | dsimp only

theorem State.ownAsk_sound {s : State} (h : s.Sound) (a : Nat) (v : Move) : (s.ownAsk a v).Sound := by
  unfold State.ownAsk
  repeat' first
    | (with_reducible first | assumption | intro _ | apply State.updMotion_sound)
    | split

theorem State.ownGo_sound {s : State} (h : s.Sound) (a : Nat) (v : Move) : (s.ownGo a v).Sound := by
  unfold State.ownGo
  (try dsimp only)
  repeat' first
    | (with_reducible first | assumption | intro _ | apply State.updAxis_sound | apply State.updMotion_sound | apply State.go_sound)
    | split

theorem State.updHome_sound {s : State} (h : s.Sound) (a : Nat) (f : Home → Home) : (s.updHome a f).Sound := by
  unfold State.updHome
  repeat' first
    | (with_reducible first | assumption | intro _ | apply State.updAxis_sound)
    | split

theorem State.axisLong_sound {s : State} (h : s.Sound) (o a : Nat) (f : LongOp → LongOp) : (s.axisLong o a f).Sound := by
  unfold State.axisLong
  repeat' first
    | (with_reducible first | assumption | intro _ | apply State.updLong_sound)
    | split

theorem State.homeEntry_sound {s : State} (h : s.Sound) (a : Nat) (e : List Word) : (s.homeEntry a e).Sound := by
  unfold State.homeEntry
  repeat' first
    | (with_reducible first | assumption | intro _ | apply State.axisLong_sound)
    | split

theorem State.homeTo_sound {s : State} (h : s.Sound) (a : Nat) (st : HomeState) : (s.homeTo a st).Sound := by
  unfold State.homeTo
  repeat' first
    | (with_reducible first | assumption | intro _ | apply State.updHome_sound)
    | split

theorem State.homeFail_sound {s : State} (h : s.Sound) (a st reason : Nat) : (s.homeFail a st reason).Sound := by
  unfold State.homeFail
  repeat' first
    | (with_reducible first | assumption | intro _ | apply State.updHome_sound | apply State.updMotion_sound)
    | split

theorem State.homeGo_sound {s : State} (h : s.Sound) (a : Nat) (v : Move) : (s.homeGo a v).Sound := by
  unfold State.homeGo
  repeat' first
    | (with_reducible first | assumption | intro _ | apply State.homeFail_sound | apply State.ownAsk_sound)
    | split

theorem State.homeSearch_sound {s : State} (h : s.Sound) (a : Nat) (h : Home) : (s.homeSearch a h).Sound := by
  unfold State.homeSearch
  (try dsimp only)
  repeat' first
    | (with_reducible first | assumption | intro _ | apply State.pass_sound | apply State.homeTo_sound | apply State.updHome_sound)
    | (with_reducible first | apply State.homeGo_sound)
    | split

theorem State.homeCheck_sound {s : State} (h : s.Sound) (a : Nat) (h : Home) : (s.homeCheck a h).Sound := by
  unfold State.homeCheck
  (try dsimp only)
  repeat' first
    | (with_reducible first | assumption | intro _ | apply State.homeSearch_sound | apply State.homeFail_sound)
    | (with_reducible first | apply State.homeTo_sound | apply State.updHome_sound | apply State.homeGo_sound)
    | split

theorem State.homeSet_sound {s : State} (h : s.Sound) (a : Nat) (h : Home) : (s.homeSet a h).Sound := by
  unfold State.homeSet
  (try dsimp only)
  repeat' first
    | (with_reducible first | assumption | intro _ | apply State.homeEntry_sound | apply State.updAxis_sound)
    | (with_reducible first | apply State.homeTo_sound | apply State.homeGo_sound)
    | split

theorem State.homeOver_sound {s : State} (h : s.Sound) (a st reason : Nat) (h : Home) : (s.homeOver a st reason h).Sound := by
  unfold State.homeOver
  (try dsimp only)
  repeat' first
    | (with_reducible first | assumption | intro _ | apply State.axisLong_sound | apply State.updAxis_sound)
    | (with_reducible first | apply State.endLong_sound)
    | split

theorem State.homeLatched_sound {s : State} (h : s.Sound) (a : Nat) (h : Home) : (s.homeLatched a h).Sound := by
  unfold State.homeLatched
  repeat' first
    | (with_reducible first | assumption | intro _ | apply State.homeEntry_sound)
    | split

theorem State.homeState_sound {s : State} (h : s.Sound) (a : Nat) (h : Home) : (s.homeState a h).Sound := by
  unfold State.homeState
  (try dsimp only)
  repeat' first
    | (with_reducible first | assumption | intro _ | apply State.homeCheck_sound | apply State.updMotion_sound)
    | (with_reducible first | apply State.homeFail_sound | apply State.homeSearch_sound | apply State.homeTo_sound)
    | (with_reducible first | apply State.homeLatched_sound | apply State.pass_sound | apply State.updHome_sound)
    | (with_reducible first | apply State.homeGo_sound | apply State.homeSet_sound | apply State.homeEntry_sound)
    | (with_reducible first | apply State.axisLong_sound | apply State.homeOver_sound)
    | split

theorem State.homeStates_sound {s : State} (h : s.Sound) (a fuel : Nat) : (s.homeStates a fuel).Sound := by
  induction fuel generalizing s with
  | zero => unfold State.homeStates; exact h
  | succ f ih =>
    unfold State.homeStates
    split
    · rename_i e _
      obtain rfl := Nat.succ.inj e
      split
      · exact h
      · extract_lets s'
        have h' : s'.Sound := State.homeState_sound h _ _
        clear_value s'
        split
        · split
          · exact h'
          · exact ih h'
        · exact h'
    · exact h

theorem State.homeWatch_sound {s : State} (h : s.Sound) (a : Nat) : (s.homeWatch a).Sound := by
  unfold State.homeWatch
  repeat' first
    | (with_reducible first | assumption | intro _ | apply State.homeFail_sound | apply State.updHome_sound)
    | split

theorem State.homeSeen_sound {s : State} (h : s.Sound) (a : Nat) : (s.homeSeen a).Sound := by
  unfold State.homeSeen
  repeat' first
    | (with_reducible first | assumption | intro _ | apply State.updAxis_sound)
    | (rw [State.sound_mk]; exact ⟨h.1, h.2⟩)
    | split

theorem State.homeStep_sound {s : State} (h : s.Sound) (a : Nat) : (s.homeStep a).Sound := by
  unfold State.homeStep
  (try dsimp only)
  repeat' first
    | (with_reducible first | assumption | intro _ | apply State.homeSeen_sound | apply State.homeLatched_sound)
    | (with_reducible first | apply State.homeEntry_sound | apply State.homeOver_sound | apply State.homeStates_sound | apply State.axisLong_sound)
    | split
    | (rw [State.sound_mk]; refine ⟨?_, ?_⟩)
    | (with_reducible first | apply State.Sound.tiles | apply State.Sound.hist | apply State.Sound.leg | apply State.Sound.legs | apply legsOk.get)
    | dsimp only

theorem State.homeEdge_sound {s : State} (h : s.Sound) (a i : Nat) (level : Bool) (sdt : Nat) : (s.homeEdge a i level sdt).Sound := by
  unfold State.homeEdge
  (try dsimp only)
  repeat' first
    | (with_reducible first | assumption | intro _ | apply State.updHome_sound | apply State.updAxis_sound)
    | split

theorem State.homeStall_sound {s : State} (h : s.Sound) (a : Nat) : (s.homeStall a).Sound := by
  unfold State.homeStall
  (try dsimp only)
  repeat' first
    | (with_reducible first | assumption | intro _ | apply State.updAxis_sound)
    | split

theorem State.updChar_sound {s : State} (h : s.Sound) (a : Nat) (f : Char → Char) : (s.updChar a f).Sound := by
  unfold State.updChar
  repeat' first
    | (with_reducible first | assumption | intro _ | apply State.updAxis_sound)
    | split

theorem State.setBase_sound {s : State} (h : s.Sound) (a i : Nat) (v : Word) : (s.setBase a i v).Sound := by
  unfold State.setBase
  repeat' first
    | (with_reducible first | assumption | intro _ | apply State.updAxis_sound)
    | split

theorem State.charNext_sound {s : State} (h : s.Sound) (a : Nat) : (s.charNext a).Sound := by
  unfold State.charNext
  (try dsimp only)
  repeat' first
    | (with_reducible first | assumption | intro _ | apply State.updChar_sound | apply State.axisLong_sound)
    | split

theorem State.charFail_sound {s : State} (h : s.Sound) (a st : Nat) : (s.charFail a st).Sound := by
  unfold State.charFail
  repeat' first
    | (with_reducible first | assumption | intro _ | apply State.updChar_sound | apply State.updMotion_sound)
    | split

theorem State.charGo_sound {s : State} (h : s.Sound) (a : Nat) (v : Move) : (s.charGo a v).Sound := by
  unfold State.charGo
  repeat' first
    | (with_reducible first | assumption | intro _ | apply State.charFail_sound | apply State.ownAsk_sound)
    | split

theorem State.ownStart_sound {s : State} (h : s.Sound) (a : Nat) : (s.ownStart a).Sound := by
  unfold State.ownStart
  (try dsimp only)
  repeat' first
    | (with_reducible first | assumption | intro _ | apply State.ownGo_sound | apply State.homeFail_sound)
    | (with_reducible first | apply State.charFail_sound)
    | split

theorem State.charStand_sound {s : State} (h : s.Sound) (a : Nat) (h : Char) (p : Profile) : (s.charStand a h p).Sound := by
  unfold State.charStand
  (try dsimp only)
  repeat' first
    | (with_reducible first | assumption | intro _ | apply State.updChar_sound | apply State.charGo_sound)
    | (with_reducible first | apply State.charNext_sound | apply State.setBase_sound | apply State.axisLong_sound | apply foldl_sound)
    | split

theorem State.charBin_sound {s : State} (h : s.Sound) (a : Nat) (h : Char) (p : Profile) : (s.charBin a h p).Sound := by
  unfold State.charBin
  (try dsimp only)
  repeat' first
    | (with_reducible first | assumption | intro _ | apply State.updChar_sound | apply State.charGo_sound | apply State.setBase_sound)
    | (with_reducible first | apply State.axisLong_sound | apply State.charNext_sound | apply foldl_sound)
    | split

theorem State.unpower_sound {s : State} (h : s.Sound) (a : Nat) : (s.unpower a).Sound := by
  unfold State.unpower
  (try dsimp only)
  repeat' first
    | (with_reducible first | assumption | intro _ | apply State.updLeg_sound | apply State.updAxis_sound | apply Leg.toHiz_ok)
    | (with_reducible first | apply foldl_sound)
    | split

theorem State.charOver_sound {s : State} (h : s.Sound) (a st : Nat) (h : Char) : (s.charOver a st h).Sound := by
  unfold State.charOver
  (try dsimp only)
  repeat' first
    | (with_reducible first | assumption | intro _ | apply State.axisLong_sound | apply State.updAxis_sound)
    | (with_reducible first | apply State.unpower_sound | apply State.endLong_sound)
    | split

theorem State.charHeader_sound {s : State} (h : s.Sound) (a : Nat) (h : Char) : (s.charHeader a h).Sound := by
  unfold State.charHeader
  (try dsimp only)
  repeat' first
    | (with_reducible first | assumption | intro _ | apply State.setBase_sound)
    | split

theorem State.charReturn_sound {s : State} (h : s.Sound) (a : Nat) (h : Char) (p : Profile) : (s.charReturn a h p).Sound := by
  unfold State.charReturn
  (try dsimp only)
  repeat' first
    | (with_reducible first | assumption | intro _ | apply State.updChar_sound | apply State.updMotion_sound)
    | (with_reducible first | apply State.charGo_sound | apply State.charHeader_sound | apply State.axisLong_sound)
    | (with_reducible first | apply State.charOver_sound)
    | split

theorem State.charWatch_sound {s : State} (h : s.Sound) (a : Nat) : (s.charWatch a).Sound := by
  unfold State.charWatch
  repeat' first
    | (with_reducible first | assumption | intro _ | apply State.charFail_sound | apply State.updChar_sound)
    | split

theorem State.charStep_sound {s : State} (h : s.Sound) (a : Nat) : (s.charStep a).Sound := by
  unfold State.charStep
  (try dsimp only)
  repeat' first
    | (with_reducible first | assumption | intro _ | apply State.charOver_sound | apply State.updChar_sound)
    | (with_reducible first | apply State.setBase_sound | apply State.charStand_sound | apply State.charBin_sound)
    | (with_reducible first | apply State.charReturn_sound)
    | split

theorem State.bindFail_sound {s : State} (h : s.Sound) (b : BindReq) (f : Bad) : (s.bindFail b f).Sound := by
  unfold State.bindFail
  (try dsimp only)
  repeat' first
    | (with_reducible first | assumption | intro _ | apply State.complete_sound)
    | split

theorem State.bindDone_sound {s : State} (h : s.Sound) (g : Tag) (word0 : Word) (c slot : Nat) (mb : Member) : (s.bindDone g word0 c slot mb).Sound := by
  unfold State.bindDone
  (try dsimp only)
  repeat' first
    | (with_reducible first | assumption | intro _ | apply State.setMember_sound | apply State.setParent_sound)
    | (with_reducible first | apply State.updMotion_sound | apply State.complete_sound)
    | split

theorem State.bindNow_sound {s : State} (h : s.Sound) (b : BindReq) : (s.bindNow b).Sound := by
  unfold State.bindNow
  (try dsimp only)
  repeat' first
    | (with_reducible first | assumption | intro _ | apply State.bindDone_sound | apply State.bindFail_sound)
    | (with_reducible first | apply State.setMember_sound | apply State.setParent_sound | apply State.updMotion_sound)
    | split

theorem State.freeSlot_sound {s : State} (h : s.Sound) (c slot : Nat) : (s.freeSlot c slot).Sound := by
  unfold State.freeSlot
  (try dsimp only)
  repeat' first
    | (with_reducible first | assumption | intro _ | apply State.setMember_sound | apply State.setParent_sound)
    | (with_reducible first | apply State.updMotion_sound)
    | split

theorem State.unbindNow_sound {s : State} (h : s.Sound) (b : BindReq) (c slot : Nat) : (s.unbindNow b c slot).Sound := by
  unfold State.unbindNow
  (try dsimp only)
  repeat' first
    | (with_reducible first | assumption | intro _ | apply State.freeSlot_sound | apply State.complete_sound)
    | (with_reducible first | apply State.bindFail_sound)
    | split

theorem State.bindStep_sound {s : State} (h : s.Sound) (b : BindReq) : (s.bindStep b).2.Sound := by
  unfold State.bindStep
  (try dsimp only)
  repeat' first
    | (with_reducible first | assumption | intro _ | apply State.bindFail_sound | apply State.setMember_sound)
    | (with_reducible first | apply State.complete_sound | apply State.unbindNow_sound | apply State.bindNow_sound)
    | split
    | (rw [State.sound_mk]; refine ⟨?_, ?_⟩)
    | (with_reducible first | apply State.Sound.tiles | apply State.Sound.hist | apply State.Sound.leg | apply State.Sound.legs | apply legsOk.get)
    | dsimp only

theorem State.entryOver_sound {s : State} (h : s.Sound) (c slot : Nat) : (s.entryOver c slot).Sound := by
  unfold State.entryOver
  (try dsimp only)
  repeat' first
    | (with_reducible first | assumption | intro _ | apply State.bindDone_sound | apply State.setMember_sound)
    | (with_reducible first | apply State.setParent_sound | apply State.updMotion_sound | apply State.complete_sound)
    | split

theorem State.bonds_sound {s : State} (h : s.Sound) : (s.bonds).Sound := by
  unfold State.bonds
  (try dsimp only)
  repeat' first
    | (with_reducible first | assumption | intro _ | apply State.entryOver_sound | apply State.bindStep_sound | apply foldl_sound)
    | split

theorem State.safetyInput_sound {s : State} (h : s.Sound) (n : Nat) : (s.safetyInput n).Sound := by
  unfold State.safetyInput
  (try dsimp only)
  repeat' first
    | (with_reducible first | assumption | intro _ | apply State.fault_sound)
    | split
    | (rw [State.sound_mk]; refine ⟨?_, ?_⟩)
    | (with_reducible first | apply State.Sound.tiles | apply State.Sound.hist | apply State.Sound.leg | apply State.Sound.legs | apply legsOk.get)
    | dsimp only

theorem State.safetyScan_sound {s : State} (h : s.Sound) : (s.safetyScan).Sound := by
  unfold State.safetyScan
  repeat' first
    | (with_reducible first | assumption | intro _ | apply State.safetyInput_sound | apply foldl_sound)
    | split

theorem State.limitHit_sound {s : State} (h : s.Sound) (a n : Nat) (neg edge : Bool) : (s.limitHit a n neg edge).Sound := by
  unfold State.limitHit
  (try dsimp only)
  repeat' first
    | (with_reducible first | assumption | intro _ | apply State.updAxis_sound | apply State.postStop_sound)
    | (with_reducible first | apply State.memberEvent_sound | apply State.memberReport_sound | apply State.fault_sound)
    | split

theorem State.limitInput_sound {s : State} (h : s.Sound) (a n : Nat) (edge : Bool) : (s.limitInput a n edge).Sound := by
  unfold State.limitInput
  (try dsimp only)
  repeat' first
    | (with_reducible first | assumption | intro _ | apply State.limitHit_sound)
    | split

theorem State.senseEdge_sound {s : State} (h : s.Sound) (n : Nat) (samples : List Bool) : (s.senseEdge n samples).Sound := by
  unfold State.senseEdge
  (try dsimp only)
  repeat' first
    | (with_reducible first | assumption | intro _ | apply State.edge_sound | apply State.safetyInput_sound)
    | (with_reducible first | apply State.limitInput_sound | apply State.homeEdge_sound | apply foldl_sound)
    | split
    | (rw [State.sound_mk]; refine ⟨?_, ?_⟩)
    | (with_reducible first | apply State.Sound.tiles | apply State.Sound.hist | apply State.Sound.leg | apply State.Sound.legs | apply legsOk.get)
    | dsimp only

theorem State.senseKnown_sound {s : State} (h : s.Sound) (n : Nat) (samples : List Bool) : (s.senseKnown n samples).Sound := by
  unfold State.senseKnown
  (try dsimp only)
  repeat' first
    | (with_reducible first | assumption | intro _ | apply State.safetyInput_sound | apply State.limitInput_sound | apply foldl_sound)
    | split
    | (rw [State.sound_mk]; refine ⟨?_, ?_⟩)
    | (with_reducible first | apply State.Sound.tiles | apply State.Sound.hist | apply State.Sound.leg | apply State.Sound.legs | apply legsOk.get)
    | dsimp only

theorem State.stepEdge_sound {s : State} (h : s.Sound) (n : Nat) (dirHigh : Bool) : (s.stepEdge n dirHigh).Sound := by
  unfold State.stepEdge
  (try dsimp only)
  repeat' first
    | (with_reducible first | assumption | intro _)
    | split
    | (rw [State.sound_mk]; refine ⟨?_, ?_⟩)
    | (with_reducible first | apply State.Sound.tiles | apply State.Sound.hist | apply State.Sound.leg | apply State.Sound.legs | apply legsOk.get)
    | dsimp only

theorem State.loadCount_sound {s : State} (h : s.Sound) (v : Nat) : (s.loadCount v).Sound := by
  unfold State.loadCount
  (try dsimp only)
  repeat' first
    | (with_reducible first | assumption | intro _)
    | split
    | (rw [State.sound_mk]; refine ⟨?_, ?_⟩)
    | (with_reducible first | apply State.Sound.tiles | apply State.Sound.hist | apply State.Sound.leg | apply State.Sound.legs | apply legsOk.get)
    | dsimp only

theorem State.encCount_sound {s : State} (h : s.Sound) (n : Nat) (up both : Bool) : (s.encCount n up both).Sound := by
  unfold State.encCount
  (try dsimp only)
  repeat' first
    | (with_reducible first | assumption | intro _ | apply State.fault_sound | apply State.encEdge_sound)
    | (with_reducible first | apply State.loadCount_sound)
    | (rw [State.sound_mk]; exact ⟨h.1, h.2⟩)
    | split

theorem State.encEdge_sound {s : State} (h : s.Sound) (n : Nat) (up both : Bool) : (s.encEdge n up both).Sound := by
  unfold State.encEdge
  (try dsimp only)
  repeat' first
    | (with_reducible first | assumption | intro _ | apply State.edge_sound | apply State.encCount_sound)
    | split
    | (rw [State.sound_mk]; refine ⟨?_, ?_⟩)
    | (with_reducible first | apply State.Sound.tiles | apply State.Sound.hist | apply State.Sound.leg | apply State.Sound.legs | apply legsOk.get)
    | dsimp only

theorem State.encIndex_sound {s : State} (h : s.Sound) (n : Nat) : (s.encIndex n).Sound := by
  unfold State.encIndex
  (try dsimp only)
  repeat' first
    | (with_reducible first | assumption | intro _)
    | split
    | (rw [State.sound_mk]; refine ⟨?_, ?_⟩)
    | (with_reducible first | apply State.Sound.tiles | apply State.Sound.hist | apply State.Sound.leg | apply State.Sound.legs | apply legsOk.get)
    | dsimp only

theorem State.encTimeout_sound {s : State} (h : s.Sound) (n : Nat) : (s.encTimeout n).Sound := by
  unfold State.encTimeout
  (try dsimp only)
  repeat' first
    | (with_reducible first | assumption | intro _)
    | split
    | (rw [State.sound_mk]; refine ⟨?_, ?_⟩)
    | (with_reducible first | apply State.Sound.tiles | apply State.Sound.hist | apply State.Sound.leg | apply State.Sound.legs | apply legsOk.get)
    | dsimp only

theorem State.safeClr_sound {s : State} (h : s.Sound) (j : Nat) (v : Word) : (s.safeClr j v).Sound := by
  unfold State.safeClr
  (try dsimp only)
  repeat' first
    | (with_reducible first | assumption | intro _ | apply foldl_sound)
    | split
    | (rw [State.sound_mk]; refine ⟨?_, ?_⟩)
    | (with_reducible first | apply State.Sound.tiles | apply State.Sound.hist | apply State.Sound.leg | apply State.Sound.legs | apply legsOk.get)
    | dsimp only

theorem State.pairOn_sound {s : State} (h : s.Sound) (n : Nat) : (s.pairOn n).Sound := by
  unfold State.pairOn
  (try dsimp only)
  repeat' first
    | (with_reducible first | assumption | intro _ | apply State.safetyScan_sound)
    | split
    | (rw [State.sound_mk]; refine ⟨?_, ?_⟩)
    | (with_reducible first | apply State.Sound.tiles | apply State.Sound.hist | apply State.Sound.leg | apply State.Sound.legs | apply legsOk.get)
    | dsimp only

theorem State.pairOff_sound {s : State} (h : s.Sound) (n : Nat) : (s.pairOff n).Sound := by
  unfold State.pairOff
  repeat' first
    | (with_reducible first | assumption | intro _ | apply State.safetyScan_sound)
    | split
    | (rw [State.sound_mk]; refine ⟨?_, ?_⟩)
    | (with_reducible first | apply State.Sound.tiles | apply State.Sound.hist | apply State.Sound.leg | apply State.Sound.legs | apply legsOk.get)
    | dsimp only

theorem State.encOn_sound {s : State} (h : s.Sound) (n : Nat) : (s.encOn n).Sound := by
  unfold State.encOn
  (try dsimp only)
  repeat' first
    | (with_reducible first | assumption | intro _)
    | split
    | (rw [State.sound_mk]; refine ⟨?_, ?_⟩)
    | (with_reducible first | apply State.Sound.tiles | apply State.Sound.hist | apply State.Sound.leg | apply State.Sound.legs | apply legsOk.get)
    | dsimp only

theorem State.filtWrite_sound {s : State} (h : s.Sound) (j : Nat) (v : Word) : (s.filtWrite j v).Sound := by
  unfold State.filtWrite
  (try dsimp only)
  repeat' first
    | (with_reducible first | assumption | intro _ | apply State.safetyScan_sound | apply foldl_sound)
    | split
    | (rw [State.sound_mk]; refine ⟨?_, ?_⟩)
    | (with_reducible first | apply State.Sound.tiles | apply State.Sound.hist | apply State.Sound.leg | apply State.Sound.legs | apply legsOk.get)
    | dsimp only

theorem State.lineEdgeAt_sound {s : State} (h : s.Sound) (n : Nat) : (s.lineEdgeAt n).Sound := by
  unfold State.lineEdgeAt
  (try dsimp only)
  repeat' first
    | (with_reducible first | assumption | intro _ | apply State.spend_sound | apply State.fault_sound)
    | split
    | (rw [State.sound_mk]; refine ⟨?_, ?_⟩)
    | (with_reducible first | apply State.Sound.tiles | apply State.Sound.hist | apply State.Sound.leg | apply State.Sound.legs | apply legsOk.get)
    | dsimp only

theorem State.lineEdge_sound {s : State} (h : s.Sound) (n : Nat) (level : Bool) : (s.lineEdge n level).Sound := by
  unfold State.lineEdge
  (try dsimp only)
  repeat' first
    | (with_reducible first | assumption | intro _ | apply State.lineEdgeAt_sound)
    | split
    | (rw [State.sound_mk]; refine ⟨?_, ?_⟩)
    | (with_reducible first | apply State.Sound.tiles | apply State.Sound.hist | apply State.Sound.leg | apply State.Sound.legs | apply legsOk.get)
    | dsimp only

theorem State.lineHold_sound {s : State} (h : s.Sound) (n : Nat) : (s.lineHold n).Sound := by
  unfold State.lineHold
  (try dsimp only)
  repeat' first
    | (with_reducible first | assumption | intro _)
    | split
    | (rw [State.sound_mk]; refine ⟨?_, ?_⟩)
    | (with_reducible first | apply State.Sound.tiles | apply State.Sound.hist | apply State.Sound.leg | apply State.Sound.legs | apply legsOk.get)
    | dsimp only

theorem State.lineGone_sound {s : State} (h : s.Sound) (n : Nat) : (s.lineGone n).Sound := by
  unfold State.lineGone
  (try dsimp only)
  repeat' first
    | (with_reducible first | assumption | intro _ | apply State.fault_sound)
    | split
    | (rw [State.sound_mk]; refine ⟨?_, ?_⟩)
    | (with_reducible first | apply State.Sound.tiles | apply State.Sound.hist | apply State.Sound.leg | apply State.Sound.legs | apply legsOk.get)
    | dsimp only

theorem State.rcBegin_sound {s : State} (h : s.Sound) : (s.rcBegin).Sound := by
  unfold State.rcBegin
  (try dsimp only)
  repeat' first
    | (with_reducible first | assumption | intro _ | apply State.loadCount_sound)
    | split
    | (rw [State.sound_mk]; refine ⟨?_, ?_⟩)
    | (with_reducible first | apply State.Sound.tiles | apply State.Sound.hist | apply State.Sound.leg | apply State.Sound.legs | apply legsOk.get)
    | dsimp only

theorem State.outPulse_sound {s : State} (h : s.Sound) (n : Nat) : (s.outPulse n).Sound := by
  unfold State.outPulse
  (try dsimp only)
  repeat' first
    | (with_reducible first | assumption | intro _)
    | split
    | (rw [State.sound_mk]; refine ⟨?_, ?_⟩)
    | (with_reducible first | apply State.Sound.tiles | apply State.Sound.hist | apply State.Sound.leg | apply State.Sound.legs | apply legsOk.get)
    | dsimp only

theorem State.outMark_sound {s : State} (h : s.Sound) (n : Nat) : (s.outMark n).Sound := by
  unfold State.outMark
  repeat' first
    | (with_reducible first | assumption | intro _ | apply State.outPulse_sound)
    | split

theorem State.outEnd_sound {s : State} (h : s.Sound) (n : Nat) : (s.outEnd n).Sound := by
  unfold State.outEnd
  (try dsimp only)
  repeat' first
    | (with_reducible first | assumption | intro _)
    | split
    | (rw [State.sound_mk]; refine ⟨?_, ?_⟩)
    | (with_reducible first | apply State.Sound.tiles | apply State.Sound.hist | apply State.Sound.leg | apply State.Sound.legs | apply legsOk.get)
    | dsimp only

theorem State.outTicks_sound {s : State} (h : s.Sound) : (s.outTicks).Sound := by
  unfold State.outTicks
  repeat' first
    | (with_reducible first | assumption | intro _ | apply State.outPulse_sound | apply foldl_sound)
    | split

theorem State.dieTemp_sound {s : State} (h : s.Sound) : (s.dieTemp).Sound := by
  unfold State.dieTemp
  (try dsimp only)
  repeat' first
    | (with_reducible first | assumption | intro _)
    | split
    | (rw [State.sound_mk]; refine ⟨?_, ?_⟩)
    | (with_reducible first | apply State.Sound.tiles | apply State.Sound.hist | apply State.Sound.leg | apply State.Sound.legs | apply legsOk.get)
    | dsimp only

theorem State.oscSwitch_sound {s : State} (h : s.Sound) : (s.oscSwitch).Sound := by
  unfold State.oscSwitch
  (try dsimp only)
  repeat' first
    | (with_reducible first | assumption | intro _ | apply State.spend_sound | apply State.spareIn_sound | apply State.fault_sound)
    | split
    | (rw [State.sound_mk]; refine ⟨?_, ?_⟩)
    | (with_reducible first | apply State.Sound.tiles | apply State.Sound.hist | apply State.Sound.leg | apply State.Sound.legs | apply legsOk.get)
    | dsimp only

theorem State.primaryFails_sound {s : State} (h : s.Sound) : (s.primaryFails).Sound := by
  unfold State.primaryFails
  (try dsimp only)
  repeat' first
    | (with_reducible first | assumption | intro _ | apply State.wear_sound | apply State.oscSwitch_sound)
    | split
    | (rw [State.sound_mk]; refine ⟨?_, ?_⟩)
    | (with_reducible first | apply State.Sound.tiles | apply State.Sound.hist | apply State.Sound.leg | apply State.Sound.legs | apply legsOk.get)
    | dsimp only

theorem State.primaryGood_sound {s : State} (h : s.Sound) : (s.primaryGood).Sound := by
  unfold State.primaryGood
  (try dsimp only)
  repeat' first
    | (with_reducible first | assumption | intro _ | apply State.spend_sound)
    | split
    | (rw [State.sound_mk]; refine ⟨?_, ?_⟩)
    | (with_reducible first | apply State.Sound.tiles | apply State.Sound.hist | apply State.Sound.leg | apply State.Sound.legs | apply legsOk.get)
    | dsimp only

theorem State.oscReturn_sound {s : State} (h : s.Sound) : (s.oscReturn).Sound := by
  unfold State.oscReturn
  (try dsimp only)
  repeat' first
    | (with_reducible first | assumption | intro _)
    | split
    | (rw [State.sound_mk]; refine ⟨?_, ?_⟩)
    | (with_reducible first | apply State.Sound.tiles | apply State.Sound.hist | apply State.Sound.leg | apply State.Sound.legs | apply legsOk.get)
    | dsimp only

theorem State.bkpFail_sound {s : State} (h : s.Sound) : (s.bkpFail).Sound := by
  unfold State.bkpFail
  (try dsimp only)
  repeat' first
    | (with_reducible first | assumption | intro _ | apply State.wear_sound | apply State.fault_sound)
    | split
    | (rw [State.sound_mk]; refine ⟨?_, ?_⟩)
    | (with_reducible first | apply State.Sound.tiles | apply State.Sound.hist | apply State.Sound.leg | apply State.Sound.legs | apply legsOk.get)
    | dsimp only

theorem State.clockLost_sound {s : State} (h : s.Sound) : (s.clockLost).Sound := by
  unfold State.clockLost
  (try dsimp only)
  repeat' first
    | (with_reducible first | assumption | intro _ | apply State.allHiz_sound | apply State.fault_sound)
    | split
    | (rw [State.sound_mk]; refine ⟨?_, ?_⟩)
    | (with_reducible first | apply State.Sound.tiles | apply State.Sound.hist | apply State.Sound.leg | apply State.Sound.legs | apply legsOk.get)
    | dsimp only

theorem State.updStr_sound {s : State} (h : s.Sound) (f : Strait → Strait) : (s.updStr f).Sound := by
  unfold State.updStr
  repeat' first
    | (with_reducible first | assumption | intro _)
    | split
    | (rw [State.sound_mk]; refine ⟨?_, ?_⟩)
    | (with_reducible first | apply State.Sound.tiles | apply State.Sound.hist | apply State.Sound.leg | apply State.Sound.legs | apply legsOk.get)
    | dsimp only

theorem State.sendFrame_sound {s : State} (h : s.Sound) (port : Nat) (f : List Byte) : (s.sendFrame port f).Sound := by
  unfold State.sendFrame
  repeat' first
    | (with_reducible first | assumption | intro _ | apply State.emit_sound)
    | split

theorem State.receiveFlt_sound {s : State} (h : s.Sound) (b : Nat) : (s.receiveFlt b).Sound := by
  unfold State.receiveFlt
  (try dsimp only)
  repeat' first
    | (with_reducible first | assumption | intro _ | apply State.updStr_sound | apply State.raiseAs_sound | apply State.settle_sound)
    | split

theorem State.discardFrame_sound {s : State} (h : s.Sound) (port : Nat) (good : Bool) : (s.discardFrame port good).Sound := by
  unfold State.discardFrame
  (try dsimp only)
  repeat' first
    | (with_reducible first | assumption | intro _ | apply State.updStr_sound | apply State.raiseAs_sound | apply State.settle_sound)
    | split
    | (rw [State.sound_mk]; refine ⟨?_, ?_⟩)
    | (with_reducible first | apply State.Sound.tiles | apply State.Sound.hist | apply State.Sound.leg | apply State.Sound.legs | apply legsOk.get)
    | dsimp only

theorem State.syncSend_sound {s : State} (h : s.Sound) : (s.syncSend).Sound := by
  unfold State.syncSend
  repeat' first
    | (with_reducible first | assumption | intro _ | apply State.sendFrame_sound)
    | split

theorem State.repeatSync_sound {s : State} (h : s.Sound) (f : List Byte) (good : Bool) : (s.repeatSync f good).Sound := by
  unfold State.repeatSync
  repeat' first
    | (with_reducible first | assumption | intro _ | apply State.sendFrame_sound)
    | split

theorem State.align_sound {s : State} (h : s.Sound) (f : List Byte) : (s.align f).Sound := by
  unfold State.align
  (try dsimp only)
  repeat' first
    | (with_reducible first | assumption | intro _)
    | split
    | (rw [State.sound_mk]; refine ⟨?_, ?_⟩)
    | (with_reducible first | apply State.Sound.tiles | apply State.Sound.hist | apply State.Sound.leg | apply State.Sound.legs | apply legsOk.get)
    | dsimp only

theorem State.correct_sound {s : State} (h : s.Sound) (f : List Byte) : (s.correct f).Sound := by
  unfold State.correct
  (try dsimp only)
  repeat' first
    | (with_reducible first | assumption | intro _ | apply State.updStr_sound | apply State.fault_sound)
    | split
    | (rw [State.sound_mk]; refine ⟨?_, ?_⟩)
    | (with_reducible first | apply State.Sound.tiles | apply State.Sound.hist | apply State.Sound.leg | apply State.Sound.legs | apply legsOk.get)
    | dsimp only

theorem State.missSync_sound {s : State} (h : s.Sound) : (s.missSync).Sound := by
  unfold State.missSync
  (try dsimp only)
  repeat' first
    | (with_reducible first | assumption | intro _ | apply State.updStr_sound | apply State.fault_sound)
    | split

theorem State.takeSync_sound {s : State} (h : s.Sound) (f : List Byte) : (s.takeSync f).Sound := by
  unfold State.takeSync
  (try dsimp only)
  repeat' first
    | (with_reducible first | assumption | intro _ | apply State.updStr_sound | apply State.fault_sound | apply State.missSync_sound)
    | (with_reducible first | apply State.align_sound | apply State.receiveFlt_sound | apply State.correct_sound)
    | split

theorem State.syncReceive_sound {s : State} (h : s.Sound) (f : List Byte) : (s.syncReceive f).Sound := by
  unfold State.syncReceive
  (try dsimp only)
  repeat' first
    | (with_reducible first | assumption | intro _ | apply State.repeatSync_sound | apply State.takeSync_sound)
    | (with_reducible first | apply State.discardFrame_sound)
    | split

theorem State.syncMissing_sound {s : State} (h : s.Sound) : (s.syncMissing).Sound := by
  unfold State.syncMissing
  repeat' first
    | (with_reducible first | assumption | intro _ | apply State.updStr_sound | apply State.missSync_sound)
    | split

theorem State.loadStep_sound {s : State} (h : s.Sound) : (s.loadStep).Sound := by
  unfold State.loadStep
  (try dsimp only)
  repeat' first
    | (with_reducible first | assumption | intro _)
    | split
    | (rw [State.sound_mk]; refine ⟨?_, ?_⟩)
    | (with_reducible first | apply State.Sound.tiles | apply State.Sound.hist | apply State.Sound.leg | apply State.Sound.legs | apply legsOk.get)
    | dsimp only

theorem State.repeatFault_sound {s : State} (h : s.Sound) (port : Nat) (f : List Byte) (good : Bool) : (s.repeatFault port f good).Sound := by
  unfold State.repeatFault
  (try dsimp only)
  repeat' first
    | (with_reducible first | assumption | intro _ | apply State.sendFrame_sound)
    | split

theorem State.faultFrame_sound {s : State} (h : s.Sound) (port : Nat) (f : List Byte) : (s.faultFrame port f).Sound := by
  unfold State.faultFrame
  (try dsimp only)
  repeat' first
    | (with_reducible first | assumption | intro _ | apply State.repeatFault_sound | apply State.updStr_sound)
    | (with_reducible first | apply State.receiveFlt_sound | apply State.discardFrame_sound)
    | split

theorem State.upSend_sound {s : State} (h : s.Sound) : (s.upSend).Sound := by
  unfold State.upSend
  repeat' first
    | (with_reducible first | assumption | intro _ | apply State.sendFrame_sound)
    | split

theorem State.upReceive_sound {s : State} (h : s.Sound) (f : List Byte) : (s.upReceive f).Sound := by
  unfold State.upReceive
  (try dsimp only)
  repeat' first
    | (with_reducible first | assumption | intro _ | apply State.updStr_sound | apply State.receiveFlt_sound)
    | (with_reducible first | apply State.discardFrame_sound)
    | split

theorem State.retrain_sound {s : State} (h : s.Sound) : (s.retrain).Sound := by
  unfold State.retrain
  repeat' first
    | (with_reducible first | assumption | intro _ | apply State.updStr_sound)
    | split

theorem State.alignGained_sound {s : State} (h : s.Sound) (port : Nat) : (s.alignGained port).Sound := by
  unfold State.alignGained
  repeat' first
    | (with_reducible first | assumption | intro _ | apply State.retrain_sound | apply State.updStr_sound)
    | split

theorem State.alignLost_sound {s : State} (h : s.Sound) (port : Nat) : (s.alignLost port).Sound := by
  unfold State.alignLost
  (try dsimp only)
  repeat' first
    | (with_reducible first | assumption | intro _ | apply State.updStr_sound)
    | split

theorem State.reqSend_sound {s : State} (h : s.Sound) : (s.reqSend).Sound := by
  unfold State.reqSend
  repeat' first
    | (with_reducible first | assumption | intro _ | apply State.sendFrame_sound | apply State.updStr_sound)
    | split

theorem State.reqReceive_sound {s : State} (h : s.Sound) (port : Nat) (f : List Byte) (wait : Nat) : (s.reqReceive port f wait).Sound := by
  unfold State.reqReceive
  repeat' first
    | (with_reducible first | assumption | intro _ | apply State.sendFrame_sound | apply State.discardFrame_sound)
    | split

theorem State.echoReceive_sound {s : State} (h : s.Sound) (f : List Byte) (rtt : Nat) : (s.echoReceive f rtt).Sound := by
  unfold State.echoReceive
  (try dsimp only)
  repeat' first
    | (with_reducible first | assumption | intro _ | apply State.updStr_sound | apply State.discardFrame_sound)
    | split

theorem State.ringError_sound {s : State} (h : s.Sound) (r code : Nat) : (s.ringError r code).Sound := by
  unfold State.ringError
  repeat' first
    | (with_reducible first | assumption | intro _ | apply State.updRing_sound | apply State.unask_sound)
    | (with_reducible first | apply State.fault_sound)
    | split
    | (rw [State.sound_mk]; refine ⟨?_, ?_⟩)
    | (with_reducible first | apply State.Sound.tiles | apply State.Sound.hist | apply State.Sound.leg | apply State.Sound.legs | apply legsOk.get)
    | dsimp only

theorem State.prefetch_sound {s : State} (h : s.Sound) (r : Nat) : (s.prefetch r).Sound := by
  unfold State.prefetch
  (try dsimp only)
  repeat' first
    | (with_reducible first | assumption | intro _ | apply State.setRing_sound | apply State.request_sound)
    | (with_reducible first | apply foldl_sound)
    | split
    | (rw [State.sound_mk]; refine ⟨?_, ?_⟩)
    | (with_reducible first | apply State.Sound.tiles | apply State.Sound.hist | apply State.Sound.leg | apply State.Sound.legs | apply legsOk.get)
    | dsimp only

theorem State.answer_sound {s : State} (h : s.Sound) (src : ReadSrc) : (s.answer src).2.Sound := by
  unfold State.answer
  exact State.answered_sound h src

theorem State.doorbell_sound {s : State} (h : s.Sound) (pis : List Word) : (s.doorbell pis).Sound := by
  unfold State.doorbell
  (try dsimp only)
  repeat' first
    | (with_reducible first | assumption | intro _ | apply State.answer_sound | apply State.judge_sound)
    | (with_reducible first | apply State.ringError_sound | apply State.setRing_sound | apply State.prefetch_sound | apply foldl_sound)
    | split
    | (rw [State.sound_mk]; refine ⟨?_, ?_⟩)
    | (with_reducible first | apply State.Sound.tiles | apply State.Sound.hist | apply State.Sound.leg | apply State.Sound.legs | apply legsOk.get)
    | dsimp only

theorem State.takeIn_sound {s : State} (h : s.Sound) (r : Nat) (ds : List Desc) (rest : List Nat) : (s.takeIn r ds rest).Sound := by
  unfold State.takeIn
  (try dsimp only)
  repeat' first
    | (with_reducible first | assumption | intro _ | apply State.setRing_sound | apply State.request_sound)
    | (with_reducible first | apply foldl_sound)
    | split
    | (rw [State.sound_mk]; refine ⟨?_, ?_⟩)
    | (with_reducible first | apply State.Sound.tiles | apply State.Sound.hist | apply State.Sound.leg | apply State.Sound.legs | apply legsOk.get)
    | dsimp only

theorem State.prefetched_sound {s : State} (h : s.Sound) (r : Nat) (ok : Bool) (ds : List Desc) : (s.prefetched r ok ds).Sound := by
  unfold State.prefetched
  (try dsimp only)
  repeat' first
    | (with_reducible first | assumption | intro _ | apply State.answer_sound | apply State.takeIn_sound)
    | (with_reducible first | apply State.ringError_sound)
    | split
    | (rw [State.sound_mk]; refine ⟨?_, ?_⟩)
    | (with_reducible first | apply State.Sound.tiles | apply State.Sound.hist | apply State.Sound.leg | apply State.Sound.legs | apply legsOk.get)
    | dsimp only

theorem State.paramDone_sound {s : State} (h : s.Sound) (r : Nat) (ok : Bool) (param : List Word) : (s.paramDone r ok param).Sound := by
  unfold State.paramDone
  (try dsimp only)
  repeat' first
    | (with_reducible first | assumption | intro _ | apply State.answer_sound | apply State.setRing_sound)
    | (with_reducible first | apply State.ringError_sound)
    | split
    | (rw [State.sound_mk]; refine ⟨?_, ?_⟩)
    | (with_reducible first | apply State.Sound.tiles | apply State.Sound.hist | apply State.Sound.leg | apply State.Sound.legs | apply legsOk.get)
    | dsimp only

theorem State.refillQuota_sound {s : State} (h : s.Sound) : (s.refillQuota).Sound := by
  unfold State.refillQuota
  (try dsimp only)
  repeat' first
    | (with_reducible first | assumption | intro _ | apply State.pass_sound | apply State.each_sound | apply State.updRing_sound)
    | split

theorem State.streamAsk_sound {s : State} (h : s.Sound) (w : Nat) : (s.streamAsk w).Sound := by
  unfold State.streamAsk
  (try dsimp only)
  repeat' first
    | (with_reducible first | assumption | intro _ | apply State.updMotion_sound | apply State.request_sound)
    | split
    | (rw [State.sound_mk]; refine ⟨?_, ?_⟩)
    | (with_reducible first | apply State.Sound.tiles | apply State.Sound.hist | apply State.Sound.leg | apply State.Sound.legs | apply legsOk.get)
    | dsimp only

theorem State.streamed_sound {s : State} (h : s.Sound) (w : Nat) (ok : Bool) (bytes : List Byte) : (s.streamed w ok bytes).Sound := by
  unfold State.streamed
  (try dsimp only)
  repeat' first
    | (with_reducible first | assumption | intro _ | apply State.answer_sound | apply State.updMotion_sound)
    | (with_reducible first | apply State.streamAsk_sound)
    | split
    | (rw [State.sound_mk]; refine ⟨?_, ?_⟩)
    | (with_reducible first | apply State.Sound.tiles | apply State.Sound.hist | apply State.Sound.leg | apply State.Sound.legs | apply legsOk.get)
    | dsimp only

theorem State.readTimeout_sound {s : State} (h : s.Sound) (src : ReadSrc) : (s.readTimeout src).Sound := by
  unfold State.readTimeout
  (try dsimp only)
  repeat' first
    | (with_reducible first | assumption | intro _ | apply State.doorbell_sound | apply State.answer_sound)
    | (with_reducible first | apply State.prefetched_sound | apply State.paramDone_sound | apply State.streamed_sound)
    | split
    | (rw [State.sound_mk]; refine ⟨?_, ?_⟩)
    | (with_reducible first | apply State.Sound.tiles | apply State.Sound.hist | apply State.Sound.leg | apply State.Sound.legs | apply legsOk.get)
    | dsimp only

theorem State.readTimeouts_sound {s : State} (h : s.Sound) : (s.readTimeouts).Sound := by
  unfold State.readTimeouts
  repeat' first
    | (with_reducible first | assumption | intro _ | apply State.readTimeout_sound | apply foldl_sound)
    | (rw [State.sound_mk]; exact ⟨h.1, h.2⟩)
    | split

theorem State.streamAll_sound {s : State} (h : s.Sound) : (s.streamAll).Sound := by
  unfold State.streamAll
  repeat' first
    | (with_reducible first | assumption | intro _ | apply State.streamAsk_sound | apply foldl_sound)
    | split

theorem State.linkDown_sound {s : State} (h : s.Sound) (cause : Nat) : (s.linkDown cause).Sound := by
  unfold State.linkDown
  (try dsimp only)
  repeat' first
    | (with_reducible first | assumption | intro _ | apply State.fault_sound | apply State.ringError_sound | apply foldl_sound)
    | split
    | (rw [State.sound_mk]; refine ⟨?_, ?_⟩)
    | (with_reducible first | apply State.Sound.tiles | apply State.Sound.hist | apply State.Sound.leg | apply State.Sound.legs | apply legsOk.get)
    | dsimp only

theorem State.linkUpNow_sound {s : State} (h : s.Sound) : (s.linkUpNow).Sound := by
  unfold State.linkUpNow
  (try dsimp only)
  repeat' first
    | (with_reducible first | assumption | intro _ | apply State.spend_sound | apply State.issueAsked_sound)
    | split
    | (rw [State.sound_mk]; refine ⟨?_, ?_⟩)
    | (with_reducible first | apply State.Sound.tiles | apply State.Sound.hist | apply State.Sound.leg | apply State.Sound.legs | apply legsOk.get)
    | dsimp only

theorem State.diagBegin_sound {s : State} (h : s.Sound) (tiles legs : Nat) : (s.diagBegin tiles legs).Sound := by
  unfold State.diagBegin
  (try dsimp only)
  repeat' first
    | (with_reducible first | assumption | intro _ | apply State.axisHiz_sound | apply foldl_sound)
    | split
    | (rw [State.sound_mk]; refine ⟨?_, ?_⟩)
    | (with_reducible first | apply State.Sound.tiles | apply State.Sound.hist | apply State.Sound.leg | apply State.Sound.legs | apply legsOk.get)
    | dsimp only

theorem State.diagPhase_sound {s : State} (h : s.Sound) (t : Nat) (first second : BitVec 12) : (s.diagPhase t first second).Sound := by
  unfold State.diagPhase
  (try dsimp only)
  repeat' first
    | (with_reducible first | assumption | intro _ | apply State.spend_sound)
    | split
    | (rw [State.sound_mk]; refine ⟨?_, ?_⟩)
    | (with_reducible first | apply State.Sound.tiles | apply State.Sound.hist | apply State.Sound.leg | apply State.Sound.legs | apply legsOk.get)
    | dsimp only

theorem State.diagStep_sound {s : State} (h : s.Sound) : (s.diagStep).Sound := by
  unfold State.diagStep
  (try dsimp only)
  repeat' first
    | (with_reducible first | assumption | intro _ | apply State.endLong_sound | apply State.updLong_sound)
    | split
    | (rw [State.sound_mk]; refine ⟨?_, ?_⟩)
    | (with_reducible first | apply State.Sound.tiles | apply State.Sound.hist | apply State.Sound.leg | apply State.Sound.legs | apply legsOk.get)
    | dsimp only

theorem State.updSpr_sound {s : State} (h : s.Sound) (f : Spr → Spr) : (s.updSpr f).Sound := by
  unfold State.updSpr
  repeat' first
    | (with_reducible first | assumption | intro _)
    | split
    | (rw [State.sound_mk]; refine ⟨?_, ?_⟩)
    | (with_reducible first | apply State.Sound.tiles | apply State.Sound.hist | apply State.Sound.leg | apply State.Sound.legs | apply legsOk.get)
    | dsimp only

theorem State.sprFlag_sound {s : State} (h : s.Sound) (i : Nat) : (s.sprFlag i).Sound := by
  unfold State.sprFlag
  repeat' first
    | (with_reducible first | assumption | intro _ | apply State.updSpr_sound)
    | split

theorem State.coreLoss_sound {s : State} (h : s.Sound) : (s.coreLoss).Sound := by
  unfold State.coreLoss
  repeat' first
    | (with_reducible first | assumption | intro _ | apply State.updSpr_sound | apply State.fault_sound)
    | split

theorem State.resyncStart_sound {s : State} (h : s.Sound) (n slot : Nat) (inPlace : Bool) : (s.resyncStart n slot inPlace).Sound := by
  unfold State.resyncStart
  (try dsimp only)
  repeat' first
    | (with_reducible first | assumption | intro _ | apply State.pausePlan_sound | apply State.setCore_sound)
    | (with_reducible first | apply State.updSpr_sound)
    | split
    | (rw [State.sound_mk]; refine ⟨?_, ?_⟩)
    | (with_reducible first | apply State.Sound.tiles | apply State.Sound.hist | apply State.Sound.leg | apply State.Sound.legs | apply legsOk.get)
    | dsimp only

theorem State.coreStop_sound {s : State} (h : s.Sound) (n slot : Nat) (spare : Bool) : (s.coreStop n slot spare).Sound := by
  unfold State.coreStop
  (try dsimp only)
  repeat' first
    | (with_reducible first | assumption | intro _ | apply State.setCore_sound | apply State.sprFlag_sound | apply State.fault_sound)
    | split

theorem State.coreReplace_sound {s : State} (h : s.Sound) (slot : Nat) : (s.coreReplace slot).Sound := by
  unfold State.coreReplace
  repeat' first
    | (with_reducible first | assumption | intro _ | apply State.resyncStart_sound | apply State.coreLoss_sound)
    | (with_reducible first | apply State.updSpr_sound)
    | split

theorem State.coreRetire_sound {s : State} (h : s.Sound) (n : Nat) : (s.coreRetire n).Sound := by
  unfold State.coreRetire
  (try dsimp only)
  repeat' first
    | (with_reducible first | assumption | intro _ | apply State.updSpr_sound | apply State.coreStop_sound)
    | (with_reducible first | apply State.coreReplace_sound)
    | split

theorem State.unresolved_sound {s : State} (h : s.Sound) : (s.unresolved).Sound := by
  unfold State.unresolved
  repeat' first
    | (with_reducible first | assumption | intro _ | apply State.pausePlan_sound | apply State.updSpr_sound)
    | (with_reducible first | apply State.sprFlag_sound | apply State.fault_sound)
    | split
    | (rw [State.sound_mk]; refine ⟨?_, ?_⟩)
    | (with_reducible first | apply State.Sound.tiles | apply State.Sound.hist | apply State.Sound.leg | apply State.Sound.legs | apply legsOk.get)
    | dsimp only

theorem State.countMinority_sound {s : State} (h : s.Sound) (n : Nat) (inj : Bool) : (s.countMinority n inj).Sound := by
  unfold State.countMinority
  (try dsimp only)
  repeat' first
    | (with_reducible first | assumption | intro _ | apply State.sprFlag_sound | apply State.setCore_sound | apply State.wear_sound)
    | split

theorem State.resyncNext_sound {s : State} (h : s.Sound) : (s.resyncNext).Sound := by
  unfold State.resyncNext
  (try dsimp only)
  repeat' first
    | (with_reducible first | assumption | intro _ | apply State.updSpr_sound | apply State.resyncStart_sound)
    | (rw [State.sound_mk]; exact ⟨h.1, h.2⟩)
    | split

theorem State.minorityAct_sound {s : State} (h : s.Sound) (n : Nat) (inj : Bool) : (s.minorityAct n inj).Sound := by
  unfold State.minorityAct
  repeat' first
    | (with_reducible first | assumption | intro _ | apply State.updSpr_sound | apply State.resyncNext_sound)
    | (with_reducible first | apply State.unresolved_sound | apply State.coreRetire_sound | apply State.resyncStart_sound)
    | split
    | (rw [State.sound_mk]; refine ⟨?_, ?_⟩)
    | (with_reducible first | apply State.Sound.tiles | apply State.Sound.hist | apply State.Sound.leg | apply State.Sound.legs | apply legsOk.get)
    | dsimp only

theorem State.resyncBack_sound {s : State} (h : s.Sound) (n : Nat) : (s.resyncBack n).Sound := by
  unfold State.resyncBack
  (try dsimp only)
  repeat' first
    | (with_reducible first | assumption | intro _ | apply State.updSpr_sound | apply State.setCore_sound)
    | (rw [State.sound_mk]; exact ⟨h.1, h.2⟩)
    | split

theorem State.minority_sound {s : State} (h : s.Sound) (n src detail : Nat) (inj : Bool) : (s.minority n src detail inj).Sound := by
  unfold State.minority
  (try dsimp only)
  repeat' first
    | (with_reducible first | assumption | intro _ | apply State.countMinority_sound | apply State.raiseAs_sound)
    | (with_reducible first | apply State.settle_sound | apply State.resyncBack_sound | apply State.minorityAct_sound)
    | split
    | (rw [State.sound_mk]; refine ⟨?_, ?_⟩)
    | (with_reducible first | apply State.Sound.tiles | apply State.Sound.hist | apply State.Sound.leg | apply State.Sound.legs | apply legsOk.get)
    | dsimp only

theorem State.votersDiffer_sound {s : State} (h : s.Sound) : (s.votersDiffer).2.Sound := by
  unfold State.votersDiffer
  (try dsimp only)
  repeat' first
    | (with_reducible first | assumption | intro _ | apply State.updSpr_sound | apply State.sprFlag_sound | apply State.wear_sound)
    | (with_reducible first | apply State.fault_sound)
    | split

theorem State.lostVote_sound {s : State} (h : s.Sound) (slot : Nat) (inj : Bool) : (s.lostVote slot inj).Sound := by
  unfold State.lostVote
  repeat' first
    | (with_reducible first | assumption | intro _ | apply State.minority_sound)
    | (rw [State.sound_mk]; exact ⟨h.1, h.2⟩)
    | split

theorem State.vote_sound {s : State} (h : s.Sound) (copies : List (Nat × BusCopy)) : (s.vote copies).Sound := by
  unfold State.vote
  repeat' first
    | (with_reducible first | assumption | intro _ | apply State.unresolved_sound | apply State.emit_sound)
    | (with_reducible first | apply State.lostVote_sound)
    | split
    | (rw [State.sound_mk]; refine ⟨?_, ?_⟩)
    | (with_reducible first | apply State.Sound.tiles | apply State.Sound.hist | apply State.Sound.leg | apply State.Sound.legs | apply legsOk.get)
    | dsimp only

theorem State.busVote_sound {s : State} (h : s.Sound) (c0 c1 c2 : Option BusCopy) (agree : Bool) : (s.busVote c0 c1 c2 agree).Sound := by
  unfold State.busVote
  (try dsimp only)
  repeat' first
    | (with_reducible first | assumption | intro _ | apply State.votersDiffer_sound | apply State.vote_sound)
    | (with_reducible first | apply State.lostVote_sound)
    | split
    | (rw [State.sound_mk]; refine ⟨?_, ?_⟩)
    | (with_reducible first | apply State.Sound.tiles | apply State.Sound.hist | apply State.Sound.leg | apply State.Sound.legs | apply legsOk.get)
    | dsimp only

theorem State.parity_sound {s : State} (h : s.Sound) (slot : Nat) (writeSide real : Bool) : (s.parity slot writeSide real).Sound := by
  unfold State.parity
  (try dsimp only)
  repeat' first
    | (with_reducible first | assumption | intro _ | apply State.minority_sound)
    | split
    | (rw [State.sound_mk]; refine ⟨?_, ?_⟩)
    | (with_reducible first | apply State.Sound.tiles | apply State.Sound.hist | apply State.Sound.leg | apply State.Sound.legs | apply legsOk.get)
    | dsimp only

theorem State.resyncDone_sound {s : State} (h : s.Sound) (good : Bool) : (s.resyncDone good).Sound := by
  unfold State.resyncDone
  (try dsimp only)
  repeat' first
    | (with_reducible first | assumption | intro _ | apply State.updSpr_sound | apply State.setCore_sound)
    | (with_reducible first | apply State.spareIn_sound | apply State.resyncNext_sound | apply State.countMinority_sound | apply State.minorityAct_sound)
    | (with_reducible first | apply State.fault_sound | apply State.coreStop_sound | apply State.coreReplace_sound)
    | split
    | (rw [State.sound_mk]; refine ⟨?_, ?_⟩)
    | (with_reducible first | apply State.Sound.tiles | apply State.Sound.hist | apply State.Sound.leg | apply State.Sound.legs | apply legsOk.get)
    | dsimp only

theorem State.repeated_sound {s : State} (h : s.Sound) : (s.repeated).Sound := by
  unfold State.repeated
  repeat' first
    | (with_reducible first | assumption | intro _ | apply State.updSpr_sound | apply State.resyncNext_sound)
    | split
    | (rw [State.sound_mk]; refine ⟨?_, ?_⟩)
    | (with_reducible first | apply State.Sound.tiles | apply State.Sound.hist | apply State.Sound.leg | apply State.Sound.legs | apply legsOk.get)
    | dsimp only

theorem State.pairFails_sound {s : State} (h : s.Sound) : (s.pairFails).Sound := by
  unfold State.pairFails
  (try dsimp only)
  repeat' first
    | (with_reducible first | assumption | intro _ | apply State.record_sound | apply State.react_sound | apply State.settle_sound)
    | (with_reducible first | apply State.updSpr_sound)
    | split

theorem State.katEnd_sound {s : State} (h : s.Sound) (passed : List Nat) : (s.katEnd passed).Sound := by
  unfold State.katEnd
  (try dsimp only)
  repeat' first
    | rw [List.length_map]
    | (with_reducible first | assumption | intro _ | apply State.coreStop_sound | apply State.updSpr_sound)
    | (with_reducible first | apply State.resyncStart_sound | apply State.coreLoss_sound | apply foldl_sound)
    | split
    | (rw [State.sound_mk]; refine ⟨?_, ?_⟩)
    | (with_reducible first | apply State.Sound.tiles | apply State.Sound.hist | apply State.Sound.leg | apply State.Sound.legs | apply legsOk.get)
    | dsimp only

theorem State.scrubCompare_sound {s : State} (h : s.Sound) (sigs : List Word) : (s.scrubCompare sigs).Sound := by
  unfold State.scrubCompare
  (try dsimp only)
  repeat' first
    | (with_reducible first | assumption | intro _ | apply State.unresolved_sound | apply State.sprFlag_sound)
    | (with_reducible first | apply State.minority_sound)
    | split

theorem State.setRow_sound {s : State} (h : s.Sound) (r : Nat) (x : SramRow) : (s.setRow r x).Sound := by
  unfold State.setRow
  repeat' first
    | (with_reducible first | assumption | intro _ | apply State.updSpr_sound)
    | split

theorem State.rowCopy_sound {s : State} (h : s.Sound) (r : Nat) : (s.rowCopy r).Sound := by
  unfold State.rowCopy
  (try dsimp only)
  repeat' first
    | (with_reducible first | assumption | intro _ | apply State.setRow_sound | apply State.updSpr_sound)
    | split

theorem State.rowFails_sound {s : State} (h : s.Sound) (r : Nat) : (s.rowFails r).Sound := by
  unfold State.rowFails
  (try dsimp only)
  repeat' first
    | (with_reducible first | assumption | intro _ | apply State.rowCopy_sound | apply State.setRow_sound | apply State.fault_sound)
    | split

theorem State.markSram_sound {s : State} (h : s.Sound) (w : Nat) : (s.markSram w).Sound := by
  unfold State.markSram
  (try dsimp only)
  repeat' first
    | (with_reducible first | assumption | intro _ | apply State.updMotion_sound | apply State.setBase_sound)
    | split
    | (rw [State.sound_mk]; refine ⟨?_, ?_⟩)
    | (with_reducible first | apply State.Sound.tiles | apply State.Sound.hist | apply State.Sound.leg | apply State.Sound.legs | apply legsOk.get)
    | dsimp only

theorem State.scrubTo_sound {s : State} (h : s.Sound) (w : Nat) : (s.scrubTo w).Sound := by
  unfold State.scrubTo
  (try dsimp only)
  repeat' first
    | (with_reducible first | assumption | intro _ | apply State.updSpr_sound)
    | (rw [State.sound_mk]; exact ⟨h.1, h.2⟩)
    | split

theorem State.sramRead_sound {s : State} (h : s.Sound) (w : Nat) (f : SramFinding) : (s.sramRead w f).Sound := by
  unfold State.sramRead
  (try dsimp only)
  repeat' first
    | (with_reducible first | assumption | intro _ | apply State.scrubTo_sound | apply State.setRow_sound)
    | (with_reducible first | apply State.sprFlag_sound | apply State.wear_sound | apply State.fault_sound | apply State.rowFails_sound)
    | (with_reducible first | apply State.updSpr_sound | apply State.markSram_sound)
    | split
    | (rw [State.sound_mk]; refine ⟨?_, ?_⟩)
    | (with_reducible first | apply State.Sound.tiles | apply State.Sound.hist | apply State.Sound.leg | apply State.Sound.legs | apply legsOk.get)
    | dsimp only

theorem State.rowDone_sound {s : State} (h : s.Sound) (r : Nat) : (s.rowDone r).Sound := by
  unfold State.rowDone
  repeat' first
    | (with_reducible first | assumption | intro _ | apply State.setRow_sound | apply State.spareIn_sound)
    | split

theorem State.sramInject_sound {s : State} (h : s.Sound) : (s.sramInject).Sound := by
  unfold State.sramInject
  (try dsimp only)
  repeat' first
    | (with_reducible first | assumption | intro _ | apply State.sprFlag_sound | apply State.raiseAs_sound | apply State.settle_sound)
    | split
    | (rw [State.sound_mk]; refine ⟨?_, ?_⟩)
    | (with_reducible first | apply State.Sound.tiles | apply State.Sound.hist | apply State.Sound.leg | apply State.Sound.legs | apply legsOk.get)
    | dsimp only

theorem State.serveRunner_sound {s : State} (h : s.Sound) (i a : Nat) : (s.serveRunner i a).Sound := by
  unfold State.serveRunner
  repeat' first
    | (with_reducible first | assumption | intro _ | apply State.updSpr_sound | apply State.spareIn_sound)
    | split

theorem State.runnerFails_sound {s : State} (h : s.Sound) (a : Nat) : (s.runnerFails a).Sound := by
  unfold State.runnerFails
  (try dsimp only)
  repeat' first
    | (with_reducible first | assumption | intro _ | apply State.updSpr_sound | apply State.wear_sound | apply State.sprFlag_sound)
    | (with_reducible first | apply State.serveRunner_sound | apply State.fault_sound | apply State.record_sound)
    | (with_reducible first | apply State.react_sound | apply State.isoAxis_sound | apply State.settle_sound)
    | split

theorem State.detachMember_sound {s : State} (h : s.Sound) (c slot : Nat) : (s.detachMember c slot).Sound := by
  unfold State.detachMember
  (try dsimp only)
  repeat' first
    | (with_reducible first | assumption | intro _ | apply State.detach_sound | apply State.updMotion_sound)
    | (with_reducible first | apply State.postStop_sound)
    | (rw [State.sound_mk]; exact ⟨h.1, h.2⟩)
    | split

theorem State.engineFails_sound {s : State} (h : s.Sound) (n : Nat) : (s.engineFails n).Sound := by
  unfold State.engineFails
  (try dsimp only)
  repeat' first
    | (with_reducible first | assumption | intro _ | apply State.updSpr_sound | apply State.wear_sound)
    | (with_reducible first | apply State.sprFlag_sound | apply State.record_sound | apply State.updMotion_sound | apply State.postStop_sound)
    | (with_reducible first | apply State.isoAxis_sound | apply State.react_sound | apply State.settle_sound | apply State.detachMember_sound)
    | (with_reducible first | apply State.detach_sound | apply State.updCourse_sound | apply foldl_sound)
    | split
    | (rw [State.sound_mk]; refine ⟨?_, ?_⟩)
    | (with_reducible first | apply State.Sound.tiles | apply State.Sound.hist | apply State.Sound.leg | apply State.Sound.legs | apply legsOk.get)
    | dsimp only

theorem State.inputPaths_sound {s : State} (h : s.Sound) (ds : List InputDiffer) : (s.inputPaths ds).Sound := by
  unfold State.inputPaths
  (try dsimp only)
  repeat' first
    | (with_reducible first | assumption | intro _ | apply State.updSpr_sound | apply State.sprFlag_sound | apply State.fault_sound)
    | (with_reducible first | apply foldl_sound)
    | split

theorem State.voterCheck_sound {s : State} (h : s.Sound) (o : TickObs) : (s.voterCheck o).Sound := by
  unfold State.voterCheck
  (try dsimp only)
  repeat' first
    | (with_reducible first | assumption | intro _ | apply State.updSpr_sound | apply State.wear_sound | apply State.sprFlag_sound)
    | (with_reducible first | apply State.fault_sound)
    | split

theorem State.approveCore_sound {s : State} (h : s.Sound) : (s.approveCore).Sound := by
  unfold State.approveCore
  repeat' first
    | (with_reducible first | assumption | intro _ | apply State.updSpr_sound | apply State.resyncStart_sound)
    | split
    | (rw [State.sound_mk]; refine ⟨?_, ?_⟩)
    | (with_reducible first | apply State.Sound.tiles | apply State.Sound.hist | apply State.Sound.leg | apply State.Sound.legs | apply legsOk.get)
    | dsimp only

theorem State.approveRunner_sound {s : State} (h : s.Sound) (a : Nat) : (s.approveRunner a).Sound := by
  unfold State.approveRunner
  repeat' first
    | (with_reducible first | assumption | intro _ | apply State.serveRunner_sound)
    | split

theorem State.approveCmp_sound {s : State} (h : s.Sound) (t : Nat) : (s.approveCmp t).Sound := by
  unfold State.approveCmp
  repeat' first
    | (with_reducible first | assumption | intro _ | apply State.steer_sound)
    | split

theorem State.approveRows_sound {s : State} (h : s.Sound) : (s.approveRows).Sound := by
  unfold State.approveRows
  repeat' first
    | (with_reducible first | assumption | intro _ | apply State.rowCopy_sound | apply foldl_sound)
    | split

theorem State.policyAuto_sound {s : State} (h : s.Sound) : (s.policyAuto).Sound := by
  unfold State.policyAuto
  (try dsimp only)
  repeat' first
    | (with_reducible first | assumption | intro _ | apply State.approveCore_sound | apply State.approveRunner_sound)
    | (with_reducible first | apply State.approveCmp_sound | apply State.approveSeg_sound | apply State.approveRows_sound)
    | (with_reducible first | apply foldl_sound)
    | split

theorem State.approve_sound {s : State} (h : s.Sound) (w : Word) : (s.approve w).Sound := by
  unfold State.approve
  (try dsimp only)
  repeat' first
    | (with_reducible first | assumption | intro _ | apply State.approveSeg_sound | apply State.approveCmp_sound)
    | (with_reducible first | apply State.approveCore_sound | apply State.approveRunner_sound | apply State.approveRows_sound)
    | split

theorem State.approveStep_sound {s : State} (h : s.Sound) (x : Approve) : (s.approveStep x).Sound := by
  unfold State.approveStep
  (try dsimp only)
  repeat' first
    | (with_reducible first | assumption | intro _ | apply State.approve_sound | apply State.updSpr_sound)
    | (with_reducible first | apply State.complete_sound)
    | split

theorem State.approveAll_sound {s : State} (h : s.Sound) : (s.approveAll).Sound := by
  unfold State.approveAll
  repeat' first
    | (with_reducible first | assumption | intro _ | apply State.approve_sound | apply State.approveStep_sound | apply foldl_sound)
    | split

theorem State.refStore_sound {s : State} (h : s.Sound) (o : Nat) (v : Word) : (s.refStore o v).Sound := by
  unfold State.refStore
  (try dsimp only)
  repeat' first
    | (with_reducible first | assumption | intro _)
    | split
    | (rw [State.sound_mk]; refine ⟨?_, ?_⟩)
    | (with_reducible first | apply State.Sound.tiles | apply State.Sound.hist | apply State.Sound.leg | apply State.Sound.legs | apply legsOk.get)
    | dsimp only

theorem State.store_sound {s : State} (h : s.Sound) (l : Loc) (v : Word) : (s.store l v).Sound := by
  unfold State.store
  (try dsimp only)
  repeat' first
    | (with_reducible first | assumption | intro _ | apply State.refStore_sound | apply State.setTwin_sound)
    | (with_reducible first | apply State.updRing_sound | apply State.updSpr_sound | apply State.updAxis_sound)
    | (with_reducible first | apply State.updCourse_sound | apply State.updTile_sound | apply State.updLeg_sound | apply Leg.store_ok)
    | split
    | (rw [State.sound_mk]; refine ⟨?_, ?_⟩)
    | (with_reducible first | apply State.Sound.tiles | apply State.Sound.hist | apply State.Sound.leg | apply State.Sound.legs | apply legsOk.get)
    | dsimp only

theorem State.clearRoc_sound {s : State} (h : s.Sound) (l : Loc) : (s.clearRoc l).Sound := by
  unfold State.clearRoc
  (try dsimp only)
  repeat' first
    | (with_reducible first | assumption | intro _ | apply State.updRing_sound | apply State.updSpr_sound | apply State.edge_sound)
    | (with_reducible first | apply State.updAxis_sound | apply State.updCourse_sound | apply State.updTile_sound)
    | (with_reducible first | apply State.updLeg_sound)
    | split
    | (rw [State.sound_mk]; refine ⟨?_, ?_⟩)
    | (with_reducible first | apply State.Sound.tiles | apply State.Sound.hist | apply State.Sound.leg | apply State.Sound.legs | apply legsOk.get)
    | dsimp only

theorem State.latchShadow_sound {s : State} (h : s.Sound) (off : Nat) (l : Loc) : (s.latchShadow off l).Sound := by
  unfold State.latchShadow
  repeat' first
    | (with_reducible first | assumption | intro _)
    | split
    | (rw [State.sound_mk]; refine ⟨?_, ?_⟩)
    | (with_reducible first | apply State.Sound.tiles | apply State.Sound.hist | apply State.Sound.leg | apply State.Sound.legs | apply legsOk.get)
    | dsimp only

theorem State.camNext_sound {s : State} (h : s.Sound) : (s.camNext).Sound := by
  unfold State.camNext
  repeat' first
    | (with_reducible first | assumption | intro _)
    | split
    | (rw [State.sound_mk]; refine ⟨?_, ?_⟩)
    | (with_reducible first | apply State.Sound.tiles | apply State.Sound.hist | apply State.Sound.leg | apply State.Sound.legs | apply legsOk.get)
    | dsimp only

theorem State.fullRead_sound {s : State} (h : s.Sound) (off : Nat) : (s.fullRead off).Sound := by
  unfold State.fullRead
  (try dsimp only)
  repeat' first
    | (with_reducible first | assumption | intro _ | apply State.latchShadow_sound | apply State.clearRoc_sound)
    | (with_reducible first | apply State.camNext_sound)
    | split
    | (rw [State.sound_mk]; refine ⟨?_, ?_⟩)
    | (with_reducible first | apply State.Sound.tiles | apply State.Sound.hist | apply State.Sound.leg | apply State.Sound.legs | apply legsOk.get)
    | dsimp only

theorem State.noteAccess_sound {s : State} (h : s.Sound) (bitNo kind off : Nat) : (s.noteAccess bitNo kind off).Sound := by
  unfold State.noteAccess
  (try dsimp only)
  repeat' first
    | (with_reducible first | assumption | intro _)
    | split
    | (rw [State.sound_mk]; refine ⟨?_, ?_⟩)
    | (with_reducible first | apply State.Sound.tiles | apply State.Sound.hist | apply State.Sound.leg | apply State.Sound.legs | apply legsOk.get)
    | dsimp only

theorem State.narrowRead_sound {s : State} (h : s.Sound) (off : Nat) (be : BitVec 4) : (s.narrowRead off be).Sound := by
  unfold State.narrowRead
  (try dsimp only)
  repeat' first
    | (with_reducible first | assumption | intro _ | apply State.fullRead_sound | apply State.noteAccess_sound)
    | split
    | (rw [State.sound_mk]; refine ⟨?_, ?_⟩)
    | (with_reducible first | apply State.Sound.tiles | apply State.Sound.hist | apply State.Sound.leg | apply State.Sound.legs | apply legsOk.get)
    | dsimp only

theorem State.enableAxis_sound {s : State} (h : s.Sound) (a : Nat) : (s.enableAxis a).Sound := by
  unfold State.enableAxis
  (try dsimp only)
  repeat' first
    | (with_reducible first | assumption | intro _ | apply State.updLeg_sound | apply State.updAxis_sound | apply State.power_sound)
    | (with_reducible first | apply Leg.toHiz_ok | apply foldl_sound)
    | split

theorem State.enableCourse_sound {s : State} (h : s.Sound) (c : Nat) : (s.enableCourse c).Sound := by
  unfold State.enableCourse
  repeat' first
    | (with_reducible first | assumption | intro _ | apply State.updMotion_sound)
    | split

theorem State.enableUnit_sound {s : State} (h : s.Sound) (k : UnitKind) (n : Nat) : (s.enableUnit k n).Sound := by
  unfold State.enableUnit
  repeat' first
    | (with_reducible first | assumption | intro _ | apply State.enableAxis_sound | apply State.enableCourse_sound)
    | split

theorem State.releaseLegs_sound {s : State} (h : s.Sound) (a : Nat) : (s.releaseLegs a).Sound := by
  unfold State.releaseLegs
  (try dsimp only)
  repeat' first
    | (with_reducible first | assumption | intro _ | apply State.updLeg_sound | apply Leg.toHiz_ok | apply foldl_sound)
    | split

theorem State.endLongs_sound {s : State} (h : s.Sound) (a : Nat) : (s.endLongs a).Sound := by
  unfold State.endLongs
  (try dsimp only)
  repeat' first
    | (with_reducible first | assumption | intro _ | apply State.homeWatch_sound | apply State.updHome_sound)
    | (with_reducible first | apply State.charWatch_sound | apply State.updChar_sound)
    | split

theorem State.disableUnit_sound {s : State} (h : s.Sound) (k : UnitKind) (n : Nat) : (s.disableUnit k n).Sound := by
  unfold State.disableUnit
  (try dsimp only)
  repeat' first
    | (with_reducible first | assumption | intro _ | apply State.updMotion_sound | apply State.postStop_sound)
    | (with_reducible first | apply State.endLongs_sound | apply State.beginStop_sound | apply State.finishStop_sound)
    | (with_reducible first | apply State.cancelLater_sound | apply State.releaseLegs_sound | apply State.updAxis_sound)
    | (with_reducible first | apply State.homeStep_sound | apply State.charStep_sound)
    | split

theorem State.disableNow_sound {s : State} (h : s.Sound) (k : UnitKind) (n : Nat) : (s.disableNow k n).Sound := by
  unfold State.disableNow
  repeat' first
    | (with_reducible first | assumption | intro _ | apply State.disableUnit_sound | apply State.enableUnit_sound)
    | split

theorem State.clearing_sound {s : State} (h : s.Sound) (off : Nat) (old v : Word) : (s.clearing off old v).Sound := by
  unfold State.clearing
  (try dsimp only)
  repeat' first
    | (with_reducible first | assumption | intro _)
    | split
    | (rw [State.sound_mk]; refine ⟨?_, ?_⟩)
    | (with_reducible first | apply State.Sound.tiles | apply State.Sound.hist | apply State.Sound.leg | apply State.Sound.legs | apply legsOk.get)
    | dsimp only

theorem State.noteMode_sound {s : State} (h : s.Sound) (v : Word) : (s.noteMode v).Sound := by
  unfold State.noteMode
  (try dsimp only)
  repeat' first
    | (with_reducible first | assumption | intro _)
    | split
    | (rw [State.sound_mk]; refine ⟨?_, ?_⟩)
    | (with_reducible first | apply State.Sound.tiles | apply State.Sound.hist | apply State.Sound.leg | apply State.Sound.legs | apply legsOk.get)
    | dsimp only

theorem State.anchorHiWritten_sound {s : State} (h : s.Sound) : (s.anchorHiWritten).Sound := by
  unfold State.anchorHiWritten
  (try dsimp only)
  repeat' first
    | (with_reducible first | assumption | intro _)
    | split
    | (rw [State.sound_mk]; refine ⟨?_, ?_⟩)
    | (with_reducible first | apply State.Sound.tiles | apply State.Sound.hist | apply State.Sound.leg | apply State.Sound.legs | apply legsOk.get)
    | dsimp only

theorem State.refCtrlWritten_sound {s : State} (h : s.Sound) (old v : Word) : (s.refCtrlWritten old v).Sound := by
  unfold State.refCtrlWritten
  (try dsimp only)
  repeat' first
    | (with_reducible first | assumption | intro _)
    | split
    | (rw [State.sound_mk]; refine ⟨?_, ?_⟩)
    | (with_reducible first | apply State.Sound.tiles | apply State.Sound.hist | apply State.Sound.leg | apply State.Sound.legs | apply legsOk.get)
    | dsimp only

theorem State.strCtrlWritten_sound {s : State} (h : s.Sound) (raw old v : Word) : (s.strCtrlWritten raw old v).Sound := by
  unfold State.strCtrlWritten
  (try dsimp only)
  repeat' first
    | (with_reducible first | assumption | intro _ | apply State.retrain_sound)
    | split
    | (rw [State.sound_mk]; refine ⟨?_, ?_⟩)
    | (with_reducible first | apply State.Sound.tiles | apply State.Sound.hist | apply State.Sound.leg | apply State.Sound.legs | apply legsOk.get)
    | dsimp only

theorem State.ringCtrlWritten_sound {s : State} (h : s.Sound) (r : Nat) (old v : Word) : (s.ringCtrlWritten r old v).Sound := by
  unfold State.ringCtrlWritten
  (try dsimp only)
  repeat' first
    | (with_reducible first | assumption | intro _ | apply State.updRing_sound | apply State.unask_sound)
    | split
    | (rw [State.sound_mk]; refine ⟨?_, ?_⟩)
    | (with_reducible first | apply State.Sound.tiles | apply State.Sound.hist | apply State.Sound.leg | apply State.Sound.legs | apply legsOk.get)
    | dsimp only

theorem State.injWritten_sound {s : State} (h : s.Sound) (raw : Word) : (s.injWritten raw).Sound := by
  unfold State.injWritten
  (try dsimp only)
  repeat' first
    | (with_reducible first | assumption | intro _)
    | split
    | (rw [State.sound_mk]; refine ⟨?_, ?_⟩)
    | (with_reducible first | apply State.Sound.tiles | apply State.Sound.hist | apply State.Sound.leg | apply State.Sound.legs | apply legsOk.get)
    | dsimp only

theorem State.unitCtrlWritten_sound {s : State} (h : s.Sound) (k : UnitKind) (n : Nat) (old v : Word) : (s.unitCtrlWritten k n old v).Sound := by
  unfold State.unitCtrlWritten
  repeat' first
    | (with_reducible first | assumption | intro _ | apply State.updMotion_sound | apply State.enableUnit_sound)
    | split

theorem State.clearUnc_sound {s : State} (h : s.Sound) (k : UnitKind) (n : Nat) (raw : Word) : (s.clearUnc k n raw).Sound := by
  unfold State.clearUnc
  repeat' first
    | (with_reducible first | assumption | intro _ | apply State.updMotion_sound)
    | split

theorem State.clearTrip_sound {s : State} (h : s.Sound) (t l : Nat) (raw : Word) : (s.clearTrip t l raw).Sound := by
  unfold State.clearTrip
  repeat' first
    | (with_reducible first | assumption | intro _ | apply State.updLeg_sound)
    | split

theorem State.clearIso_sound {s : State} (h : s.Sound) (t : Nat) (raw : Word) : (s.clearIso t raw).Sound := by
  unfold State.clearIso
  repeat' first
    | (with_reducible first | assumption | intro _ | apply State.updTile_sound)
    | split

theorem State.wrote_sound {s : State} (h : s.Sound) (l : Loc) (off : Nat) (raw old v : Word) : (s.wrote l off raw old v).Sound := by
  unfold State.wrote
  (try dsimp only)
  repeat' first
    | (with_reducible first | assumption | intro _ | apply State.noteMode_sound | apply State.anchorHiWritten_sound)
    | (with_reducible first | apply State.refCtrlWritten_sound | apply State.strCtrlWritten_sound | apply State.clearing_sound)
    | (with_reducible first | apply State.ringCtrlWritten_sound | apply State.updRing_sound | apply State.injWritten_sound)
    | (with_reducible first | apply State.latchEntry_sound | apply State.ackLatch_sound | apply State.safeClr_sound)
    | (with_reducible first | apply State.safetyScan_sound | apply State.pairOn_sound | apply State.pairOff_sound)
    | (with_reducible first | apply State.encOn_sound | apply State.unitCtrlWritten_sound | apply State.clearUnc_sound)
    | (with_reducible first | apply State.clearIso_sound | apply State.updLeg_sound | apply State.clearTrip_sound)
    | (with_reducible first | apply Leg.modeWritten_ok)
    | split
    | (rw [State.sound_mk]; refine ⟨?_, ?_⟩)
    | (with_reducible first | apply State.Sound.tiles | apply State.Sound.hist | apply State.Sound.leg | apply State.Sound.legs | apply legsOk.get)
    | dsimp only

theorem State.putLoc_sound {s : State} (h : s.Sound) (l : Loc) (v : Word) : (s.putLoc l v).Sound := by
  unfold State.putLoc
  (try dsimp only)
  repeat' first
    | (with_reducible first | assumption | intro _ | apply State.store_sound | apply State.filtWrite_sound | apply Leg.store_ok)
    | split
    | (rw [State.sound_mk]; refine ⟨?_, ?_⟩)
    | (with_reducible first | apply State.Sound.tiles | apply State.Sound.hist | apply State.Sound.leg | apply State.Sound.legs | apply legsOk.get)
    | dsimp only

theorem State.carryOut_sound {s : State} (h : s.Sound) (l : Loc) (off : Nat) (raw : Word) : (s.carryOut l off raw).Sound := by
  unfold State.carryOut
  (try dsimp only)
  repeat' first
    | (with_reducible first | assumption | intro _ | apply State.putLoc_sound | apply State.wrote_sound)
    | split
    | (rw [State.sound_mk]; refine ⟨?_, ?_⟩)
    | (with_reducible first | apply State.Sound.tiles | apply State.Sound.hist | apply State.Sound.leg | apply State.Sound.legs | apply legsOk.get)
    | dsimp only

theorem State.absentWrite_sound {s : State} (h : s.Sound) (off : Nat) : (s.absentWrite off).Sound := by
  unfold State.absentWrite
  repeat' first
    | (with_reducible first | assumption | intro _ | apply State.noteAccess_sound | apply State.fault_sound)
    | split

theorem State.lockedWrite_sound {s : State} (h : s.Sound) (off : Nat) : (s.lockedWrite off).Sound := by
  unfold State.lockedWrite
  (try dsimp only)
  repeat' first
    | (with_reducible first | assumption | intro _ | apply State.fault_sound)
    | split
    | (rw [State.sound_mk]; refine ⟨?_, ?_⟩)
    | (with_reducible first | apply State.Sound.tiles | apply State.Sound.hist | apply State.Sound.leg | apply State.Sound.legs | apply legsOk.get)
    | dsimp only

theorem State.violWrite_sound {s : State} (h : s.Sound) (off : Nat) : (s.violWrite off).Sound := by
  unfold State.violWrite
  (try dsimp only)
  repeat' first
    | (with_reducible first | assumption | intro _ | apply State.fault_sound)
    | split
    | (rw [State.sound_mk]; refine ⟨?_, ?_⟩)
    | (with_reducible first | apply State.Sound.tiles | apply State.Sound.hist | apply State.Sound.leg | apply State.Sound.legs | apply legsOk.get)
    | dsimp only

theorem State.writeLoc_sound {s : State} (h : s.Sound) (l : Loc) (off : Nat) (raw : Word) : (s.writeLoc l off raw).Sound := by
  unfold State.writeLoc
  repeat' first
    | (with_reducible first | assumption | intro _ | apply State.carryOut_sound | apply State.absentWrite_sound)
    | (with_reducible first | apply State.lockedWrite_sound | apply State.violWrite_sound | apply State.fault_sound)
    | split

theorem State.fullWrite_sound {s : State} (h : s.Sound) (off : Nat) (raw : Word) : (s.fullWrite off raw).Sound := by
  unfold State.fullWrite
  (try dsimp only)
  repeat' first
    | (with_reducible first | assumption | intro _ | apply State.msixWrite_sound | apply State.absentWrite_sound)
    | (with_reducible first | apply State.writeLoc_sound | apply State.camNext_sound)
    | split

theorem State.narrowWrite_sound {s : State} (h : s.Sound) (off : Nat) (be : BitVec 4) (raw : Word) : (s.narrowWrite off be raw).Sound := by
  unfold State.narrowWrite
  repeat' first
    | (with_reducible first | assumption | intro _ | apply State.fullWrite_sound | apply State.absentWrite_sound)
    | (with_reducible first | apply State.noteAccess_sound | apply State.fault_sound)
    | split

theorem State.readRequest_sound {s : State} (h : s.Sound) (addr : Nat) (en : List Bool) : (s.readRequest addr en).Sound := by
  unfold State.readRequest
  extract_lets r
  have hr : r.1.Sound := foldl_sound_pair _ (fun q w hq => State.narrowRead_sound hq w _) _ _ h
  clear_value r
  split
  · rw [State.sound_mk]; exact hr
  · exact hr

theorem State.writeRequest_sound {s : State} (h : s.Sound) (addr : Nat) (bytes : List (Option Byte)) : (s.writeRequest addr bytes).Sound := by
  unfold State.writeRequest
  exact foldl_sound _ (fun t w ht => State.narrowWrite_sound ht w _ _) _ h

theorem State.comparePass_sound {s : State} (h : s.Sound) (run : Word) : (s.comparePass run).Sound := by
  unfold State.comparePass
  (try dsimp only)
  repeat' first
    | (with_reducible first | assumption | intro _ | apply State.fault_sound | apply State.raiseAs_sound | apply State.settle_sound)
    | split
    | (rw [State.sound_mk]; refine ⟨?_, ?_⟩)
    | (with_reducible first | apply State.Sound.tiles | apply State.Sound.hist | apply State.Sound.leg | apply State.Sound.legs | apply legsOk.get)
    | dsimp only

theorem State.passEnd_sound {s : State} (h : s.Sound) : (s.passEnd).Sound := by
  unfold State.passEnd
  (try dsimp only)
  repeat' first
    | (with_reducible first | assumption | intro _ | apply State.pass_sound | apply State.spend_sound | apply State.compared_sound)
    | (with_reducible first | apply State.comparePass_sound)
    | split
    | (rw [State.sound_mk]; refine ⟨?_, ?_⟩)
    | (with_reducible first | apply State.Sound.tiles | apply State.Sound.hist | apply State.Sound.leg | apply State.Sound.legs | apply legsOk.get)
    | dsimp only

theorem State.passBegin_sound {s : State} (h : s.Sound) : (s.passBegin).Sound := by
  unfold State.passBegin
  (try dsimp only)
  repeat' first
    | (with_reducible first | assumption | intro _ | apply State.passEnd_sound | apply State.pass_sound)
    | split
    | (rw [State.sound_mk]; refine ⟨?_, ?_⟩)
    | (with_reducible first | apply State.Sound.tiles | apply State.Sound.hist | apply State.Sound.leg | apply State.Sound.legs | apply legsOk.get)
    | dsimp only

theorem State.nvEnd_sound {s : State} (h : s.Sound) (status : Nat) : (s.nvEnd status).Sound := by
  unfold State.nvEnd
  repeat' first
    | (with_reducible first | assumption | intro _ | apply State.endLong_sound)
    | split

theorem State.nvAbort_sound {s : State} (h : s.Sound) : (s.nvAbort).Sound := by
  unfold State.nvAbort
  repeat' first
    | (with_reducible first | assumption | intro _ | apply State.nvEnd_sound)
    | split
    | (rw [State.sound_mk]; refine ⟨?_, ?_⟩)
    | (with_reducible first | apply State.Sound.tiles | apply State.Sound.hist | apply State.Sound.leg | apply State.Sound.legs | apply legsOk.get)
    | dsimp only

theorem State.thermalStep_sound {s : State} (h : s.Sound) (t : Nat) (a b : BitVec 16) : (s.thermalStep t a b).Sound := by
  unfold State.thermalStep
  (try dsimp only)
  repeat' first
    | (with_reducible first | assumption | intro _ | apply State.thermal_sound | apply State.nvAbort_sound)
    | split

theorem State.nvStep_sound {s : State} (h : s.Sound) (ok : Bool) : (s.nvStep ok).Sound := by
  unfold State.nvStep
  (try dsimp only)
  repeat' first
    | (with_reducible first | assumption | intro _ | apply State.nvAbort_sound | apply State.updLong_sound)
    | (with_reducible first | apply State.endLong_sound | apply State.nvEnd_sound)
    | split
    | (rw [State.sound_mk]; refine ⟨?_, ?_⟩)
    | (with_reducible first | apply State.Sound.tiles | apply State.Sound.hist | apply State.Sound.leg | apply State.Sound.legs | apply legsOk.get)
    | dsimp only

theorem State.nvBegin_sound {s : State} (h : s.Sound) : (s.nvBegin).Sound := by
  unfold State.nvBegin
  (try dsimp only)
  repeat' first
    | (with_reducible first | assumption | intro _ | apply State.nvEnd_sound)
    | split
    | (rw [State.sound_mk]; refine ⟨?_, ?_⟩)
    | (with_reducible first | apply State.Sound.tiles | apply State.Sound.hist | apply State.Sound.leg | apply State.Sound.legs | apply legsOk.get)
    | dsimp only

theorem State.loadWord_sound {s : State} (h : s.Sound) (l : Loc) (w : Word) : (s.loadWord l w).Sound := by
  unfold State.loadWord
  (try dsimp only)
  repeat' first
    | (with_reducible first | assumption | intro _ | apply State.filtWrite_sound | apply State.updLeg_sound | apply State.store_sound)
    | (with_reducible first | apply Leg.store_ok)
    | split

theorem State.loadSev_sound {s : State} (h : s.Sound) (n : Nat) (w : Word) : (s.loadSev n w).Sound := by
  unfold State.loadSev
  (try dsimp only)
  repeat' first
    | (with_reducible first | assumption | intro _)
    | split
    | (rw [State.sound_mk]; refine ⟨?_, ?_⟩)
    | (with_reducible first | apply State.Sound.tiles | apply State.Sound.hist | apply State.Sound.leg | apply State.Sound.legs | apply legsOk.get)
    | dsimp only

theorem State.loadSet_sound {s : State} (h : s.Sound) (ws : List Word) : (s.loadSet ws).Sound := by
  unfold State.loadSet
  (try dsimp only)
  repeat' first
    | (with_reducible first | assumption | intro _ | apply State.loadWord_sound | apply State.loadSev_sound)
    | (with_reducible first | apply State.updStr_sound | apply State.pairOn_sound | apply State.encOn_sound)
    | (with_reducible first | apply State.safetyScan_sound | apply foldl_sound)
    | split

theorem State.loadProfs_sound {s : State} (h : s.Sound) (index profs : List Word) : (s.loadProfs index profs).Sound := by
  unfold State.loadProfs
  (try dsimp only)
  repeat' first
    | (with_reducible first | assumption | intro _ | apply State.updMotion_sound | apply foldl_sound)
    | split

theorem State.nvLoad_sound {s : State} (h : s.Sound) : (s.nvLoad).Sound := by
  unfold State.nvLoad
  (try dsimp only)
  repeat' first
    | (with_reducible first | assumption | intro _ | apply State.loadSet_sound | apply State.loadProfs_sound)
    | (with_reducible first | apply State.fault_sound)
    | split
    | (rw [State.sound_mk]; refine ⟨?_, ?_⟩)
    | (with_reducible first | apply State.Sound.tiles | apply State.Sound.hist | apply State.Sound.leg | apply State.Sound.legs | apply legsOk.get)
    | dsimp only

theorem State.selfTestStep_sound {s : State} (h : s.Sound) : (s.selfTestStep).Sound := by
  unfold State.selfTestStep
  (try dsimp only)
  repeat' first
    | (with_reducible first | assumption | intro _ | apply State.endLong_sound | apply State.updLong_sound)
    | split
    | (rw [State.sound_mk]; refine ⟨?_, ?_⟩)
    | (with_reducible first | apply State.Sound.tiles | apply State.Sound.hist | apply State.Sound.leg | apply State.Sound.legs | apply legsOk.get)
    | dsimp only

theorem State.endDeviceLongs_sound {s : State} (h : s.Sound) : (s.endDeviceLongs).Sound := by
  unfold State.endDeviceLongs
  (try dsimp only)
  repeat' first
    | (with_reducible first | assumption | intro _ | apply State.endLong_sound | apply State.nvEnd_sound)
    | split
    | (rw [State.sound_mk]; refine ⟨?_, ?_⟩)
    | (with_reducible first | apply State.Sound.tiles | apply State.Sound.hist | apply State.Sound.leg | apply State.Sound.legs | apply legsOk.get)
    | dsimp only

theorem State.eachUnit_sound {s : State} (h : s.Sound) (f : State → UnitKind → Nat → State) (hf : ∀ (t : State) (k : UnitKind) (n : Nat), t.Sound → State.Sound (f t k n)) : (s.eachUnit f).Sound := by
  exact foldl_sound _ (fun t (p : UnitKind × Nat) ht => hf t p.1 p.2 ht) _ h

theorem State.replaceStep_sound {s : State} (h : s.Sound) (k : UnitKind) (n : Nat) : (s.replaceStep k n).Sound := by
  unfold State.replaceStep
  (try dsimp only)
  repeat' first
    | (with_reducible first | assumption | intro _ | apply State.updMotion_sound | apply State.completeAct_sound)
    | (with_reducible first | apply State.completeMove_sound | apply State.go_sound | apply foldl_sound)
    | split

theorem State.lapse_sound {s : State} (h : s.Sound) (k : UnitKind) (n : Nat) : (s.lapse k n).Sound := by
  unfold State.lapse
  (try dsimp only)
  repeat' first
    | (with_reducible first | assumption | intro _ | apply State.refuseHead_sound | apply State.dropItem_sound)
    | split

theorem State.lapseLeg_sound {s : State} (h : s.Sound) (t l : Nat) : (s.lapseLeg t l).Sound := by
  unfold State.lapseLeg
  repeat' first
    | (with_reducible first | assumption | intro _ | apply State.refusePulse_sound)
    | split

theorem State.startsAll_sound {s : State} (h : s.Sound) : (s.startsAll).Sound := by
  unfold State.startsAll
  extract_lets s1 s2 s3 s4 s5 first
  have h1 : s1.Sound := State.eachUnit_sound h _ fun _ _ _ ht => State.lapse_sound ht _ _
  clear_value s1
  have h2 : s2.Sound := foldl_sound _ (fun _ _ ht => State.lapseLeg_sound ht _ _) _ h1
  clear_value s2
  have h3 : s3.Sound := State.eachUnit_sound h2 _ fun _ _ _ ht => State.replaceStep_sound ht _ _
  clear_value s3
  have h4 : s4.Sound := by
    refine foldl_sound _ (fun _ _ ht => ?_) _ h3
    split
    · exact State.reenterAxis_sound ht _
    · exact ht
  clear_value s4
  have h5 : s5.Sound := State.eachUnit_sound h4 _ fun _ _ _ ht => State.readiness_sound ht _ _ _
  clear_value s5
  split
  · exact State.release_sound h5 _ _ _
  · exact h

theorem State.unreadyAll_sound {s : State} (h : s.Sound) : (s.unreadyAll).Sound := by
  unfold State.unreadyAll
  (try dsimp only)
  repeat' first
    | (with_reducible first | assumption | intro _ | apply State.eachUnit_sound | apply State.updMotion_sound)
    | (with_reducible first | apply State.updLeg_sound | apply Leg.unready_ok | apply foldl_sound)
    | split

theorem State.syncUnit_sound {s : State} (h : s.Sound) (k : UnitKind) (n : Nat) : (s.syncUnit k n).Sound := by
  unfold State.syncUnit
  (try dsimp only)
  repeat' first
    | (with_reducible first | assumption | intro _ | apply State.enableUnit_sound | apply State.disableUnit_sound)
    | split

theorem State.syncUnits_sound {s : State} (h : s.Sound) : (s.syncUnits).Sound := by
  unfold State.syncUnits
  (try dsimp only)
  repeat' first
    | (with_reducible first | assumption | intro _ | apply State.syncUnit_sound | apply foldl_sound)
    | split

theorem State.leaveConfigure_sound {s : State} (h : s.Sound) : (s.leaveConfigure).Sound := by
  unfold State.leaveConfigure
  (try dsimp only)
  repeat' first
    | (with_reducible first | assumption | intro _ | apply State.syncUnits_sound | apply State.updRing_sound | apply foldl_sound)
    | split
    | (rw [State.sound_mk]; refine ⟨?_, ?_⟩)
    | (with_reducible first | apply State.Sound.tiles | apply State.Sound.hist | apply State.Sound.leg | apply State.Sound.legs | apply legsOk.get)
    | dsimp only

theorem State.leftByLock_sound {s : State} (h : s.Sound) : (s.leftByLock).Sound := by
  unfold State.leftByLock
  (try dsimp only)
  repeat' first
    | (with_reducible first | assumption | intro _ | apply State.syncUnits_sound | apply State.updRing_sound | apply foldl_sound)
    | split
    | (rw [State.sound_mk]; refine ⟨?_, ?_⟩)
    | (with_reducible first | apply State.Sound.tiles | apply State.Sound.hist | apply State.Sound.leg | apply State.Sound.legs | apply legsOk.get)
    | dsimp only

theorem State.enterConfigure_sound {s : State} (h : s.Sound) : (s.enterConfigure).Sound := by
  unfold State.enterConfigure
  (try dsimp only)
  repeat' first
    | (with_reducible first | assumption | intro _ | apply State.diagStep_sound | apply State.endDeviceLongs_sound)
    | (with_reducible first | apply State.updRing_sound | apply State.unask_sound | apply foldl_sound)
    | split
    | (rw [State.sound_mk]; refine ⟨?_, ?_⟩)
    | (with_reducible first | apply State.Sound.tiles | apply State.Sound.hist | apply State.Sound.leg | apply State.Sound.legs | apply legsOk.get)
    | dsimp only

theorem State.powerAll_sound {s : State} (h : s.Sound) : (s.powerAll).Sound := by
  unfold State.powerAll
  repeat' first
    | (with_reducible first | assumption | intro _ | apply State.power_sound | apply foldl_sound)
    | split

theorem State.unpowerAll_sound {s : State} (h : s.Sound) (was : DevMode) : (s.unpowerAll was).Sound := by
  unfold State.unpowerAll
  repeat' first
    | (with_reducible first | assumption | intro _ | apply State.allHiz_sound | apply State.settle_sound)
    | (with_reducible first | apply State.payOwed_sound | apply State.axisHiz_sound | apply foldl_sound)
    | split
    | (rw [State.sound_mk]; refine ⟨?_, ?_⟩)
    | (with_reducible first | apply State.Sound.tiles | apply State.Sound.hist | apply State.Sound.leg | apply State.Sound.legs | apply legsOk.get)
    | dsimp only

theorem State.holdAll_sound {s : State} (h : s.Sound) : (s.holdAll).Sound := by
  unfold State.holdAll
  (try dsimp only)
  repeat' first
    | (with_reducible first | assumption | intro _ | apply State.postStop_sound | apply foldl_sound)
    | split

theorem State.changeMode_sound {s : State} (h : s.Sound) (b : DevMode) (cause : Nat) : (s.changeMode b cause).Sound := by
  unfold State.changeMode
  (try dsimp only)
  repeat' first
    | (with_reducible first | assumption | intro _ | apply State.enter_sound | apply State.leaveConfigure_sound)
    | (with_reducible first | apply State.unpowerAll_sound | apply State.eachUnit_sound | apply State.replaceStep_sound)
    | (with_reducible first | apply State.powerAll_sound | apply State.holdAll_sound | apply State.unreadyAll_sound)
    | (with_reducible first | apply State.diagStep_sound)
    | split
    | (rw [State.sound_mk]; refine ⟨?_, ?_⟩)
    | (with_reducible first | apply State.Sound.tiles | apply State.Sound.hist | apply State.Sound.leg | apply State.Sound.legs | apply legsOk.get)
    | dsimp only

theorem State.takeRequest_sound {s : State} (h : s.Sound) (target cause : Nat) (g : Option Tag) : (s.takeRequest target cause g).Sound := by
  unfold State.takeRequest
  (try dsimp only)
  repeat' first
    | (with_reducible first | assumption | intro _ | apply State.changeMode_sound | apply State.answerMode_sound)
    | (with_reducible first | apply State.enterConfigure_sound)
    | split
    | (rw [State.sound_mk]; refine ⟨?_, ?_⟩)
    | (with_reducible first | apply State.Sound.tiles | apply State.Sound.hist | apply State.Sound.leg | apply State.Sound.legs | apply legsOk.get)
    | dsimp only

theorem State.modeStep_sound {s : State} (h : s.Sound) : (s.modeStep).Sound := by
  unfold State.modeStep
  (try dsimp only)
  repeat' first
    | (with_reducible first | assumption | intro _ | apply State.takeRequest_sound)
    | split
    | (rw [State.sound_mk]; refine ⟨?_, ?_⟩)
    | (with_reducible first | apply State.Sound.tiles | apply State.Sound.hist | apply State.Sound.leg | apply State.Sound.legs | apply legsOk.get)
    | dsimp only

theorem State.sealedOpen_sound {s : State} (h : s.Sound) : (s.sealedOpen).Sound := by
  unfold State.sealedOpen
  (try dsimp only)
  repeat' first
    | (with_reducible first | assumption | intro _ | apply State.nvLoad_sound | apply State.pass_sound | apply State.enter_sound)
    | split
    | (rw [State.sound_mk]; refine ⟨?_, ?_⟩)
    | (with_reducible first | apply State.Sound.tiles | apply State.Sound.hist | apply State.Sound.leg | apply State.Sound.legs | apply legsOk.get)
    | dsimp only

theorem State.enterReset_sound {s : State} (h : s.Sound) : (s.enterReset).Sound := by
  unfold State.enterReset
  (try dsimp only)
  repeat' first
    | (with_reducible first | assumption | intro _ | apply State.updLeg_sound | apply State.updAxis_sound | apply Leg.toHiz_ok)
    | (with_reducible first | apply foldl_sound)
    | split
    | (rw [State.sound_mk]; refine ⟨?_, ?_⟩)
    | (with_reducible first | apply State.Sound.tiles | apply State.Sound.hist | apply State.Sound.leg | apply State.Sound.legs | apply legsOk.get)
    | dsimp only

theorem State.powerLost_sound {s : State} (_h : s.Sound) : (s.powerLost).Sound := by
  unfold State.powerLost
  rw [State.sound_mk]
  exact State.reset_sound

theorem State.release0_sound {s : State} (_h : s.Sound) (en primaryGood : Bool) : (s.release0 en primaryGood).Sound := by
  unfold State.release0
  extract_lets t e g t2
  have h2 : t2.Sound := by
    unfold t2
    apply State.latched_sound
    exact Nat.zero_le 32
  clear_value t2
  split
  · exact h2
  · exact State.oscSwitch_sound h2

theorem State.bootRetire_sound {s : State} (h : s.Sound) (n : Nat) (spare : Bool) : (s.bootRetire n spare).Sound := by
  unfold State.bootRetire
  repeat' first
    | (with_reducible first | assumption | intro _ | apply State.coreStop_sound)
    | split

theorem State.bootCores_sound {s : State} (h : s.Sound) (pass : List Bool) : (s.bootCores pass).Sound := by
  unfold State.bootCores
  (try dsimp only)
  repeat' first
    | (with_reducible first | assumption | intro _ | apply State.bootRetire_sound | apply State.setCore_sound)
    | (with_reducible first | apply State.spareIn_sound | apply State.coreLoss_sound | apply State.updSpr_sound | apply foldl_sound)
    | split

theorem State.tcmDiffers_sound {s : State} (h : s.Sound) (n : Nat) : (s.tcmDiffers n).Sound := by
  unfold State.tcmDiffers
  repeat' first
    | (with_reducible first | assumption | intro _ | apply State.countMinority_sound | apply State.minorityAct_sound)
    | split

theorem State.boot_sound {s : State} (h : s.Sound) (o : BootObs) : (s.boot o).Sound := by
  unfold State.boot
  (try dsimp only)
  repeat' first
    | (with_reducible first | assumption | intro _ | apply State.updSpr_sound | apply State.fault_sound | apply State.rowFails_sound)
    | (with_reducible first | apply State.bootCores_sound | apply State.voterCheck_sound | apply State.tcmDiffers_sound)
    | (with_reducible first | apply State.runnerFails_sound | apply State.engineFails_sound | apply State.parity_sound)
    | (with_reducible first | apply foldl_sound)
    | split
    | (rw [State.sound_mk]; refine ⟨?_, ?_⟩)
    | (with_reducible first | apply State.Sound.tiles | apply State.Sound.hist | apply State.Sound.leg | apply State.Sound.legs | apply legsOk.get)
    | dsimp only

theorem State.tapLoad_sound {s : State} (h : s.Sound) (i : TapInstr) : (s.tapLoad i).Sound := by
  have q (u : TapPort) : ({ s with tap := u } : State).Sound := by
    rw [State.sound_mk]; exact h
  unfold State.tapLoad
  cases i
  · exact q _
  · exact q _
  · exact q _
  · exact q _
  · dsimp only
    split
    · unfold State.tapScan
      rw [State.sound_mk]; exact h
    · exact h
  · dsimp only
    split
    · rw [State.sound_mk]; exact h
    · exact h

theorem State.ringDone_sound {s : State} (h : s.Sound) (r idx : Nat) (late : Bool) : (s.ringDone r idx late).Sound := by
  unfold State.ringDone
  repeat' first
    | (with_reducible first | assumption | intro _ | apply State.complete_sound)
    | split

theorem State.fenceCheck_sound {s : State} (h : s.Sound) (r : Nat) : (s.fenceCheck r).Sound := by
  unfold State.fenceCheck
  repeat' first
    | (with_reducible first | assumption | intro _ | apply State.ringDone_sound | apply State.updRing_sound)
    | split

theorem State.takeFence_sound {s : State} (h : s.Sound) (g : Tag) (d : Desc) : (s.takeFence g d).Sound := by
  unfold State.takeFence
  repeat' first
    | (with_reducible first | assumption | intro _ | apply State.updRing_sound | apply State.fenceCheck_sound)
    | split

theorem State.takeWait_sound {s : State} (h : s.Sound) (g : Tag) (d : Desc) : (s.takeWait g d).Sound := by
  unfold State.takeWait
  repeat' first
    | (with_reducible first | assumption | intro _ | apply State.updRing_sound)
    | split

theorem State.waitRcStep_sound {s : State} (h : s.Sound) (r : Nat) : (s.waitRcStep r).Sound := by
  unfold State.waitRcStep
  repeat' first
    | (with_reducible first | assumption | intro _ | apply State.ringDone_sound | apply State.updRing_sound)
    | split

theorem State.takeDiag_sound {s : State} (h : s.Sound) (g : Tag) (d : Desc) : (s.takeDiag g d).Sound := by
  unfold State.takeDiag
  repeat' first
    | (with_reducible first | assumption | intro _ | apply State.acceptLong_sound | apply State.diagBegin_sound)
    | split

theorem State.takeNv_sound {s : State} (h : s.Sound) (g : Tag) (d : Desc) : (s.takeNv g d).Sound := by
  unfold State.takeNv
  repeat' first
    | (with_reducible first | assumption | intro _ | apply State.refuseWith_sound | apply State.acceptLong_sound)
    | (with_reducible first | apply State.nvBegin_sound)
    | split

theorem State.takeSelfTest_sound {s : State} (h : s.Sound) (g : Tag) (d : Desc) : (s.takeSelfTest g d).Sound := by
  unfold State.takeSelfTest
  repeat' first
    | (with_reducible first | assumption | intro _ | apply State.acceptLong_sound)
    | split

theorem State.takeApprove_sound {s : State} (h : s.Sound) (g : Tag) (d : Desc) : (s.takeApprove g d).Sound := by
  unfold State.takeApprove
  repeat' first
    | (with_reducible first | assumption | intro _ | apply State.updSpr_sound | apply State.approve_sound)
    | (with_reducible first | apply State.refuseWith_sound)
    | split

theorem State.carryNow_sound {s : State} (h : s.Sound) (g : Tag) (d : Desc) (t : Target) (p : Profile) : (s.carryNow g d t p).Sound := by
  unfold State.carryNow
  repeat' first
    | (with_reducible first | assumption | intro _ | apply State.ringDone_sound | apply State.takeFence_sound)
    | (with_reducible first | apply State.takeWait_sound | apply State.takeProfile_sound | apply State.takeMove_sound)
    | (with_reducible first | apply State.takeStop_sound | apply State.takeResume_sound | apply State.takeCurrent_sound)
    | (with_reducible first | apply State.takeHome_sound | apply State.takeChar_sound | apply State.takePlay_sound)
    | (with_reducible first | apply State.takeFollow_sound | apply State.takeBind_sound | apply State.takeUnbind_sound)
    | (with_reducible first | apply State.takeSol_sound | apply State.takeDiag_sound | apply State.takeHistory_sound)
    | (with_reducible first | apply State.takeMode_sound | apply State.takeNv_sound | apply State.takeSelfTest_sound)
    | (with_reducible first | apply State.takeApprove_sound)
    | split

theorem State.carry_sound {s : State} (h : s.Sound) (g : Tag) (d : Desc) (t : Target) : (s.carry g d t).Sound := by
  unfold State.carry
  (try dsimp only)
  repeat' first
    | (with_reducible first | assumption | intro _ | apply State.updMotion_sound | apply State.carryNow_sound)
    | split

theorem State.carryDeferred_sound {s : State} (h : s.Sound) (k : UnitKind) (n : Nat) : (s.carryDeferred k n).Sound := by
  unfold State.carryDeferred
  (try dsimp only)
  repeat' first
    | (with_reducible first | assumption | intro _ | apply State.carryNow_sound | apply State.updMotion_sound | apply foldl_sound)
    | split

theorem State.takeUp_sound {s : State} (h : s.Sound) (r : Nat) (d : Desc) : (s.takeUp r d).Sound := by
  unfold State.takeUp
  (try dsimp only)
  repeat' first
    | (with_reducible first | assumption | intro _ | apply State.setRing_sound | apply State.refuse_sound | apply State.carry_sound)
    | split

theorem State.takeOne_sound {s : State} (h : s.Sound) (r : Nat) (d : Desc) : (s.takeOne r d).Sound := by
  unfold State.takeOne
  (try dsimp only)
  repeat' first
    | (with_reducible first | assumption | intro _ | apply State.takeUp_sound | apply State.updRing_sound)
    | split

theorem State.takeRow_sound {s : State} (h : s.Sound) (o r : Nat) (d : Desc) : (s.takeRow o r d).Sound := by
  unfold State.takeRow
  repeat' first
    | (with_reducible first | assumption | intro _ | apply State.takeOne_sound)
    | split

theorem State.takeRing_sound {s : State} (h : s.Sound) (r a_ : Nat) : (s.takeRing r a_).Sound := by
  induction a_ generalizing s with
  | zero => unfold State.takeRing; exact h
  | succ f ih =>
    unfold State.takeRing
    repeat' first
      | with_reducible assumption
      | with_reducible apply ih
      | with_reducible apply State.takeUp_sound
      | with_reducible apply State.takeOne_sound
      | split

theorem State.takePass_sound {s : State} (h : s.Sound) : (s.takePass).Sound := by
  unfold State.takePass
  repeat' first
    | (with_reducible first | assumption | intro _ | apply State.each_sound | apply State.fenceCheck_sound)
    | (with_reducible first | apply State.takeRing_sound)
    | split

theorem State.watchStart_sound {s : State} (h : s.Sound) (a : Nat) : (s.watchStart a).Sound := by
  unfold State.watchStart
  (try dsimp only)
  repeat' first
    | (with_reducible first | assumption | intro _ | apply State.updAxis_sound)
    | split

theorem State.catchUp_sound {s : State} (h : s.Sound) : (s.catchUp).Sound := by
  unfold State.catchUp
  extract_lets s1 s2 s3 s4 s5 s6 s7 s8
  have h1 : s1.Sound := State.modeStep_sound h
  clear_value s1
  have h2 : s2.Sound := State.eachUnit_sound h1 _ fun _ _ _ ht => State.disableNow_sound ht _ _
  clear_value s2
  have h3 : s3.Sound := State.rcBegin_sound h2
  clear_value s3
  have h4 : s4.Sound := State.eachUnit_sound h3 _ fun _ _ _ ht => State.revEnd_sound ht _ _
  clear_value s4
  have h5 : s5.Sound := State.eachUnit_sound h4 _ fun _ _ _ ht => State.dwellOver_sound ht _ _
  clear_value s5
  have h6 : s6.Sound := foldl_sound _ (fun _ _ ht => State.powerAtBoundary_sound ht _) _ h5
  clear_value s6
  have h7 : s7.Sound := State.eachUnit_sound h6 _ fun _ _ _ ht => State.beginDue_sound ht _
  clear_value s7
  have h8 : s8.Sound := foldl_sound _ (fun _ _ ht => State.watchStart_sound ht _) _ h7
  exact foldl_sound _ (fun _ _ ht => State.pulseCommand_sound ht _ _) _ h8

theorem State.toBoundary_sound {s : State} (h : s.Sound) : (s.toBoundary).Sound := by
  unfold State.toBoundary
  repeat' first
    | (with_reducible first | assumption | intro _ | apply State.pass_sound)
    | split

theorem State.sample_sound {s : State} (h : s.Sound) : (s.sample).Sound := by
  unfold State.sample
  (try dsimp only)
  repeat' first
    | (with_reducible first | assumption | intro _ | apply State.loadStep_sound)
    | split
    | (rw [State.sound_mk]; refine ⟨?_, ?_⟩)
    | (with_reducible first | apply State.Sound.tiles | apply State.Sound.hist | apply State.Sound.leg | apply State.Sound.legs | apply legsOk.get)
    | dsimp only

theorem State.queuePeriod_sound {s : State} (h : s.Sound) (k : UnitKind) (n : Nat) : (s.queuePeriod k n).1.Sound := by
  unfold State.queuePeriod
  (try dsimp only)
  repeat' first
    | (with_reducible first | assumption | intro _ | apply State.updMotion_sound)
    | split

theorem State.playPeriod_sound {s : State} (h : s.Sound) (k : UnitKind) (n : Nat) (p : Play) (adv : Int) : (s.playPeriod k n p adv).Sound := by
  unfold State.playPeriod
  repeat' first
    | (with_reducible first | assumption | intro _ | apply State.playUnderrun_sound | apply State.trackUnit_sound)
    | (with_reducible first | apply State.playOver_sound | apply State.updMotion_sound)
    | split

theorem State.ownPeriod_sound {s : State} (h : s.Sound) (k : UnitKind) (n : Nat) (adv : Int) : (s.ownPeriod k n adv).1.Sound := by
  unfold State.ownPeriod
  (try dsimp only)
  repeat' first
    | (with_reducible first | assumption | intro _ | apply State.queuePeriod_sound | apply State.updMotion_sound)
    | (with_reducible first | apply State.trackUnit_sound | apply State.playPeriod_sound)
    | split

theorem State.courseBond_sound {s : State} (h : s.Sound) (c : Nat) : (s.courseBond c).Sound := by
  unfold State.courseBond
  (try dsimp only)
  repeat' first
    | (with_reducible first | assumption | intro _ | apply State.updMotion_sound)
    | split

theorem State.memberAxes_sound {s : State} (h : s.Sound) (c : Nat) : (s.memberAxes c).Sound := by
  unfold State.memberAxes
  repeat' first
    | (with_reducible first | assumption | intro _ | apply State.trackAxis_sound | apply foldl_sound)
    | split

theorem State.coursePeriod_sound {s : State} (h : s.Sound) (c : Nat) (adv : Int) : (s.coursePeriod c adv).1.Sound := by
  unfold State.coursePeriod
  (try dsimp only)
  repeat' first
    | (with_reducible first | assumption | intro _ | apply State.ownPeriod_sound | apply State.courseBond_sound)
    | (with_reducible first | apply State.memberAxes_sound)
    | split

theorem State.integrate_sound {s : State} (h : s.Sound) (adv : Int) : (s.integrate adv).1.Sound := by
  unfold State.integrate
  dsimp only
  apply foldl_sound_pair
  · intro p a hp
    exact State.ownPeriod_sound hp _ _ _
  · apply foldl_sound_pair
    · intro q lvl hq
      apply foldl_sound_pair
      · intro p c hp
        split
        · exact State.coursePeriod_sound hp _ _
        · exact hp
      · exact hq
    · exact h

theorem State.periodEnds_sound {s : State} (h : s.Sound) (l : Ends) : (s.periodEnds l).Sound := by
  unfold State.periodEnds
  (try dsimp only)
  repeat' first
    | (with_reducible first | assumption | intro _ | apply State.periodEnd_sound | apply State.starve_sound | apply foldl_sound)
    | split

theorem State.stallReact_sound {s : State} (h : s.Sound) (a : Nat) : (s.stallReact a).Sound := by
  unfold State.stallReact
  (try dsimp only)
  repeat' first
    | (with_reducible first | assumption | intro _ | apply State.record_sound | apply State.memberReport_sound)
    | (with_reducible first | apply State.react_sound | apply State.settle_sound | apply State.memberEvent_sound)
    | (with_reducible first | apply State.updMotion_sound | apply State.postStop_sound | apply State.isoAxis_sound)
    | split

theorem State.stallStep_sound {s : State} (h : s.Sound) (a : Nat) : (s.stallStep a).Sound := by
  unfold State.stallStep
  (try dsimp only)
  repeat' first
    | (with_reducible first | assumption | intro _ | apply State.updAxis_sound | apply State.stallBoundary_sound)
    | (with_reducible first | apply State.homeStall_sound | apply State.stallReact_sound)
    | split

theorem State.fallen_sound {s : State} (h : s.Sound) (k : UnitKind) (n : Nat) : (s.fallen k n).Sound := by
  unfold State.fallen
  (try dsimp only)
  repeat' first
    | (with_reducible first | assumption | intro _ | apply State.beginStop_sound | apply State.cancelLater_sound)
    | (with_reducible first | apply State.updMotion_sound)
    | (rw [State.sound_mk]; exact ⟨h.1, h.2⟩)
    | split

theorem State.stopStep_sound {s : State} (h : s.Sound) (k : UnitKind) (n : Nat) : (s.stopStep k n).Sound := by
  unfold State.stopStep
  (try dsimp only)
  repeat' first
    | (with_reducible first | assumption | intro _ | apply State.updMotion_sound | apply State.fallen_sound)
    | (with_reducible first | apply State.beginStop_sound)
    | split
    | (rw [State.sound_mk]; refine ⟨?_, ?_⟩)
    | (with_reducible first | apply State.Sound.tiles | apply State.Sound.hist | apply State.Sound.leg | apply State.Sound.legs | apply legsOk.get)
    | dsimp only

theorem State.postpone_sound {s : State} (h : s.Sound) : (s.postpone).Sound := by
  unfold State.postpone
  (try dsimp only)
  repeat' first
    | (with_reducible first | assumption | intro _ | apply State.eachUnit_sound | apply State.updMotion_sound)
    | (with_reducible first | apply State.updAxis_sound | apply foldl_sound)
    | split
    | (rw [State.sound_mk]; refine ⟨?_, ?_⟩)
    | (with_reducible first | apply State.Sound.tiles | apply State.Sound.hist | apply State.Sound.leg | apply State.Sound.legs | apply legsOk.get)
    | dsimp only

theorem State.feedAll_sound {s : State} (h : s.Sound) : (s.feedAll).Sound := by
  unfold State.feedAll
  repeat' first
    | (with_reducible first | assumption | intro _ | apply State.eachUnit_sound | apply State.updMotion_sound)
    | split

theorem State.extendStep_sound {s : State} (h : s.Sound) (k : UnitKind) (n : Nat) : (s.extendStep k n).Sound := by
  unfold State.extendStep
  (try dsimp only)
  repeat' first
    | (with_reducible first | assumption | intro _ | apply State.updMotion_sound)
    | split

theorem State.ownStep_sound {s : State} (h : s.Sound) (k : UnitKind) (n : Nat) : (s.ownStep k n).Sound := by
  unfold State.ownStep
  repeat' first
    | (with_reducible first | assumption | intro _ | apply State.ownStart_sound)
    | split

theorem State.velocityStep_sound {s : State} (h : s.Sound) (k : UnitKind) (n : Nat) : (s.velocityStep k n).Sound := by
  unfold State.velocityStep
  (try dsimp only)
  repeat' first
    | (with_reducible first | assumption | intro _ | apply State.updMotion_sound | apply State.go_sound | apply State.dropItem_sound)
    | split

theorem State.laterWatch_sound {s : State} (h : s.Sound) (k : UnitKind) (n : Nat) : (s.laterWatch k n).Sound := by
  unfold State.laterWatch
  (try dsimp only)
  repeat' first
    | (with_reducible first | assumption | intro _ | apply State.complete_sound | apply State.freeWindow_sound)
    | (with_reducible first | apply State.updMotion_sound | apply foldl_sound)
    | split

theorem State.bookStep_sound {s : State} (h : s.Sound) (a : Nat) : (s.bookStep a).Sound := by
  unfold State.bookStep
  (try dsimp only)
  repeat' first
    | (with_reducible first | assumption | intro _ | apply State.updMotion_sound)
    | split

theorem State.budgets_sound {s : State} (h : s.Sound) : (s.budgets).Sound := by
  unfold State.budgets
  (try dsimp only)
  repeat' first
    | (with_reducible first | assumption | intro _)
    | split
    | (rw [State.sound_mk]; refine ⟨?_, ?_⟩)
    | (with_reducible first | apply State.Sound.tiles | apply State.Sound.hist | apply State.Sound.leg | apply State.Sound.legs | apply legsOk.get)
    | dsimp only

theorem State.usedAtBoundary_sound {s : State} (h : s.Sound) : (s.usedAtBoundary).Sound := by
  unfold State.usedAtBoundary
  (try dsimp only)
  repeat' first
    | (with_reducible first | assumption | intro _)
    | split
    | (rw [State.sound_mk]; refine ⟨?_, ?_⟩)
    | (with_reducible first | apply State.Sound.tiles | apply State.Sound.hist | apply State.Sound.leg | apply State.Sound.legs | apply legsOk.get)
    | dsimp only

theorem State.currentStep_sound {s : State} (h : s.Sound) (a : Nat) : (s.currentStep a).Sound := by
  unfold State.currentStep
  (try dsimp only)
  repeat' first
    | (with_reducible first | assumption | intro _ | apply State.updAxis_sound | apply State.complete_sound | apply foldl_sound)
    | split

theorem State.deliverStep_sound {s : State} (h : s.Sound) (a : Nat) : (s.deliverStep a).Sound := by
  unfold State.deliverStep
  (try dsimp only)
  repeat' first
    | (with_reducible first | assumption | intro _ | apply State.deliver_sound | apply State.commutate_sound)
    | split

theorem State.watchStep_sound {s : State} (h : s.Sound) (a : Nat) : (s.watchStep a).Sound := by
  unfold State.watchStep
  (try dsimp only)
  repeat' first
    | (with_reducible first | assumption | intro _ | apply State.updAxis_sound | apply State.settle_sound)
    | split

theorem State.doorbellStep_sound {s : State} (h : s.Sound) : (s.doorbellStep).Sound := by
  unfold State.doorbellStep
  (try dsimp only)
  repeat' first
    | (with_reducible first | assumption | intro _ | apply State.request_sound | apply State.doorbell_sound)
    | (with_reducible first | apply State.fault_sound)
    | split
    | (rw [State.sound_mk]; refine ⟨?_, ?_⟩)
    | (with_reducible first | apply State.Sound.tiles | apply State.Sound.hist | apply State.Sound.leg | apply State.Sound.legs | apply legsOk.get)
    | dsimp only

theorem State.vector15_sound {s : State} (h : s.Sound) : (s.vector15).Sound := by
  unfold State.vector15
  (try dsimp only)
  repeat' first
    | (with_reducible first | assumption | intro _ | apply State.sendVector_sound)
    | split
    | (rw [State.sound_mk]; refine ⟨?_, ?_⟩)
    | (with_reducible first | apply State.Sound.tiles | apply State.Sound.hist | apply State.Sound.leg | apply State.Sound.legs | apply legsOk.get)
    | dsimp only

theorem State.waitRcs_sound {s : State} (h : s.Sound) : (s.waitRcs).Sound := by
  unfold State.waitRcs
  repeat' first
    | (with_reducible first | assumption | intro _ | apply State.waitRcStep_sound | apply foldl_sound)
    | split

theorem State.markDue_sound {s : State} (h : s.Sound) : (s.markDue).Sound := by
  unfold State.markDue
  (try dsimp only)
  repeat' first
    | (with_reducible first | assumption | intro _ | apply State.eachUnit_sound | apply State.updMotion_sound)
    | (with_reducible first | apply State.updAxis_sound | apply foldl_sound)
    | split
    | (rw [State.sound_mk]; refine ⟨?_, ?_⟩)
    | (with_reducible first | apply State.Sound.tiles | apply State.Sound.hist | apply State.Sound.leg | apply State.Sound.legs | apply legsOk.get)
    | dsimp only

theorem State.withhold_sound {s : State} (h : s.Sound) : (s.withhold).Sound := by
  unfold State.withhold
  repeat' first
    | (with_reducible first | assumption | intro _ | apply State.eachUnit_sound | apply State.updMotion_sound)
    | split

theorem State.unitsAtBoundary_sound {s : State} (h : s.Sound) (adv : Int) (o : PeriodObs) : (s.unitsAtBoundary adv o).Sound := by
  unfold State.unitsAtBoundary
  (try dsimp only)
  repeat' first
    | (with_reducible first | assumption | intro _ | apply State.eachUnit_sound | apply State.updMotion_sound)
    | (with_reducible first | apply State.feedAll_sound | apply State.integrate_sound | apply State.periodEnds_sound)
    | (with_reducible first | apply State.runnerFails_sound | apply State.engineFails_sound | apply State.stallStep_sound)
    | (with_reducible first | apply State.homeWatch_sound | apply State.charWatch_sound | apply State.stopStep_sound)
    | (with_reducible first | apply State.carryDeferred_sound | apply State.laterWatch_sound | apply State.unreadyAll_sound)
    | (with_reducible first | apply State.currentStep_sound | apply State.budgets_sound | apply State.bookStep_sound)
    | (with_reducible first | apply State.legTick_sound | apply State.markDue_sound | apply State.withhold_sound)
    | (with_reducible first | apply State.extendStep_sound | apply State.ownStep_sound | apply State.velocityStep_sound)
    | (with_reducible first | apply State.bonds_sound | apply State.dwellTick_sound | apply State.startsAll_sound)
    | (with_reducible first | apply State.homeStep_sound | apply State.charStep_sound | apply foldl_sound)
    | split

theorem State.coilsAtBoundary_sound {s : State} (h : s.Sound) : (s.coilsAtBoundary).Sound := by
  unfold State.coilsAtBoundary
  (try dsimp only)
  repeat' first
    | (with_reducible first | assumption | intro _ | apply State.deliverStep_sound | apply State.watchStep_sound | apply foldl_sound)
    | split

theorem State.interpolate_sound {s : State} (h : s.Sound) (o : PeriodObs) : (s.interpolate o).Sound := by
  unfold State.interpolate
  (try dsimp only)
  repeat' first
    | with_reducible refine supply_ok ?_
    | (with_reducible first | assumption | intro _ | apply State.catchUp_sound | apply State.toBoundary_sound)
    | (with_reducible first | apply State.sample_sound | apply State.leftByLock_sound | apply State.inputPaths_sound)
    | (with_reducible first | apply State.sramInject_sound | apply State.policyAuto_sound | apply State.postpone_sound)
    | (with_reducible first | apply State.unitsAtBoundary_sound | apply State.coilsAtBoundary_sound | apply State.diagStep_sound)
    | (with_reducible first | apply State.approveAll_sound | apply State.nvAbort_sound | apply State.each_sound)
    | (with_reducible first | apply State.updTile_sound | apply State.usedAtBoundary_sound | apply State.waitRcs_sound)
    | (with_reducible first | apply State.streamAll_sound | apply State.doorbellStep_sound | apply State.vector15_sound)
    | (with_reducible first | apply State.upSend_sound | apply State.readTimeouts_sound | apply State.payOwed_sound | apply State.answerOvertaken_sound)
    | split
    | (rw [State.sound_mk]; refine ⟨?_, ?_⟩)
    | (with_reducible first | apply State.Sound.tiles | apply State.Sound.hist | apply State.Sound.leg | apply State.Sound.legs | apply legsOk.get)
    | dsimp only

theorem State.writeStatus_sound {s : State} (h : s.Sound) (ws : List Word) : (s.writeStatus ws).Sound := by
  unfold State.writeStatus
  (try dsimp only)
  repeat' first
    | (with_reducible first | assumption | intro _ | apply State.post_sound)
    | split

theorem State.writeBack_sound {s : State} (h : s.Sound) (r : Nat) (o : Outst) : (s.writeBack r o).Sound := by
  unfold State.writeBack
  (try dsimp only)
  repeat' first
    | (with_reducible first | assumption | intro _ | apply State.record_sound | apply State.post_sound)
    | split

theorem State.ringBack_sound {s : State} (h : s.Sound) (r : Nat) : (s.ringBack r).1.Sound := by
  unfold State.ringBack
  (try dsimp only)
  repeat' first
    | (with_reducible first | assumption | intro _ | apply State.writeBack_sound | apply State.updRing_sound | apply foldl_sound)
    | split

theorem State.writeBacks_sound {s : State} (h : s.Sound) : (s.writeBacks).1.Sound := by
  unfold State.writeBacks
  apply foldl_sound_pair
  · intro p a hp
    exact State.ringBack_sound hp _
  · exact h

theorem State.vectors_sound {s : State} (h : s.Sound) (rs : List Nat) : (s.vectors rs).Sound := by
  unfold State.vectors
  (try dsimp only)
  repeat' first
    | (with_reducible first | assumption | intro _ | apply State.sendVector_sound | apply foldl_sound)
    | split

theorem State.toTick_sound {s : State} (h : s.Sound) : (s.toTick).Sound := by
  unfold State.toTick
  (try dsimp only)
  repeat' first
    | (with_reducible first | assumption | intro _ | apply State.pass_sound | apply State.outTicks_sound)
    | split
    | (rw [State.sound_mk]; refine ⟨?_, ?_⟩)
    | (with_reducible first | apply State.Sound.tiles | apply State.Sound.hist | apply State.Sound.leg | apply State.Sound.legs | apply legsOk.get)
    | dsimp only

theorem State.refillAll_sound {s : State} (h : s.Sound) : (s.refillAll).Sound := by
  unfold State.refillAll
  (try dsimp only)
  repeat' first
    | (with_reducible first | assumption | intro _ | apply State.eachUnit_sound | apply State.updMotion_sound)
    | (with_reducible first | apply foldl_sound)
    | split
    | (rw [State.sound_mk]; refine ⟨?_, ?_⟩)
    | (with_reducible first | apply State.Sound.tiles | apply State.Sound.hist | apply State.Sound.leg | apply State.Sound.legs | apply legsOk.get)
    | dsimp only

theorem State.planTick_sound {s : State} (h : s.Sound) : (s.planTick).Sound := by
  unfold State.planTick
  (try dsimp only)
  repeat' first
    | (with_reducible first | assumption | intro _ | apply State.refillAll_sound | apply State.takePass_sound)
    | (with_reducible first | apply State.selfTestStep_sound | apply State.updateOsbs_sound | apply State.writeBacks_sound | apply State.writeStatus_sound)
    | (with_reducible first | apply State.vectors_sound)
    | split
    | (rw [State.sound_mk]; refine ⟨?_, ?_⟩)
    | (with_reducible first | apply State.Sound.tiles | apply State.Sound.hist | apply State.Sound.leg | apply State.Sound.legs | apply legsOk.get)
    | dsimp only

theorem State.newWaits_sound {s : State} (h : s.Sound) : (s.newWaits).Sound := by
  unfold State.newWaits
  repeat' first
    | (with_reducible first | assumption | intro _ | apply State.updRing_sound | apply foldl_sound)
    | split

theorem State.tick_sound {s : State} (h : s.Sound) (o : TickObs) : (s.tick o).Sound := by
  unfold State.tick
  (try dsimp only)
  repeat' first
    | (with_reducible first | assumption | intro _ | apply State.toTick_sound | apply State.voterCheck_sound)
    | (with_reducible first | apply State.planTick_sound | apply State.newWaits_sound)
    | split

theorem idle_sound {s : State} (h : s.Sound) : (idle s).Sound := by
  unfold idle
  repeat' first
    | (with_reducible first | assumption | intro _ | apply State.pass_sound)
    | split

theorem State.withFetchWord_sound {s : State} (h : s.Sound) (nbits w : Nat) : (s.withFetchWord nbits w).Sound := by
  unfold State.withFetchWord
  repeat' first
    | (with_reducible first | assumption | intro _)
    | split
    | (rw [State.sound_mk]; refine ⟨?_, ?_⟩)
    | (with_reducible first | apply State.Sound.tiles | apply State.Sound.hist | apply State.Sound.leg | apply State.Sound.legs | apply legsOk.get)
    | dsimp only

/-- What an answer that keeps soundness is. -/
def soundAnswer (a : Answer) : Prop := ∀ t, a = .next t → t.Sound

theorem command_sound {s : State} (h : s.Sound) (f : State → State) (hf : ∀ u : State, u.Sound → (f u).Sound) : soundAnswer (s.command f) := by
  intro t e
  unfold State.command at e
  obtain rfl := Host.Outcome.next.inj e
  have h' : State.Sound { s with out := [] } := ⟨h.1, h.2⟩
  split
  · exact h'
  · exact hf _ h'

theorem execNop_sound (ring : Nat) (d : Desc) {s : State} (h : s.Sound) : soundAnswer (execNop ring d s) := by
  refine command_sound h _ fun s h => ?_
  repeat' first
    | (with_reducible first | assumption | intro _ | apply State.takeRow_sound)
    | split

theorem execFence_sound (ring : Nat) (d : Desc) {s : State} (h : s.Sound) : soundAnswer (execFence ring d s) := by
  refine command_sound h _ fun s h => ?_
  repeat' first
    | (with_reducible first | assumption | intro _ | apply State.takeRow_sound)
    | split

theorem execWaitRc_sound (ring : Nat) (d : Desc) {s : State} (h : s.Sound) : soundAnswer (execWaitRc ring d s) := by
  refine command_sound h _ fun s h => ?_
  repeat' first
    | (with_reducible first | assumption | intro _ | apply State.takeRow_sound)
    | split

theorem execSetProfile_sound (ring : Nat) (d : Desc) {s : State} (h : s.Sound) : soundAnswer (execSetProfile ring d s) := by
  refine command_sound h _ fun s h => ?_
  repeat' first
    | (with_reducible first | assumption | intro _ | apply State.takeRow_sound)
    | split

theorem execMoveTo_sound (ring : Nat) (d : Desc) {s : State} (h : s.Sound) : soundAnswer (execMoveTo ring d s) := by
  refine command_sound h _ fun s h => ?_
  repeat' first
    | (with_reducible first | assumption | intro _ | apply State.takeRow_sound)
    | split

theorem execMoveBy_sound (ring : Nat) (d : Desc) {s : State} (h : s.Sound) : soundAnswer (execMoveBy ring d s) := by
  refine command_sound h _ fun s h => ?_
  repeat' first
    | (with_reducible first | assumption | intro _ | apply State.takeRow_sound)
    | split

theorem execVelocity_sound (ring : Nat) (d : Desc) {s : State} (h : s.Sound) : soundAnswer (execVelocity ring d s) := by
  refine command_sound h _ fun s h => ?_
  repeat' first
    | (with_reducible first | assumption | intro _ | apply State.takeRow_sound)
    | split

theorem execStop_sound (ring : Nat) (d : Desc) {s : State} (h : s.Sound) : soundAnswer (execStop ring d s) := by
  refine command_sound h _ fun s h => ?_
  repeat' first
    | (with_reducible first | assumption | intro _ | apply State.takeRow_sound)
    | split

theorem execQstop_sound (ring : Nat) (d : Desc) {s : State} (h : s.Sound) : soundAnswer (execQstop ring d s) := by
  refine command_sound h _ fun s h => ?_
  repeat' first
    | (with_reducible first | assumption | intro _ | apply State.takeRow_sound)
    | split

theorem execResume_sound (ring : Nat) (d : Desc) {s : State} (h : s.Sound) : soundAnswer (execResume ring d s) := by
  refine command_sound h _ fun s h => ?_
  repeat' first
    | (with_reducible first | assumption | intro _ | apply State.takeRow_sound)
    | split

theorem execSetCurrent_sound (ring : Nat) (d : Desc) {s : State} (h : s.Sound) : soundAnswer (execSetCurrent ring d s) := by
  refine command_sound h _ fun s h => ?_
  repeat' first
    | (with_reducible first | assumption | intro _ | apply State.takeRow_sound)
    | split

theorem execHome_sound (ring : Nat) (d : Desc) {s : State} (h : s.Sound) : soundAnswer (execHome ring d s) := by
  refine command_sound h _ fun s h => ?_
  repeat' first
    | (with_reducible first | assumption | intro _ | apply State.takeRow_sound)
    | split

theorem execCharacterize_sound (ring : Nat) (d : Desc) {s : State} (h : s.Sound) : soundAnswer (execCharacterize ring d s) := by
  refine command_sound h _ fun s h => ?_
  repeat' first
    | (with_reducible first | assumption | intro _ | apply State.takeRow_sound)
    | split

theorem execPlayTable_sound (ring : Nat) (d : Desc) {s : State} (h : s.Sound) : soundAnswer (execPlayTable ring d s) := by
  refine command_sound h _ fun s h => ?_
  repeat' first
    | (with_reducible first | assumption | intro _ | apply State.takeRow_sound)
    | split

theorem execFollowSteps_sound (ring : Nat) (d : Desc) {s : State} (h : s.Sound) : soundAnswer (execFollowSteps ring d s) := by
  refine command_sound h _ fun s h => ?_
  repeat' first
    | (with_reducible first | assumption | intro _ | apply State.takeRow_sound)
    | split

theorem execBindCourse_sound (ring : Nat) (d : Desc) {s : State} (h : s.Sound) : soundAnswer (execBindCourse ring d s) := by
  refine command_sound h _ fun s h => ?_
  repeat' first
    | (with_reducible first | assumption | intro _ | apply State.takeRow_sound)
    | split

theorem execUnbindCourse_sound (ring : Nat) (d : Desc) {s : State} (h : s.Sound) : soundAnswer (execUnbindCourse ring d s) := by
  refine command_sound h _ fun s h => ?_
  repeat' first
    | (with_reducible first | assumption | intro _ | apply State.takeRow_sound)
    | split

theorem execSolPulse_sound (ring : Nat) (d : Desc) {s : State} (h : s.Sound) : soundAnswer (execSolPulse ring d s) := by
  refine command_sound h _ fun s h => ?_
  repeat' first
    | (with_reducible first | assumption | intro _ | apply State.takeRow_sound)
    | split

theorem execSolHold_sound (ring : Nat) (d : Desc) {s : State} (h : s.Sound) : soundAnswer (execSolHold ring d s) := by
  refine command_sound h _ fun s h => ?_
  repeat' first
    | (with_reducible first | assumption | intro _ | apply State.takeRow_sound)
    | split

theorem execDiagOffstate_sound (ring : Nat) (d : Desc) {s : State} (h : s.Sound) : soundAnswer (execDiagOffstate ring d s) := by
  refine command_sound h _ fun s h => ?_
  repeat' first
    | (with_reducible first | assumption | intro _ | apply State.takeRow_sound)
    | split

theorem execReadHistory_sound (ring : Nat) (d : Desc) {s : State} (h : s.Sound) : soundAnswer (execReadHistory ring d s) := by
  refine command_sound h _ fun s h => ?_
  repeat' first
    | (with_reducible first | assumption | intro _ | apply State.takeRow_sound)
    | split

theorem execSetMode_sound (ring : Nat) (d : Desc) {s : State} (h : s.Sound) : soundAnswer (execSetMode ring d s) := by
  refine command_sound h _ fun s h => ?_
  repeat' first
    | (with_reducible first | assumption | intro _ | apply State.takeRow_sound)
    | split

theorem execNvCommit_sound (ring : Nat) (d : Desc) {s : State} (h : s.Sound) : soundAnswer (execNvCommit ring d s) := by
  refine command_sound h _ fun s h => ?_
  repeat' first
    | (with_reducible first | assumption | intro _ | apply State.takeRow_sound)
    | split

theorem execSelfTest_sound (ring : Nat) (d : Desc) {s : State} (h : s.Sound) : soundAnswer (execSelfTest ring d s) := by
  refine command_sound h _ fun s h => ?_
  repeat' first
    | (with_reducible first | assumption | intro _ | apply State.takeRow_sound)
    | split

theorem execSpareApprove_sound (ring : Nat) (d : Desc) {s : State} (h : s.Sound) : soundAnswer (execSpareApprove ring d s) := by
  refine command_sound h _ fun s h => ?_
  repeat' first
    | (with_reducible first | assumption | intro _ | apply State.takeRow_sound)
    | split

theorem execGlbModeReqWrite_sound (v : Word) {s : State} (h : s.Sound) : soundAnswer (execGlbModeReqWrite v s) := by
  refine command_sound h _ fun s h => ?_
  repeat' first
    | (with_reducible first | assumption | intro _ | apply State.fullWrite_sound)
    | split

theorem execModeRequestTaken_sound {s : State} (h : s.Sound) : soundAnswer (execModeRequestTaken s) := by
  refine command_sound h _ fun s h => ?_
  repeat' first
    | (with_reducible first | assumption | intro _ | apply State.modeStep_sound)
    | split

theorem execAnchorSet_sound (v : Word) {s : State} (h : s.Sound) : soundAnswer (execAnchorSet v s) := by
  refine command_sound h _ fun s h => ?_
  repeat' first
    | (with_reducible first | assumption | intro _ | apply State.fullWrite_sound)
    | split

theorem execRefRcLoRead_sound {s : State} (h : s.Sound) : soundAnswer (execRefRcLoRead s) := by
  refine command_sound h _ fun s h => ?_
  repeat' first
    | (with_reducible first | assumption | intro _ | apply State.fullRead_sound)
    | split

theorem execLoRegisterRead_sound (off : Nat) {s : State} (h : s.Sound) : soundAnswer (execLoRegisterRead off s) := by
  refine command_sound h _ fun s h => ?_
  repeat' first
    | (with_reducible first | assumption | intro _ | apply State.fullRead_sound)
    | split

theorem execRocRead_sound (off : Nat) {s : State} (h : s.Sound) : soundAnswer (execRocRead off s) := by
  refine command_sound h _ fun s h => ?_
  repeat' first
    | (with_reducible first | assumption | intro _ | apply State.fullRead_sound)
    | split

theorem execNarrowRead_sound (addr : Nat) (en : List Bool) {s : State} (h : s.Sound) : soundAnswer (execNarrowRead addr en s) := by
  refine command_sound h _ fun s h => ?_
  repeat' first
    | (with_reducible first | assumption | intro _ | apply State.readRequest_sound)
    | split

theorem execNarrowWrite_sound (addr : Nat) (en : List Bool) (bytes : List Byte) {s : State} (h : s.Sound) : soundAnswer (execNarrowWrite addr en bytes s) := by
  refine command_sound h _ fun s h => ?_
  repeat' first
    | (with_reducible first | assumption | intro _ | apply State.writeRequest_sound)
    | split

theorem execRegisterWrite_sound (off : Nat) (v : Word) {s : State} (h : s.Sound) : soundAnswer (execRegisterWrite off v s) := by
  refine command_sound h _ fun s h => ?_
  repeat' first
    | (with_reducible first | assumption | intro _ | apply State.fullWrite_sound)
    | split

theorem execCrsCamDataAccess_sound (v : Option Word) {s : State} (h : s.Sound) : soundAnswer (execCrsCamDataAccess v s) := by
  refine command_sound h _ fun s h => ?_
  repeat' first
    | (with_reducible first | assumption | intro _ | apply State.fullWrite_sound | apply State.fullRead_sound)
    | split

theorem execFltHistSelWrite_sound (v : Word) {s : State} (h : s.Sound) : soundAnswer (execFltHistSelWrite v s) := by
  refine command_sound h _ fun s h => ?_
  repeat' first
    | (with_reducible first | assumption | intro _ | apply State.fullWrite_sound)
    | split

theorem execFltAck_sound (v : Word) {s : State} (h : s.Sound) : soundAnswer (execFltAck v s) := by
  refine command_sound h _ fun s h => ?_
  repeat' first
    | (with_reducible first | assumption | intro _ | apply State.fullWrite_sound)
    | split

theorem execFltInjArm_sound (v : Word) {s : State} (h : s.Sound) : soundAnswer (execFltInjArm v s) := by
  refine command_sound h _ fun s h => ?_
  repeat' first
    | (with_reducible first | assumption | intro _ | apply State.fullWrite_sound)
    | split

theorem execFltInjDisarm_sound (v : Word) {s : State} (h : s.Sound) : soundAnswer (execFltInjDisarm v s) := by
  refine command_sound h _ fun s h => ?_
  repeat' first
    | (with_reducible first | assumption | intro _ | apply State.fullWrite_sound)
    | split

theorem execFltPinLevel_sound (v : Word) {s : State} (h : s.Sound) : soundAnswer (execFltPinLevel v s) := by
  refine command_sound h _ fun s h => ?_
  repeat' first
    | (with_reducible first | assumption | intro _ | apply State.fullWrite_sound)
    | split

theorem execClrUnc_sound (k : UnitKind) (n : Nat) (v : Word) {s : State} (h : s.Sound) : soundAnswer (execClrUnc k n v s) := by
  refine command_sound h _ fun s h => ?_
  repeat' first
    | (with_reducible first | assumption | intro _ | apply State.fullWrite_sound)
    | split

theorem execClrTrip_sound (t l : Nat) (v : Word) {s : State} (h : s.Sound) : soundAnswer (execClrTrip t l v s) := by
  refine command_sound h _ fun s h => ?_
  repeat' first
    | (with_reducible first | assumption | intro _ | apply State.fullWrite_sound)
    | split

theorem execClrIso_sound (t : Nat) (v : Word) {s : State} (h : s.Sound) : soundAnswer (execClrIso t v s) := by
  refine command_sound h _ fun s h => ?_
  repeat' first
    | (with_reducible first | assumption | intro _ | apply State.fullWrite_sound)
    | split

theorem execInpSafeClr_sound (j : Nat) (v : Word) {s : State} (h : s.Sound) : soundAnswer (execInpSafeClr j v s) := by
  refine command_sound h _ fun s h => ?_
  repeat' first
    | (with_reducible first | assumption | intro _ | apply State.fullWrite_sound)
    | split

theorem execTrain_sound (v : Word) {s : State} (h : s.Sound) : soundAnswer (execTrain v s) := by
  refine command_sound h _ fun s h => ?_
  repeat' first
    | (with_reducible first | assumption | intro _ | apply State.fullWrite_sound)
    | split

theorem execArm_sound (t l : Nat) (v : Word) {s : State} (h : s.Sound) : soundAnswer (execArm t l v s) := by
  refine command_sound h _ fun s h => ?_
  repeat' first
    | (with_reducible first | assumption | intro _ | apply State.fullWrite_sound)
    | split

theorem execLegPwmPerWrite_sound (t l : Nat) (v : Word) {s : State} (h : s.Sound) : soundAnswer (execLegPwmPerWrite t l v s) := by
  refine command_sound h _ fun s h => ?_
  repeat' first
    | (with_reducible first | assumption | intro _ | apply State.fullWrite_sound)
    | split

theorem execCommit_sound (v : Word) {s : State} (h : s.Sound) : soundAnswer (execCommit v s) := by
  refine command_sound h _ fun s h => ?_
  repeat' first
    | (with_reducible first | assumption | intro _ | apply State.fullWrite_sound)
    | split

theorem execUncommit_sound (v : Word) {s : State} (h : s.Sound) : soundAnswer (execUncommit v s) := by
  refine command_sound h _ fun s h => ?_
  repeat' first
    | (with_reducible first | assumption | intro _ | apply State.fullWrite_sound)
    | split

theorem execCfgCrcRefWrite_sound (v : Word) {s : State} (h : s.Sound) : soundAnswer (execCfgCrcRefWrite v s) := by
  refine command_sound h _ fun s h => ?_
  repeat' first
    | (with_reducible first | assumption | intro _ | apply State.fullWrite_sound)
    | split

theorem execCfgLockWrite_sound (v : Word) {s : State} (h : s.Sound) : soundAnswer (execCfgLockWrite v s) := by
  refine command_sound h _ fun s h => ?_
  repeat' first
    | (with_reducible first | assumption | intro _ | apply State.fullWrite_sound)
    | split

theorem execUnitEnable_sound (k : UnitKind) (n : Nat) (v : Word) {s : State} (h : s.Sound) : soundAnswer (execUnitEnable k n v s) := by
  refine command_sound h _ fun s h => ?_
  repeat' first
    | (with_reducible first | assumption | intro _ | apply State.fullWrite_sound)
    | split

theorem execUnitDisable_sound (k : UnitKind) (n : Nat) (v : Word) {s : State} (h : s.Sound) : soundAnswer (execUnitDisable k n v s) := by
  refine command_sound h _ fun s h => ?_
  repeat' first
    | (with_reducible first | assumption | intro _ | apply State.fullWrite_sound)
    | split

theorem execDisableTakesEffect_sound (k : UnitKind) (n : Nat) {s : State} (h : s.Sound) : soundAnswer (execDisableTakesEffect k n s) := by
  refine command_sound h _ fun s h => ?_
  repeat' first
    | (with_reducible first | assumption | intro _ | apply State.disableNow_sound)
    | split

theorem execRefEnable_sound (v : Word) {s : State} (h : s.Sound) : soundAnswer (execRefEnable v s) := by
  refine command_sound h _ fun s h => ?_
  repeat' first
    | (with_reducible first | assumption | intro _ | apply State.fullWrite_sound)
    | split

theorem execRcStart_sound {s : State} (h : s.Sound) : soundAnswer (execRcStart s) := by
  refine command_sound h _ fun s h => ?_
  repeat' first
    | (with_reducible first | assumption | intro _ | apply State.rcBegin_sound)
    | split

theorem execRefDisable_sound (v : Word) {s : State} (h : s.Sound) : soundAnswer (execRefDisable v s) := by
  refine command_sound h _ fun s h => ?_
  repeat' first
    | (with_reducible first | assumption | intro _ | apply State.fullWrite_sound)
    | split

theorem execTcompEnWrite_sound (v : Word) {s : State} (h : s.Sound) : soundAnswer (execTcompEnWrite v s) := by
  refine command_sound h _ fun s h => ?_
  repeat' first
    | (with_reducible first | assumption | intro _ | apply State.fullWrite_sound)
    | split

theorem execHostEnable_sound (v : Word) {s : State} (h : s.Sound) : soundAnswer (execHostEnable v s) := by
  refine command_sound h _ fun s h => ?_
  repeat' first
    | (with_reducible first | assumption | intro _ | apply State.fullWrite_sound)
    | split

theorem execHostDisable_sound (v : Word) {s : State} (h : s.Sound) : soundAnswer (execHostDisable v s) := by
  refine command_sound h _ fun s h => ?_
  repeat' first
    | (with_reducible first | assumption | intro _ | apply State.fullWrite_sound)
    | split

theorem execRingEnable_sound (r : Nat) (v : Word) {s : State} (h : s.Sound) : soundAnswer (execRingEnable r v s) := by
  refine command_sound h _ fun s h => ?_
  repeat' first
    | (with_reducible first | assumption | intro _ | apply State.fullWrite_sound)
    | split

theorem execRingDisable_sound (r : Nat) (v : Word) {s : State} (h : s.Sound) : soundAnswer (execRingDisable r v s) := by
  refine command_sound h _ fun s h => ?_
  repeat' first
    | (with_reducible first | assumption | intro _ | apply State.fullWrite_sound)
    | split

theorem execHostRingQuotaWrite_sound (r : Nat) (v : Word) {s : State} (h : s.Sound) : soundAnswer (execHostRingQuotaWrite r v s) := by
  refine command_sound h _ fun s h => ?_
  repeat' first
    | (with_reducible first | assumption | intro _ | apply State.fullWrite_sound)
    | split

theorem execHostTileBudgetWrite_sound (t : Nat) (v : Word) {s : State} (h : s.Sound) : soundAnswer (execHostTileBudgetWrite t v s) := by
  refine command_sound h _ fun s h => ?_
  repeat' first
    | (with_reducible first | assumption | intro _ | apply State.fullWrite_sound)
    | split

theorem execTileCtrlEnWrite_sound (t : Nat) (v : Word) {s : State} (h : s.Sound) : soundAnswer (execTileCtrlEnWrite t v s) := by
  refine command_sound h _ fun s h => ?_
  repeat' first
    | (with_reducible first | assumption | intro _ | apply State.fullWrite_sound)
    | split

theorem execLegModeWrite_sound (t l : Nat) (v : Word) {s : State} (h : s.Sound) : soundAnswer (execLegModeWrite t l v s) := by
  refine command_sound h _ fun s h => ?_
  repeat' first
    | (with_reducible first | assumption | intro _ | apply State.fullWrite_sound)
    | split

theorem execStepPairEnable_sound (n : Nat) (v : Word) {s : State} (h : s.Sound) : soundAnswer (execStepPairEnable n v s) := by
  refine command_sound h _ fun s h => ?_
  repeat' first
    | (with_reducible first | assumption | intro _ | apply State.fullWrite_sound)
    | split

theorem execEncoderEnable_sound (n : Nat) (v : Word) {s : State} (h : s.Sound) : soundAnswer (execEncoderEnable n v s) := by
  refine command_sound h _ fun s h => ?_
  repeat' first
    | (with_reducible first | assumption | intro _ | apply State.fullWrite_sound)
    | split

theorem execInpFiltWrite_sound (j : Nat) (v : Word) {s : State} (h : s.Sound) : soundAnswer (execInpFiltWrite j v s) := by
  refine command_sound h _ fun s h => ?_
  repeat' first
    | (with_reducible first | assumption | intro _ | apply State.fullWrite_sound)
    | split

theorem execPolicyAutomatic_sound {s : State} (h : s.Sound) : soundAnswer (execPolicyAutomatic s) := by
  refine command_sound h _ fun s h => ?_
  repeat' first
    | (with_reducible first | assumption | intro _ | apply State.policyAuto_sound)
    | split

theorem execInterpolationPeriod_sound (o : PeriodObs) {s : State} (h : s.Sound) : soundAnswer (execInterpolationPeriod o s) := by
  refine command_sound h _ fun s h => ?_
  repeat' first
    | (with_reducible first | assumption | intro _ | apply State.interpolate_sound)
    | split

theorem execDoorbellReadComplete_sound (pis : List Word) {s : State} (h : s.Sound) : soundAnswer (execDoorbellReadComplete pis s) := by
  refine command_sound h _ fun s h => ?_
  repeat' first
    | (with_reducible first | assumption | intro _ | apply State.doorbell_sound)
    | split

theorem execPrefetchComplete_sound (r : Nat) (ok : Bool) (ds : List Desc) {s : State} (h : s.Sound) : soundAnswer (execPrefetchComplete r ok ds s) := by
  refine command_sound h _ fun s h => ?_
  repeat' first
    | (with_reducible first | assumption | intro _ | apply State.prefetched_sound)
    | split

theorem execParameterReadComplete_sound (r : Nat) (ok : Bool) (param : List Word) {s : State} (h : s.Sound) : soundAnswer (execParameterReadComplete r ok param s) := by
  refine command_sound h _ fun s h => ?_
  repeat' first
    | (with_reducible first | assumption | intro _ | apply State.paramDone_sound)
    | split

theorem execPlanningTick_sound (o : TickObs) {s : State} (h : s.Sound) : soundAnswer (execPlanningTick o s) := by
  refine command_sound h _ fun s h => ?_
  repeat' first
    | (with_reducible first | assumption | intro _ | apply State.tick_sound)
    | split

theorem execQuotaRefill_sound {s : State} (h : s.Sound) : soundAnswer (execQuotaRefill s) := by
  refine command_sound h _ fun s h => ?_
  repeat' first
    | (with_reducible first | assumption | intro _ | apply State.refillQuota_sound)
    | split

theorem execCrcPassStart_sound {s : State} (h : s.Sound) : soundAnswer (execCrcPassStart s) := by
  refine command_sound h _ fun s h => ?_
  repeat' first
    | (with_reducible first | assumption | intro _ | apply State.passBegin_sound)
    | split

theorem execCrcPassEnd_sound {s : State} (h : s.Sound) : soundAnswer (execCrcPassEnd s) := by
  refine command_sound h _ fun s h => ?_
  repeat' first
    | (with_reducible first | assumption | intro _ | apply State.passEnd_sound)
    | split

theorem execCoreScrub_sound (sigs : List Word) {s : State} (h : s.Sound) : soundAnswer (execCoreScrub sigs s) := by
  refine command_sound h _ fun s h => ?_
  (try dsimp only)
  repeat' first
    | (with_reducible first | assumption | intro _ | apply State.pass_sound | apply State.scrubCompare_sound)
    | split

theorem execSramScrubRead_sound (w : Nat) (f : SramFinding) {s : State} (h : s.Sound) : soundAnswer (execSramScrubRead w f s) := by
  refine command_sound h _ fun s h => ?_
  repeat' first
    | (with_reducible first | assumption | intro _ | apply State.sramRead_sound)
    | split

theorem execRowSpareCopyComplete_sound (r : Nat) {s : State} (h : s.Sound) : soundAnswer (execRowSpareCopyComplete r s) := by
  refine command_sound h _ fun s h => ?_
  repeat' first
    | (with_reducible first | assumption | intro _ | apply State.rowDone_sound)
    | split

theorem execStreamReadComplete_sound (w : Nat) (ok : Bool) (bytes : List Byte) {s : State} (h : s.Sound) : soundAnswer (execStreamReadComplete w ok bytes s) := by
  refine command_sound h _ fun s h => ?_
  repeat' first
    | (with_reducible first | assumption | intro _ | apply State.streamed_sound)
    | split

theorem execRevDwellEnd_sound (k : UnitKind) (n : Nat) {s : State} (h : s.Sound) : soundAnswer (execRevDwellEnd k n s) := by
  refine command_sound h _ fun s h => ?_
  repeat' first
    | (with_reducible first | assumption | intro _ | apply State.revEnd_sound)
    | split

theorem execThrottleDwellEnd_sound (k : UnitKind) (n : Nat) {s : State} (h : s.Sound) : soundAnswer (execThrottleDwellEnd k n s) := by
  refine command_sound h _ fun s h => ?_
  repeat' first
    | (with_reducible first | assumption | intro _ | apply State.dwellOver_sound)
    | split

theorem execStartRelease_sound (k : UnitKind) (n : Nat) {s : State} (h : s.Sound) : soundAnswer (execStartRelease k n s) := by
  refine command_sound h _ fun s h => ?_
  repeat' first
    | (with_reducible first | assumption | intro _ | apply State.releaseUnit_sound)
    | split

theorem execAxisEnergize_sound (a : Nat) {s : State} (h : s.Sound) : soundAnswer (execAxisEnergize a s) := by
  refine command_sound h _ fun s h => ?_
  repeat' first
    | (with_reducible first | assumption | intro _ | apply State.powerAtBoundary_sound)
    | split

theorem execDisplacementWatchStart_sound (a : Nat) {s : State} (h : s.Sound) : soundAnswer (execDisplacementWatchStart a s) := by
  refine command_sound h _ fun s h => ?_
  repeat' first
    | (with_reducible first | assumption | intro _ | apply State.watchStart_sound)
    | split

theorem execSolPulseStart_sound (t l : Nat) {s : State} (h : s.Sound) : soundAnswer (execSolPulseStart t l s) := by
  refine command_sound h _ fun s h => ?_
  repeat' first
    | (with_reducible first | assumption | intro _ | apply State.pulseCommand_sound)
    | split

theorem execPullInEnd_sound (t l : Nat) {s : State} (h : s.Sound) : soundAnswer (execPullInEnd t l s) := by
  refine command_sound h _ fun s h => ?_
  repeat' first
    | (with_reducible first | assumption | intro _ | apply State.pullInEnd_sound)
    | split

theorem execHoldEnd_sound (t l : Nat) {s : State} (h : s.Sound) : soundAnswer (execHoldEnd t l s) := by
  refine command_sound h _ fun s h => ?_
  repeat' first
    | (with_reducible first | assumption | intro _ | apply State.holdEnd_sound)
    | split

theorem execFreewheelEnd_sound (t l : Nat) {s : State} (h : s.Sound) : soundAnswer (execFreewheelEnd t l s) := by
  refine command_sound h _ fun s h => ?_
  repeat' first
    | (with_reducible first | assumption | intro _ | apply State.freewheelEnd_sound)
    | split

theorem execDiagLegPhaseEnd_sound (t : Nat) (first second : BitVec 12) {s : State} (h : s.Sound) : soundAnswer (execDiagLegPhaseEnd t first second s) := by
  refine command_sound h _ fun s h => ?_
  repeat' first
    | (with_reducible first | assumption | intro _ | apply State.diagPhase_sound)
    | split

theorem execNvStepComplete_sound (ok : Bool) {s : State} (h : s.Sound) : soundAnswer (execNvStepComplete ok s) := by
  refine command_sound h _ fun s h => ?_
  repeat' first
    | (with_reducible first | assumption | intro _ | apply State.nvStep_sound)
    | split

theorem execResetRelease_sound (en primaryGood : Bool) {s : State} (h : s.Sound) : soundAnswer (execResetRelease en primaryGood s) := by
  intro t e
  obtain rfl := Host.Outcome.next.inj e
  split
  · exact State.release0_sound h _ _
  · exact ⟨h.1, h.2⟩

theorem execInternalReset_sound {s : State} (h : s.Sound) : soundAnswer (execInternalReset s) := by
  refine command_sound h _ fun s h => ?_
  repeat' first
    | (with_reducible first | assumption | intro _ | apply State.enterReset_sound)
    | split

theorem execBootComplete_sound (o : BootObs) {s : State} (h : s.Sound) : soundAnswer (execBootComplete o s) := by
  refine command_sound h _ fun s h => ?_
  repeat' first
    | (with_reducible first | assumption | intro _ | apply State.boot_sound)
    | split

theorem execSealedToConfigure_sound {s : State} (h : s.Sound) : soundAnswer (execSealedToConfigure s) := by
  refine command_sound h _ fun s h => ?_
  repeat' first
    | (with_reducible first | assumption | intro _ | apply State.sealedOpen_sound)
    | split

theorem execLogicSupplyFail_sound {s : State} (h : s.Sound) : soundAnswer (execLogicSupplyFail s) := by
  intro t e
  obtain rfl := Host.Outcome.next.inj e
  exact State.powerLost_sound h

theorem execEnLow_sound {s : State} (h : s.Sound) : soundAnswer (execEnLow s) := by
  refine command_sound h _ fun s h => ?_
  repeat' first
    | (with_reducible first | assumption | intro _ | apply State.enFalls_sound)
    | split

theorem execVgateUv_sound (t : Nat) {s : State} (h : s.Sound) : soundAnswer (execVgateUv t s) := by
  refine command_sound h _ fun s h => ?_
  repeat' first
    | (with_reducible first | assumption | intro _ | apply State.vgateLow_sound)
    | split

theorem execVgateOv_sound (t : Nat) {s : State} (h : s.Sound) : soundAnswer (execVgateOv t s) := by
  refine command_sound h _ fun s h => ?_
  repeat' first
    | (with_reducible first | assumption | intro _ | apply State.vgateHigh_sound)
    | split

theorem execVmUv_sound (t : Nat) {s : State} (h : s.Sound) : soundAnswer (execVmUv t s) := by
  refine command_sound h _ fun s h => ?_
  repeat' first
    | (with_reducible first | assumption | intro _ | apply State.vmLow_sound)
    | split

theorem execVmOv_sound (t : Nat) {s : State} (h : s.Sound) : soundAnswer (execVmOv t s) := by
  refine command_sound h _ fun s h => ?_
  repeat' first
    | (with_reducible first | assumption | intro _ | apply State.vmHigh_sound)
    | split

theorem execBstUv_sound (t l : Nat) {s : State} (h : s.Sound) : soundAnswer (execBstUv t l s) := by
  refine command_sound h _ fun s h => ?_
  repeat' first
    | (with_reducible first | assumption | intro _ | apply State.bootLow_sound)
    | split

theorem execPrechargeTimeout_sound (t l : Nat) {s : State} (h : s.Sound) : soundAnswer (execPrechargeTimeout t l s) := by
  refine command_sound h _ fun s h => ?_
  repeat' first
    | (with_reducible first | assumption | intro _ | apply State.prechargeOut_sound)
    | split

theorem execHandshakeConfirm_sound (t l : Nat) (w : Switch) {s : State} (h : s.Sound) : soundAnswer (execHandshakeConfirm t l w s) := by
  refine command_sound h _ fun s h => ?_
  repeat' first
    | (with_reducible first | assumption | intro _ | apply State.handshake_sound)
    | split

theorem execDeadTimeEnd_sound (t l : Nat) (w : Switch) {s : State} (h : s.Sound) : soundAnswer (execDeadTimeEnd t l w s) := by
  refine command_sound h _ fun s h => ?_
  repeat' first
    | (with_reducible first | assumption | intro _ | apply State.deadEnd_sound)
    | split

theorem execGateHsTimeout_sound (t l : Nat) (w : Switch) {s : State} (h : s.Sound) : soundAnswer (execGateHsTimeout t l w s) := by
  refine command_sound h _ fun s h => ?_
  repeat' first
    | (with_reducible first | assumption | intro _ | apply State.hsTimeout_sound)
    | split

theorem execCrossCmd_sound (t l : Nat) {s : State} (h : s.Sound) : soundAnswer (execCrossCmd t l s) := by
  refine command_sound h _ fun s h => ?_
  repeat' first
    | (with_reducible first | assumption | intro _ | apply State.crossed_sound)
    | split

theorem execGateEdgeMeasured_sound (t l : Nat) (w : Switch) (on : Bool) (ticks seg : Nat) (dev : Bool) {s : State} (h : s.Sound) : soundAnswer (execGateEdgeMeasured t l w on ticks seg dev s) := by
  refine command_sound h _ fun s h => ?_
  repeat' first
    | (with_reducible first | assumption | intro _ | apply State.edge_sound)
    | split

theorem execSegmentConductsOff_sound (t l : Nat) (w : Switch) (seg : Nat) {s : State} (h : s.Sound) : soundAnswer (execSegmentConductsOff t l w seg s) := by
  refine command_sound h _ fun s h => ?_
  repeat' first
    | (with_reducible first | assumption | intro _ | apply State.conducts_sound)
    | split

theorem execDesaturation_sound (t l : Nat) (w : Switch) {s : State} (h : s.Sound) : soundAnswer (execDesaturation t l w s) := by
  refine command_sound h _ fun s h => ?_
  repeat' first
    | (with_reducible first | assumption | intro _ | apply State.desat_sound)
    | split

theorem execGrossDesaturation_sound (t l : Nat) (w : Switch) {s : State} (h : s.Sound) : soundAnswer (execGrossDesaturation t l w s) := by
  refine command_sound h _ fun s h => ?_
  repeat' first
    | (with_reducible first | assumption | intro _ | apply State.grossDesat_sound)
    | split

theorem execShuntTrip_sound (t l : Nat) {s : State} (h : s.Sound) : soundAnswer (execShuntTrip t l s) := by
  refine command_sound h _ fun s h => ?_
  repeat' first
    | (with_reducible first | assumption | intro _ | apply State.shunted_sound)
    | split

theorem execReactionWindowEnd_sound (n : Nat) {s : State} (h : s.Sound) : soundAnswer (execReactionWindowEnd n s) := by
  refine command_sound h _ fun s h => ?_
  repeat' first
    | (with_reducible first | assumption | intro _ | apply State.windowEnd_sound)
    | split

theorem execNfaultPulseEnd_sound {s : State} (h : s.Sound) : soundAnswer (execNfaultPulseEnd s) := by
  refine command_sound h _ fun s h => ?_
  repeat' first
    | (with_reducible first | assumption | intro _ | apply State.pulseOver_sound)
    | split

theorem execCoilComparatorTrip_sound (a : Nat) (c : Coil) (ticks : Nat) (sp : SpareTrip) {s : State} (h : s.Sound) : soundAnswer (execCoilComparatorTrip a c ticks sp s) := by
  refine command_sound h _ fun s h => ?_
  repeat' first
    | (with_reducible first | assumption | intro _ | apply State.comparatorTrip_sound)
    | split

theorem execBlankingEnd_sound (a : Nat) (c : Coil) (above : Bool) (sp : SpareTrip) {s : State} (h : s.Sound) : soundAnswer (execBlankingEnd a c above sp s) := by
  refine command_sound h _ fun s h => ?_
  repeat' first
    | (with_reducible first | assumption | intro _ | apply State.blankEnd_sound)
    | split

theorem execOnTimeSaturation_sound (a : Nat) (c : Coil) (spareTripped : Bool) {s : State} (h : s.Sound) : soundAnswer (execOnTimeSaturation a c spareTripped s) := by
  refine command_sound h _ fun s h => ?_
  repeat' first
    | (with_reducible first | assumption | intro _ | apply State.saturate_sound)
    | split

theorem execFastPortionEnd_sound (a : Nat) (c : Coil) {s : State} (h : s.Sound) : soundAnswer (execFastPortionEnd a c s) := by
  refine command_sound h _ fun s h => ?_
  repeat' first
    | (with_reducible first | assumption | intro _ | apply State.fastEnd_sound)
    | split

theorem execOffTimeEnd_sound (a : Nat) (c : Coil) {s : State} (h : s.Sound) : soundAnswer (execOffTimeEnd a c s) := by
  refine command_sound h _ fun s h => ?_
  repeat' first
    | (with_reducible first | assumption | intro _ | apply State.offEnd_sound)
    | split

theorem execSpareTakeover_sound (t : Nat) {s : State} (h : s.Sound) : soundAnswer (execSpareTakeover t s) := by
  refine command_sound h _ fun s h => ?_
  repeat' first
    | (with_reducible first | assumption | intro _ | apply State.takeOver_sound)
    | split

theorem execPwmPeriodBoundary_sound (t l : Nat) {s : State} (h : s.Sound) : soundAnswer (execPwmPeriodBoundary t l s) := by
  refine command_sound h _ fun s h => ?_
  repeat' first
    | (with_reducible first | assumption | intro _ | apply State.pwmBoundary_sound)
    | split

theorem execPwmDriveOn_sound (t l : Nat) {s : State} (h : s.Sound) : soundAnswer (execPwmDriveOn t l s) := by
  refine command_sound h _ fun s h => ?_
  repeat' first
    | (with_reducible first | assumption | intro _ | apply State.driveOn_sound)
    | split

theorem execPwmDriveOff_sound (t l : Nat) {s : State} (h : s.Sound) : soundAnswer (execPwmDriveOff t l s) := by
  refine command_sound h _ fun s h => ?_
  repeat' first
    | (with_reducible first | assumption | intro _ | apply State.driveOff_sound)
    | split

theorem execConverterTrigger_sound (t l : Nat) (which : Bool) {s : State} (h : s.Sound) : soundAnswer (execConverterTrigger t l which s) := by
  refine command_sound h _ fun s h => ?_
  repeat' first
    | (with_reducible first | assumption | intro _ | apply State.trigger_sound)
    | split

theorem execAdcConversionDone_sound (t : Nat) (code : BitVec 12) {s : State} (h : s.Sound) : soundAnswer (execAdcConversionDone t code s) := by
  refine command_sound h _ fun s h => ?_
  repeat' first
    | (with_reducible first | assumption | intro _ | apply State.adcDone_sound)
    | split

theorem execSenseQualifiedEdge_sound (n : Nat) (level : Bool) (earlier : List Bool) {s : State} (h : s.Sound) : soundAnswer (execSenseQualifiedEdge n level earlier s) := by
  refine command_sound h _ fun s h => ?_
  repeat' first
    | (with_reducible first | assumption | intro _ | apply State.senseEdge_sound)
    | split

theorem execInputKnown_sound (n : Nat) (samples : List Bool) {s : State} (h : s.Sound) : soundAnswer (execInputKnown n samples s) := by
  refine command_sound h _ fun s h => ?_
  repeat' first
    | (with_reducible first | assumption | intro _ | apply State.senseKnown_sound)
    | split

theorem execStpEdge_sound (n : Nat) (dirHigh : Bool) {s : State} (h : s.Sound) : soundAnswer (execStpEdge n dirHigh s) := by
  refine command_sound h _ fun s h => ?_
  repeat' first
    | (with_reducible first | assumption | intro _ | apply State.stepEdge_sound)
    | split

theorem execEncoderEdge_sound (n : Nat) (up both : Bool) {s : State} (h : s.Sound) : soundAnswer (execEncoderEdge n up both s) := by
  refine command_sound h _ fun s h => ?_
  repeat' first
    | (with_reducible first | assumption | intro _ | apply State.encEdge_sound)
    | split

theorem execEncoderIndexEdge_sound (n : Nat) {s : State} (h : s.Sound) : soundAnswer (execEncoderIndexEdge n s) := by
  refine command_sound h _ fun s h => ?_
  repeat' first
    | (with_reducible first | assumption | intro _ | apply State.encIndex_sound)
    | split

theorem execEncoderRateTimeout_sound (n : Nat) {s : State} (h : s.Sound) : soundAnswer (execEncoderRateTimeout n s) := by
  refine command_sound h _ fun s h => ?_
  repeat' first
    | (with_reducible first | assumption | intro _ | apply State.encTimeout_sound)
    | split

theorem execLineEdge_sound (e : LineEdge) {s : State} (h : s.Sound) : soundAnswer (execLineEdge e s) := by
  refine command_sound h _ fun s h => ?_
  repeat' first
    | (with_reducible first | assumption | intro _ | apply State.lineEdge_sound)
    | split

theorem execLineHoldover_sound (n : Nat) {s : State} (h : s.Sound) : soundAnswer (execLineHoldover n s) := by
  refine command_sound h _ fun s h => ?_
  repeat' first
    | (with_reducible first | assumption | intro _ | apply State.lineHold_sound)
    | split

theorem execLineLost_sound (n : Nat) {s : State} (h : s.Sound) : soundAnswer (execLineLost n s) := by
  refine command_sound h _ fun s h => ?_
  repeat' first
    | (with_reducible first | assumption | intro _ | apply State.lineGone_sound)
    | split

theorem execThermalSample_sound (t : Nat) (a b : BitVec 16) {s : State} (h : s.Sound) : soundAnswer (execThermalSample t a b s) := by
  refine command_sound h _ fun s h => ?_
  repeat' first
    | (with_reducible first | assumption | intro _ | apply State.thermalStep_sound)
    | split

theorem execDieTempUpdate_sound {s : State} (h : s.Sound) : soundAnswer (execDieTempUpdate s) := by
  refine command_sound h _ fun s h => ?_
  repeat' first
    | (with_reducible first | assumption | intro _ | apply State.dieTemp_sound)
    | split

theorem execSyncSend_sound {s : State} (h : s.Sound) : soundAnswer (execSyncSend s) := by
  refine command_sound h _ fun s h => ?_
  repeat' first
    | (with_reducible first | assumption | intro _ | apply State.syncSend_sound)
    | split

theorem execSyncReceive_sound (f : List Byte) {s : State} (h : s.Sound) : soundAnswer (execSyncReceive f s) := by
  refine command_sound h _ fun s h => ?_
  repeat' first
    | (with_reducible first | assumption | intro _ | apply State.syncReceive_sound)
    | split

theorem execSyncMissing_sound {s : State} (h : s.Sound) : soundAnswer (execSyncMissing s) := by
  refine command_sound h _ fun s h => ?_
  repeat' first
    | (with_reducible first | assumption | intro _ | apply State.syncMissing_sound)
    | split

theorem execFaultFrameReceive_sound (port : Nat) (f : List Byte) {s : State} (h : s.Sound) : soundAnswer (execFaultFrameReceive port f s) := by
  refine command_sound h _ fun s h => ?_
  repeat' first
    | (with_reducible first | assumption | intro _ | apply State.faultFrame_sound)
    | split

theorem execUpstatusReceive_sound (f : List Byte) {s : State} (h : s.Sound) : soundAnswer (execUpstatusReceive f s) := by
  refine command_sound h _ fun s h => ?_
  repeat' first
    | (with_reducible first | assumption | intro _ | apply State.upReceive_sound)
    | split

theorem execLinkAlignmentGained_sound (port : Nat) {s : State} (h : s.Sound) : soundAnswer (execLinkAlignmentGained port s) := by
  refine command_sound h _ fun s h => ?_
  repeat' first
    | (with_reducible first | assumption | intro _ | apply State.alignGained_sound)
    | split

theorem execTrainReqSend_sound {s : State} (h : s.Sound) : soundAnswer (execTrainReqSend s) := by
  refine command_sound h _ fun s h => ?_
  repeat' first
    | (with_reducible first | assumption | intro _ | apply State.reqSend_sound)
    | split

theorem execTrainReqReceive_sound (port : Nat) (f : List Byte) (wait : Nat) {s : State} (h : s.Sound) : soundAnswer (execTrainReqReceive port f wait s) := by
  refine command_sound h _ fun s h => ?_
  repeat' first
    | (with_reducible first | assumption | intro _ | apply State.reqReceive_sound)
    | split

theorem execTrainEchoReceive_sound (f : List Byte) (rtt : Nat) {s : State} (h : s.Sound) : soundAnswer (execTrainEchoReceive f rtt s) := by
  refine command_sound h _ fun s h => ?_
  repeat' first
    | (with_reducible first | assumption | intro _ | apply State.echoReceive_sound)
    | split

theorem execOscSwitch_sound {s : State} (h : s.Sound) : soundAnswer (execOscSwitch s) := by
  refine command_sound h _ fun s h => ?_
  repeat' first
    | (with_reducible first | assumption | intro _ | apply State.primaryFails_sound)
    | split

theorem execReturnToPrimary_sound {s : State} (h : s.Sound) : soundAnswer (execReturnToPrimary s) := by
  refine command_sound h _ fun s h => ?_
  repeat' first
    | (with_reducible first | assumption | intro _ | apply State.oscReturn_sound)
    | split

theorem execOscBkpFail_sound {s : State} (h : s.Sound) : soundAnswer (execOscBkpFail s) := by
  refine command_sound h _ fun s h => ?_
  repeat' first
    | (with_reducible first | assumption | intro _ | apply State.bkpFail_sound)
    | split

theorem execClkLost_sound {s : State} (h : s.Sound) : soundAnswer (execClkLost s) := by
  refine command_sound h _ fun s h => ?_
  repeat' first
    | (with_reducible first | assumption | intro _ | apply State.clockLost_sound)
    | split

theorem execHostLinkDown_sound (cause : Nat) {s : State} (h : s.Sound) : soundAnswer (execHostLinkDown cause s) := by
  refine command_sound h _ fun s h => ?_
  repeat' first
    | (with_reducible first | assumption | intro _ | apply State.linkDown_sound)
    | split

theorem execHotReset_sound {s : State} (h : s.Sound) : soundAnswer (execHotReset s) := by
  refine command_sound h _ fun s h => ?_
  (try dsimp only)
  repeat' first
    | (with_reducible first | assumption | intro _ | apply State.linkDown_sound)
    | split
    | (rw [State.sound_mk]; refine ⟨?_, ?_⟩)
    | (with_reducible first | apply State.Sound.tiles | apply State.Sound.hist | apply State.Sound.leg | apply State.Sound.legs | apply legsOk.get)
    | dsimp only

theorem execBusWriteVote_sound (c0 c1 c2 : Option BusCopy) (agree : Bool) {s : State} (h : s.Sound) : soundAnswer (execBusWriteVote c0 c1 c2 agree s) := by
  refine command_sound h _ fun s h => ?_
  repeat' first
    | (with_reducible first | assumption | intro _ | apply State.busVote_sound)
    | split

theorem execDelayParity_sound (slot : Nat) (check : DelayCheck) {s : State} (h : s.Sound) : soundAnswer (execDelayParity slot check s) := by
  refine command_sound h _ fun s h => ?_
  repeat' first
    | (with_reducible first | assumption | intro _ | apply State.parity_sound)
    | split

theorem execResyncComplete_sound (good : Bool) {s : State} (h : s.Sound) : soundAnswer (execResyncComplete good s) := by
  refine command_sound h _ fun s h => ?_
  repeat' first
    | (with_reducible first | assumption | intro _ | apply State.resyncDone_sound)
    | split

theorem execRepetitionPassed_sound {s : State} (h : s.Sound) : soundAnswer (execRepetitionPassed s) := by
  refine command_sound h _ fun s h => ?_
  repeat' first
    | (with_reducible first | assumption | intro _ | apply State.repeated_sound)
    | split

theorem execPairDisagree_sound {s : State} (h : s.Sound) : soundAnswer (execPairDisagree s) := by
  refine command_sound h _ fun s h => ?_
  repeat' first
    | (with_reducible first | assumption | intro _ | apply State.pairFails_sound)
    | split

theorem execKnownAnswerTestEnd_sound (passed : List Nat) {s : State} (h : s.Sound) : soundAnswer (execKnownAnswerTestEnd passed s) := by
  refine command_sound h _ fun s h => ?_
  repeat' first
    | (with_reducible first | assumption | intro _ | apply State.katEnd_sound)
    | split

theorem execDbgFreeze_sound {s : State} (h : s.Sound) : soundAnswer (execDbgFreeze s) := by
  refine command_sound h _ fun s h => ?_
  repeat' first
    | (with_reducible first | assumption | intro _ | apply State.freezeOn_sound)
    | split

theorem execFreezeRelease_sound {s : State} (h : s.Sound) : soundAnswer (execFreezeRelease s) := by
  refine command_sound h _ fun s h => ?_
  repeat' first
    | (with_reducible first | assumption | intro _ | apply State.freezeOff_sound)
    | split

theorem execCoreHold_sound {s : State} (h : s.Sound) : soundAnswer (execCoreHold s) := by
  refine command_sound h _ fun s h => ?_
  repeat' first
    | (with_reducible first | assumption | intro _ | apply State.holdCores_sound)
    | split

theorem execCoreHoldRelease_sound {s : State} (h : s.Sound) : soundAnswer (execCoreHoldRelease s) := by
  refine command_sound h _ fun s h => ?_
  repeat' first
    | (with_reducible first | assumption | intro _ | apply State.releaseCores_sound)
    | split

theorem execRefoutPulseEnd_sound (n : Nat) {s : State} (h : s.Sound) : soundAnswer (execRefoutPulseEnd n s) := by
  refine command_sound h _ fun s h => ?_
  repeat' first
    | (with_reducible first | assumption | intro _ | apply State.outEnd_sound)
    | split

theorem execVgateGood_sound (t : Nat) {s : State} (h : s.Sound) : soundAnswer (execVgateGood t s) := by
  refine command_sound h _ fun s h => ?_
  repeat' first
    | (with_reducible first | assumption | intro _ | apply State.vgateBack_sound)
    | split

theorem execVmGood_sound (t : Nat) {s : State} (h : s.Sound) : soundAnswer (execVmGood t s) := by
  refine command_sound h _ fun s h => ?_
  repeat' first
    | (with_reducible first | assumption | intro _ | apply State.vmBack_sound)
    | split

theorem execBootstrapGood_sound (t l : Nat) {s : State} (h : s.Sound) : soundAnswer (execBootstrapGood t l s) := by
  refine command_sound h _ fun s h => ?_
  repeat' first
    | (with_reducible first | assumption | intro _ | apply State.bootGood_sound)
    | split

theorem execEnHigh_sound {s : State} (h : s.Sound) : soundAnswer (execEnHigh s) := by
  refine command_sound h _ fun s h => ?_
  (try dsimp only)
  repeat' first
    | (with_reducible first | assumption | intro _)
    | split
    | (rw [State.sound_mk]; refine ⟨?_, ?_⟩)
    | (with_reducible first | apply State.Sound.tiles | apply State.Sound.hist | apply State.Sound.leg | apply State.Sound.legs | apply legsOk.get)
    | dsimp only

theorem execPrimaryOscGood_sound {s : State} (h : s.Sound) : soundAnswer (execPrimaryOscGood s) := by
  refine command_sound h _ fun s h => ?_
  repeat' first
    | (with_reducible first | assumption | intro _ | apply State.primaryGood_sound)
    | split

theorem execHostLinkUp_sound {s : State} (h : s.Sound) : soundAnswer (execHostLinkUp s) := by
  refine command_sound h _ fun s h => ?_
  repeat' first
    | (with_reducible first | assumption | intro _ | apply State.linkUpNow_sound)
    | split

theorem execStraitAlignmentLost_sound (port : Nat) {s : State} (h : s.Sound) : soundAnswer (execStraitAlignmentLost port s) := by
  refine command_sound h _ fun s h => ?_
  repeat' first
    | (with_reducible first | assumption | intro _ | apply State.alignLost_sound)
    | split

theorem execStepPairDisable_sound (n : Nat) (v : Word) {s : State} (h : s.Sound) : soundAnswer (execStepPairDisable n v s) := by
  refine command_sound h _ fun s h => ?_
  repeat' first
    | (with_reducible first | assumption | intro _ | apply State.fullWrite_sound)
    | split

theorem execRefoutMark_sound (n : Nat) {s : State} (h : s.Sound) : soundAnswer (execRefoutMark n s) := by
  refine command_sound h _ fun s h => ?_
  repeat' first
    | (with_reducible first | assumption | intro _ | apply State.outMark_sound)
    | split

theorem execShadowCheckTimeout_sound (t : Nat) {s : State} (h : s.Sound) : soundAnswer (execShadowCheckTimeout t s) := by
  refine command_sound h _ fun s h => ?_
  repeat' first
    | (with_reducible first | assumption | intro _ | apply State.checkTimeout_sound)
    | split

theorem execDbgTapInstruction_sound (i : TapInstr) {s : State} (h : s.Sound) : soundAnswer (execDbgTapInstruction i s) := by
  refine command_sound h _ fun s h => ?_
  repeat' first
    | (with_reducible first | assumption | intro _ | apply State.tapLoad_sound)
    | split

/-- Every command keeps soundness. -/
theorem exec_sound (c : Instr) {s : State} (h : s.Sound) : soundAnswer (exec c s) := by
  cases c with
  | nop _ _ => exact execNop_sound _ _ h
  | fence _ _ => exact execFence_sound _ _ h
  | waitRc _ _ => exact execWaitRc_sound _ _ h
  | setProfile _ _ => exact execSetProfile_sound _ _ h
  | moveTo _ _ => exact execMoveTo_sound _ _ h
  | moveBy _ _ => exact execMoveBy_sound _ _ h
  | velocity _ _ => exact execVelocity_sound _ _ h
  | stop _ _ => exact execStop_sound _ _ h
  | qstop _ _ => exact execQstop_sound _ _ h
  | resume _ _ => exact execResume_sound _ _ h
  | setCurrent _ _ => exact execSetCurrent_sound _ _ h
  | home _ _ => exact execHome_sound _ _ h
  | characterize _ _ => exact execCharacterize_sound _ _ h
  | playTable _ _ => exact execPlayTable_sound _ _ h
  | followSteps _ _ => exact execFollowSteps_sound _ _ h
  | bindCourse _ _ => exact execBindCourse_sound _ _ h
  | unbindCourse _ _ => exact execUnbindCourse_sound _ _ h
  | solPulse _ _ => exact execSolPulse_sound _ _ h
  | solHold _ _ => exact execSolHold_sound _ _ h
  | diagOffstate _ _ => exact execDiagOffstate_sound _ _ h
  | readHistory _ _ => exact execReadHistory_sound _ _ h
  | setMode _ _ => exact execSetMode_sound _ _ h
  | nvCommit _ _ => exact execNvCommit_sound _ _ h
  | selfTest _ _ => exact execSelfTest_sound _ _ h
  | spareApprove _ _ => exact execSpareApprove_sound _ _ h
  | glbModeReqWrite _ => exact execGlbModeReqWrite_sound _ h
  | modeRequestTaken => exact execModeRequestTaken_sound h
  | anchorSet _ => exact execAnchorSet_sound _ h
  | refRcLoRead => exact execRefRcLoRead_sound h
  | loRegisterRead _ => exact execLoRegisterRead_sound _ h
  | rocRead _ => exact execRocRead_sound _ h
  | narrowRead _ _ => exact execNarrowRead_sound _ _ h
  | narrowWrite _ _ _ => exact execNarrowWrite_sound _ _ _ h
  | registerWrite _ _ => exact execRegisterWrite_sound _ _ h
  | crsCamDataAccess _ => exact execCrsCamDataAccess_sound _ h
  | fltHistSelWrite _ => exact execFltHistSelWrite_sound _ h
  | fltAck _ => exact execFltAck_sound _ h
  | fltInjArm _ => exact execFltInjArm_sound _ h
  | fltInjDisarm _ => exact execFltInjDisarm_sound _ h
  | fltPinLevel _ => exact execFltPinLevel_sound _ h
  | clrUnc _ _ _ => exact execClrUnc_sound _ _ _ h
  | clrTrip _ _ _ => exact execClrTrip_sound _ _ _ h
  | clrIso _ _ => exact execClrIso_sound _ _ h
  | inpSafeClr _ _ => exact execInpSafeClr_sound _ _ h
  | train _ => exact execTrain_sound _ h
  | arm _ _ _ => exact execArm_sound _ _ _ h
  | legPwmPerWrite _ _ _ => exact execLegPwmPerWrite_sound _ _ _ h
  | commit _ => exact execCommit_sound _ h
  | uncommit _ => exact execUncommit_sound _ h
  | cfgCrcRefWrite _ => exact execCfgCrcRefWrite_sound _ h
  | cfgLockWrite _ => exact execCfgLockWrite_sound _ h
  | unitEnable _ _ _ => exact execUnitEnable_sound _ _ _ h
  | unitDisable _ _ _ => exact execUnitDisable_sound _ _ _ h
  | disableTakesEffect _ _ => exact execDisableTakesEffect_sound _ _ h
  | refEnable _ => exact execRefEnable_sound _ h
  | rcStart => exact execRcStart_sound h
  | refDisable _ => exact execRefDisable_sound _ h
  | tcompEnWrite _ => exact execTcompEnWrite_sound _ h
  | hostEnable _ => exact execHostEnable_sound _ h
  | hostDisable _ => exact execHostDisable_sound _ h
  | ringEnable _ _ => exact execRingEnable_sound _ _ h
  | ringDisable _ _ => exact execRingDisable_sound _ _ h
  | hostRingQuotaWrite _ _ => exact execHostRingQuotaWrite_sound _ _ h
  | hostTileBudgetWrite _ _ => exact execHostTileBudgetWrite_sound _ _ h
  | tileCtrlEnWrite _ _ => exact execTileCtrlEnWrite_sound _ _ h
  | legModeWrite _ _ _ => exact execLegModeWrite_sound _ _ _ h
  | stepPairEnable _ _ => exact execStepPairEnable_sound _ _ h
  | encoderEnable _ _ => exact execEncoderEnable_sound _ _ h
  | inpFiltWrite _ _ => exact execInpFiltWrite_sound _ _ h
  | policyAutomatic => exact execPolicyAutomatic_sound h
  | interpolationPeriod _ => exact execInterpolationPeriod_sound _ h
  | doorbellReadComplete _ => exact execDoorbellReadComplete_sound _ h
  | prefetchComplete _ _ _ => exact execPrefetchComplete_sound _ _ _ h
  | parameterReadComplete _ _ _ => exact execParameterReadComplete_sound _ _ _ h
  | planningTick _ => exact execPlanningTick_sound _ h
  | quotaRefill => exact execQuotaRefill_sound h
  | crcPassStart => exact execCrcPassStart_sound h
  | crcPassEnd => exact execCrcPassEnd_sound h
  | coreScrub _ => exact execCoreScrub_sound _ h
  | sramScrubRead _ _ => exact execSramScrubRead_sound _ _ h
  | rowSpareCopyComplete _ => exact execRowSpareCopyComplete_sound _ h
  | streamReadComplete _ _ _ => exact execStreamReadComplete_sound _ _ _ h
  | revDwellEnd _ _ => exact execRevDwellEnd_sound _ _ h
  | throttleDwellEnd _ _ => exact execThrottleDwellEnd_sound _ _ h
  | startRelease _ _ => exact execStartRelease_sound _ _ h
  | axisEnergize _ => exact execAxisEnergize_sound _ h
  | displacementWatchStart _ => exact execDisplacementWatchStart_sound _ h
  | solPulseStart _ _ => exact execSolPulseStart_sound _ _ h
  | pullInEnd _ _ => exact execPullInEnd_sound _ _ h
  | holdEnd _ _ => exact execHoldEnd_sound _ _ h
  | freewheelEnd _ _ => exact execFreewheelEnd_sound _ _ h
  | diagLegPhaseEnd _ _ _ => exact execDiagLegPhaseEnd_sound _ _ _ h
  | nvStepComplete _ => exact execNvStepComplete_sound _ h
  | resetRelease _ _ => exact execResetRelease_sound _ _ h
  | internalReset => exact execInternalReset_sound h
  | bootComplete _ => exact execBootComplete_sound _ h
  | sealedToConfigure => exact execSealedToConfigure_sound h
  | logicSupplyFail => exact execLogicSupplyFail_sound h
  | enLow => exact execEnLow_sound h
  | vgateUv _ => exact execVgateUv_sound _ h
  | vgateOv _ => exact execVgateOv_sound _ h
  | vmUv _ => exact execVmUv_sound _ h
  | vmOv _ => exact execVmOv_sound _ h
  | bstUv _ _ => exact execBstUv_sound _ _ h
  | prechargeTimeout _ _ => exact execPrechargeTimeout_sound _ _ h
  | handshakeConfirm _ _ _ => exact execHandshakeConfirm_sound _ _ _ h
  | deadTimeEnd _ _ _ => exact execDeadTimeEnd_sound _ _ _ h
  | gateHsTimeout _ _ _ => exact execGateHsTimeout_sound _ _ _ h
  | crossCmd _ _ => exact execCrossCmd_sound _ _ h
  | gateEdgeMeasured _ _ _ _ _ _ _ => exact execGateEdgeMeasured_sound _ _ _ _ _ _ _ h
  | segmentConductsOff _ _ _ _ => exact execSegmentConductsOff_sound _ _ _ _ h
  | desaturation _ _ _ => exact execDesaturation_sound _ _ _ h
  | grossDesaturation _ _ _ => exact execGrossDesaturation_sound _ _ _ h
  | shuntTrip _ _ => exact execShuntTrip_sound _ _ h
  | reactionWindowEnd _ => exact execReactionWindowEnd_sound _ h
  | nfaultPulseEnd => exact execNfaultPulseEnd_sound h
  | coilComparatorTrip _ _ _ _ => exact execCoilComparatorTrip_sound _ _ _ _ h
  | blankingEnd _ _ _ _ => exact execBlankingEnd_sound _ _ _ _ h
  | onTimeSaturation _ _ _ => exact execOnTimeSaturation_sound _ _ _ h
  | fastPortionEnd _ _ => exact execFastPortionEnd_sound _ _ h
  | offTimeEnd _ _ => exact execOffTimeEnd_sound _ _ h
  | spareTakeover _ => exact execSpareTakeover_sound _ h
  | pwmPeriodBoundary _ _ => exact execPwmPeriodBoundary_sound _ _ h
  | pwmDriveOn _ _ => exact execPwmDriveOn_sound _ _ h
  | pwmDriveOff _ _ => exact execPwmDriveOff_sound _ _ h
  | converterTrigger _ _ _ => exact execConverterTrigger_sound _ _ _ h
  | adcConversionDone _ _ => exact execAdcConversionDone_sound _ _ h
  | senseQualifiedEdge _ _ _ => exact execSenseQualifiedEdge_sound _ _ _ h
  | inputKnown _ _ => exact execInputKnown_sound _ _ h
  | stpEdge _ _ => exact execStpEdge_sound _ _ h
  | encoderEdge _ _ _ => exact execEncoderEdge_sound _ _ _ h
  | encoderIndexEdge _ => exact execEncoderIndexEdge_sound _ h
  | encoderRateTimeout _ => exact execEncoderRateTimeout_sound _ h
  | lineEdge _ => exact execLineEdge_sound _ h
  | lineHoldover _ => exact execLineHoldover_sound _ h
  | lineLost _ => exact execLineLost_sound _ h
  | thermalSample _ _ _ => exact execThermalSample_sound _ _ _ h
  | dieTempUpdate => exact execDieTempUpdate_sound h
  | syncSend => exact execSyncSend_sound h
  | syncReceive _ => exact execSyncReceive_sound _ h
  | syncMissing => exact execSyncMissing_sound h
  | faultFrameReceive _ _ => exact execFaultFrameReceive_sound _ _ h
  | upstatusReceive _ => exact execUpstatusReceive_sound _ h
  | linkAlignmentGained _ => exact execLinkAlignmentGained_sound _ h
  | trainReqSend => exact execTrainReqSend_sound h
  | trainReqReceive _ _ _ => exact execTrainReqReceive_sound _ _ _ h
  | trainEchoReceive _ _ => exact execTrainEchoReceive_sound _ _ h
  | oscSwitch => exact execOscSwitch_sound h
  | returnToPrimary => exact execReturnToPrimary_sound h
  | oscBkpFail => exact execOscBkpFail_sound h
  | clkLost => exact execClkLost_sound h
  | hostLinkDown _ => exact execHostLinkDown_sound _ h
  | hotReset => exact execHotReset_sound h
  | busWriteVote _ _ _ _ => exact execBusWriteVote_sound _ _ _ _ h
  | delayParity _ _ => exact execDelayParity_sound _ _ h
  | resyncComplete _ => exact execResyncComplete_sound _ h
  | repetitionPassed => exact execRepetitionPassed_sound h
  | pairDisagree => exact execPairDisagree_sound h
  | knownAnswerTestEnd _ => exact execKnownAnswerTestEnd_sound _ h
  | dbgFreeze => exact execDbgFreeze_sound h
  | freezeRelease => exact execFreezeRelease_sound h
  | coreHold => exact execCoreHold_sound h
  | coreHoldRelease => exact execCoreHoldRelease_sound h
  | refoutPulseEnd _ => exact execRefoutPulseEnd_sound _ h
  | vgateGood _ => exact execVgateGood_sound _ h
  | vmGood _ => exact execVmGood_sound _ h
  | bootstrapGood _ _ => exact execBootstrapGood_sound _ _ h
  | enHigh => exact execEnHigh_sound h
  | primaryOscGood => exact execPrimaryOscGood_sound h
  | hostLinkUp => exact execHostLinkUp_sound h
  | straitAlignmentLost _ => exact execStraitAlignmentLost_sound _ h
  | stepPairDisable _ _ => exact execStepPairDisable_sound _ _ h
  | refoutMark _ => exact execRefoutMark_sound _ h
  | shadowCheckTimeout _ => exact execShadowCheckTimeout_sound _ h
  | dbgTapInstruction _ => exact execDbgTapInstruction_sound _ h

/-- Every step keeps soundness. -/
theorem step_sound {s t : State} (h : s.Sound) (e : step s = .next t) : t.Sound := by
  unfold step at e
  split at e
  · obtain rfl := Host.Outcome.next.inj e
    exact idle_sound h
  · rename_i c rest _
    exact exec_sound c (s := { s with pending := rest }) ⟨h.1, h.2⟩ t e

end Sys2Proof.Machine
end

