-- ==== Sys2Proof/Laws/Stores.lean ====
section
/-! SUPPORT. The operations that change what Laws/Kept.lean says the others keep: register writes, the load of the NV image, EN, the debug port and
resets. For each, what it changes of it and what it still keeps. -/

namespace Sys2Proof.Machine

/-! ### What register writes keep -/

/-- What a register write leaves as it is, whatever its place. -/
def State.base (s : State) : Variant × List Instr × Bool × TapPort × Bool := (s.variant, s.pending, s.inReset, s.tap, s.glb.enIn)

/-- What the load of an NV image leaves as it is besides: the cam pool with its address, and CFG_LOCK. -/
def State.outer (s : State) : (Variant × List Instr × Bool × TapPort × Bool) × List Host.Cell × Nat × Word × Bool :=
  (s.base, s.cam, s.camAddr, s.cfg.lock, s.cfg.lockWritten)

theorem State.outer_of_kept {s t : State} (h : t.kept = s.kept) : t.outer = s.outer := by
  simp only [State.kept, Prod.mk.injEq] at h
  simp [State.outer, State.base, h]

theorem State.base_of_outer {s t : State} (h : t.outer = s.outer) : t.base = s.base := by
  simp only [State.outer, Prod.mk.injEq] at h
  exact h.1

theorem State.base_of_kept {s t : State} (h : t.kept = s.kept) : t.base = s.base := State.base_of_outer (State.outer_of_kept h)

theorem State.cam_of_kept {s t : State} (h : t.kept = s.kept) : t.cam = s.cam := by
  simp only [State.kept, Prod.mk.injEq] at h
  exact h.2.2.1

theorem State.camAddr_of_kept {s t : State} (h : t.kept = s.kept) : t.camAddr = s.camAddr := by
  simp only [State.kept, Prod.mk.injEq] at h
  exact h.2.2.2.1

theorem State.lock_of_kept {s t : State} (h : t.kept = s.kept) : t.cfg.lock = s.cfg.lock ∧ t.cfg.lockWritten = s.cfg.lockWritten := by
  simp only [State.kept, Prod.mk.injEq] at h
  exact h.2.2.2.2.2.2.2.2

/-- A fold keeps what each of its steps keeps, for the elements of its list. -/
theorem foldl_outer (f : State → α → State) (l : List α) (h : ∀ s, ∀ a ∈ l, (f s a).outer = s.outer) (s : State) :
    (l.foldl f s).outer = s.outer := by
  exact List.foldlRecOn l f (motive := fun t => t.outer = s.outer) rfl fun t ht a ha => (h t a ha).trans ht

/-- A store outside the cam pool and its address, the microstep tables and CFG_LOCK keeps all of it. -/
theorem State.store_kept (s : State) (l : Loc) (v : Word) (h1 : ∀ o, l ≠ .cam o) (h2 : ∀ w, l ≠ .tbl w) (h3 : l ≠ .cfg 0x10) :
    (s.store l v).kept = s.kept := by
  unfold State.store
  split <;> first
    | exact absurd rfl (h1 _)
    | exact absurd rfl (h2 _)
    | exact absurd rfl h3
    | exact (State.kept_mk ..).trans (State.kept_eta _)
    | exact State.refStore_kept ..
    | exact State.setTwin_kept ..
    | exact State.updRing_kept ..
    | exact State.updSpr_kept ..
    | exact State.updAxis_kept ..
    | exact State.updCourse_kept ..
    | exact State.updTile_kept ..
    | exact State.updLeg_kept ..
    | rfl
    | (split <;> first | exact (State.kept_mk ..).trans (State.kept_eta _) | rfl)

/-- A store into the microstep tables changes them alone. -/
theorem State.store_tbl_outer (s : State) (w : Nat) (v : Word) : (s.store (.tbl w) v).outer = s.outer := rfl

theorem State.store_outer (s : State) (l : Loc) (v : Word) (h1 : ∀ o, l ≠ .cam o) (h3 : l ≠ .cfg 0x10) :
    (s.store l v).outer = s.outer := by
  by_cases h : ∃ w, l = .tbl w
  · obtain ⟨w, rfl⟩ := h
    exact State.store_tbl_outer s w v
  · exact State.outer_of_kept (State.store_kept s l v h1 (fun w e => h ⟨w, e⟩) h3)

/-- A store into the cam registers changes the pool and its address alone. -/
theorem State.store_cam (s : State) (o : Nat) (v : Word) :
    (s.store (.cam o) v).base = s.base ∧ (s.store (.cam o) v).cfg = s.cfg ∧
    ((s.store (.cam o) v).cam = s.cam ∨ (s.store (.cam o) v).cam = Memory.writeWord s.cam s.camAddr v) ∧
    ((s.store (.cam o) v).camAddr = s.camAddr ∨ o = 0 ∧ (s.store (.cam o) v).camAddr = v.toNat) := by
  by_cases h0 : o = 0
  · subst h0; exact ⟨rfl, rfl, .inl rfl, .inr ⟨rfl, rfl⟩⟩
  · by_cases h4 : o = 4
    · subst h4; exact ⟨rfl, rfl, .inr rfl, .inl rfl⟩
    · have e : s.store (.cam o) v = s := by
        unfold State.store
        split <;> simp_all
      rw [e]
      exact ⟨rfl, rfl, .inl rfl, .inl rfl⟩

theorem State.store_base (s : State) (l : Loc) (v : Word) : (s.store l v).base = s.base := by
  by_cases h1 : ∃ o, l = .cam o
  · obtain ⟨o, rfl⟩ := h1; exact (State.store_cam s o v).1
  · by_cases h3 : l = .cfg 0x10
    · subst h3; rfl
    · exact State.base_of_outer (State.store_outer s l v (fun o e => h1 ⟨o, e⟩) h3)

/-! ### A full write -/

/-- No bit is picked by an empty mask. -/
@[simp] theorem changes_zero (a b : Word) : changes a b 0 = false := by simp [changes, wd]

/-- The fields of a register take their value; whatever the place, what every register write keeps stays. -/
theorem State.putLoc_base (s : State) (l : Loc) (v : Word) : (s.putLoc l v).base = s.base := by
  unfold State.putLoc
  split
  · split
    · rfl
    · exact State.store_base ..
  · exact State.base_of_kept (State.filtWrite_kept ..)
  · exact State.base_of_kept (State.filtWrite_kept ..)
  · exact State.store_base ..

theorem State.putLoc_kept (s : State) (l : Loc) (v : Word) (h1 : ∀ o, l ≠ .cam o) (h2 : ∀ w, l ≠ .tbl w) (h3 : l ≠ .cfg 0x10) :
    (s.putLoc l v).kept = s.kept := by
  unfold State.putLoc
  split
  · split
    · exact (State.kept_mk ..).trans (State.kept_eta _)
    · exact State.store_kept s _ v h1 h2 h3
  · exact State.filtWrite_kept ..
  · exact State.filtWrite_kept ..
  · exact State.store_kept s l v h1 h2 h3

/-- The state in which a write's fields are stored: the set is marked changed where it changes. -/
theorem dirty_kept (c : Bool) (s : State) : (if c then { s with cfg := s.cfg.dirty s.setWords } else s).kept = s.kept := by
  split <;> simp

theorem State.carryOut_base (s : State) (l : Loc) (off : Nat) (raw : Word) : (s.carryOut l off raw).base = s.base := by
  unfold State.carryOut
  dsimp only
  have h (t : State) (ht : t.base = s.base) : (if (decide (l = Loc.flt 12) && s.flt.injArmed) = true then t
      else t.wrote l off raw (s.stored l) (s.merged l raw)).base = s.base := by
    split
    · exact ht
    · exact (State.base_of_kept (State.wrote_kept ..)).trans ht
  exact h _ ((State.putLoc_base ..).trans (State.base_of_kept (dirty_kept _ s)))

theorem State.carryOut_kept (s : State) (l : Loc) (off : Nat) (raw : Word) (h1 : ∀ o, l ≠ .cam o) (h2 : ∀ w, l ≠ .tbl w)
    (h3 : l ≠ .cfg 0x10) : (s.carryOut l off raw).kept = s.kept := by
  unfold State.carryOut
  dsimp only
  have h (t : State) (ht : t.kept = s.kept) : (if (decide (l = Loc.flt 12) && s.flt.injArmed) = true then t
      else t.wrote l off raw (s.stored l) (s.merged l raw)).kept = s.kept := by
    split
    · exact ht
    · exact (State.wrote_kept ..).trans ht
  exact h _ ((State.putLoc_kept _ l _ h1 h2 h3).trans (dirty_kept _ s))

theorem State.writeLoc_base (s : State) (l : Loc) (off : Nat) (raw : Word) : (s.writeLoc l off raw).base = s.base := by
  unfold State.writeLoc
  split
  · exact State.carryOut_base ..
  · exact State.base_of_kept (State.absentWrite_kept ..)
  · exact State.base_of_kept (State.lockedWrite_kept ..)
  · exact State.base_of_kept (State.violWrite_kept ..)
  · exact State.base_of_kept (State.fault_kept ..)

theorem State.writeLoc_kept (s : State) (l : Loc) (off : Nat) (raw : Word) (h1 : ∀ o, l ≠ .cam o) (h2 : ∀ w, l ≠ .tbl w)
    (h3 : l ≠ .cfg 0x10) : (s.writeLoc l off raw).kept = s.kept := by
  unfold State.writeLoc
  split
  · exact State.carryOut_kept s l off raw h1 h2 h3
  · exact State.absentWrite_kept ..
  · exact State.lockedWrite_kept ..
  · exact State.violWrite_kept ..
  · exact State.fault_kept ..

theorem State.fullWrite_base (s : State) (off : Nat) (raw : Word) : (s.fullWrite off raw).base = s.base := by
  unfold State.fullWrite
  (repeat' split)
  · exact State.base_of_kept (State.msixWrite_kept ..)
  · exact State.base_of_kept (State.absentWrite_kept ..)
  · rfl
  · exact State.writeLoc_base ..
  · exact State.writeLoc_base ..

theorem State.narrowWrite_base (s : State) (off : Nat) (be : BitVec 4) (raw : Word) : (s.narrowWrite off be raw).base = s.base := by
  unfold State.narrowWrite
  (repeat' split)
  · exact State.fullWrite_base ..
  · rfl
  · rfl
  · exact State.base_of_kept (State.absentWrite_kept ..)
  · exact State.base_of_kept (State.absentWrite_kept ..)
  · exact State.base_of_kept ((State.fault_kept ..).trans (State.noteAccess_kept ..))

theorem State.writeRequest_base (s : State) (addr : Nat) (bytes : List (Option Byte)) : (s.writeRequest addr bytes).base = s.base := by
  unfold State.writeRequest
  exact List.foldlRecOn _ _ (motive := fun (t : State) => t.base = s.base) rfl fun t ht w _ => (State.narrowWrite_base t w _ _).trans ht

/-! ### The cam pool -/

theorem State.store_cam_wf (s : State) (l : Loc) (v : Word) (h : Memory.wf s.cam = true) : Memory.wf (s.store l v).cam = true := by
  by_cases h1 : ∃ o, l = .cam o
  · obtain ⟨o, rfl⟩ := h1
    rcases (State.store_cam s o v).2.2.1 with e | e <;> rw [e]
    · exact h
    · exact Memory.writeWord_wf _ _ _ h
  · by_cases h3 : l = .cfg 0x10
    · subst h3; exact h
    · have e := State.store_outer s l v (fun o e => h1 ⟨o, e⟩) h3
      simp only [State.outer, Prod.mk.injEq] at e
      rw [e.2.1]; exact h

theorem State.putLoc_cam_wf (s : State) (l : Loc) (v : Word) (h : Memory.wf s.cam = true) : Memory.wf (s.putLoc l v).cam = true := by
  unfold State.putLoc
  split
  · split
    · exact h
    · exact State.store_cam_wf s _ v h
  · rw [State.cam_of_kept (State.filtWrite_kept ..)]; exact h
  · rw [State.cam_of_kept (State.filtWrite_kept ..)]; exact h
  · exact State.store_cam_wf s l v h

theorem State.carryOut_cam_wf (s : State) (l : Loc) (off : Nat) (raw : Word) (h : Memory.wf s.cam = true) :
    Memory.wf (s.carryOut l off raw).cam = true := by
  unfold State.carryOut
  dsimp only
  have q (t : State) (ht : Memory.wf t.cam = true) : Memory.wf (if (decide (l = Loc.flt 12) && s.flt.injArmed) = true then t
      else t.wrote l off raw (s.stored l) (s.merged l raw)).cam = true := by
    split
    · exact ht
    · rw [State.cam_of_kept (State.wrote_kept ..)]; exact ht
  apply q
  apply State.putLoc_cam_wf
  rw [State.cam_of_kept (dirty_kept _ s)]
  exact h

/-- A full write keeps the cam pool in canonical form. -/
theorem State.fullWrite_cam_wf (s : State) (off : Nat) (raw : Word) (h : Memory.wf s.cam = true) :
    Memory.wf (s.fullWrite off raw).cam = true := by
  have w (l : Loc) : Memory.wf (s.writeLoc l off raw).cam = true := by
    unfold State.writeLoc
    split
    · exact State.carryOut_cam_wf s l off raw h
    · rw [State.cam_of_kept (State.absentWrite_kept ..)]; exact h
    · rw [State.cam_of_kept (State.lockedWrite_kept ..)]; exact h
    · rw [State.cam_of_kept (State.violWrite_kept ..)]; exact h
    · rw [State.cam_of_kept (State.fault_kept ..)]; exact h
  unfold State.fullWrite
  (repeat' split)
  · rw [State.cam_of_kept (State.msixWrite_kept ..)]; exact h
  · rw [State.cam_of_kept (State.absentWrite_kept ..)]; exact h
  · exact h
  · exact w _
  · exact w _

theorem State.narrowWrite_cam_wf (s : State) (off : Nat) (be : BitVec 4) (raw : Word) (h : Memory.wf s.cam = true) :
    Memory.wf (s.narrowWrite off be raw).cam = true := by
  unfold State.narrowWrite
  (repeat' split)
  · exact State.fullWrite_cam_wf s off raw h
  · exact h
  · exact h
  · rw [State.cam_of_kept (State.absentWrite_kept ..)]; exact h
  · rw [State.cam_of_kept (State.absentWrite_kept ..)]; exact h
  · rw [State.cam_of_kept ((State.fault_kept ..).trans (State.noteAccess_kept ..))]; exact h

theorem State.writeRequest_cam_wf (s : State) (addr : Nat) (bytes : List (Option Byte)) (h : Memory.wf s.cam = true) :
    Memory.wf (s.writeRequest addr bytes).cam = true := by
  unfold State.writeRequest
  exact List.foldlRecOn _ _ (motive := fun (t : State) => Memory.wf t.cam = true) h fun t ht w _ => State.narrowWrite_cam_wf t w _ _ ht

/-! ### The address of the cam pool -/

/-- The address lies within the pool of the variant (R184). -/
def State.camAddrOk (s : State) : Prop := s.camAddr < s.variant.camWords

theorem State.camAddrOk_of_kept {s t : State} (h : t.kept = s.kept) (hs : s.camAddrOk) : t.camAddrOk := by
  simp only [State.kept, Prod.mk.injEq] at h
  unfold State.camAddrOk
  rw [h.1, h.2.2.2.1]
  exact hs

theorem State.camAddrOk_of_outer {s t : State} (h : t.outer = s.outer) (hs : s.camAddrOk) : t.camAddrOk := by
  simp only [State.outer, State.base, Prod.mk.injEq] at h
  unfold State.camAddrOk
  rw [h.1.1, h.2.2.1]
  exact hs

theorem State.camNext_ok (s : State) : s.camNext.camAddrOk := by
  unfold State.camAddrOk State.camNext
  exact Nat.mod_lt _ (by unfold Variant.camWords Variant.pick; split <;> decide)

theorem State.writeLoc_camAddr (s : State) (l : Loc) (off : Nat) (raw : Word) (h : s.camAddrOk) : (s.writeLoc l off raw).camAddrOk := by
  unfold State.writeLoc
  split
  · rename_i hj
    by_cases h1 : ∃ o, l = .cam o
    · obtain ⟨o, rfl⟩ := h1
      have e : (s.carryOut (.cam o) off raw).camAddr = (s.store (.cam o) (s.merged (.cam o) raw)).camAddr ∧
          (s.carryOut (.cam o) off raw).variant = s.variant := by
        unfold State.carryOut State.putLoc State.wrote
        have b := (State.store_cam s o (s.merged (.cam o) raw)).1
        simp only [State.base, Prod.mk.injEq] at b
        simp [Loc.setMask, b]
      unfold State.camAddrOk
      rw [e.1, e.2]
      rcases (State.store_cam s o (s.merged (.cam o) raw)).2.2.2 with c | ⟨rfl, c⟩
      · rw [c]; exact h
      · rw [c]
        unfold State.judgeWrite at hj
        simp only [verdict, State.judge6, State.camBadWrite] at hj
        (repeat' split at hj) <;> simp_all
    · by_cases h2 : ∃ w, l = .tbl w
      · obtain ⟨w, rfl⟩ := h2
        have e : (s.carryOut (.tbl w) off raw).camAddr = s.camAddr ∧ (s.carryOut (.tbl w) off raw).variant = s.variant := by
          unfold State.carryOut State.putLoc State.wrote State.store
          dsimp only
          simp
          split <;> exact ⟨rfl, rfl⟩
        unfold State.camAddrOk
        rw [e.1, e.2]; exact h
      · by_cases h3 : l = .cfg 0x10
        · subst h3
          have e : (s.carryOut (.cfg 0x10) off raw).camAddr = s.camAddr ∧ (s.carryOut (.cfg 0x10) off raw).variant = s.variant := by
            unfold State.carryOut State.putLoc State.wrote State.store
            simp [Loc.setMask]
          unfold State.camAddrOk
          rw [e.1, e.2]; exact h
        · exact State.camAddrOk_of_kept (State.carryOut_kept s l off raw (fun o e => h1 ⟨o, e⟩) (fun w e => h2 ⟨w, e⟩) h3) h
  · exact State.camAddrOk_of_kept (State.absentWrite_kept ..) h
  · exact State.camAddrOk_of_kept (State.lockedWrite_kept ..) h
  · exact State.camAddrOk_of_kept (State.violWrite_kept ..) h
  · exact State.camAddrOk_of_kept (State.fault_kept ..) h

/-- A full write leaves the address within the pool. -/
theorem State.fullWrite_camAddr (s : State) (off : Nat) (raw : Word) (h : s.camAddrOk) : (s.fullWrite off raw).camAddrOk := by
  unfold State.fullWrite
  (repeat' split)
  · exact State.camAddrOk_of_kept (State.msixWrite_kept ..) h
  · exact State.camAddrOk_of_kept (State.absentWrite_kept ..) h
  · exact h
  · exact State.camNext_ok _
  · exact State.writeLoc_camAddr s _ off raw h

theorem State.narrowWrite_camAddr (s : State) (off : Nat) (be : BitVec 4) (raw : Word) (h : s.camAddrOk) :
    (s.narrowWrite off be raw).camAddrOk := by
  unfold State.narrowWrite
  (repeat' split)
  · exact State.fullWrite_camAddr s off raw h
  · exact h
  · exact h
  · exact State.camAddrOk_of_kept (State.absentWrite_kept ..) h
  · exact State.camAddrOk_of_kept (State.absentWrite_kept ..) h
  · exact State.camAddrOk_of_kept ((State.fault_kept ..).trans (State.noteAccess_kept ..)) h

theorem State.writeRequest_camAddr (s : State) (addr : Nat) (bytes : List (Option Byte)) (h : s.camAddrOk) :
    (s.writeRequest addr bytes).camAddrOk := by
  unfold State.writeRequest
  exact List.foldlRecOn _ _ (motive := fun (t : State) => t.camAddrOk) h fun t ht w _ => State.narrowWrite_camAddr t w _ _ ht

/-! ### A full read (R432, R436, R437) -/

/-- A full read changes of it only the address of the cam pool, and that stays within the pool. -/
theorem State.fullRead_rest (s : State) (off : Nat) :
    (s.fullRead off).base = s.base ∧ (s.fullRead off).cam = s.cam ∧ (s.fullRead off).cfg.lock = s.cfg.lock ∧
    (s.fullRead off).cfg.lockWritten = s.cfg.lockWritten ∧ (s.fullRead off).tbl = s.tbl ∧
    (s.camAddrOk → (s.fullRead off).camAddrOk) := by
  have q {t : State} (h : t.kept = s.kept) : t.base = s.base ∧ t.cam = s.cam ∧ t.cfg.lock = s.cfg.lock ∧
      t.cfg.lockWritten = s.cfg.lockWritten ∧ t.tbl = s.tbl ∧ (s.camAddrOk → t.camAddrOk) := by
    refine ⟨State.base_of_kept h, State.cam_of_kept h, (State.lock_of_kept h).1, (State.lock_of_kept h).2, ?_, State.camAddrOk_of_kept h⟩
    simp only [State.kept, Prod.mk.injEq] at h
    exact h.2.2.2.2.1
  unfold State.fullRead
  (repeat' split)
  · exact q (by simp)
  · exact q (by simp)
  · rename_i l _ _ _
    have e := q (t := (State.latchShadow { s with rdata := s.value off } off l).clearRoc l) (by rw [State.clearRoc_kept, State.latchShadow_kept, State.kept_mk, State.kept_eta])
    exact ⟨e.1, e.2.1, e.2.2.1, e.2.2.2.1, e.2.2.2.2.1, fun _ => State.camNext_ok _⟩
  · exact q (by rw [State.clearRoc_kept, State.latchShadow_kept, State.kept_mk, State.kept_eta])
  · exact q (by simp)

theorem State.narrowRead_rest (s : State) (off : Nat) (be : BitVec 4) :
    (s.narrowRead off be).base = s.base ∧ (s.narrowRead off be).cam = s.cam ∧ (s.narrowRead off be).cfg.lock = s.cfg.lock ∧
    (s.narrowRead off be).cfg.lockWritten = s.cfg.lockWritten ∧ (s.narrowRead off be).tbl = s.tbl ∧
    (s.camAddrOk → (s.narrowRead off be).camAddrOk) := by
  unfold State.narrowRead
  (repeat' split)
  · exact State.fullRead_rest s off
  · exact ⟨rfl, rfl, rfl, rfl, rfl, id⟩
  · exact ⟨rfl, rfl, rfl, rfl, rfl, id⟩
  · exact ⟨rfl, rfl, rfl, rfl, rfl, id⟩
  · exact ⟨rfl, rfl, rfl, rfl, rfl, id⟩

/-- A read request changes of it only the address of the cam pool, and that stays within the pool. -/
theorem State.readRequest_rest (s : State) (addr : Nat) (en : List Bool) :
    (s.readRequest addr en).base = s.base ∧ (s.readRequest addr en).cam = s.cam ∧ (s.readRequest addr en).cfg.lock = s.cfg.lock ∧
    (s.readRequest addr en).cfg.lockWritten = s.cfg.lockWritten ∧ (s.readRequest addr en).tbl = s.tbl ∧
    (s.camAddrOk → (s.readRequest addr en).camAddrOk) := by
  have q (l : List Nat) (r : State × List Word) (hr : r.1.base = s.base ∧ r.1.cam = s.cam ∧ r.1.cfg.lock = s.cfg.lock ∧
      r.1.cfg.lockWritten = s.cfg.lockWritten ∧ r.1.tbl = s.tbl ∧ (s.camAddrOk → r.1.camAddrOk)) :
      let u := l.foldl (fun (q : State × List Word) w =>
        let t := q.1.narrowRead w (enabled addr en w)
        (t, q.2 ++ [t.rdata])) r
      u.1.base = s.base ∧ u.1.cam = s.cam ∧ u.1.cfg.lock = s.cfg.lock ∧ u.1.cfg.lockWritten = s.cfg.lockWritten ∧ u.1.tbl = s.tbl ∧
      (s.camAddrOk → u.1.camAddrOk) := by
    refine List.foldlRecOn l _ (motive := fun (u : State × List Word) => u.1.base = s.base ∧ u.1.cam = s.cam ∧ u.1.cfg.lock = s.cfg.lock ∧
      u.1.cfg.lockWritten = s.cfg.lockWritten ∧ u.1.tbl = s.tbl ∧ (s.camAddrOk → u.1.camAddrOk)) hr fun u hu w _ => ?_
    have n := State.narrowRead_rest u.1 w (enabled addr en w)
    exact ⟨n.1.trans hu.1, n.2.1.trans hu.2.1, n.2.2.1.trans hu.2.2.1, n.2.2.2.1.trans hu.2.2.2.1, n.2.2.2.2.1.trans hu.2.2.2.2.1,
      fun h => n.2.2.2.2.2 (hu.2.2.2.2.2 h)⟩
  have e := q (touched addr en.length) (s, []) ⟨rfl, rfl, rfl, rfl, rfl, id⟩
  unfold State.readRequest
  dsimp only at e ⊢
  split
  · exact e
  · exact e

/-! ### CFG_LOCK -/

theorem State.store_lock (s : State) (l : Loc) (v : Word) (h : l ≠ .cfg 0x10) :
    (s.store l v).cfg.lock = s.cfg.lock ∧ (s.store l v).cfg.lockWritten = s.cfg.lockWritten := by
  by_cases h1 : ∃ o, l = .cam o
  · obtain ⟨o, rfl⟩ := h1
    rw [(State.store_cam s o v).2.1]
    exact ⟨rfl, rfl⟩
  · have e := State.store_outer s l v (fun o e => h1 ⟨o, e⟩) h
    simp only [State.outer, Prod.mk.injEq] at e
    exact e.2.2.2

theorem State.putLoc_lock (s : State) (l : Loc) (v : Word) (h : l ≠ .cfg 0x10) :
    (s.putLoc l v).cfg.lock = s.cfg.lock ∧ (s.putLoc l v).cfg.lockWritten = s.cfg.lockWritten := by
  unfold State.putLoc
  split
  · split
    · exact ⟨rfl, rfl⟩
    · exact State.store_lock s _ v h
  · exact State.lock_of_kept (State.filtWrite_kept ..)
  · exact State.lock_of_kept (State.filtWrite_kept ..)
  · exact State.store_lock s l v h

theorem State.carryOut_lock (s : State) (l : Loc) (off : Nat) (raw : Word) (h : l ≠ .cfg 0x10) :
    (s.carryOut l off raw).cfg.lock = s.cfg.lock ∧ (s.carryOut l off raw).cfg.lockWritten = s.cfg.lockWritten := by
  unfold State.carryOut
  dsimp only
  have q (t : State) (ht : t.cfg.lock = s.cfg.lock ∧ t.cfg.lockWritten = s.cfg.lockWritten) :
      (if (decide (l = Loc.flt 12) && s.flt.injArmed) = true then t
        else t.wrote l off raw (s.stored l) (s.merged l raw)).cfg.lock = s.cfg.lock ∧
      (if (decide (l = Loc.flt 12) && s.flt.injArmed) = true then t
        else t.wrote l off raw (s.stored l) (s.merged l raw)).cfg.lockWritten = s.cfg.lockWritten := by
    split
    · exact ht
    · have e := State.lock_of_kept (State.wrote_kept t l off raw (s.stored l) (s.merged l raw))
      exact ⟨e.1.trans ht.1, e.2.trans ht.2⟩
  apply q
  have e := State.putLoc_lock (if changes (s.stored l) (s.merged l raw) l.setMask then { s with cfg := s.cfg.dirty s.setWords } else s) l
    (s.merged l raw) h
  have d := State.lock_of_kept (dirty_kept (changes (s.stored l) (s.merged l raw) l.setMask) s)
  exact ⟨e.1.trans d.1, e.2.trans d.2⟩

/-- A written CFG_LOCK does not change by a write at any place (R439, R440). -/
theorem State.writeLoc_lock (s : State) (l : Loc) (off : Nat) (raw : Word) (h : s.cfg.lockWritten = true) :
    (s.writeLoc l off raw).cfg.lock = s.cfg.lock ∧ (s.writeLoc l off raw).cfg.lockWritten = s.cfg.lockWritten := by
  unfold State.writeLoc
  split
  · rename_i hj
    by_cases hl : l = .cfg 0x10
    · subst hl
      exfalso
      unfold State.judgeWrite verdict at hj
      simp [verdict, State.lockViolated, h] at hj
      split at hj <;> simp at hj
    · exact State.carryOut_lock s l off raw hl
  · exact State.lock_of_kept (State.absentWrite_kept ..)
  · exact State.lock_of_kept (State.lockedWrite_kept ..)
  · exact State.lock_of_kept (State.violWrite_kept ..)
  · exact State.lock_of_kept (State.fault_kept ..)

/-- A written CFG_LOCK does not change by a full write (R439, R440). -/
theorem State.fullWrite_lock (s : State) (off : Nat) (raw : Word) (h : s.cfg.lockWritten = true) :
    (s.fullWrite off raw).cfg.lock = s.cfg.lock ∧ (s.fullWrite off raw).cfg.lockWritten = s.cfg.lockWritten := by
  unfold State.fullWrite
  (repeat' split)
  · exact State.lock_of_kept (State.msixWrite_kept ..)
  · exact State.lock_of_kept (State.absentWrite_kept ..)
  · exact ⟨rfl, rfl⟩
  · exact State.writeLoc_lock s _ off raw h
  · exact State.writeLoc_lock s _ off raw h

theorem State.narrowWrite_lock (s : State) (off : Nat) (be : BitVec 4) (raw : Word) (h : s.cfg.lockWritten = true) :
    (s.narrowWrite off be raw).cfg.lock = s.cfg.lock ∧ (s.narrowWrite off be raw).cfg.lockWritten = s.cfg.lockWritten := by
  unfold State.narrowWrite
  (repeat' split)
  · exact State.fullWrite_lock s off raw h
  · exact ⟨rfl, rfl⟩
  · exact ⟨rfl, rfl⟩
  · exact State.lock_of_kept (State.absentWrite_kept ..)
  · exact State.lock_of_kept (State.absentWrite_kept ..)
  · exact State.lock_of_kept ((State.fault_kept ..).trans (State.noteAccess_kept ..))

theorem State.writeRequest_lock (s : State) (addr : Nat) (bytes : List (Option Byte)) (h : s.cfg.lockWritten = true) :
    (s.writeRequest addr bytes).cfg.lock = s.cfg.lock ∧ (s.writeRequest addr bytes).cfg.lockWritten = s.cfg.lockWritten := by
  unfold State.writeRequest
  refine List.foldlRecOn _ _ (motive := fun (t : State) => t.cfg.lock = s.cfg.lock ∧ t.cfg.lockWritten = s.cfg.lockWritten) ⟨rfl, rfl⟩
    fun t ht w _ => ?_
  have e := State.narrowWrite_lock t w (enabled addr (bytes.map Option.isSome) w) (wordOf addr bytes w) (ht.2.trans h)
  exact ⟨e.1.trans ht.1, e.2.trans ht.2⟩

/-! ### The load of the NV image (R457) -/

theorem State.loadWord_outer (s : State) (l : Loc) (w : Word) (h1 : ∀ o, l ≠ .cam o) (h3 : l ≠ .cfg 0x10) :
    (s.loadWord l w).outer = s.outer := by
  unfold State.loadWord
  dsimp only
  split
  · exact State.outer_of_kept (State.filtWrite_kept ..)
  · exact State.outer_of_kept (State.filtWrite_kept ..)
  · exact State.outer_of_kept (State.updLeg_kept ..)
  · exact State.store_outer s l _ h1 h3

theorem setBefore_plain (v : Variant) (l : Loc) (h : l ∈ setBefore v) : (∀ o, l ≠ .cam o) ∧ l ≠ .cfg 0x10 := by
  constructor
  · rintro o rfl
    simp [setBefore] at h <;> (repeat' split at h) <;> simp at h
  · rintro rfl
    simp [setBefore] at h <;> (repeat' split at h) <;> simp at h

theorem setAfter_plain (v : Variant) (l : Loc) (h : l ∈ setAfter v) : (∀ o, l ≠ .cam o) ∧ l ≠ .cfg 0x10 := by
  constructor
  · rintro o rfl
    simp [setAfter, setInp] at h <;> (repeat' split at h) <;> simp at h
  · rintro rfl
    simp [setAfter, setInp] at h <;> (repeat' split at h) <;> simp at h

theorem State.loadSet_outer (s : State) (ws : List Word) : (s.loadSet ws).outer = s.outer := by
  unfold State.loadSet
  dsimp only
  rw [State.outer_of_kept (State.safetyScan_kept _)]
  rw [State.outer_of_kept (foldl_kept _ (by intros; split <;> simp) _ _)]
  rw [State.outer_of_kept (foldl_kept _ (by intros; split <;> simp) _ _)]
  rw [State.outer_of_kept (State.updStr_kept ..)]
  rw [foldl_outer _ _ (by
    intro t p hp
    have := setAfter_plain s.variant p.1 (List.of_mem_zip hp).1
    exact State.loadWord_outer t p.1 p.2 this.1 this.2)]
  rw [State.outer_of_kept (foldl_kept _ (by intros; simp) _ _)]
  rw [foldl_outer _ _ (by
    intro t p hp
    have := setBefore_plain s.variant p.1 (List.of_mem_zip hp).1
    exact State.loadWord_outer t p.1 p.2 this.1 this.2)]

/-- The load of the NV image changes neither the variant, the queue, the cam pool nor CFG_LOCK. -/
theorem State.nvLoad_outer (s : State) : s.nvLoad.outer = s.outer := by
  have q (t : State) (c : Bool) (d : Word) (ht : t.outer = s.outer) : (if c then t else t.fault srcCfgNvLoad d .none).outer = s.outer := by
    split
    · exact ht
    · exact (State.outer_of_kept (State.fault_kept ..)).trans ht
  unfold State.nvLoad
  dsimp only
  apply q
  split
  · rfl
  · have e (ws index profs : List Word) : ((s.loadSet ws).loadProfs index profs).outer = s.outer :=
      (State.outer_of_kept (State.loadProfs_kept (s.loadSet ws) index profs)).trans (State.loadSet_outer s ws)
    have r (t : State) (c : CfgB) (ht : t.outer = s.outer) (hl : c.lock = t.cfg.lock) (hw : c.lockWritten = t.cfg.lockWritten) :
        ({ t with cfg := c } : State).outer = s.outer := by
      rw [← ht]
      simp [State.outer, State.base, hl, hw]
    refine r _ _ (e _ _ _) ?_ ?_ <;> simp

/-- The seal opened changes of it only the debug instruction. -/
theorem State.sealedOpen_outer (s : State) : s.sealedOpen.outer = ({ s with tap := s.sealedOpen.tap } : State).outer := by
  unfold State.sealedOpen
  split
  · have e := (State.outer_of_kept (State.pass_kept s.nvLoad (s.nvLoad.untilNext 2000 s.nvLoad.lastPeriod))).trans (State.nvLoad_outer s)
    simp only [State.outer, State.base, Prod.mk.injEq] at e ⊢
    simp_all
  · rfl

/-! ### EN, the debug port, resets -/

/-- The fall of EN changes of it only EN. -/
theorem State.enFalls_kept (s : State) : s.enFalls.kept = ({ s with glb := { s.glb with enIn := false } } : State).kept := by
  unfold State.enFalls
  split
  · dsimp only
    rw [State.fault_kept]
    split <;> simp
  · rename_i h
    have h' : s.glb.enIn = false := by simpa using h
    simp [State.kept, h']

/-- An instruction of the debug port changes of it only that port. -/
theorem State.tapLoad_kept (s : State) (i : TapInstr) : (s.tapLoad i).kept = ({ s with tap := (s.tapLoad i).tap } : State).kept := by
  unfold State.tapLoad
  dsimp only
  (repeat' split) <;> rfl

/-- INTERNAL_RESET holds the device and returns the debug port to BYPASS; of the rest nothing changes until the release. -/
theorem State.enterReset_kept (s : State) : s.enterReset.kept = ({ s with inReset := true, tap := { s.tap with instr := .bypass } } : State).kept := by
  unfold State.enterReset
  simp only [State.kept_mk, CfgB.abandon_lock, CfgB.abandon_lockWritten]
  have e := (foldl_kept (fun (t : State) a => t.updAxis a Axis.undrive) (by intros; simp)
    (s.listedLegs.foldl (fun t p => t.updLeg p.1 p.2 Leg.toHiz) s).listedAxes
    (s.listedLegs.foldl (fun t p => t.updLeg p.1 p.2 Leg.toHiz) s)).trans
    (foldl_kept (fun (t : State) (p : Nat × Nat) => t.updLeg p.1 p.2 Leg.toHiz) (by intros; simp) s.listedLegs s)
  simp only [State.kept, Prod.mk.injEq] at e
  simp [e]

/-- The loss of the logic supply keeps the variant and the queue alone; the device is held. -/
theorem State.powerLost_kept (s : State) :
    s.powerLost.kept = (s.variant, s.pending, [], 0, [], true, ⟨.bypass, []⟩, false, 0, false) := rfl

/-- The release of nRESET keeps the variant and the queue alone, and takes EN as it stands. -/
theorem State.release0_kept (s : State) (en primaryGood : Bool) :
    (s.release0 en primaryGood).kept = (s.variant, s.pending, [], 0, [], false, ⟨.bypass, []⟩, en, 0, false) := by
  unfold State.release0
  dsimp only
  split
  · rfl
  · rw [State.oscSwitch_kept]; rfl

end Sys2Proof.Machine
end

