-- ==== Sys2Proof/Laws/Writes.lean ====
section
/-! SUPPORT. Full writes step by step (R441): where the offset leads, what the verdict is, and what an accepted write is. -/

namespace Sys2Proof.Machine

/-! ### Bits that a write changes -/

@[simp] theorem changes_none (a b : Word) : changes a b 0 = false := by simp [changes, wd]
@[simp] theorem changes_same (a : Word) (m : Nat) : changes a a m = false := by simp [changes]

@[simp] theorem and_ones (v : Word) : v &&& 4294967295#32 = v := BitVec.and_allOnes

/-- A number of at most 32 bits set reads back. -/
theorem wd_toNat (w : Word) : wd w.toNat = w := by simp [wd]

/-! ### A full write -/

/-- A full write at a register, with a mask that is not all zero where the register is WM. -/
theorem State.fullWrite_at {s : State} {off : Nat} {raw : Word} {l : Loc} (hm : msixOff off = false)
    (hl : locOf s.variant off = some l) (hw : l.wmBits = 0 ∨ fld raw 16 l.wmBits ≠ 0) (hc : l ≠ .cam 4) :
    s.fullWrite off raw = s.writeLoc l off raw := by
  unfold State.fullWrite
  rw [hm, hl]
  simp only [Bool.false_eq_true, if_false, Bool.and_eq_true, decide_eq_true_eq, hc]
  rw [if_neg]
  rintro ⟨h1, h2⟩
  cases hw with
  | inl h => exact h1 h
  | inr h => exact h h2

/-- A write that passes every step is carried out. -/
theorem State.writeLoc_ok {s : State} {off : Nat} {raw : Word} {l : Loc} (hj : s.judgeWrite l raw = .ok) :
    s.writeLoc l off raw = s.carryOut l off raw := by
  unfold State.writeLoc
  rw [hj]

/-- A full write that passes every step. -/
theorem State.fullWrite_ok {s : State} {off : Nat} {raw : Word} {l : Loc} (hm : msixOff off = false)
    (hl : locOf s.variant off = some l) (hw : l.wmBits = 0 ∨ fld raw 16 l.wmBits ≠ 0) (hc : l ≠ .cam 4)
    (hj : s.judgeWrite l raw = .ok) : s.fullWrite off raw = s.carryOut l off raw :=
  (State.fullWrite_at hm hl hw hc).trans (State.writeLoc_ok hj)

/-- A write of a register outside the configuration set changes no contribution. -/
theorem State.carryOut_outside {s : State} {off : Nat} {raw : Word} {l : Loc} (hs : l.setMask = 0) (hf : l ≠ .flt 0x0C) :
    s.carryOut l off raw = (s.putLoc l (s.merged l raw)).wrote l off raw (s.stored l) (s.merged l raw) := by
  unfold State.carryOut
  simp [hs, hf]

/-- What CFG_LOCK holds of a register outside the set. -/
theorem State.heldMask_outside {s : State} {l : Loc} (hs : l.setMask = 0) (h1 : l ≠ .cfg 0x08) (h2 : l ≠ .spr 0x00)
    (h3 : l ≠ .flt 0x14) (h4 : l ≠ .flt 0x00) : s.heldMask l = 0 := by
  unfold State.heldMask
  simp [hs, h1, h2, h3, h4]

/-- A register outside the set that no lock holds and that has no field with a range is written in every mode but Sealed. -/
theorem State.judge_outside {s : State} {raw : Word} {l : Loc} (hm : s.glb.mode ≠ .sealed ∨ s.sealedOk l = true) (hs : l.setMask = 0)
    (hc : ∀ o, l ≠ .cfg o) (h2 : l ≠ .spr 0x00) (h3 : l ≠ .flt 0x14) (h4 : l ≠ .flt 0x00) :
    s.judgeWrite l raw =
      if s.lockHolds l (s.stored l) (s.merged l raw) then .locked else s.judge6 l raw (s.stored l) (s.merged l raw) := by
  unfold State.judgeWrite
  have hv : s.lockViolated l raw (s.stored l) (s.merged l raw) = false := by
    unfold State.lockViolated
    rw [State.heldMask_outside hs (hc _) h2 h3 h4]
    simp [hc]
  have hseal : (decide (s.glb.mode = .sealed) && !s.sealedOk l) = false := by
    cases hm with
    | inl h => simp [h]
    | inr h => simp [h]
  simp only [hv, hseal, h3, decide_false, Bool.false_and, verdict, Bool.false_eq_true, if_false]
  split <;> simp_all

end Sys2Proof.Machine
end

