-- ==== Sys2Proof/Tests/Slice0.lean ====
section
/-! SUPPORT. Small tests: an ill-formed command for each check, one step on small states with the results that the rules of spec/ give,
and for every statement that has hypotheses a state and operands that meet them, clause by clause. -/

open Sys2Proof Sys2Proof.Machine

namespace Sys2Proof.Tests

/-! ### Small states -/

/-- The reset state with boot completed, in a mode. -/
def on (m : DevMode) : State := { State.reset with bootDone := true, bootPassed := true, glb := { State.reset.glb with mode := m, enIn := true } }

/-- The reset state in internal reset. -/
def held : State := { State.reset with inReset := true }

/-- Leg 0 of tile 0 in a mode of the device. -/
def legIn (m : DevMode) (f : Leg → Leg) : State := (on m).updLeg 0 0 f

/-- Axis 0 in a mode of the device. -/
def axisIn (m : DevMode) (f : Axis → Axis) : State := (on m).updAxis 0 f

/-- Axis 0's motion in a mode of the device. -/
def motionIn (m : DevMode) (f : Motion → Motion) : State := (on m).updMotion .axis 0 f

/-- Ring 0 in a mode of the device. -/
def ringIn (m : DevMode) (f : Ring → Ring) : State := (on m).updRing 0 f

/-- A descriptor by its words. -/
def desc (w0 : Word) (w1 : Word := 0) (w2 : Word := 0) (w3 : Word := 0) (w4 : Word := 0) (w5 : Word := 0) (w6 : Word := 0) (w7 : Word := 0)
    (param : List Word := []) : Desc := { w0 := w0, w1 := w1, w2 := w2, w3 := w3, w4 := w4, w5 := w5, w6 := w6, w7 := w7, param := param }

/-- A history entry that is not acknowledged. -/
def entry (uid dt : Nat) : Entry :=
  { num := uid, uid := uid, cls := .log, inj := false, ack := false, window := true, mcount := 0, src := srcAccNarrow, detail := 0, dt := dt, rc := 0,
    mmap := 0, mtop := none, mlast := 0 }

/-! ### Ill-formed commands, one for each check -/

theorem test_wf_ring : (Instr.ringEnable 64 0).wf = false := by decide
theorem test_wf_desc : (Instr.nop 0 (desc 0 (param := [0]))).wf = false := by decide
theorem test_wf_unit : (Instr.unitEnable .axis 48 0).wf = false ∧ (Instr.unitEnable .course 16 0).wf = false := by decide
theorem test_wf_axis : (Instr.axisEnergize 48).wf = false := by decide
theorem test_wf_tile : (Instr.clrIso 12 0).wf = false := by decide
theorem test_wf_leg : (Instr.clrTrip 11 16 0).wf = false ∧ (Instr.clrTrip 12 15 0).wf = false := by decide
theorem test_wf_pair : (Instr.stpEdge 16 false).wf = false := by decide
theorem test_wf_encoder : (Instr.encoderIndexEdge 4).wf = false := by decide
theorem test_wf_sense : (Instr.inputKnown 64 [true]).wf = false := by decide
theorem test_wf_sense_bank : (Instr.inpSafeClr 2 0).wf = false := by decide
theorem test_wf_two : (Instr.lineEdge { n := 2, level := true }).wf = false := by decide
theorem test_wf_window : (Instr.streamReadComplete 16 true []).wf = false := by decide
theorem test_wf_stream : (Instr.streamReadComplete 0 true (List.replicate 257 0)).wf = false := by
  show (windowOk 0 && decide ((List.replicate 257 (0 : Byte)).length ≤ 256)) = false
  rw [List.length_replicate]; decide
theorem test_wf_offset : (Instr.registerWrite 0x40000 0).wf = false ∧ (Instr.rocRead 2).wf = false := by decide
theorem test_wf_narrow : (Instr.narrowRead 0 []).wf = false ∧ (Instr.narrowRead 0x3FFFF [true, true]).wf = false ∧
    (Instr.narrowWrite 0x40000 [false] [0]).wf = false ∧ (Instr.narrowWrite 0 [true] [0, 1]).wf = false := by decide
theorem test_wf_tap : (Instr.dbgTapInstruction (.patchUpdate 4 [])).wf = false := by decide
theorem test_wf_frame : (Instr.syncReceive (List.replicate 65 0)).wf = false := by decide
theorem test_wf_core : (Instr.knownAnswerTestEnd [4]).wf = false := by decide
theorem test_wf_period : (Instr.interpolationPeriod { differ := [], runnerFail := [48], engineFail := [] }).wf = false := by decide
theorem test_wf_copy : (Instr.busWriteVote (some { addr := 2, data := 0, be := 15 }) none none true).wf = false := by decide
theorem test_wf_slot : (Instr.delayParity 3 ⟨false, true⟩).wf = false := by decide
theorem test_wf_cause : (Instr.hostLinkDown 4).wf = false := by decide
theorem test_wf_segment : (Instr.segmentConductsOff 0 0 .high 16).wf = false := by decide
theorem test_wf_word : (Instr.sramScrubRead 294912 .good).wf = false := by decide
theorem test_wf_row : (Instr.rowSpareCopyComplete 9216).wf = false := by decide
theorem test_wf_sigs : (Instr.coreScrub (List.replicate 5 0)).wf = false := by decide
theorem test_wf_doorbell : (Instr.doorbellReadComplete (List.replicate 65 0)).wf = false := by decide
theorem test_wf_prefetch : (Instr.prefetchComplete 0 true (List.replicate 17 (desc 0))).wf = false := by decide
theorem test_wf_param : (Instr.parameterReadComplete 0 true (List.replicate 9 0)).wf = false := by decide

/-- The table gives no row any bits, so no word spells a command. -/
theorem test_decode_none : decodeTableWord 32 0x12345678 = none := by decide

/-! ### What meets the hypotheses of the statements: the machine, reset and boot -/

theorem hyp_idle : held.pending = [] ∧ held.inReset = true ∧ State.reset.pending = [] ∧ State.reset.inReset = false := by decide

theorem hyp_inv : State.reset.Inv ∧ ∃ t, step State.reset = .next t :=
  ⟨by unfold State.Inv; decide, _, rfl⟩

theorem hyp_sound : State.reset.Sound ∧ ∃ t, step State.reset = .next t := ⟨State.reset_sound, _, rfl⟩

/-- CFG_LOCK written. -/
def lockedCfg : State := { on .run with cfg := { CfgB.reset with lock := 7, lockWritten := true } }

theorem hyp_config_lock : lockedCfg.cfg.lockWritten = true ∧ Instr.enHigh.beginsAnew = false ∧ ∃ t, exec .enHigh lockedCfg = .next t :=
  ⟨by decide, by decide, _, rfl⟩

theorem hyp_keeps : (∃ t, exec (.fltAck 0) (on .run) = .next t) ∧ (Instr.fltAck 0).beginsAnew = false ∧ Instr.fltAck 0 ≠ .enLow ∧
    Instr.fltAck 0 ≠ .enHigh ∧ Instr.fltAck 0 ≠ .internalReset ∧ Instr.fltAck 0 ≠ .sealedToConfigure ∧ (∀ i, Instr.fltAck 0 ≠ .dbgTapInstruction i) ∧ (Instr.fltAck 0).takesTime = false :=
  ⟨⟨_, rfl⟩, by decide, by decide, by decide, by decide, by decide, (fun _ h => nomatch h), by decide⟩

theorem hyp_tables : Instr.enHigh.writesRegister = false ∧ Instr.enHigh.beginsAnew = false ∧ Instr.enHigh ≠ .sealedToConfigure ∧
    ∃ t, exec .enHigh (on .run) = .next t := ⟨by decide, by decide, by decide, _, rfl⟩

theorem hyp_release : held.inReset = true ∧ State.reset.inReset = false := by decide

/-- An NV write in progress, to slot A or slot B. -/
def nvIn (b : Bool) (done : Nat) : State :=
  { on .run with cfg := { CfgB.reset with committed := true, crcOk := true, nvWrite := some { slotB := b, done := done, image := [1, 2] } } }

theorem hyp_internal : (on .run).inReset = false ∧ (nvIn false 0).cfg.nvWrite = some ⟨false, 0, [1, 2]⟩ ∧
    (nvIn true 0).cfg.nvWrite = some ⟨true, 0, [1, 2]⟩ ∧ held.inReset = true ∧ Instr.enHigh.beginsAnew = false := by decide

/-- What the boot checks find where all is well, and where the ROM is bad. -/
def bootObs (rom : Bool) : BootObs :=
  { romGood := rom, patchGood := [true, true, true, true], rowFail := [], corePass := [true, true, true, true], aPass := true, bPass := true,
    tcmDiffer := [], runnerFail := [], engineFail := [], lineFail := [] }

/-- Sealed, with the boot checks passed and an anchor. -/
def opening : State :=
  { State.reset with bootDone := true, bootPassed := true, glb := { Glb.reset with anchor := some 4096 } }

theorem hyp_boot : opening.inReset = false ∧ opening.bootDone = true ∧ State.reset.inReset = false ∧ State.reset.bootDone = false ∧
    (bootObs false).romGood = false ∧ (bootObs true).romGood = true := by decide

theorem hyp_boot_fails : ∃ t, exec (.bootComplete { bootObs true with corePass := [] }) State.reset = .next t ∧ t.bootPassed = false :=
  ⟨_, rfl, by decide⟩

theorem hyp_open : opening.inReset = false ∧ opening.glb.mode = .sealed ∧ opening.bootDone = true ∧ opening.bootPassed = true ∧
    opening.glb.anchor = some 4096 ∧ (4096 : Nat) ≤ 4096 ∧ (on .run).inReset = false ∧ (on .run).glb.mode ≠ .sealed ∧
    State.reset.bootDone = false ∧ State.reset.bootPassed = false ∧ State.reset.glb.anchor = none ∧ (3 : Nat) < 4 ∧ (4 : Nat) ≤ 4 := by decide

/-- Sealed, with an anchor below 4 KiB. -/
def lowAnchor : State := { opening with glb := { opening.glb with anchor := some 4095 } }

theorem hyp_open_low : lowAnchor.inReset = false ∧ ∃ a, lowAnchor.glb.anchor = some a ∧ a < 4096 := ⟨by decide, 4095, by decide, by decide⟩

/-- The debug port under SAMPLE/PRELOAD. -/
def sampling : State := { on .run with tap := { instr := .samplePreload, cells := [] } }

theorem hyp_tap : opening.inReset = false ∧ opening.glb.mode = .sealed ∧ (3 : Nat) < 4 ∧
    (on .run).inReset = false ∧ (on .run).glb.mode ≠ .sealed ∧ sampling.inReset = false ∧ sampling.tap.instr = .samplePreload ∧
    (on .run).tap.instr ≠ .samplePreload ∧ (on .run).tap.instr ≠ .extest ∧ .en ∈ Variant.zm1203.chain ∧ .vms ∈ allTileBalls := by decide

/-! ### Register accesses -/

/-- GLB_ANCHOR_LO written, in a mode. -/
def loWritten (m : DevMode) : State := { on m with glb := { (on m).glb with loWritten := true } }

theorem hyp_anchor : (loWritten .sealed).inReset = false ∧ (loWritten .sealed).glb.mode = .sealed ∧ (loWritten .sealed).glb.loWritten = true ∧
    (loWritten .configure).inReset = false ∧ (loWritten .configure).glb.mode = .configure ∧ (loWritten .configure).glb.loWritten = true ∧
    (on .sealed).glb.mode = .sealed ∧ (on .configure).glb.mode = .configure ∧ (on .sealed).glb.loWritten = false ∧
    (on .safe).inReset = false ∧ (on .safe).glb.mode ≠ .sealed ∧ (on .safe).glb.mode ≠ .configure := by decide

theorem hyp_low_read : (on .run).inReset = false ∧ (on .run).bootDone = true ∧ msixOff 0x1018 = false ∧ msixOff 0x101C = false ∧
    locOf (on .run).variant 0x1018 = some (.ref 0x18) ∧ (Loc.ref 0x18).isLo = true ∧ locOf (on .run).variant 0x101C = some (.ref 0x1C) ∧
    Loc.ref 0x18 ≠ .ref 0x10 ∧ (0 : Nat) ≠ 0x1010 ∧ (0 : Nat) ≠ 0x1020 ∧ (0 : Nat) ≠ 0x1024 := by decide

theorem hyp_roc : (on .run).inReset = false ∧ (on .run).bootDone = true ∧ State.reset.inReset = false ∧ State.reset.bootDone = false ∧ msixOff 0x40 = false ∧ (locOf (on .run).variant 0x40).isSome ∧
    47 < (on .run).variant.axes ∧ 11 < (on .run).variant.tiles ∧ (15 : Nat) < 16 ∧ (14 : Nat) ≠ 15 := by decide

/-- FLT_SEV_SEL at a source that does not exist. -/
def sevNone : State := { on .run with flt := { Flt.reset with sevSel := 1023 } }

theorem hyp_narrow : (on .run).inReset = false ∧ (on .run).bootDone = true ∧ [true, false, true, true] ≠ [true, true, true, true] ∧
    [true, false, true, true] ≠ [false, false, false, false] ∧ [true, false, true, true].length = 4 ∧
    [(1 : Byte), 2, 3, 4].length = 4 ∧ false ∈ [true, false, true, true] ∧ true ∈ [true, false, true, true] ∧ msixOff 0 = false ∧ 0 % 4 = 0 ∧
    (locOf (on .run).variant 0).isSome ∧ locOf (on .run).variant 0 ≠ some (.flt 0x14) ∧ msixOff 0x7000 = false ∧
    locOf (on .run).variant 0x7000 = none ∧ msixOff 0x3014 = false ∧ locOf sevNone.variant 0x3014 = some (.flt 0x14) ∧
    (srcInfo sevNone.variant sevNone.flt.sevSel).isNone ∧ (srcInfo (on .run).variant (on .run).flt.sevSel).isSome ∧ sevNone.inReset = false := by decide

theorem hyp_narrow_split : (on .run).inReset = false ∧ [true].length = 4 - 0x23 % 4 ∧ [true] ≠ [] ∧ [(1 : Byte)].length = [true].length ∧
    [(1 : Byte), 2] ≠ [] ∧ [(1 : Byte), 2].length = [true, false].length := by decide

/-- A narrow read of bytes 1 and 2 of CRS_CAM_DATA keeps the address of the pool; a request of eight bytes from 0xC7FF on reads three words. -/
theorem test_narrow_split : (∃ t, exec (.narrowRead 0xC804 [false, true, true, false]) (on .run) = .next t ∧ t.camAddr = 0) ∧
    touched 0xC7FF 8 = [0xC7FC, 0xC800, 0xC804] ∧ enabled 0xC7FF (List.replicate 8 true) 0xC7FC = 8 ∧
    enabled 0xC7FF (List.replicate 8 true) 0xC804 = 7 := ⟨⟨_, rfl, by decide⟩, by decide, by decide, by decide⟩

/-- A cam record at word 0 is in use by a bound axis. -/
def camBusy : State :=
  ((on .run).updAxis 0 fun x => { x with bound := some (0, 0) }).setCourse 0
    { Course.reset with members := [(0, { Member.reset with state := .bound, cam := true })] }

theorem hyp_cam : (on .run).inReset = false ∧ (on .run).glb.mode ≠ .sealed ∧ (on .run).camInUse (on .run).camAddr = false ∧
    State.reset.inReset = false ∧ State.reset.glb.mode = .sealed ∧ camBusy.inReset = false ∧ camBusy.camInUse camBusy.camAddr = true := by decide

/-- A state and a full write that reaches a clause of R441. -/
def reaches (s : State) (off : Nat) (v : Word) (l : Loc) : Prop :=
  s.inReset = false ∧ msixOff off = false ∧ locOf s.variant off = some l ∧ l ≠ .cam 4 ∧ (l.wmBits ≠ 0 → fld v 16 l.wmBits ≠ 0)

/-- CFG_LOCK written with 0; FLT_INJ armed. -/
def lockZero : State := { on .run with cfg := { CfgB.reset with lockWritten := true } }
def armed : State := { on .run with flt := { Flt.reset with injArmed := true } }

theorem hyp_write_mask : (on .run).inReset = false ∧ msixOff 0x3020 = false ∧ locOf (on .run).variant 0x3020 = some (.flt 0x20) ∧
    Loc.flt 0x20 ≠ .cam 4 ∧ (Loc.flt 0x20).wmBits ≠ 0 ∧ fld (0 : Word) 16 (Loc.flt 0x20).wmBits = 0 := by decide

theorem hyp_write_absent : reaches sevNone 0x3014 0 (.flt 0x14) ∧ (srcInfo sevNone.variant sevNone.flt.sevSel).isNone := by
  unfold reaches; decide

theorem hyp_write_sealed : reaches State.reset 0x3000 0 (.flt 0) ∧ Loc.flt 0 ≠ .flt 0x14 ∧ State.reset.glb.mode = .sealed ∧ State.reset.sealedOk (.flt 0) = false := by
  unfold reaches; decide

theorem hyp_write_viol : reaches lockZero 0x30010 0 (.cfg 0x10) ∧ lockZero.glb.mode ≠ .sealed ∧
    lockZero.lockViolated (.cfg 0x10) 0 (lockZero.stored (.cfg 0x10)) (lockZero.merged (.cfg 0x10) 0) = true := by
  unfold reaches; decide

theorem hyp_write_locked : reaches (on .run) 0x30 0x1000 (.glb 0x30) ∧ (on .run).glb.mode ≠ .sealed ∧
    (on .run).lockViolated (.glb 0x30) 0x1000 ((on .run).stored (.glb 0x30)) ((on .run).merged (.glb 0x30) 0x1000) = false ∧
    (on .run).lockHolds (.glb 0x30) ((on .run).stored (.glb 0x30)) ((on .run).merged (.glb 0x30) 0x1000) = true := by
  unfold reaches; decide

theorem hyp_write_bad : reaches armed 0x300C 1 (.flt 0x0C) ∧ armed.glb.mode ≠ .sealed ∧
    armed.lockViolated (.flt 0x0C) 1 (armed.stored (.flt 0x0C)) (armed.merged (.flt 0x0C) 1) = false ∧
    armed.lockHolds (.flt 0x0C) (armed.stored (.flt 0x0C)) (armed.merged (.flt 0x0C) 1) = false ∧
    armed.judge6 (.flt 0x0C) 1 (armed.stored (.flt 0x0C)) (armed.merged (.flt 0x0C) 1) = .bad srcFltCfgBad := by
  unfold reaches; decide

theorem hyp_write_ok : reaches (on .run) 0x3008 1 (.flt 8) ∧ (on .run).glb.mode ≠ .sealed ∧
    (on .run).judgeWrite (.flt 8) 1 = .ok ∧
    (on .run).judge6 (.flt 8) 1 ((on .run).stored (.flt 8)) ((on .run).merged (.flt 8) 1) = .ok := by
  unfold reaches; decide

/-- The smallest variant, where TCOMP_EN has no compensation to enable. -/
def small : State := { on .run with variant := .zm1203 }

theorem hyp_write_absent_field : reaches small 0x1000 2 (.ref 0) ∧ small.glb.mode ≠ .sealed ∧ small.judgeWrite (.ref 0) 2 = .absent ∧
    small.judge6 (.ref 0) 2 (small.stored (.ref 0)) (small.merged (.ref 0) 2) = .absent := by
  unfold reaches; decide

theorem hyp_absent : (on .run).inReset = false ∧ msixOff 0x7000 = false ∧ locOf (on .run).variant 0x7000 = none ∧ 0x7000 % 4 = 0 ∧
    (on .run).bootDone = true ∧ [true, false, false, false].length = 4 ∧ [true, false, false, false] ≠ [true, true, true, true] ∧
    [true, false, false, false] ≠ [false, false, false, false] ∧ 0x10 ∈ motionOffs ++ axisOffs ∧ 0x10 ∈ motionOffs ++ courseOffs ∧ 0x10 ∈ tileOffs ∧ 0x10 ∈ legOffs ∧ (28 : Nat) < 32 ∧ 28 % 4 = 0 := by
  decide

/-! ### The registers that act -/

/-- The port latch holds the entry 7, which may be acknowledged; its entry is gone; or its cause (VGATE of tile 0) persists. -/
def latched7 (h : List Entry) : State := { on .run with flt := { Flt.reset with hist := h, latchRec := some 7 } }
def vgateEntry : Entry := { entry 7 0 with src := srcVgateUv, cls := .isolate }

theorem hyp_fault_port : (on .run).inReset = false ∧ (on .run).glb.mode ≠ .sealed ∧ fld (0x00010000 : Word) 16 5 ≠ 0 ∧
    (latched7 [entry 7 0]).flt.hist[0]? = some (entry 7 0) ∧ (latched7 []).flt.hist[0]? = none ∧ (on .run).flt.injArmed = false ∧
    (on .run).quiet.injBad ((on .run).quiet.merged (.flt 0x0C) (0x200 ||| 1)) = .ok ∧ armed.inReset = false ∧ armed.glb.mode ≠ .sealed ∧
    armed.flt.injArmed = true := by decide

theorem hyp_ack : bit (1 : Word) 0 = true ∧ (latched7 [entry 7 0]).flt.latchRec = some 7 ∧ (latched7 [entry 7 0]).inReset = false ∧
    (latched7 [entry 7 0]).glb.mode ≠ .sealed ∧
    (latched7 [entry 7 0]).flt.hist.find? (fun e => decide (e.uid = 7)) = some (entry 7 0) ∧ (latched7 [entry 7 0]).mayAck (entry 7 0) = true ∧
    bit (0 : Word) 0 = false ∧ (on .run).flt.latchRec = none ∧ (latched7 []).flt.hist.find? (fun e => decide (e.uid = 7)) = none ∧
    (latched7 [vgateEntry]).flt.hist.find? (fun e => decide (e.uid = 7)) = some vgateEntry ∧ (latched7 [vgateEntry]).mayAck vgateEntry = false := by
  decide

/-- A leg with a latch, whose cause persists where VGATE is outside its window (the reset state) and does not where it is good. -/
def tripped (good : Bool) : State :=
  ((on .run).updTile 0 fun x => { x with vgUv := !good, vmUv := !good, iso := !good }).updLeg 0 0 fun x => { x with latch := true, cause := 11, bstOk := true }

theorem hyp_clears : (tripped true).inReset = false ∧ (tripped true).glb.mode ≠ .sealed ∧ bit (1 : Word) 0 = true ∧
    (on .run).present .axis 47 = true ∧ ((on .run).motion .axis 47).still = true ∧ 0 < (tripped true).variant.tiles ∧ (0 : Nat) < 16 ∧
    (tripped true).tripActive 0 0 = false ∧ ((tripped false).leg 0 0).latch = true ∧ (tripped false).tripActive 0 0 = true ∧
    ((tripped true).tile 0).vgUv = false ∧ ((tripped true).tile 0).vgOv = false ∧ ((tripped true).tile 0).isoLife = false ∧
    ((tripped false).tile 0).vgUv = true ∧ (1 : Nat) < 2 ∧ 32 * 1 < (on .run).variant.senses ∧ (63 : Nat) < 64 ∧
    (0x80000000 : Word).toNat / 2 ^ ((on .run).variant.senses - 32 * 1) = 0 ∧ small.inReset = false ∧ small.glb.mode ≠ .sealed ∧
    32 * 0 < small.variant.senses ∧ (0x10000 : Word).toNat / 2 ^ (small.variant.senses - 32 * 0) ≠ 0 := by decide

/-- A leg in direct-PWM mode. -/
def pwmLeg : State := legIn .run fun x => { x with mode := 4 }

theorem hyp_pwm : pwmLeg.inReset = false ∧ 0 < pwmLeg.variant.tiles ∧ (0 : Nat) < 16 ∧ pwmLeg.glb.mode ≠ .sealed ∧ (pwmLeg.leg 0 0).mode = 4 ∧
    2000 ≤ fld (2000 : Word) 0 16 ∧ fld (2000 : Word) 16 16 ≠ 65535 ∧ bit (0x0B000100 : Word) 8 = true ∧ fld (0x0B000100 : Word) 24 4 ≤ 11 ∧
    bit (0x0B000100 : Word) 9 = false ∧ (on .configure).quiet.judgeWrite (.leg 0 0 0) 2 = .ok ∧ fld (2 : Word) 0 3 ≠ ((on .configure).leg 0 0).mode ∧
    ((on .configure).leg 0 0).mode < 8 ∧ ((0 : Nat), (1 : Nat)) ≠ (0, 0) := by decide

/-- CFG_LOCK holds the set. -/
def setHeld : State := { on .run with cfg := { CfgB.reset with lock := 4, lockWritten := true } }

theorem hyp_commit : (on .run).inReset = false ∧ (on .run).glb.mode ≠ .sealed ∧ bit (on .run).cfg.lock 2 = false ∧ bit (1 : Word) 1 = false ∧
    setHeld.inReset = false ∧ setHeld.glb.mode ≠ .sealed ∧ bit setHeld.cfg.lock 2 = true ∧ (on .run).cfg.lockWritten = false ∧ (on .run).cfg.lock = 0 ∧
    lockZero.cfg.lockWritten = true := by decide

/-- Axis 0 on, with its bit set. -/
def axisOn (m : DevMode) : State := axisIn m fun x => { x with regs := { x.regs with ctrl := 1 }, m := { x.m with en := true, mode := .target } }
/-- A disable that is due, with the bit cleared or set again. -/
def disableDue (again : Bool) : State :=
  axisIn .run fun x => { x with regs := { x.regs with ctrl := bw again 0 }, m := { x.m with en := true, mode := .target, disDue := true } }
/-- Course 0, whose bit has been cleared in this period. -/
def courseOff : State := (on .run).updCourse 0 fun c => { c with m := { c.m with en := true, disPend := true, mode := .target } }

theorem hyp_enable : (on .configure).inReset = false ∧ (on .configure).present .axis 0 = true ∧
    (on .configure).quiet.judgeWrite (.unit .axis 0 0) (0 ||| 1) = .ok ∧ (on .configure).glb.mode = .configure ∧
    (on .run).quiet.judgeWrite (.unit .axis 0 0) (0 ||| 1) = .ok ∧ (on .run).glb.mode ≠ .configure ∧ (on .run).unitBit .axis 0 = false ∧
    (axisOn .run).quiet.judgeWrite (.unit .axis 0 0) (1 &&& ~~~ (1 : Word)) = .ok ∧ (axisOn .run).unitBit .axis 0 = true ∧
    ((on .run).motion .axis 0).en = false ∧ courseOff.quiet.judgeWrite (.unit .course 0 0) (0 ||| 1) = .ok ∧
    (courseOff.motion .course 0).en = true ∧ courseOff.unitBit .course 0 = false ∧ (disableDue false).inReset = false ∧ (disableDue false).present .axis 0 = true ∧
    ((disableDue false).motion .axis 0).disDue = true ∧ (disableDue false).unitBit .axis 0 = false ∧
    ((disableDue true).motion .axis 0).disDue = true ∧ (disableDue true).unitBit .axis 0 = true ∧
    (on .run).present .axis 48 = false ∧ ((on .run).motion .axis 0).disDue = false := by decide

/-- A compensation table whose temperatures rise. -/
def tcReady : State :=
  { on .configure with ref := { Ref.reset with tcPt := (List.range 16).map fun i => (i, wd (65536 * i)) } }

/-- A follower island, and the boundary at which the RC starts. -/
def follower (f : Strait → Strait) : State := { on .configure with str := f { Strait.reset with ctrl := 0x00001082, island := 1 } }
def starting : State := { on .run with ref := { Ref.reset with ctrl := 1, startPend := true, startDue := true } }

theorem hyp_reference : (on .safe).inReset = false ∧ (on .safe).quiet.judgeWrite (.ref 0) (0 ||| 1) = .ok ∧ (on .safe).glb.mode ≠ .configure ∧
    bit (on .safe).ref.ctrl 0 = false ∧ bit (0 : Word) 1 = false ∧ (on .configure).quiet.judgeWrite (.ref 0) (1 &&& ~~~ (1 : Word)) = .ok ∧
    tcReady.inReset = false ∧ tcReady.quiet.judgeWrite (.ref 0) (0 ||| 2) = .ok ∧ starting.ref.startDue = true ∧ (on .run).ref.startDue = false ∧
    (follower id).inReset = false ∧ 0 < (follower id).variant.ports ∧ (follower id).quiet.judgeWrite (.ref 0x60) (0x1082 ||| 0x20) = .ok ∧
    fld ((0x1082 : Word) ||| 0x20) 0 2 = 2 ∧ (on .configure).quiet.judgeWrite (.ref 0x60) (0x1080 ||| 0x20) = .ok ∧
    fld ((0x1080 : Word) ||| 0x20) 0 2 ≠ 2 := by decide

/-- The role of an island changes in Configure; a follower whose chain is too long. -/
def longChain : State := follower fun t => { t with long := true }

theorem hyp_roles : longChain.inReset = false ∧ 0 < longChain.variant.ports ∧ longChain.quiet.judgeWrite (.ref 0x60) (0x1082 ||| 0x20) = .ok ∧
    fld longChain.str.ctrl 0 2 = 2 ∧ longChain.str.long = true ∧ (follower id).str.long = false ∧ fld (on .configure).str.ctrl 0 2 ≠ 2 ∧
    longChain.quiet.judgeWrite (.ref 0x60) (0x1080 ||| 0x20) = .ok ∧ fld ((0x1080 : Word) ||| 0x20) 0 2 ≠ fld longChain.str.ctrl 0 2 := by decide

/-- A state with the host block on and a managed window. -/
def windowed (s : State) : State :=
  { s with host := { s.host with ctrl := 1, winLo := 0x00100000, winSize := 20, linkUp := true, bme := true } }
/-- Ring 0 in RUN on axis 0, in a state with a managed window. -/
def ringRun (s : State) (f : Ring → Ring) : State :=
  (windowed s).updRing 0 fun x => f { x with ctrl := 1, scope := 1, state := .run }
/-- Ring 0 of 16 entries in the managed window, not yet enabled. -/
def ringReady (m : DevMode) : State := (windowed (on m)).updRing 0 fun x => { x with scope := 1, baseLo := 0x00100000, ctrl := 0x400 }

theorem hyp_rings : (ringReady .safe).inReset = false ∧ 0 < (ringReady .safe).variant.rings ∧
    (ringReady .safe).quiet.judgeWrite (.host 0) (0 ||| 1) = .ok ∧ (on .safe).quiet.judgeWrite (.host 0) (1 &&& ~~~ (1 : Word)) = .ok ∧
    (ringReady .safe).quiet.judgeWrite (.ring 0 0) (0x400 ||| 1) = .ok ∧ bit ((ringReady .safe).ring 0).ctrl 0 = false ∧
    (ringReady .configure).quiet.judgeWrite (.ring 0 0) (0x400 ||| 1) = .ok ∧ (ringReady .configure).glb.mode = .configure ∧
    (ringRun (on .safe) id).quiet.judgeWrite (.ring 0 0) (1 &&& ~~~ (1 : Word)) = .ok ∧ bit ((ringRun (on .safe) id).ring 0).ctrl 0 = true ∧
    ((ringRun (on .safe) id).ring 0).state ≠ .off ∧ (on .safe).glb.mode ≠ .sealed ∧ fld (16384 : Word) 0 16 ≤ 16384 ∧
    ((on .safe).ring 0).quota < 65536 ∧ 11 < (on .safe).variant.tiles ∧ Bank.get 0xFFFF (on .safe).host.budget 11 < 65536 := by decide

/-- Pair 0 and encoder 0 enabled. -/
def inputsOn (m : DevMode) : State := { on m with inp := { (on m).inp with stepCfg := [(0, 1)], encCfg := [(0, 0x11)] } }

theorem hyp_inputs : (on .configure).inReset = false ∧ 11 < (on .configure).variant.tiles ∧
    (on .configure).quiet.judgeWrite (.tile 11 0) 1 = .ok ∧ 15 < (on .configure).variant.pairs ∧
    (on .configure).quiet.judgeWrite (.inp (0x100 + 4 * 15)) (0 ||| 1) = .ok ∧ bit ((on .configure).inp.stepCfgOf 15) 0 = false ∧
    0 < (inputsOn .configure).variant.pairs ∧ (inputsOn .configure).quiet.judgeWrite (.inp (0x100 + 4 * 0)) (1 &&& ~~~ (1 : Word)) = .ok ∧
    bit ((inputsOn .configure).inp.stepCfgOf 0) 0 = true ∧ 3 < (on .configure).variant.encoders ∧
    (on .configure).quiet.judgeWrite (.inp (0x180 + 4 * 3)) (0x10 ||| 1) = .ok ∧ bit ((on .configure).inp.encCfgOf 3) 0 = false ∧
    (1 : Nat) < 2 ∧ 32 * 1 < (on .configure).variant.senses ∧ (on .configure).quiet.judgeWrite (.inp (0x08 + 4 * 1)) 1 = .ok ∧ (31 : Nat) < 32 ∧
    (on .configure).inp.filt.getLsbD (32 * 1 + 0) ≠ bit (1 : Word) 0 ∧ (on .configure).inp.filt.getLsbD (32 * 1 + 31) = bit (1 : Word) 31 := by decide

/-- A register request that a boundary judges. -/
def asked (m : DevMode) (n : Nat) : State := { on m with glb := { (on m).glb with reqDue := true, modeReq := some n } }
/-- All tiles are enabled and good, so that the device may drive. -/
def driving (s : State) : State := { s with tiles := (List.range 12).map fun t => (t, { Tile.reset with ctrl := 1, vgUv := false, vmUv := false }) }

theorem hyp_requests : (on .run).inReset = false ∧ (on .run).glb.reqDue = false ∧ (asked .configure 4).inReset = false ∧
    (asked .configure 4).glb.reqDue = true ∧ (asked .configure 4).glb.modeReq = some 4 ∧
    ({ (asked .configure 4).quiet with glb := { (asked .configure 4).glb with reqDue := false, modeReq := none } } : State).refusal 4 = some 3 ∧
    (driving (asked .run 4)).inReset = false ∧ (driving (asked .run 4)).glb.reqDue = true ∧ (driving (asked .run 4)).glb.modeReq = some 4 ∧
    (driving (asked .run 4)).glb.mode = .run ∧ (driving (asked .run 4)).driveOk = true ∧ (driving (asked .run 4)).glb.locked = false := by decide

/-! ### Descriptors -/

/-- Axis 0 enabled in a mode, with ring 0 in RUN on it and the position known. -/
def axisRing (m : DevMode) (f : Motion → Motion) : State :=
  ringRun ((axisOn m).updMotion .axis 0 fun x => f { x with posUnc := false }) id
/-- Ring 0 as a service ring. -/
def serviceRing (s : State) : State := ringRun s fun x => { x with scope := 0 }
/-- Ring 0 on course 0, which is enabled. -/
def courseRing : State :=
  ringRun (((axisOn .run).updMotion .axis 0 fun x => { x with posUnc := false }).updMotion .course 0 fun x => { x with en := true, mode := .target, posUnc := false })
    fun x => { x with scope := 2 }
/-- Ring 0 on the legs of tile 0. -/
def legRing (s : State) : State := ringRun s fun x => { x with scope := 0xFFFF0003 }

theorem hyp_refused : descRow 0x11 0 (desc 0x11) = some (.moveTo 0 (desc 0x11)) ∧ (ringRun (on .run) id).takesUp 0x11 0 (desc 0x11) ∧
    (((ringRun (on .run) id).taken 0 (desc 0x11)).check ((ringRun (on .run) id).ring 0) (desc 0x11)).isSome = true ∧ (1 : Nat) ≠ 0 := by
  unfold State.takesUp; decide

/-- Ring 0 holds a FENCE; ring 0 has an older descriptor that has not been written back. -/
def fenced : State := ringRun (on .run) fun x => { x with fence := some (0, []) }
def older : State :=
  ringRun (on .run) fun x => { x with ti := 1, fi := 1, pi := 1, outst := [{ index := 0, word0 := 0, takeDt := 0, record := none, doneDt := 0 }] }

theorem hyp_waits : descRow 0x00 0 (desc 0) = some (.nop 0 (desc 0)) ∧ (on .run).inReset = false ∧ (on .run).ringTakes 0 = false ∧
    op (desc 1) ≠ 0x00 ∧ ((ringRun (on .run) fun x => { x with reads := [1] }).ring 0).offers (desc 0)
      (ringRun (on .run) fun x => { x with reads := [1] }).tickDt = false ∧
    fenced.inReset = false ∧ op (desc 0) = 0x00 ∧ fenced.ringTakes 0 = true ∧ (fenced.ring 0).offers (desc 0) fenced.tickDt = true ∧
    fenced.waitReason 0 (desc 0) ≠ 0 := by decide

/-- A valid profile as words. -/
def profWords : List Word := [0x2000, 0x40000, 0x10000, 0x20000, 0x20000, 0x40000, 0x40000, 0x2000]
/-- SET_PROFILE of slot 1 and SET_CURRENT of the run current. -/
def setProfileD : Desc := desc 0x10 1 0x00100000 (param := profWords)
def setCurrentD : Desc := desc 0x117 5

theorem hyp_setters : ((axisRing .run id).ring 0).target setProfileD = .unit .axis 0 ∧ (axisRing .run id).accepts 0x10 0 setProfileD ∧
    ((axisRing .run id).ring 0).target setCurrentD = .unit .axis 0 ∧ (axisRing .run id).accepts 0x17 0 setCurrentD ∧
    (axisRing .run id).accepts 0x00 0 (desc 0) ∧ older.accepts 0x01 0 (desc 1) ∧
    (older.taken 0 (desc 1)).fenceMet ((older.taken 0 (desc 1)).fenceList 0 (older.ring 0).ti (desc 1)) = false ∧
    (ringRun (on .run) id).accepts 0x01 0 (desc 1) ∧
    ((ringRun (on .run) id).taken 0 (desc 1)).fenceMet (((ringRun (on .run) id).taken 0 (desc 1)).fenceList 0 ((ringRun (on .run) id).ring 0).ti (desc 1)) = true ∧
    (ringRun (on .run) id).accepts 0x02 0 (desc 0x00400002) := by
  unfold State.accepts State.takesUp; decide

/-- Axis 0 with a RESUME that waits for standstill. -/
def resuming : State := axisRing .run fun m => { m with deferred := [(⟨0, 0⟩, desc 0x16, Profile.reset)] }

theorem hyp_moves : ((axisRing .run id).ring 0).target (desc 0x11 100) = .unit .axis 0 ∧ ((axisRing .run id).motion .axis 0).deferred = [] ∧
    (axisRing .run id).accepts 0x13 0 (desc 0x13 0x10000) ∧ (axisRing .run id).accepts 0x11 0 (desc 0x11 100) ∧
    (Bank.get Profile.reset ((axisRing .run id).motion .axis 0).profs 0).overrideOk 0 = true ∧
    -2 ^ 47 ≤ signed48 (desc 0x11 100).w1 (desc 0x11 100).w2 ∧ signed48 (desc 0x11 100).w1 (desc 0x11 100).w2 < 2 ^ 47 ∧
    (signed48 (desc 0x11 100).w1 (desc 0x11 100).w2 - 0).natAbs < 2 ^ 47 ∧
    ((axisRing .run id).motion .axis 0).base false = (0, false) ∧
    (axisRing .run id).accepts 0x12 0 (desc 0x12 100) ∧ -2 ^ 47 ≤ 0 + signed48 (desc 0x12 100).w1 (desc 0x12 100).w2 ∧
    0 + signed48 (desc 0x12 100).w1 (desc 0x12 100).w2 < 2 ^ 47 ∧
    (resuming.motion .axis 0).deferred ≠ [] ∧ (resuming.ring 0).target (desc 0x11 100) = .unit .axis 0 ∧
    descRow 0x11 0 (desc 0x11 100) = some (.moveTo 0 (desc 0x11 100)) ∧ resuming.accepts 0x11 0 (desc 0x11 100) := by
  unfold State.accepts State.takesUp; decide

theorem hyp_moves_zero : (axisRing .run id).standing .axis 0 = true ∧ ((axisRing .run id).motion .axis 0).suspended = false ∧
    bit (desc 0x11 0).w0 8 = false ∧ bit (desc 0x12 0).w0 8 = false ∧
    signed48 (desc 0x11 0).w1 (desc 0x11 0).w2 = ((axisRing .run id).motion .axis 0).pos ∧
    0 + signed48 (desc 0x12 0).w1 (desc 0x12 0).w2 = ((axisRing .run id).motion .axis 0).pos ∧
    signed48 (desc 0x11 100).w1 (desc 0x11 100).w2 ≠ ((axisRing .run id).motion .axis 0).pos ∧
    (axisRing .run id).accepts 0x11 0 (desc 0x11 0) ∧ (axisRing .run id).accepts 0x12 0 (desc 0x12 0) ∧
    bit (desc 0x111 0).w0 8 = true ∧ (axisRing .run id).accepts 0x11 0 (desc 0x111 0) ∧
    ((axisRing .run id).taken 0 (desc 0x111 0)).idle .axis 0 = true := by
  unfold State.accepts State.takesUp; decide

/-- Axis 0 moving; with a value retained; and with a stop in progress. -/
def moving : State := axisRing .run fun m => { m with v := 2 ^ 32, queue := [{ periods := 100, acc := 0, isEnd := false, tag := none }] }
def retained : State := axisRing .run fun m => { m with ret := some { isVel := false, value := 100, prof := Profile.reset } }
def stopping : State := axisRing .run fun m => { m with v := 2 ^ 32, stopping := some { cause := .stop, begun := true, sweep := false, member := none } }

theorem hyp_stops : ((axisRing .run id).ring 0).target (desc 0x14) = .unit .axis 0 ∧ descRow 0x14 0 (desc 0x14) = some (.stop 0 (desc 0x14)) ∧
    descRow 0x15 0 (desc 0x15) = some (.qstop 0 (desc 0x15)) ∧
    (axisRing .run id).accepts 0x14 0 (desc 0x14) ∧ (axisRing .run id).accepts 0x15 0 (desc 0x15) ∧ moving.accepts 0x14 0 (desc 0x14) ∧
    ((axisRing .run id).taken 0 (desc 0x14)).standing .axis 0 = true ∧ (moving.taken 0 (desc 0x14)).standing .axis 0 = false ∧
    retained.accepts 0x16 0 (desc 0x16) ∧ (retained.motion .axis 0).deferred = [] ∧ (retained.motion .axis 0).stopping = none ∧
    (retained.motion .axis 0).ret = some { isVel := false, value := 100, prof := Profile.reset } ∧ (retained.motion .axis 0).posUnc = false ∧
    retained.limitRefuses .axis 0 (100 : Int).sign ≠ some Status.limitActive ∧ (100 : Int) ≠ 0 ∧
    (axisRing .run id).accepts 0x16 0 (desc 0x16) ∧ ((axisRing .run id).motion .axis 0).ret = none ∧
    stopping.accepts 0x16 0 (desc 0x16) ∧ (stopping.motion .axis 0).stopping.isSome = true := by
  unfold State.accepts State.takesUp; decide

/-- A retained value on an axis whose position is uncertain; one that points into a limit that is active; one of no displacement. -/
def uncertainRet : State := axisRing .run fun m => { m with ret := some { isVel := false, value := 100, prof := Profile.reset }, posUnc := true }
def limitRet : State :=
  (axisRing .run fun m => { m with ret := some { isVel := false, value := 100, prof := Profile.reset } }).updAxis 0 fun x =>
    { x with regs := { x.regs with limit := 0x00800000 } }
def atLimit : State := { limitRet with inp := { limitRet.inp with known := 1 } }
def zeroRet : State := axisRing .run fun m => { m with ret := some { isVel := false, value := 0, prof := Profile.reset } }

theorem hyp_resume : uncertainRet.accepts 0x16 0 (desc 0x16) ∧ (uncertainRet.motion .axis 0).deferred = [] ∧ (uncertainRet.motion .axis 0).stopping = none ∧
    (uncertainRet.motion .axis 0).ret = some { isVel := false, value := 100, prof := Profile.reset } ∧ (uncertainRet.motion .axis 0).posUnc = true ∧
    bit (desc 0x16).w0 9 = false ∧ uncertainRet.accepts 0x16 0 (desc 0x216) ∧ bit (desc 0x216).w0 9 = true ∧
    atLimit.accepts 0x16 0 (desc 0x16) ∧ (atLimit.motion .axis 0).deferred = [] ∧ (atLimit.motion .axis 0).stopping = none ∧
    (atLimit.motion .axis 0).ret = some { isVel := false, value := 100, prof := Profile.reset } ∧ (atLimit.motion .axis 0).posUnc = false ∧
    atLimit.limitRefuses .axis 0 (100 : Int).sign = some Status.limitActive ∧
    zeroRet.accepts 0x16 0 (desc 0x16) ∧ (zeroRet.motion .axis 0).deferred = [] ∧ (zeroRet.motion .axis 0).stopping = none ∧
    (zeroRet.motion .axis 0).ret = some { isVel := false, value := 0, prof := Profile.reset } ∧ (zeroRet.motion .axis 0).posUnc = false ∧
    zeroRet.limitRefuses .axis 0 (0 : Int).sign ≠ some Status.limitActive := by
  unfold State.accepts State.takesUp; decide

/-- A HOME by the stall method, a CHARACTERIZE, a SELF_TEST and a DIAG_OFFSTATE, their OSB at the start of the managed window. -/
def homeD : Desc := desc 0x20 1 0x00100000 (param := [0x100, 0, 1, 1, 0, 0, 0, 0])
def charD : Desc := desc 0x21 0x4000 0x00100000 0 0 0 0x00020000
def selfTestD : Desc := desc 0x44 1 0x00100000
def diagD : Desc := desc 0x40 0x00010001 0x00100000

theorem hyp_long : (axisRing .run id).accepts 0x20 0 homeD ∧ ((axisRing .run id).ring 0).target homeD = .unit .axis 0 ∧
    ((axisRing .run id).motion .axis 0).deferred = [] ∧ (axisRing .run id).accepts 0x21 0 charD ∧
    ((axisRing .run id).ring 0).target charD = .unit .axis 0 ∧ (serviceRing (on .safe)).accepts 0x44 0 selfTestD ∧
    (serviceRing (on .diagnose)).accepts 0x40 0 diagD := by
  unfold State.accepts State.takesUp; decide

/-- Axis 0 driven in Diagnose. -/
def diagDriven : State := (serviceRing (on .diagnose)).updAxis 0 fun x => { x with driven := true }

theorem hyp_under_test : diagDriven.accepts 0x40 0 diagD ∧ (diagDriven.axis 0).driven = true ∧
    ∃ t, exec (.diagOffstate 0 diagD) diagDriven = .next t ∧ t.underTest 0 = true :=
  ⟨by unfold State.accepts State.takesUp; decide, by decide, _, rfl, by decide +kernel⟩

/-- A committed set whose CRC matches; core 3 is a spare that awaits approval. -/
def committed (ok : Bool) : State := { serviceRing (on .safe) with cfg := { CfgB.reset with committed := true, crcOk := ok } }
def coreWaits : State := serviceRing { on .safe with spr := { (on .safe).spr with corePend := true } }
def nvCommitD : Desc := desc 0x43 0 0x00100000
def approveD : Desc := desc 0x45 3
def setModeD : Desc := desc 0x42 5

theorem hyp_device : (committed true).accepts 0x43 0 nvCommitD ∧ (committed true).cfg.committed = true ∧ (committed true).cfg.crcOk = true ∧
    (committed true).nvBlock = false ∧ (committed false).accepts 0x43 0 nvCommitD ∧ (committed false).cfg.crcOk = false ∧
    coreWaits.accepts 0x45 0 approveD ∧ coreWaits.awaits 3 = true ∧ (serviceRing (on .safe)).accepts 0x45 0 approveD ∧
    (serviceRing (on .safe)).awaits 3 = false ∧ (serviceRing (on .safe)).accepts 0x42 0 setModeD := by
  unfold State.accepts State.takesUp; decide

theorem hyp_image : 4 * ((((committed true).taken 0 nvCommitD).acceptLong (newLong ((committed true).headTag 0) nvCommitD 0)).image
    (((committed true).taken 0 nvCommitD).acceptLong (newLong ((committed true).headTag 0) nvCommitD 0)).nvSeq).length ≤ 28672 := by
  decide +kernel

/-- READ_HISTORY of one record. -/
def historyD : Desc := desc 0x41 1 0 0x00100000

/-- The same with ACK, where one record is held. -/
def historyAck : Desc := desc 0x141 1 0 0x00100000
def recorded : State := let s := serviceRing (on .safe); { s with flt := { s.flt with hist := [entry 1 0] } }

theorem hyp_history : (serviceRing (on .safe)).accepts 0x41 0 historyD ∧ bit historyD.w0 8 = false ∧ recorded.accepts 0x41 0 historyAck ∧
    bit historyAck.w0 8 = true ∧ (recorded.flt.hist.map fun e => e.uid).Nodup ∧
    entry 1 0 ∈ (recorded.flt.from historyAck.w2.toNat).take (fld historyAck.w1 0 6) ∧ recorded.mayAck (entry 1 0) = true := by
  unfold State.accepts State.takesUp; decide

/-- Pair 0 counts, and window 0 holds a table of one page. -/
def sources : State :=
  let s := axisRing .run id
  { s with inp := { s.inp with stepCfg := [(0, 1)] }, host := { s.host with twins := [(0, { TWin.reset with baseLo := 0x00100000, size := 1 })] } }
def followD : Desc := desc 0x29 0 0x10000
def playD : Desc := desc 0x28 0 256
def bindD : Desc := desc 0x30 0 0x10000
def unbindD : Desc := desc 0x31

theorem hyp_follow : (sources.ring 0).target followD = .unit .axis 0 ∧ sources.accepts 0x29 0 followD ∧ (sources.motion .axis 0).deferred = [] ∧
    (sources.ring 0).target playD = .unit .axis 0 ∧ sources.accepts 0x28 0 playD ∧ (courseRing.ring 0).target bindD = .unit .course 0 ∧
    courseRing.accepts 0x30 0 bindD ∧ (courseRing.ring 0).target unbindD = .unit .course 0 ∧ courseRing.accepts 0x31 0 unbindD ∧
    bit unbindD.w0 8 = false ∧ sources.canIssue = true ∧ sources.reaches (.readRequest ((sources.twin 0).base + 0) (min 256 256)) = true ∧
    fld playD.w2 0 30 = 256 ∧ sources.host.asked = [] ∧ 128 ≤ sources.host.mrrs := by
  unfold State.accepts State.takesUp; decide

/-- Leg 0 in solenoid mode, alone and with a descriptor that waits. -/
def solDesc (hold : Bool) : SolDesc :=
  { tag := ⟨0, 0⟩, word0 := 0x38, isHold := hold, per := 2000, tPi := 1, dutyPi := 16, dutyH := 16, tH := if hold then 0 else 1, gate := none, armed := false,
    heldSince := none, held := false, dwellLeft := none, due := false, late := false, startDt := 0 }
def solLeg (w : List SolDesc) : State := legRing (legIn .run fun x => { x with mode := 2, solWait := w })
def solD : Desc := desc 0x38 0x07D00001 16 16 0 0 0 1
def solHoldD : Desc := desc 0x39 0x07D00001 16 16

theorem hyp_solenoid : descRow 0x38 0 solD = some (.solPulse 0 solD) ∧ descRow 0x39 0 solHoldD = some (.solHold 0 solHoldD) ∧
    (solLeg []).accepts 0x38 0 solD ∧ (solLeg []).accepts 0x39 0 solHoldD ∧ (solLeg [solDesc true]).accepts 0x38 0 solD ∧
    ((solLeg []).ring 0).target solD = .legs 0 0xFFFF ∧ ((solLeg []).leg 0 (fld solD.w2 24 4)).mode = 2 ∧ 2000 ≤ fld solD.w1 16 16 ∧
    fld solD.w2 0 20 ≤ 16 * (fld solD.w1 16 16 - ((solLeg []).leg 0 0).tMinOff) ∧
    fld solD.w3 0 20 ≤ 16 * (fld solD.w1 16 16 - ((solLeg []).leg 0 0).tMinOff) ∧ ((solLeg []).leg 0 0).latch = false ∧
    ((solLeg []).leg 0 0).solWait = [] ∧ ((solLeg [solDesc true]).leg 0 0).solWait ≠ [] := by
  unfold State.accepts State.takesUp; decide

/-! ### What the clock brings -/

theorem hyp_runner : (moving.motion .axis 0).queue = { periods := 100, acc := 0, isEnd := false, tag := none } :: [] ∧ (0 : Nat) < 99 ∧ (99 : Nat) < 100 := by
  decide

/-- The clock stands at a period and tick boundary. -/
def atBoundary : State := { on .run with dt := 50000, lastPeriod := some 50000, lastTick := some 50000 }

theorem hyp_boundaries : atBoundary.inReset = false ∧ atBoundary.lastPeriod = some 50000 ∧ 50000 ≤ atBoundary.dt ∧
    atBoundary.lastTick = some atBoundary.dt ∧ 63 < atBoundary.variant.rings := by decide

/-- Nothing found by the checkers at a period boundary, and at a tick boundary. -/
def periodObs : PeriodObs := { differ := [], runnerFail := [], engineFail := [] }
def tickObs : TickObs := { aPass := true, bPass := true }
/-- Axes 0 and 1, the first of them enabled. -/
def twoAxes : State := (axisOn .run).updAxis 1 id

theorem hyp_integrate : twoAxes.listedAxes.Nodup ∧ 0 ∈ twoAxes.listedAxes ∧ 1 ∈ twoAxes.listedAxes ∧ (twoAxes.axis 0).m.en = true ∧
    (twoAxes.axis 0).m.dies = false ∧ (twoAxes.axis 1).m.en = false ∧ twoAxes.courses = [] := by decide

theorem hyp_integrate_alone : (∀ k n, (twoAxes.motion k n).play = none ∧ (twoAxes.motion k n).follow = none) ∧ ∀ c, (twoAxes.course c).members = [] := by
  refine ⟨fun k n => ?_, fun _ => rfl⟩
  cases k
  · show ((Bank.get Axis.reset _ n).m.play = none ∧ (Bank.get Axis.reset _ n).m.follow = none)
    match n with
    | 0 => decide
    | 1 => decide
    | _ + 2 => exact ⟨rfl, rfl⟩
  · exact ⟨rfl, rfl⟩

theorem hyp_deliver : ∃ t, exec (.interpolationPeriod periodObs) (axisOn .run) = .next t ∧ t.spr.freeze = false ∧ (t.axis 0).m.en = true :=
  ⟨_, rfl, by decide +kernel, by decide +kernel⟩

/-- Ring 0 with a NOP that was prefetched before the tick; with one behind a FENCE; with one prefetched at it. -/
def offered (f : Ring → Ring) (dt : Nat) : State :=
  let s := ringRun (on .run) fun x => f { x with pref := [{ d := desc 0, ready := true, dt := dt }] }
  { s with dt := 50000, lastTick := some 50000 }

theorem hyp_take_up : ((on .run).ring 0).pref = [] ∧ ((offered id 0).ring 0).pref = { d := desc 0, ready := true, dt := 0 } :: [] ∧
    (offered id 0).ringTakes 0 = true ∧ 0 < (offered id 0).tickDt ∧ (offered id 0).waitReason 0 (desc 0) = 0 ∧
    (offered (fun x => { x with fence := some (0, []) }) 0).waitReason 0 (desc 0) ≠ 0 ∧
    (offered (fun x => { x with fence := some (0, []) }) 0).ringTakes 0 = true ∧ (offered id 50000).tickDt ≤ 50000 := by decide

theorem hyp_tick : (∃ t, exec (.planningTick tickObs) (on .run) = .next t) ∧ ((on .run).quiet.toTick.voterCheck tickObs).paused = false ∧
    ((on .run).quiet.toTick.voterCheck tickObs).glb.mode ≠ .sealed ∧ (∃ t, exec (.planningTick tickObs) State.reset = .next t) ∧
    (State.reset.quiet.toTick.voterCheck tickObs).glb.mode = .sealed := ⟨⟨_, rfl⟩, by decide +kernel, by decide +kernel, ⟨_, rfl⟩, by decide +kernel⟩

/-- A pass of the configuration CRC, compared or not. -/
def passIn (c : Bool) : State := { on .run with cfg := { CfgB.reset with pass := some { compared := c, seen := [] } } }
/-- The same with a reference that the set's CRC plus `d` gives. -/
def crcIn (d : Word) : State := { passIn true with cfg := { (passIn true).cfg with ref := (passIn true).cfgCrc + d } }
/-- A pass during which the set was written. -/
def passSeen : State := { on .run with cfg := { CfgB.reset with pass := some { compared := false, seen := [[1]] } } }
theorem hyp_pass_seen : passSeen.inReset = false ∧ passSeen.cfg.pass = some { compared := false, seen := [[1]] } ∧ (on .run).spr.scrubAt ≤ 5 := by decide
/-- Row 0 of the SRAM with words corrected so far, or being copied. -/
def rowIn (e : Nat) (c : Bool) : State :=
  { on .run with spr := { (on .run).spr with rows := [(0, { SramRow.reset with errs := e, copying := c })] } }

/-- CFG_CRC_REF is not of the set, so the CRC does not depend on it. -/
theorem contrib_ref (s : State) (w : Word) (l : Loc) : ({ s with cfg := { s.cfg with ref := w } } : State).contrib l = s.contrib l := by
  unfold State.contrib
  cases l
  case cfg o => simp [Loc.setMask, wd]
  all_goals unfold State.stored
  all_goals first | rfl | (split <;> first | rfl | contradiction | simp_all)

theorem cfgCrc_ref (s : State) (w : Word) : ({ s with cfg := { s.cfg with ref := w } } : State).cfgCrc = s.cfgCrc := by
  unfold State.cfgCrc State.setWords
  rw [show ({ s with cfg := { s.cfg with ref := w } } : State).contrib = s.contrib from funext (contrib_ref s w)]
  rfl

theorem crcIn_crc (d : Word) : (crcIn d).cfgCrc = (passIn true).cfgCrc := cfgCrc_ref (passIn true) _

theorem hyp_checks : (on .run).inReset = false ∧ (on .run).cfg.pass = none ∧ (passIn false).cfg.pass = some { compared := false, seen := [] } ∧
    (crcIn 0).inReset = false ∧ (crcIn 0).cfg.pass = some { compared := true, seen := [] } ∧ (crcIn 0).flt.injCrc = false ∧
    (crcIn 0).cfgCrc = (crcIn 0).cfg.ref ∧ (crcIn 1).cfg.pass = some { compared := true, seen := [] } ∧ (crcIn 1).flt.injCrc = false ∧
    (crcIn 1).cfgCrc ≠ (crcIn 1).cfg.ref ∧ (crcIn 1).cfg.episode = false ∧
    (∀ n ∈ (on .run).voting, [5, 5, 5, 5].getD n 0 = (5 : Word)) ∧ 0 / 256 / 512 < (on .run).variant.mibs ∧ 0 ∉ ((rowIn 6 false).row 0).words ∧
    ((rowIn 6 false).row 0).errs < 7 ∧ ((rowIn 0 true).row 0).copying = true ∧ ((rowIn 0 false).row 0).copying = false := by
  refine ⟨by decide, by decide, by decide, rfl, rfl, rfl, ?_, rfl, rfl, ?_, rfl, by decide, by decide, by decide, by decide, by decide, by decide⟩
  · rw [crcIn_crc]; exact (BitVec.add_zero _).symm
  · rw [crcIn_crc]
    show (passIn true).cfgCrc ≠ (passIn true).cfgCrc + 1
    generalize (passIn true).cfgCrc = x
    intro h
    have h' := congrArg (fun y => y - x) h
    rw [BitVec.sub_self, BitVec.add_comm, BitVec.add_sub_cancel] at h'
    exact absurd h' (by decide)

/-- Ring 0 in RUN while the doorbell array is read; while descriptors are read; with one that waits for its parameters. -/
def dbRead : State :=
  let s := ringRun (on .run) fun x => { x with ctrl := 0x401 }
  { s with host := { s.host with dbOut := true } }
def fetching : State := ringRun (on .run) fun x => { x with reads := [1] }
def paramWait : State := ringRun (on .run) fun x => { x with pref := [{ d := setProfileD, ready := false, dt := 0 }] }
/-- The playback of window 0 on axis 0, its first read out. -/
def playS : Play :=
  { tag := ⟨0, 0⟩, ord := 0, word0 := 0x28, win := 0, offset := 0, count := 256, rcStart := 0, q := 0, e := 0, slot := 0, from_ := 0, base := 0,
    fin := none, bufFirst := 0, buf := [], sumFirst := 0, nextReq := 0, reading := true, retried := false, absentTo := 0, memberFault := none }
def streaming : State :=
  let s := motionIn .run fun m => { m with play := some playS }
  { s with host := { s.host with twins := [(0, { TWin.reset with busy := some (.axis, 0) })] } }

/-- A doorbell read whose result is no longer wanted, and one of the two reads of ring 0. -/
def stale : State := { on .run with host := { (on .run).host with asked := [{ src := .doorbell, parts := [], sent := some 0 }] } }
def staleRing : State :=
  { fetching with host := { fetching.host with asked := List.replicate 2 { src := .ring 0, parts := [], sent := some 0 } } }

theorem hyp_read_stale : stale.inReset = false ∧ stale.host.discarded .doorbell (stale.wanted .doorbell) = true ∧ stale.host.dbOut = false ∧
    staleRing.host.discarded (.ring 0) (staleRing.wanted (.ring 0)) = true ∧ dbRead.host.discarded .doorbell (dbRead.wanted .doorbell) = false ∧
    fetching.host.discarded (.ring 0) (fetching.wanted (.ring 0)) = false ∧ paramWait.host.discarded (.param 0) (paramWait.wanted (.param 0)) = false ∧
    streaming.host.discarded (.table 0) (streaming.wanted (.table 0)) = false := by decide

theorem hyp_reads : (on .run).inReset = false ∧ (on .run).host.dbOut = false ∧ dbRead.inReset = false ∧ dbRead.host.dbOut = true ∧
    0 < dbRead.variant.rings ∧ ([16] : List Word)[0]? = some 16 ∧ (dbRead.ring 0).state = .run ∧
    (dbRead.ring 0).judge (16 : Word).toNat = none ∧ ([17] : List Word)[0]? = some 17 ∧ (dbRead.ring 0).judge (17 : Word).toNat = some errDbRange ∧
    fetching.inReset = false ∧ (fetching.ring 0).state = .run ∧ (fetching.ring 0).reads = [1] ∧ paramWait.inReset = false ∧
    ((paramWait.ring 0).pref.any fun f => !f.ready) = true ∧ streaming.inReset = false ∧ (streaming.twin 0).busy = some (.axis, 0) ∧
    (streaming.motion .axis 0).playOf 0 = some playS ∧ playS.reading = true ∧ playS.absentTo = 0 := by decide

/-- A move that has turned back, in its reversal dwell. -/
def turnMove : Move :=
  { tag := ⟨0, 0⟩, ord := 0, opcode := 0x11, word0 := 0x11, isVel := false, target := 0, rel := false, prof := Profile.reset, gate := none, replace := false,
    from_ := 0, armed := false, met := false, late := false, memberFault := none, turned := true, overshoot := 0, p0 := 0, silent := false }
def reversing : State := motionIn .run fun m => { m with en := true, mode := .target, dwell := some 0, act := some turnMove }
/-- A move not begun, in the dwell before an opposite move, with no limit bound and with the upper limit at an input that is not known. -/
def newMove : Move := { turnMove with turned := false, target := 100 }
def beforeOpposite (limit : Word) : State :=
  axisIn .run fun x => { x with regs := { x.regs with limit := limit }, m := { x.m with en := true, mode := .target, dwell := some 0, act := some newMove } }
/-- A stop that has begun to end. -/
def stopEnds : State :=
  motionIn .run fun m => { m with en := true, dwell := some 0, stopping := some { cause := .stop, begun := true, sweep := false, member := none } }
theorem hyp_dwell_stops : stopEnds.inReset = false ∧
    (stopEnds.motion .axis 0).stopping = some { cause := .stop, begun := true, sweep := false, member := none } := by decide
/-- Course 0 in its dwell, while axis 0 is being bound to it or not. -/
def courseDwells (bind : Bool) : State :=
  (on .run).updCourse 0 fun c =>
    { c with members := if bind then [(0, { Member.reset with state := .binding })] else []
             m := { c.m with en := true, mode := .target, dwell := some 0, act := some turnMove } }
def throttleOver : State := motionIn .run fun m => { m with start := .dwell 0 0 }
/-- A driven axis whose start its boundary has released; the same under a freeze. -/
def waiting : State := axisIn .run fun x => { x with driven := true, m := { x.m with en := true, mode := .target, start := .due 0 } }
def frozen (s : State) : State := { s with spr := { s.spr with freeze := true } }
/-- An axis that nothing holds, on good tiles. -/
def energizing : State := (driving (on .run)).updAxis 0 fun x => { x with powerDue := true, m := { x.m with en := true, mode := .target } }
/-- An axis that has stood for its settle time. -/
def settled : State :=
  axisIn .run fun x =>
    { x with regs := { x.regs with dispCfg := 0x80000001 }, driven := true, m := { x.m with en := true, mode := .target }, watch := { x.watch with settle := 101 } }

theorem hyp_dwells : reversing.inReset = false ∧ (reversing.motion .axis 0).dwell = some 0 ∧ (reversing.motion .axis 0).en = true ∧
    reversing.spr.freeze = false ∧ UnitKind.axis ≠ .course ∧ (reversing.motion .axis 0).act = some turnMove ∧ turnMove.turned = true ∧
    ((on .run).motion .axis 0).dwell = none ∧ throttleOver.inReset = false ∧ (throttleOver.motion .axis 0).start = .dwell 0 0 ∧
    (frozen waiting).inReset = false ∧ (frozen waiting).spr.freeze = true ∧ energizing.inReset = false ∧ (energizing.axis 0).powerDue = true ∧
    energizing.mayEnergize 0 = true ∧ ((on .run).axis 0).powerDue = false ∧ settled.inReset = false ∧ (settled.axis 0).settled = true ∧
    ((on .run).axis 0).settled = false := by decide

theorem hyp_dwell_moves : (beforeOpposite 0).inReset = false ∧ ((beforeOpposite 0).motion .axis 0).dwell = some 0 ∧
    ((beforeOpposite 0).motion .axis 0).en = true ∧ (beforeOpposite 0).spr.freeze = false ∧
    ((beforeOpposite 0).motion .axis 0).act = some newMove ∧ newMove.turned = false ∧ newMove.silent = false ∧
    (((beforeOpposite 0).quiet.updMotion .axis 0 fun m => { m with dwell := none }).limitRefuses .axis 0
      (newMove.sense ((beforeOpposite 0).motion .axis 0))) = none ∧
    (((beforeOpposite 0x00800000).quiet.updMotion .axis 0 fun m => { m with dwell := none }).limitRefuses .axis 0
      (newMove.sense ((beforeOpposite 0x00800000).motion .axis 0))) = some Status.inputUnknown ∧
    (courseDwells false).binding 0 = false ∧ ((courseDwells false).motion .course 0).act = some turnMove ∧
    (courseDwells true).inReset = false ∧ (courseDwells true).binding 0 = true := by decide

theorem hyp_start_release : waiting.inReset = false ∧ (waiting.motion .axis 0).start = .due 0 ∧ (waiting.axis 0).powerDue = false ∧
    waiting.glb.mode = .run ∧ waiting.spr.freeze = false ∧ waiting.placed .axis 0 = true ∧ (waiting.motion .axis 0).disDue = false ∧
    (waiting.motion .axis 0).disPend = false ∧ ((frozen waiting).motion .axis 0).start = .due 0 ∧ ((frozen waiting).axis 0).powerDue = false ∧
    (throttleOver.motion .axis 0).start ≠ .due 0 ∧ (throttleOver.axis 0).powerDue = false := by decide

/-- Leg 0 on a good tile with a solenoid descriptor that waits, or in a phase of its pulse. -/
def solWaits : State := (driving (on .run)).updLeg 0 0 fun x => { x with mode := 2, solWait := [solDesc false] }
def solIn (d : SolDesc) (p : SolPhase) : State := (driving (on .run)).updLeg 0 0 fun x => { x with mode := 2, solCur := some d, solPhase := p }

theorem hyp_sol_phases : solWaits.inReset = false ∧ solWaits.spr.freeze = false ∧ (solWaits.leg 0 0).solWait = solDesc false :: [] ∧
    (∀ e ∈ [solDesc false], e.heldSince = none) ∧ 0 < (solDesc false).tPi ∧ 0 < (solDesc false).dutyPi ∧ (solWaits.leg 0 0).solReady = true ∧ solWaits.glb.mode = .run ∧ solWaits.legFree 0 0 = true ∧
    (solWaits.leg 0 0).solMode = true ∧ (solDesc false).gate = none ∧ (solDesc false).releases = false ∧ solWaits.tooBig (.leg 0 0) = false ∧
    solWaits.throttled (.leg 0 0) = false ∧ solWaits.admits (.leg 0 0) = true ∧ ((on .run).leg 0 0).solWait = [] ∧
    (solIn (solDesc false) .pullIn).inReset = false ∧ (solIn (solDesc false) .pullIn).spr.freeze = false ∧
    ((solIn (solDesc false) .pullIn).leg 0 0).solCur = some (solDesc false) ∧ ((solIn (solDesc false) .pullIn).leg 0 0).solPhase = .pullIn ∧
    ((solIn (solDesc false) .pullIn).leg 0 0).solLeft = 0 ∧ (solDesc false).isHold = false ∧ 0 < (solDesc false).tH ∧
    ((solIn (solDesc true) .pullIn).leg 0 0).solCur = some (solDesc true) ∧ (solDesc true).isHold = true ∧
    ((solIn { solDesc false with tH := 0 } .pullIn).leg 0 0).solCur = some { solDesc false with tH := 0 } ∧
    ((solIn (solDesc false) .hold).leg 0 0).solPhase = .hold ∧ ((solIn (solDesc false) .hold).leg 0 0).solLeft = 0 ∧
    ((solIn (solDesc false) .fin).leg 0 0).solPhase = .fin ∧ ((on .run).leg 0 0).solCur = none := by decide

theorem hyp_sol_alone : solWaits.waiters = [] := rfl

/-- Tile 0 under the off-state diagnostic. -/
def testing : State :=
  { on .diagnose with diag := [(0, { mask := 1, legs := [], phase := 0, cur := some { leg := 0, v1 := 0, v2 := 0, vm := 0, vg := 0, skip := none }, first := none,
                                     entries := [] })] }

theorem hyp_diag : testing.inReset = false ∧ testing.glb.mode = .diagnose ∧
    testing.diag.lookup 0 = some { mask := 1, legs := [], phase := 0, cur := some { leg := 0, v1 := 0, v2 := 0, vm := 0, vg := 0, skip := none },
                                   first := none, entries := [] } ∧
    (on .run).inReset = false ∧ (on .run).glb.mode ≠ .diagnose ∧ (on .run).cfg.nvWrite = none ∧ (nvIn false 0).inReset = false ∧
    (nvIn false 0).cfg.nvWrite = some ⟨false, 0, [1, 2]⟩ ∧ (nvIn false 0).thm.shut = false ∧ ([1, 2] : List Word) ≠ [] ∧ (nvIn false 0).nvBlock = false ∧
    (nvIn true 2).cfg.nvWrite = some ⟨true, 2, [1, 2]⟩ ∧ (nvIn true 2).thm.shut = false ∧ (0 : Nat) < 2 ∧
    2 + 1 = (NvWrite.mk true 2 [1, 2]).steps := by decide

/-- A leg under test, its number, and whether the supplies leave it out. -/
def underTest (l : Nat) (skip : Option Nat) : DiagLeg := { leg := l, v1 := 0, v2 := 150, vm := 400, vg := 800, skip := skip }
/-- Tile 0 in a phase of the test of a leg, with the first leg of its pair done or not, axis 0 enabled. -/
def testPhase (ph mask : Nat) (x : DiagLeg) (first : Option DiagLeg) : State :=
  { (axisOn .diagnose) with diag := [(0, { mask := mask, legs := [], phase := ph, cur := some x, first := first, entries := [] })] }

theorem hyp_diag_phases : (testPhase 0 3 (underTest 0 none) none).inReset = false ∧ (testPhase 0 3 (underTest 0 none) none).glb.mode = .diagnose ∧
    (testPhase 0 3 (underTest 0 none) none).diag.lookup 0 =
      some { mask := 3, legs := [], phase := 0, cur := some (underTest 0 none), first := none, entries := [] } ∧
    (underTest 0 none).skip = none ∧ (underTest 0 (some 6)).skip.isSome = true ∧
    3 / 2 ^ ((underTest 0 none).leg / 2 * 2) % 4 = 3 ∧ ((testPhase 1 3 (underTest 0 none) none).axis (legAxis 0 0)).m.en = true ∧
    (underTest 0 none).leg % 2 = 0 ∧ (underTest 1 none).leg % 2 = 1 ∧ (some (underTest 0 none)).isSome = true ∧
    ¬ (2 / 2 ^ ((underTest 1 none).leg / 2 * 2) % 4 = 3) ∧ (DiagTile.mk 3 [5] 0 none none []).legs = 5 :: [] := by decide

/-- Tile 0 with its supplies good, leg 5 latched or not. -/
def supplied (latch : Bool) : State :=
  ((on .diagnose).updTile 0 fun x => { x with vmUv := false, vgUv := false, vmCode := 400, vgCode := 800 }).updLeg 0 5 fun x => { x with latch := latch }

theorem hyp_diag_next : ((on .diagnose).tile 0).vmUv = true ∧ ((supplied true).tile 0).vmUv = false ∧ ((supplied true).tile 0).vmOv = false ∧
    ((supplied true).tile 0).vgUv = false ∧ ((supplied true).tile 0).vgOv = false ∧
    ¬ (4 * ((supplied true).tile 0).vmCode < ((supplied true).tile 0).vgCode + 600) ∧ ((supplied true).leg 0 5).latch = true ∧
    ((supplied false).leg 0 5).latch = false := by decide

/-- The readings of a short to ground, of one to the supply, of an open coil, and of none of them, of which R315 makes the results. -/
theorem hyp_diag_readings : (0 : Nat) < 25 ∧ (25 ≤ 150 ∧ 150 + 50 ≤ 400 ∧ 800 ≤ 4 * 150 + 400 ∧ 4 * 150 + 100 ≤ 800) ∧ (25 ≤ 390 ∧ 400 < 390 + 50) ∧
    (underTest 0 none).result 1 = 0 ∧ ({ underTest 0 none with v1 := 390, v2 := 390 } : DiagLeg).result 1 = 2 ∧
    ({ underTest 0 none with v2 := 0 } : DiagLeg).result 1 = 3 ∧ ({ underTest 0 none with v1 := 200 } : DiagLeg).result 1 = 4 ∧
    (underTest 0 (some 7)).result 1 = 7 := by decide

/-- A write whose image fills two pages, in its middle; the device too hot for an erase; too hot for anything. -/
def nvMid (done : Nat) (tooHot shut : Bool) : State :=
  { on .run with
      cfg := { CfgB.reset with nvWrite := some { slotB := false, done := done, image := List.replicate 65 1 } }
      thm := { (on .run).thm with shut := shut, tiles := if tooHot then [(0, { ThmTile.reset with throt := true })] else [] } }
/-- The long operation that waits for it. -/
def nvLong : State := let s := (nvMid 1 false false).acceptLong (newLong ⟨0, 0⟩ nvCommitD 0); s

theorem hyp_nv_middle : (nvMid 1 false false).cfg.nvWrite = some ⟨false, 1, List.replicate 65 1⟩ ∧ (NvWrite.mk false 1 (List.replicate 65 1)).steps = 4 ∧
    (nvMid 1 false false).thm.shut = false ∧ (nvMid 1 false false).nvBlock = false ∧ (nvMid 1 true false).nvBlock = true ∧ 1 + 2 < 4 ∧
    (nvMid 2 true false).nvBlock = true ∧ 2 + 2 = 4 ∧ (nvMid 1 true true).thm.shut = true ∧
    (nvLong.longOf 0x43 0).isSome = true := by decide

/-! ### Legs and supplies -/

/-- Leg 0 where the low switch has been commanded off and its handshake has not come; where it conducts; where its dead time runs and
the high switch waits. -/
def noHandshake : State := legIn .run fun x => { x with mode := 4, hiz := false, lo := { x.lo with hs := false } }
def conducting : State := legIn .run fun x => { x with mode := 4, hiz := false, lo := { x.lo with cmd := true, on := true, hs := false } }
def deadRuns : State :=
  legIn .run fun x => { x with mode := 4, hiz := false, bstOk := true, hi := { x.hi with cmd := true, waiting := true }, lo := { x.lo with dead := true } }

theorem hyp_handshake : noHandshake.inReset = false ∧ 0 < noHandshake.variant.tiles ∧ (0 : Nat) < 16 ∧ ((noHandshake.leg 0 0).sw .low).on = false ∧
    ((noHandshake.leg 0 0).sw .low).hs = false ∧ conducting.inReset = false ∧ ((conducting.leg 0 0).sw .low).on = true ∧
    deadRuns.inReset = false ∧ ((deadRuns.leg 0 0).sw .low).dead = true ∧ ((noHandshake.leg 0 0).sw .low).dead = false ∧
    (deadRuns.leg 0 0).mode ≠ 1 ∧ ((deadRuns.leg 0 0).sw .low).cmd = false ∧ ((deadRuns.leg 0 0).sw .low).waiting = false ∧
    ((deadRuns.leg 0 0).sw .low).hs = true ∧ (deadRuns.leg 0 0).hiz = false ∧ ((deadRuns.leg 0 0).sw (otherSw .low)).waiting = true ∧
    (deadRuns.leg 0 0).bstOk = true := by decide

/-- Leg 0 in axis mode, its low switch on. -/
def axisLeg : State := legIn .run fun x => { x with mode := 1, hiz := false, lo := { x.lo with cmd := true, on := true } }
theorem hyp_short_axis : ((axisLeg.leg 0 0).sw .low).on = true ∧ (axisLeg.leg 0 0).mode = 1 ∧ ((conducting.leg 0 0).sw .low).on = true ∧
    (conducting.leg 0 0).mode ≠ 1 := by decide
/-- Leg 8 of tile 11, in axis mode with its shunt watched. -/
def shunted : State := (on .run).updLeg 11 8 fun x => { x with mode := 1, prot := 0x00100000 }

theorem hyp_trips : conducting.inReset = false ∧ 0 < conducting.variant.tiles ∧ (0 : Nat) < 16 ∧ (conducting.leg 0 0).mode ≠ 0 ∧
    ((conducting.leg 0 0).sw .low).on = true ∧ ((on .run).leg 11 15).mode = 0 ∧ 11 < (on .run).variant.tiles ∧ (15 : Nat) < 16 ∧
    shunted.inReset = false ∧ 11 < shunted.variant.tiles ∧ (8 : Nat) < 16 ∧ bit (shunted.leg 11 8).prot 20 = true ∧ (shunted.leg 11 8).mode ≠ 0 ∧
    bit ((on .run).leg 0 0).prot 20 = false ∧ (shunted.leg 11 8).mode = 1 ∧ (11 : Nat) / 4 = 8 / 4 ∧ (11 : Nat) ≠ 8 ∧ (12 : Nat) / 4 ≠ 8 / 4 := by decide

/-- Leg 0 with a good bootstrap; with a precharge that runs. -/
def bstGood : State := legIn .run fun x => { x with mode := 4, hiz := false, bstOk := true }
def precharging : State := legIn .run fun x => { x with mode := 4, hiz := false, precharge := true }
/-- Leg 0 with its low switch on through all segments. -/
def allOn : State := conducting.updLeg 0 0 fun x => { x with lo := { x.lo with nOn := 14 } }
/-- The same with BST_UV at class LOG. -/
def prechargeLog : State := { precharging with flt := { precharging.flt with sev := [(srcBstUv, .log)] } }

/-- The edge that has taken a leg to Hi-Z. -/
theorem hyp_edge_hiz : ((on .run).leg 0 0).hiz = true ∧ (((on .run).leg 0 0).sw .low).cmd = false ∧ (((on .run).leg 0 0).sw .low).inTurn 0 = true ∧
    (((on .run).leg 0 0).sw .low).slowOff < 255 ∧ (((on .run).leg 0 0).sw .low).fastOff < 255 := by decide

theorem hyp_edges : bstGood.inReset = false ∧ 0 < bstGood.variant.tiles ∧ (0 : Nat) < 16 ∧ (bstGood.leg 0 0).hiz = false ∧
    ((bstGood.leg 0 0).sw .low).slowOn < 255 ∧ ((bstGood.leg 0 0).sw .low).fastOn < 255 ∧ ((bstGood.leg 0 0).sw .low).slowOff < 255 ∧
    ((bstGood.leg 0 0).sw .low).fastOff < 255 ∧ ((0 : Nat), (1 : Nat)) ≠ (0, 0) ∧ ((on .run).leg 0 0).hiz = true ∧
    ((bstGood.leg 0 0).sw .low).inTurn 0 = true ∧ ((bstGood.leg 0 0).sw .low).inTurn 15 = false ∧ ((bstGood.leg 0 0).sw .low).segOff 0 = true ∧
    ((allOn.leg 0 0).sw .low).segOff 0 = false ∧ allOn.inReset = false ∧ ((bstGood.leg 0 0).sw .low).active.getLsbD 15 = false ∧
    ((precharging.quiet.bstFail 0 0).leg 0 0).hiz = true ∧ ((prechargeLog.quiet.bstFail 0 0).leg 0 0).hiz = false ∧
    (prechargeLog.leg 0 0).precharge = true ∧ prechargeLog.inReset = false ∧ (precharging.leg 0 0).bstOk = false ∧
    ((bstGood.leg 0 0).sw .low).on = false ∧ (bstGood.leg 0 0).bstOk = true ∧
    ((on .run).leg 0 0).bstOk = false ∧ (precharging.leg 0 0).precharge = true ∧ ((on .run).leg 0 0).precharge = false ∧ ((on .run).leg 0 0).mode ≠ 1 ∧
    precharging.inReset = false ∧ conducting.inReset = false := by decide

/-- Tile 0 with VGATE and VM too high. -/
def overSupplied : State := (on .run).updTile 0 fun x => { x with vgUv := false, vgOv := true, vmUv := false, vmOv := true }

theorem hyp_supplies : overSupplied.inReset = false ∧ 0 < overSupplied.variant.tiles ∧ (overSupplied.tile 0).vgUv = false ∧
    (overSupplied.tile 0).vgOv = true ∧ (overSupplied.tile 0).vmUv = false ∧ (overSupplied.tile 0).vmOv = true ∧ (on .run).inReset = false ∧
    ((on .run).tile 0).vgUv = true ∧ ((on .run).tile 0).vgOv = false ∧ ((on .run).tile 0).vmUv = true ∧ ((on .run).tile 0).vmOv = false ∧
    (bstGood.leg 0 0).mode ≠ 0 := by decide

/-- A pulse of nFAULT that ends at DT 400, at that DT and one before it, with a record of DT 0. -/
def pulsing (now : Nat) : State := { on .run with dt := now, flt := { Flt.reset with pulse := some 400, hist := [entry 0 0] } }

theorem hyp_pins : (on .run).inReset = false ∧ (on .run).glb.enIn = true ∧ (on .run).glb.mode = .run ∧ State.reset.inReset = false ∧
    State.reset.glb.enIn = false ∧ entry 0 0 ∈ (pulsing 400).flt.hist ∧ (entry 0 0).num = 0 ∧ (entry 0 0).dt + 400 ≤ (pulsing 400).dt ∧
    (pulsing 400).flt.pulse = some 400 ∧ 400 ≤ (pulsing 400).dt ∧ (on .run).flt.pulse = none ∧ (pulsing 399).flt.pulse = some 400 ∧
    (pulsing 399).dt < 400 ∧ (pulsing 400).inReset = false ∧ (pulsing 399).inReset = false := by decide

/-! ### Choppers, generators and comparators -/

/-- Axis 0 driven, coil A in a phase of its cycle. -/
def chopping (p : ChopPhase) : State := axisIn .run fun x => { x with driven := true, coilA := { x.coilA with i12 := 100, phase := p } }

theorem hyp_chopper : (chopping .onCompare).inReset = false ∧ ((chopping .onCompare).axis 0).driven = true ∧
    (((chopping .onCompare).axis 0).coil .A).phase = .onCompare ∧ (chopping .onCompare).spr.freeze = false ∧
    (chopping .blanking).inReset = false ∧ ((chopping .blanking).axis 0).driven = true ∧ (((chopping .blanking).axis 0).coil .A).phase ≠ .onCompare ∧
    (((chopping .blanking).axis 0).coil .A).phase = .blanking ∧ (chopping .blanking).spr.freeze = false ∧
    (((chopping .onCompare).axis 0).coil .A).phase ≠ .blanking ∧ (((chopping .fast).axis 0).coil .A).phase = .fast ∧
    (((chopping .fast).axis 0).coil .A).allFast = false ∧ (chopping .fast).inReset = false ∧ ((chopping .fast).axis 0).driven = true ∧
    (((chopping .slow).axis 0).coil .A).phase ≠ .fast ∧ (((chopping .slow).axis 0).coil .A).phase ≠ .toDecay ∧
    (((chopping .slow).updCoil 0 .A fun k => { k with phase := .toDecay, fastTicks := 100 }).axis 0).coilA.fastTicks = 100 ∧
    (((chopping .slow).axis 0).coil .A).phase ∈ [ChopPhase.toDecay, ChopPhase.fast, ChopPhase.toSlow, ChopPhase.slow] ∧
    ditherCode (((chopping .slow).axis 0).coil .A).i12 (((chopping .slow).axis 0).coil .A).dither ≠ 0 := by decide

/-- Tile 0's spare stands ready for coil 3; a check that runs there. -/
def takeOver : State := (on .run).updTile 0 fun x => { x with takeover := some 3 }
def holdCores (f : Bool) : State := { on .run with spr := { (on .run).spr with freeze := f } }

theorem hyp_comparators : takeOver.inReset = false ∧ (takeOver.tile 0).takeover = some 3 ∧ (takeOver.tile 0).spareOk = true ∧
    ((on .run).tile 0).takeover = none ∧ (holdCores false).spr.freeze = false ∧ (holdCores true).spr.freeze = true ∧
    (holdCores true).inReset = false ∧ (on .run).checking 0 = false := by decide

/-- A check that runs on a coil of tile 0. -/
def checked : State := (chopping .slow).updMotion .axis 0 fun m => { m with en := true, mode := .target }

theorem hyp_checking : checked.inReset = false ∧ checked.checking 0 = true ∧ (checked.tile 0).confirming = false ∧ (checked.tile 0).cycles < 64 := by decide

/-- The generator of leg 0 of tile 0 runs with a period of 20,000 ticks. -/
def generating (duty : Nat) (f : Leg → Leg) : State :=
  (driving (on .run)).updLeg 0 0 fun x =>
    f { x with mode := 4, hiz := false, runs := true, ctl := 0x00000100, act := { x.act with per := 20000, duty := duty }, shadow := { x.shadow with per := 20000 } }
/-- The generator of leg 0 in a solenoid mode, in a phase of its pulse. -/
def solGen (m : Nat) (p : SolPhase) : State :=
  generating 160000 fun x => { x with mode := m, solCur := some (solDesc false), solPhase := p, solLeft := 5 }
/-- Conversions that wait on tile 0. -/
def queued (q : List AdcReq) : State := (generating 160000 id).updTile 0 fun x => { x with adcQ := q }

theorem hyp_generator : (generating 160000 id).inReset = false ∧ (generating 160000 id).hasLeg 0 0 = true ∧ ((generating 160000 id).leg 0 0).mode = 4 ∧
    (generating 160000 id).glb.mode = .run ∧ (generating 160000 id).legFree 0 0 = true ∧ (generating 160000 id).spr.freeze = false ∧
    ((generating 160000 id).leg 0 0).solCur = none ∧ ((generating 160000 id).leg 0 0).hiz = false ∧ ((generating 160000 id).leg 0 0).runs = true ∧
    ((generating 160000 id).leg 0 0).precharge = false ∧ ((generating 160000 id).leg 0 0).driveOn = false ∧
    (((generating 160000 fun x => { x with armedSet := true }).leg 0 0).armedSet = true) ∧
    (solGen 2 .hold).hasLeg 0 0 = true ∧ (solGen 2 .hold).inReset = false ∧ ((solGen 2 .hold).leg 0 0).mode = 2 ∧ ((solGen 2 .hold).leg 0 0).solPhase = .hold ∧
    0 < ((solGen 2 .hold).leg 0 0).solLeft ∧ (solGen 2 .hold).legFree 0 0 = true ∧ (solGen 2 .hold).spr.freeze = false ∧
    ((solGen 2 .hold).leg 0 0).hiz = false ∧ ((solGen 2 .hold).leg 0 0).runs = true ∧ ((solGen 2 .hold).leg 0 0).precharge = false ∧
    ((solGen 3 .pullIn).leg 0 0).mode = 3 ∧ ((solGen 3 .pullIn).leg 0 0).solPhase = .pullIn ∧ (solGen 3 .pullIn).legFree 0 0 = true ∧
    ((generating 160000 id).leg 0 0).shadow.duty ≤ 16 * (((generating 160000 id).leg 0 0).shadow.per - ((generating 160000 id).leg 0 0).tMinOff) ∧
    0 < ((generating 160000 id).leg 0 0).dTicks ∧ 0 < ((generating 16 id).leg 0 0).dTicks ∧ ((generating 0 id).leg 0 0).dTicks = 0 := by decide

/-- The handshake time of a leg is below 1024 ticks, whatever its value. -/
theorem hyp_drive_times :
    hsTicks 0 0 + ((generating 160000 id).leg 0 0).tDt + ((generating 160000 id).leg 0 0).tSw ≤ ((generating 160000 id).leg 0 0).dTicks ∧
    ((generating 16 id).leg 0 0).dTicks < hsTicks 0 0 + ((generating 16 id).leg 0 0).tDt + ((generating 16 id).leg 0 0).tSw ∧
    (if ((generating 160000 id).leg 0 0).driveOn then hsTicks 0 0 else 0) + ((generating 160000 id).leg 0 0).tDt + ((generating 160000 id).leg 0 0).tSw ≤
      ((generating 160000 id).leg 0 0).act.per - ((generating 160000 id).leg 0 0).dTicks ∧
    ((generating 319984 id).leg 0 0).act.per - ((generating 319984 id).leg 0 0).dTicks <
      (if ((generating 319984 id).leg 0 0).driveOn then hsTicks 0 0 else 0) + ((generating 319984 id).leg 0 0).tDt +
        ((generating 319984 id).leg 0 0).tSw := by
  have h : hsTicks 0 0 < 1024 := (Config.handshakeTicks 0).isLt
  refine ⟨?_, ?_, by decide, by decide⟩
  · show hsTicks 0 0 + 40 + 16 ≤ 10000; omega
  · show 1 < hsTicks 0 0 + 40 + 16; omega

/-- At DT 500, well behind the boundary: five requests that stood there at DT 7; and n of them before one of leg 1 at DT 500. -/
def adcOld : State := { queued (List.replicate 5 (.leg 1 false 0 7)) with dt := 500, lastPeriod := some 0 }
def adcTie (n : Nat) : State := { queued (List.replicate n (.leg 1 false 0 7) ++ [.leg 1 false 0 500]) with dt := 500, lastPeriod := some 0 }

theorem hyp_converter : ((generating 160000 id).leg 0 0).pwmMode = true ∧ bit ((generating 160000 id).leg 0 0).ctl 8 = true ∧
    ((generating 160000 id).leg 0 0).runs = true ∧ (∀ e ∈ ((generating 160000 id).tile 0).adcQ, ∀ d, e.rank = some d → d.1 ≠ (generating 160000 id).dt) ∧
    adcWaiting (((generating 160000 id).tile 0).adcQ ++ [.leg 0 false 0 0]) ≤ 4 ∧ adcOld.dt = 500 ∧ adcOld.supplyTime = true ∧
    (∀ e ∈ List.replicate 5 (AdcReq.leg 1 false 0 7), ∀ d, e.rank = some d → d.1 ≠ 500) ∧
    4 < adcWaiting ((adcOld.tile 0).adcQ ++ [.leg 0 false 0 500]) ∧ ((adcOld.tile 0).adcQ = List.replicate 5 (.leg 1 false 0 7)) ∧
    (queued [.vm]).supplyTime = false ∧ ({ queued [.vm] with dt := 400, lastPeriod := some 0 } : State).supplyTime = true ∧
    (queued []).inReset = false ∧ (queued []).hasLeg 0 0 = true ∧
    bit ((generating 160000 id).leg 0 0).ctl 9 = false ∧ ((queued []).tile 0).adcQ = [] ∧ ((queued [.leg 1 false 0 0]).tile 0).adcQ = [.leg 1 false 0 0] ∧
    ((queued [.vm]).tile 0).adcQ = [.vm] := by decide

/-- Two requests of one DT count: the one behind is of the higher leg, and there is room or none. -/
theorem hyp_converter_tie : (adcTie 0).dt = 500 ∧ (adcTie 0).supplyTime = true ∧ (0 : Nat) < 1 ∧ ((adcTie 0).tile 0).adcQ = [] ++ [.leg 1 false 0 500] ∧
    adcWaiting ((adcTie 0).tile 0).adcQ < 4 ∧
    ((adcTie 4).tile 0).adcQ = List.replicate 4 (.leg 1 false 0 7) ++ [.leg 1 false 0 500] ∧
    (∀ e ∈ List.replicate 4 (AdcReq.leg 1 false 0 7), ∀ d, e.rank = some d → d.1 ≠ 500) ∧ 4 ≤ adcWaiting ((adcTie 4).tile 0).adcQ := by decide

/-! ### Inputs, the reference and the strait -/

/-- 5 µs after a period boundary; input 63 known there; encoder 3 the reference's source, with the RC running or held. -/
def sampled : State := { on .run with dt := 5000, lastPeriod := some 4000 }
def known63 : State :=
  { sampled with inp := { sampled.inp with known := 0x8000000000000000, samp := [(63, { count := 23, last := [false, false, false, false, false] })] } }
def encSource (run : Bool) : State :=
  { on .run with dt := 65536, inp := { (on .run).inp with encCfg := [(3, 0x11)] }, ref := { Ref.reset with src := 0x31, run := run } }

theorem hyp_input_edges : known63.inReset = false ∧ 63 < known63.variant.senses ∧ known63.inp.isKnown 63 = true ∧ known63.inp.taken 63 = false ∧
    known63.inp.event 63 known63.dt ([true, true] ++ [true]) = some (true, { count := 26, last := [true, true, true, false, false, false, false] }) ∧
    known63.inp.event 63 known63.dt ([true] ++ [true]) = none ∧ known63.inp.sBehind 63 true { count := 26, last := [true, true, true, false, false] } = 2 ∧
    known63.dt % 200 = 0 ∧ known63.dt / 200 + 1 = (known63.inp.hist 63).count + [true, true, true].length ∧ known63.inp.level 63 = false ∧
    sampled.inReset = false ∧ sampled.inp.isKnown 63 = false ∧ sampled.inp.taken 63 = false ∧
    sampled.inp.event 63 sampled.dt (List.replicate 5 true) = some (true, { count := 26, last := List.replicate 5 true }) ∧
    sampled.inp.event 63 sampled.dt (List.replicate 4 true) = none ∧ (inputsOn .run).inp.taken 0 = true ∧ (5001 : Nat) % 200 ≠ 0 := by decide

/-- The example of R337: of the samples H, L, H, H, L, L, L, L, L the ninth makes SI12 known at low; the eighth does not. -/
theorem test_power_up : let l := [true, false, true, true, false, false, false, false, false]
    (State.reset.inp.event 12 1600 l).map Prod.fst = some false ∧ State.reset.inp.event 12 1400 (l.take 8) = none := by decide

theorem hyp_counts : (inputsOn .run).inReset = false ∧ 0 < (inputsOn .run).variant.pairs ∧ bit ((inputsOn .run).inp.stepCfgOf 0) 0 = true ∧
    bit ((on .run).inp.stepCfgOf 15) 0 = false ∧ (encSource true).inReset = false ∧ 3 < (encSource true).variant.encoders ∧
    bit ((encSource true).inp.encCfgOf 3) 0 = true ∧ (encSource true).ref.isEnc 3 = true ∧ (encSource true).ref.run = true ∧
    (true != bit (encSource true).ref.encCfg 4) = true ∧ (false != bit (encSource true).ref.encCfg 4) = false ∧ (encSource false).ref.run = false ∧ (inputsOn .run).ref.isEnc 0 = false ∧
    bit ((inputsOn .run).inp.encCfgOf 0) 0 = true ∧ (((encSource true).inp.encSeenOf 3).edge true true 65536 4).1 = true ∧
    (((encSource true).inp.encSeenOf 3).edge true false 65536 4).1 = true ∧ ((EncSeen.mk false true (some 10) none (some 10)).edge true true 11 4).1 = false ∧
    ((EncSeen.mk false true none (some 10) none).edge true false 11 4).1 = false ∧ ¬ (∀ t, some 10 = some t → t + 8 ≤ 11) ∧ bit ((on .run).inp.encCfgOf 3) 0 = false ∧ (on .run).variant.encoders ≤ 4 ∧
    (encSource true).ref.encDt + 65536 ≤ (encSource true).dt ∧ (on .run).dt < (on .run).ref.encDt + 65536 := by decide

/-- The line input 1 as the source, enabled, the RC running, in a state of the PLL. -/
def lineSource (k : LockState) : State :=
  { on .run with dt := 20000000, inp := { (on .run).inp with lineCfg := [(1, 0x00000101)] },
                 ref := { Ref.reset with src := 0x12, run := true, lock := k, lineRate := 1, linePeriod := 2000000 } }
/-- The device on the backup oscillator, which may return. -/
def onBackup : State := { on .run with glb := { (on .run).glb with bkpActive := true, clkReturn := true, priOk := true } }
def onBackupOnly : State := { onBackup with glb := { onBackup.glb with priOk := false } }
/-- REFOUT1 in marker mode with DIV 4, idle or in a pulse, at RC integer 8. -/
def marking (p : Option Nat) : State :=
  { on .run with ref := { Ref.reset with run := true, rc := 8 * 2 ^ 40, markFrom := 7, outCfg := [(1, 0x00640001)], outDiv := [(1, 4)],
                                         outs := [(1, { pulse := p })] } }

theorem hyp_line : (lineSource .acquiring).inReset = false ∧ (lineSource .acquiring).ref.isLine 1 = true ∧ (lineSource .acquiring).ref.run = true ∧
    bit ((lineSource .acquiring).inp.lineCfgOf 1) 0 = true ∧ (lineSource .acquiring).lineQualifies 1 true = true ∧
    true = (!bit (lineSource .acquiring).ref.lineCfg 0) ∧ false = bit (lineSource .acquiring).ref.lineCfg 0 ∧
    (lineSource .acquiring).lineQualifies 1 false = true ∧ (on .run).lineQualifies 1 true = false ∧
    ((lineSource .acquiring).ref.lineLock (phaseError (rcBefore (lineSource .acquiring).ref (lineSource .acquiring).str
      ((lineSource .acquiring).dt - ((lineSource .acquiring).dt - 200 * (fld ((lineSource .acquiring).inp.lineCfgOf 1) 8 8 - 1))) / 2 ^ 40))).2 = false ∧
    (on .run).ref.isLine 1 = false ∧ (on .run).inReset = false ∧ (lineSource .acquiring).ref.lock = .acquiring ∧
    (lineSource .acquiring).ref.lineDt ≤ (lineSource .acquiring).dt ∧
    3 * (lineSource .acquiring).ref.linePeriod ≤ 2 * ((lineSource .acquiring).dt - (lineSource .acquiring).ref.lineDt) ∧
    (lineSource .holdover).ref.lock = .holdover ∧ (lineSource .holdover).ref.isLine 1 = true ∧ (lineSource .holdover).ref.run = true ∧
    (3 + 2 * fld (lineSource .holdover).ref.lineCfg 8 8) * (lineSource .holdover).ref.linePeriod ≤
      2 * ((lineSource .holdover).dt - (lineSource .holdover).ref.lineDt) := by decide

theorem hyp_clocks : (on .run).glb.bkpActive = false ∧ onBackup.inReset = false ∧ onBackup.glb.bkpActive = true ∧ onBackup.glb.clkReturn = true ∧
    onBackup.glb.priOk = true ∧ (1 : Nat) < 2 ∧ (marking none).inReset = false ∧ (marking none).outputsLive = true ∧ (marking none).ref.run = true ∧
    fld ((marking none).ref.outCfgOf 1) 0 3 = 1 ∧ (marking none).pulsing 1 = false ∧ (marking (some 1)).pulsing 1 = true ∧
    crosses (marking none).ref.markFrom ((marking none).ref.rc / 2 ^ 40) (fld ((marking none).ref.outDivOf 1) 0 24) = true ∧
    crosses (on .run).ref.markFrom ((on .run).ref.rc / 2 ^ 40) (fld ((on .run).ref.outDivOf 1) 0 24) = false ∧
    onBackupOnly.inReset = false ∧ onBackupOnly.glb.bkpActive = true ∧ onBackupOnly.glb.priOk = false ∧
    (marking (some 1)).outputsLive = true ∧ fld ((marking (some 1)).ref.outCfgOf 1) 0 3 = 1 := by decide

/-- The compensation on, on the primary oscillator. -/
def compensated : State := { on .run with ref := { Ref.reset with ctrl := 3 } }

theorem hyp_temperatures : (on .run).inReset = false ∧ (on .run).thm.shut = false ∧ 11 < (on .run).variant.tiles ∧ ((on .run).thmTile 11).broken0 = false ∧
    ((on .run).thmTile 11).broken1 = false ∧ ((on .run).thmTile 11).dev0 < 7 ∧ ((on .run).thmTile 11).dev1 < 7 ∧ ((on .run).thmTile 11).cntW < 3 ∧
    ((on .run).thmTile 11).cntT < 3 ∧ ((on .run).thmTile 11).cntS < 3 ∧ ((640 : Int) - 400).natAbs ≤ 240 ∧ (on .run).variant.tiles ≤ 12 ∧
    bit (on .run).ref.ctrl 1 = false ∧ compensated.inReset = false ∧ bit compensated.ref.ctrl 1 = true ∧ compensated.variant = .zm4812 ∧
    compensated.glb.bkpActive = false := by decide

/-- A reference island whose RC runs, with port 1 on; a follower in Run with both ports on. -/
def refIsland : State := { on .run with str := { Strait.reset with ctrl := 0x00001089, island := 0 }, ref := { Ref.reset with run := true } }
def chained (f : Strait → Strait) : State := { on .run with str := f { Strait.reset with ctrl := 0x0000108E, island := 1 } }
def frame (t : Nat) : List Byte := mkFrame (leBytes 1 t)

theorem hyp_sync : refIsland.inReset = false ∧ refIsland.str.isRef = true ∧ refIsland.ref.run = true ∧ refIsland.portOn 1 = true ∧
    refIsland.straitLive = true ∧ (on .run).str.isRef = false ∧ (chained id).inReset = false ∧ (chained id).str.isFollower = true ∧
    (chained id).frameTaken 0 frameSync (frame frameSync) = true ∧ (chained id).frameTaken 0 frameSync [] = false ∧ (chained id).str.missRun ≠ 3 ∧
    (chained id).str.long = false ∧ (chained fun t => { t with long := true }).str.long = true ∧ (chained fun t => { t with long := true }).inReset = false ∧
    (chained fun t => { t with missRun := 3, extrap := true }).str.extrap = true ∧ (on .run).str.isFollower = false := by decide +kernel

theorem hyp_ports : fld (on .run).str.ctrl 0 2 = 0 ∧ (on .run).variant.ports ≤ 2 ∧ fld refIsland.str.ctrl 0 2 = 1 ∧ (0 : Nat) ≠ 1 ∧
    refIsland.inReset = false := by decide

theorem hyp_frames : fld (chained id).str.ctrl 0 2 ≠ 0 ∧ fld (chained id).str.ctrl 0 2 ≠ 1 ∧ 0 < (chained id).variant.ports ∧ 1 < (chained id).variant.ports ∧ (chained id).frameTaken 1 frameFault (frame frameFault) = true ∧
    (chained id).frameTaken 1 frameFault [] = false ∧ (chained id).frameTaken 1 frameTrainReq (frame frameTrainReq) = true ∧
    (chained id).portOn 1 = true ∧ (chained id).straitLive = true ∧ (chained id).frameTaken 1 frameUpstatus (frame frameUpstatus) = true ∧
    (chained fun t => { t with training := true, reqNo := 63 }).str.training = true ∧ (63 : Nat) < 64 ∧
    (chained fun t => { t with training := true, reqNo := 64 }).str.isFollower = true ∧ (64 : Nat) ≤ 64 ∧
    (chained fun t => { t with training := true }).frameTaken 0 frameTrainEcho (frame frameTrainEcho) = true ∧
    (chained fun t => { t with training := true }).str.results.length < 63 ∧
    63 ≤ (chained fun t => { t with training := true, results := List.replicate 63 7 }).str.results.length ∧
    (chained fun t => { t with training := true, results := List.replicate 63 7 }).frameTaken 0 frameTrainEcho (frame frameTrainEcho) = true := by decide +kernel

/-! ### The host link and redundant execution -/

theorem hyp_link : (on .run).inReset = false ∧ (1 : Nat) ≤ 3 ∧ (3 : Nat) ≤ 3 ∧ (on .run).canIssue = false ∧ (windowed (on .run)).inReset = false ∧
    (windowed (on .run)).canIssue = true ∧ (on .run).host.asked = [] ∧ (3 : Nat) < 4 ∧ (on .run).host.msixPend = 0 ∧ 0x3E000 ≤ 0x3E0FC ∧ 0x3E0FC < 0x3E100 ∧
    (0x3E000 : Nat) / 4 ≠ 0x3E0FC / 4 := by decide

/-- A copy of a bus write. -/
def copyOf (v : Word) : BusCopy := { addr := 0x1000, data := v, be := 15 }
/-- Both voter copies pass their self-check. -/
def bothPass : State := { on .run with spr := { (on .run).spr with aPass := true, bPass := true } }
/-- Core 3 resynchronizes for slot 2, which is vacant. -/
def resyncing : State :=
  { on .run with spr := { (on .run).spr with resync := some { target := 3, slot := 2, inPlace := false } } }

/-- The voter compare of slot 2 is armed. -/
def voteArmed : State := { on .run with flt := { Flt.reset with injArmed := true, injTarget := 3, injUnit := 2 } }
theorem hyp_vote_armed : voteArmed.inReset = false ∧ voteArmed.spr.lost = false ∧ (2 : Nat) < 3 ∧ voteArmed.flt.injArmed = true ∧
    voteArmed.flt.injTarget = 3 ∧ voteArmed.flt.injUnit % 4 = 2 ∧ voteArmed.spr.aIn = true ∧ (∀ j < 3, (voteArmed.coreAt j).isSome = true) ∧
    voteArmed.coreAt 2 = some 2 ∧ (on .run).coreAt 1 = some 1 ∧ (on .run).flt.injArmed = false ∧ resyncing.spr.resyncWait = [] := by decide

theorem hyp_votes : (on .run).inReset = false ∧ (on .run).spr.lost = false ∧ (2 : Nat) < 3 ∧ copyOf 1 ≠ copyOf 0 ∧ (on .run).flt.injArmed = false ∧
    (on .run).spr.aIn = true ∧ (∀ j < 3, ((on .run).coreAt j).isSome = true) ∧ (on .run).coreAt 2 = some 2 ∧ copyOf 0 ≠ copyOf 1 ∧
    copyOf 1 ≠ copyOf 2 ∧ copyOf 0 ≠ copyOf 2 ∧ bothPass.spr.aIn = true ∧ bothPass.spr.bIn = true ∧ bothPass.spr.aPass = bothPass.spr.bPass ∧
    bothPass.flt.injArmed = false ∧ bothPass.spr.lost = false ∧ (on .run).coreAt 3 = none ∧ (on .run).spr.resync = none ∧
    resyncing.inReset = false ∧ resyncing.spr.lost = false ∧ resyncing.spr.resync = some { target := 3, slot := 2, inPlace := false } ∧
    resyncing.spr.unres = none := by decide

/-- A vote between cores 0 and 1 that disagreed at DT 0, now, and under the known-answer test. -/
def split (now : Nat) (t : Bool) : State :=
  let cores : Bank CoreU := [(0, { st := .voting, slot := 0, events := [] }), (1, { st := .voting, slot := 1, events := [] }),
    (2, { st := .retired, slot := 2, events := [] })]
  let u : Unres := { since := 0, cores := [0, 1], testing := t, uid := 0 }
  { on .run with dt := now, spr := { (on .run).spr with pair := true, cores := cores, unres := some u } }
/-- The same with no spare left. -/
def splitOut : State := { split 0 true with spr := { (split 0 true).spr with cores := (3, { st := .retired, slot := 0, events := [] }) :: (split 0 true).spr.cores } }
/-- Spares wait for approval. -/
def approving : State := { on .run with spr := { (on .run).spr with ctrl := 0x100 } }
/-- A spare core that awaits its turn. -/
def corePending : State := { on .run with spr := { (on .run).spr with corePend := true } }

theorem hyp_spares : (split 0 false).inReset = false ∧ (split 0 false).spr.lost = false ∧ (split 0 false).spr.resyncWait = [] ∧
    (split 0 false).spr.unres = some { since := 0, cores := [0, 1], testing := false, uid := 0 } ∧ (split 399999 false).dt < 0 + 400000 ∧
    0 + 400000 ≤ (split 400000 false).dt ∧ (split 0 true).spr.unres = some { since := 0, cores := [0, 1], testing := true, uid := 0 } ∧
    splitOut.inReset = false ∧ splitOut.spr.lost = false ∧ splitOut.spr.unres = some { since := 0, cores := [0, 1], testing := true, uid := 0 } ∧
    (∀ n < 4, (splitOut.core n).st ≠ .spare) ∧ (split 0 true).spareCore = some 3 ∧ 3 ∉ [0, 1] ∧ (split 0 true).spr.resync = none ∧
    (split 0 true).autoSpares = true ∧ [0, 1].length = 2 ∧ ([0, 1].filter fun n => decide (n ∈ [0])).length = 1 ∧ (on .run).spr.unres = none ∧
    approving.inReset = false ∧ approving.spr.lost = false ∧ approving.autoSpares = false ∧ corePending.inReset = false ∧
    corePending.autoSpares = true ∧ corePending.spareCore = some 3 ∧ corePending.spr.corePend = true ∧ corePending.spr.resync = none ∧
    corePending.spr.unres = none ∧ corePending.spr.lost = false := by decide

/-! ### Steps and values that the spec's own examples give -/

/-- One command on a state. -/
def after (c : Instr) (s : State) : State :=
  match step { s with pending := [c] } with
  | .next t => t
  | .fault _ => s
  | .refused _ => s

/-- The example of axis 29 (tile 7, legs 4 to 7; its block at 0x9D00 and its tile's at 0x17000). -/
theorem test_axis_29 : axisTile 29 = 7 ∧ axisLegs 29 = [4, 5, 6, 7] ∧ unitReg .axis 29 0 = 0x9D00 ∧ tileReg 7 0 = 0x17000 := by decide

/-- The example of locating tile balls: GH7_5 is T37 and SN7_A1 is AB33 on the ZM4812, GH2_5 is AA8 on the ZM1203; and R528's balls of
the three variants. -/
theorem test_balls : tileBall .zm4812 7 (.gh 5) = ⟨16, 37⟩ ∧ rowName 16 = "T" ∧ tileBall .zm4812 7 (.sn 1 .A) = ⟨22, 33⟩ ∧ rowName 22 = "AB" ∧
    tileBall .zm1203 2 (.gh 5) = ⟨21, 8⟩ ∧ rowName 21 = "AA" ∧ allTileBalls.length = 96 ∧
    (allGlobalBalls.filterMap (globalBall .zm4812)).length = 107 ∧ (allGlobalBalls.filterMap (globalBall .zm2406)).length = 65 ∧
    (allGlobalBalls.filterMap (globalBall .zm1203)).length = 41 ∧ (usedBalls .zm1203).Nodup := by decide +kernel

/-- R344, R77: an edge at the line input that its filter cannot have taken changes nothing. -/
theorem test_line_filter : after (.lineEdge { n := 1, level := true }) (on .run) = on .run := by decide +kernel

/-- R363: words lie little-endian in host memory. -/
theorem test_host_bytes : hostBytes [0x04030201] = [1, 2, 3, 4] ∧ hostWord [1, 2, 3, 4] 0 = 0x04030201 := by decide

/-- R365, R367: a vector that is masked becomes pending, and is sent as its mask bit is cleared. -/
theorem test_msix : ((windowed (on .run)).sendVector 3).host.msixPend = 8 ∧ ((windowed (on .run)).sendVector 3).out = [] ∧
    (after (.registerWrite 0x3E03C 0) ((windowed (on .run)).sendVector 3)).out = [.msix 3 0 0] := by decide +kernel

/-- R53, R57: a mode request waits as pending. -/
theorem test_mode_request : (after (.glbModeReqWrite 4) (on .configure)).glb.modeReq = some 4 ∧ (after (.glbModeReqWrite 4) (on .configure)).glb.reqRes = 1 := by
  decide

/-- The example of R184: a gear member at course position 6,000. -/
theorem test_gear : gearBond 0x00028000 (-1200 * 2 ^ 32) (6000 * 2 ^ 32) = 13800 * 2 ^ 32 := by decide

/-- The example's cam record at word 0x0100, written through CRS_CAM_DATA. -/
def camExample : State :=
  [0x0003000A, 0, 0, 0x200, 0, 0x320, 0x320, 0].foldl (fun s w => after (.crsCamDataAccess (some w)) s) { on .run with camAddr := 0x100 }

theorem test_cam : camExample.camAddr = 0x108 ∧ camExample.camBond 0x100 (4600 * 2 ^ 32) (6000 * 2 ^ 32) = 51125 * 2 ^ 32 / 10 := by decide +kernel

/-- The example of one set-point: theta = 828 and RUN = 200 give 2,987 and 1,155, both negative, and the cycles raised by 1. -/
theorem test_set_point : thetaOf 16 1836 = 828 ∧ State.reset.setPoint 0 200 (coilAngle 828 .A) false = (2987, true) ∧
    State.reset.setPoint 0 200 (coilAngle 828 .B) false = (1155, true) ∧
    ((List.range 16).filter fun p => decide (ditherCode 2987 p = 187)) = [0, 1, 2, 4, 5, 6, 8, 9, 10, 12, 14] ∧
    ((List.range 16).filter fun p => decide (ditherCode 1155 p = 73)) = [0, 4, 8] := by decide

/-- The example of period and duty written apart: 5,000 ticks with the old duty of 9,000 clamps to 4,840. -/
def apart : State :=
  (on .run).updLeg 4 13 fun x => { x with mode := 4, shadow := { x.shadow with per := 5000, duty := 144000 }, armedSet := true }

theorem test_clamp : (apart.leg 4 13).transfer.1.act.duty = 16 * 4840 ∧ (apart.leg 4 13).transfer.1.clamp = true := by decide

/-- The example of training: 492 ticks with WAIT 0 give a link delay of 166 ticks. -/
theorem test_training :
    (after (.trainEchoReceive (mkFrame (leBytes 1 frameTrainEcho)) 492) (chained fun t => { t with training := true })).str.results = [166] := by decide +kernel

/-- R346: with two good sensors the hotter one is the temperature. -/
theorem test_temperature : ((after (.thermalSample 11 640 400) (on .run)).thmTile 11).temp = 640 := by decide
/-- R495: a sensor counts a sample beyond 15 °C of the median, and the primary oscillator its failure. -/
theorem test_sensor_wear : Bank.get 0 (after (.thermalSample 11 1000 0) (on .run)).spr.wear 0x306 = 1 := by decide
theorem test_primary_wear : Bank.get 0 (after .oscSwitch (on .run)).spr.wear 6 = 1 := by decide

/-- R512, R54: EN low in Run ends in Safe with CAUSE 3. -/
theorem test_en_low : (after .enLow (on .run)).glb.mode = .safe ∧ (after .enLow (on .run)).glb.cause = 3 := by decide

/-- R69: the snapshot of the RC and the DT. -/
theorem test_rc_read : (after .refRcLoRead { on .run with dt := 7, ref := { Ref.reset with rc := 5 * 2 ^ 48 + 3 * 2 ^ 16 } }).rdata = 3 := by decide

/-- R126: a profile goes to its slot. -/
theorem test_set_profile : (Bank.get Profile.reset ((after (.setProfile 0 setProfileD) (axisRing .run id)).motion .axis 0).profs 1).vmax = 0x20000 := by decide

/-- Log entry 5: an idle step is one DT count. -/
theorem test_idle : idle State.reset = { State.reset with dt := 1 } := by decide

end Sys2Proof.Tests
end

section
/-! SUPPORT. What an access finds at an offset that holds no register, and where the map leads from the offset of an absent unit
(R2, R8, R9, R458). -/

namespace Sys2Proof.Machine

/-! ### Requests of one aligned word (R431) -/

/-- A request of one aligned word touches that word alone. -/
theorem touched_word {off : Nat} (h4 : off % 4 = 0) : touched off 4 = [off] := by
  have hoff : off / 4 * 4 = off := by omega
  simp [touched, h4, hoff]

/-- The byte enables of an aligned word do not depend on where the word lies. -/
theorem enabled_word (off : Nat) (en : List Bool) : enabled off en off = enabled 0 en 0 := by
  simp [enabled]

/-- Four byte enables make up a full access only when all of them are set. -/
theorem enabled_full {en : List Bool} (hen : en.length = 4) (h : enabled 0 en 0 = 15) : en = [true, true, true, true] := by
  match en, hen with
  | [a, b, c, d], _ =>
    revert a b c d
    decide

/-- Four byte enables make up an empty access only when none of them is set. -/
theorem enabled_empty {en : List Bool} (hen : en.length = 4) (h : enabled 0 en 0 = 0) : en = [false, false, false, false] := by
  match en, hen with
  | [a, b, c, d], _ =>
    revert a b c d
    decide

/-- A read request of one aligned word is one narrow read. -/
theorem State.readRequest_word (s : State) {off : Nat} {en : List Bool} (h4 : off % 4 = 0) (hen : en.length = 4) :
    s.readRequest off en = s.narrowRead off (enabled 0 en 0) := by
  simp [State.readRequest, hen, touched_word h4, enabled_word]

/-! ### Accesses at an offset that holds no register (R8, R9) -/

theorem State.fullWrite_none {s : State} {off : Nat} (hm : msixOff off = false) (hl : locOf s.variant off = none) (v : Word) :
    s.fullWrite off v = s.absentWrite off := by
  simp [State.fullWrite, hm, hl]

theorem State.fullRead_none {s : State} {off : Nat} (hm : msixOff off = false) (hl : locOf s.variant off = none) :
    s.fullRead off = { s with rdata := 0 } := by
  simp [State.fullRead, hm, hl]

theorem State.held_none {s : State} {off : Nat} (hl : locOf s.variant off = none) : s.held off = 0 := by
  simp [State.held, hl]

theorem State.narrowRead_none {s : State} {off : Nat} {be : BitVec 4} (hm : msixOff off = false) (hl : locOf s.variant off = none)
    (hb : s.bootDone = true) (hfull : be ≠ 15) (hempty : be ≠ 0) :
    s.narrowRead off be = { s with rdata := 0 }.noteAccess 0 1 off := by
  unfold State.narrowRead
  rw [if_neg hfull, if_neg hempty]
  simp [State.value, State.held_none hl, hm, hb]

/-- ABSENT_ACCESS is of class LOG and cannot be given another (R9, R510). -/
theorem srcInfo_absentAccess (v : Variant) : (srcInfo v srcAbsentAccess).map (fun i => (i.dflt, i.mx)) = some (.log, .log) := by
  cases v <;> decide

/-! ### The offsets of absent units (R2, R458) -/

theorem locOf_noOff (v : Variant) : locOf v noOff = none := by cases v <;> decide

/-- Beyond the largest variant's count there is no offset, so that only the offsets below it are to be looked up. -/
theorem locOf_instOff_none {v : Variant} {base stride count n o : Nat} (h : n < count → locOf v (base + stride * n + o) = none) :
    locOf v (instOff base stride count n o) = none := by
  unfold instOff
  split
  · exact h ‹_›
  · exact locOf_noOff v

/-- A register of an axis that the variant does not have. -/
theorem locOf_axis_absent {v : Variant} {a o : Nat} (ha : ¬ a < v.axes) (ho : o < 256 ∧ o % 4 = 0) :
    locOf v (unitReg .axis a o) = none := by
  refine locOf_instOff_none fun h48 => ?_
  rw [(locOf_region v (by omega)).2.2.1 (by omega) (by omega)]
  have hindex : (0x8000 + 0x100 * a + o - 0x8000) / 256 = a := by omega
  have hbelow : 0x8000 + 0x100 * a + o < 0xC000 := by omega
  simp [unitLoc, locIf, hbelow, hindex, ha]

/-- A register of a course that the variant does not have. -/
theorem locOf_course_absent {v : Variant} {c o : Nat} (hc : ¬ c < v.courses) (ho : o < 128 ∧ o % 4 = 0) :
    locOf v (unitReg .course c o) = none := by
  refine locOf_instOff_none fun h16 => ?_
  rw [(locOf_region v (by omega)).2.2.1 (by omega) (by omega)]
  have hindex : (0xC000 + 0x80 * c + o - 0xC000) / 128 = c := by omega
  have habove : ¬ 0xC000 + 0x80 * c + o < 0xC000 := by omega
  have hbelow : 0xC000 + 0x80 * c + o < 0xC800 := by omega
  simp [unitLoc, locIf, habove, hbelow, hindex, hc]

/-- Nothing lies in the space of a tile that the variant does not have, neither a register of its own nor one of a leg. -/
theorem locOf_tile_absent {v : Variant} {t o : Nat} (ht : ¬ t < v.tiles) (ho : o < 4096 ∧ o % 4 = 0) :
    locOf v (tileReg t o) = none := by
  refine locOf_instOff_none fun h12 => ?_
  rw [(locOf_region v (by omega)).2.2.2 (by omega) (by omega)]
  have hindex : (0x10000 + 0x1000 * t + o - 0x10000) / 4096 = t := by omega
  simp only [tileLoc, hindex, ht, if_false]

/-- A register of a leg of a tile that the variant does not have, or of a leg that no tile has. -/
theorem locOf_leg_absent {v : Variant} {t l o : Nat} (h : ¬ (t < v.tiles ∧ l < 16)) (ho : o < 64 ∧ o % 4 = 0) :
    locOf v (legReg t l o) = none := by
  unfold legReg
  split
  · exact locOf_tile_absent (by omega) (by omega)
  · exact locOf_noOff v

/-- A register of a ring that the variant does not have. -/
theorem locOf_ring_absent {v : Variant} {r o : Nat} (hr : ¬ r < v.rings) (ho : o < 32) (h4 : o % 4 = 0) :
    locOf v (ringReg r o) = none := by
  refine locOf_instOff_none fun h64 => ?_
  rw [(locOf_region v (by omega)).1 (by omega) (by omega)]
  have hindex : (0x2200 + 0x20 * r + o - 0x2000 - 0x200) / 32 = r := by omega
  unfold hostLoc
  simp (disch := omega) only [if_neg]
  simp [locIf, hindex, hr]

/-- The budget of a tile that the variant does not have. -/
theorem locOf_budget_absent {v : Variant} {t : Nat} (ht : ¬ t < v.tiles) : locOf v (instOff 0x2040 4 12 t 0) = none := by
  refine locOf_instOff_none fun h12 => ?_
  rw [(locOf_region v (by omega)).1 (by omega) (by omega)]
  have hindex : (0x2040 + 4 * t + 0 - 0x2000 - 0x40) / 4 = t := by omega
  unfold hostLoc
  rw [if_neg (by omega), if_pos (by omega), hindex]
  simp [locIf, ht]

/-! ### Absent offsets and the whole map -/

/-- Every access at an offset that holds no register: a write is discarded and noted, a full read answers 0, a narrow read answers 0
and is noted. -/
theorem exec_at_no_register {off : Nat} {s : State} (hr : s.inReset = false) (hm : msixOff off = false) (hl : locOf s.variant off = none) :
    (∀ v, exec (.registerWrite off v) s = .next (s.quiet.absentWrite off)) ∧
    exec (.rocRead off) s = .next { s.quiet with rdata := 0 } ∧
    ∀ en : List Bool, off % 4 = 0 → en.length = 4 → s.bootDone = true → en ≠ [true, true, true, true] → en ≠ [false, false, false, false] →
      exec (.narrowRead off en) s = .next ({ s.quiet with rdata := 0 }.noteAccess 0 1 off) := by
  have hl : locOf s.quiet.variant off = none := hl
  refine ⟨fun v => ?_, ?_, fun en h4 hen hb hfull hempty => ?_⟩
  · rw [exec_registerWrite, State.command_quiet _ hr, State.fullWrite_none hm hl]
  · rw [exec_rocRead, State.command_quiet _ hr, State.fullRead_none hm hl]
  · rw [exec_narrowRead, State.command_quiet _ hr, State.readRequest_word _ h4 hen, State.narrowRead_none hm hl hb]
    · exact fun h => hfull (enabled_full hen h)
    · exact fun h => hempty (enabled_empty hen h)

/-- Settles O20: the accesses from what each does where the map holds nothing, the map unit by unit, present and absent apart. -/
theorem absentUnitsHaveNoRegisters : Obligations.AbsentUnitsHaveNoRegisters := by
  unfold Obligations.AbsentUnitsHaveNoRegisters
  refine ⟨fun off v s hr hm hl => ?_, fun v => ⟨fun a o ho => ?_, fun c o ho => ?_, fun t o ho => ?_, fun t l o ho => ?_,
    fun r o ho h4 => ?_, fun t => ?_⟩⟩
  · obtain ⟨hwrite, hread, hnarrow⟩ := exec_at_no_register hr hm hl
    exact ⟨hwrite v, hread, srcInfo_absentAccess s.variant, hnarrow⟩
  · split
    case isTrue ha => exact locOf_axis v a o ha (List.mem_append.mp ho)
    case isFalse ha => exact locOf_axis_absent ha (unit_offs o (List.mem_append_left _ ho))
  · split
    case isTrue hc => exact locOf_course v c o hc (List.mem_append.mp ho)
    case isFalse hc => exact locOf_course_absent hc (course_offs o ho)
  · split
    case isTrue ht => exact locOf_tile v t o ht ho
    case isFalse ht => exact locOf_tile_absent ht (by have := tile_offs o ho; omega)
  · split
    case isTrue h => exact locOf_leg v t l o h.1 h.2 ho
    case isFalse h => exact locOf_leg_absent h (leg_offs o ho)
  · split
    case isTrue hr => exact locOf_ring v r o hr ho h4
    case isFalse hr => exact locOf_ring_absent hr ho h4
  · split
    case isTrue ht => exact locOf_budget v t ht
    case isFalse ht => exact locOf_budget_absent ht

end Sys2Proof.Machine
end

section
/-! SUPPORT. What the periods of a segment that goes on do to the velocity, the position and the queue of a unit (R39). -/

namespace Sys2Proof.Machine

/-! ### The wrapped position -/

/-- What was reduced already may be reduced again with what is added to it. -/
theorem wrapS_wrapS_add (n : Nat) (x y : Int) : wrapS n (wrapS n x + y) = wrapS n (x + y) := by
  have hback (r half : Int) : r - half + y + half = r + y := by omega
  have hswap (half : Int) : x + y + half = x + half + y := by omega
  simp only [wrapS, hback, hswap, Int.emod_add_emod]

/-! ### One period -/

/-- The head segment stays in the queue while it has periods left. -/
theorem Motion.popHead_of_periods_left {m : Motion} {g : Seg} {rest : List Seg} (hq : m.queue = g :: rest) (hp : g.periods ≠ 0) :
    m.popHead = (m, .none) := by
  simp [Motion.popHead, hq, hp]

/-- A period that is not the segment's last: the acceleration to the velocity, the new velocity to the position. -/
theorem Motion.period_of_goes_on {m : Motion} {g : Seg} {rest : List Seg} (hq : m.queue = g :: rest) (hp : 1 < g.periods) :
    m.period.1 = ({ m with v := m.v + g.acc, neg := if m.v + g.acc = 0 then m.neg else decide (m.v + g.acc < 0),
                           queue := { g with periods := g.periods - 1 } :: rest } : Motion).setX (m.x + (m.v + g.acc)) := by
  have hleft : g.periods - 1 ≠ 0 := by omega
  simp only [Motion.period, hq]
  rw [Motion.popHead_of_periods_left rfl hleft]

/-! ### The periods of a segment -/

/-- The position that `p` periods of a segment lead to, before it is reduced. -/
def Motion.reached (m : Motion) (g : Seg) (p : Nat) : Int := m.x + p * m.v + g.acc * ((p * (p + 1) / 2 : Nat) : Int)

@[simp] theorem Motion.reached_zero (m : Motion) (g : Seg) : m.reached g 0 = m.x := by simp [Motion.reached]

/-- The next period adds the velocity that the segment has then. -/
theorem Motion.reached_succ (m : Motion) (g : Seg) (p : Nat) :
    m.reached g (p + 1) = m.reached g p + (m.v + (p + 1 : Nat) * g.acc) := by
  have htriangle : (p + 1) * (p + 1 + 1) / 2 = p * (p + 1) / 2 + (p + 1) := by
    have hproduct : (p + 1) * (p + 1 + 1) = p * (p + 1) + (p + 1) * 2 := by rw [Nat.mul_comm p, ← Nat.mul_add]
    rw [hproduct, Nat.add_mul_div_right _ _ Nat.two_pos]
  have hspeed : ((p + 1 : Nat) : Int) * m.v = p * m.v + m.v := by rw [Int.natCast_succ, Int.add_mul, Int.one_mul]
  simp only [Motion.reached, htriangle, hspeed, Int.natCast_add _ (p + 1), Int.mul_add, Int.mul_comm _ g.acc]
  omega

/-- `u` is the unit `m` after `p` periods of the segment `g` at the head of its queue, which goes on. -/
structure Motion.RanFor (m : Motion) (g : Seg) (rest : List Seg) (p : Nat) (u : Motion) : Prop where
  v : u.v = m.v + p * g.acc
  x : u.x = wrapS 80 (m.reached g p)
  queue : u.queue = { g with periods := g.periods - p } :: rest
  act : u.act = m.act
  look : u.look = m.look

/-- The first period of a segment. -/
theorem Motion.RanFor.first {m : Motion} {g : Seg} {rest : List Seg} (hq : m.queue = g :: rest) (hp : 1 < g.periods) :
    m.RanFor g rest 1 m.period.1 := by
  rw [Motion.period_of_goes_on hq hp]
  constructor <;> simp [Motion.setX, Motion.reached_succ m g 0]

/-- Another period of a segment that goes on behind it. -/
theorem Motion.RanFor.next {m u : Motion} {g : Seg} {rest : List Seg} {p : Nat} (h : m.RanFor g rest p u) (hp : p + 1 < g.periods) :
    m.RanFor g rest (p + 1) u.period.1 := by
  obtain ⟨hv, hx, hqueue, hact, hlook⟩ := h
  have hspeed : u.v + g.acc = m.v + (p + 1 : Nat) * g.acc := by rw [hv, Int.natCast_succ, Int.add_mul, Int.one_mul, Int.add_assoc]
  have hleft : 1 < g.periods - p := by omega
  rw [Motion.period_of_goes_on hqueue hleft]
  constructor
  case v => exact hspeed
  case x => simp only [Motion.setX, hspeed, hx, wrapS_wrapS_add, Motion.reached_succ]
  case queue => simp [Motion.setX, Nat.sub_sub]
  case act => exact hact
  case look => exact hlook

/-- As many periods as the segment goes on for. -/
theorem Motion.ranFor_repeat {m : Motion} {g : Seg} {rest : List Seg} (hq : m.queue = g :: rest) (p : Nat) (hp : p + 1 < g.periods) :
    m.RanFor g rest (p + 1) (Nat.repeat (fun m => (Motion.period m).1) (p + 1) m) := by
  induction p with
  | zero => exact .first hq hp
  | succ p ih => exact (ih (by omega)).next hp

/-- Settles O40: by induction on the periods, the first of them and each behind it. -/
theorem runnerIntegratesItsSegment : Obligations.RunnerIntegratesItsSegment := by
  unfold Obligations.RunnerIntegratesItsSegment
  intro m g rest p hq hpos hp
  obtain ⟨k, rfl⟩ := Nat.exists_eq_succ_of_ne_zero (Nat.ne_of_gt hpos)
  obtain ⟨hv, hx, hqueue, hact, hlook⟩ := Motion.ranFor_repeat hq k hp
  exact ⟨hv, hx, rfl, hqueue, hact, hlook⟩

end Sys2Proof.Machine
end

section
/-! SUPPORT. What accesses that leave bytes of a word out do, and how a request that goes beyond a word falls into its words
(R431 to R435). -/

namespace Sys2Proof.Machine

/-! ### Bytes and byte enables of an aligned word -/

theorem enabled_four_true : enabled 0 [true, true, true, true] 0 = 15 := by decide

theorem enabled_four_false : enabled 0 [false, false, false, false] 0 = 0 := by decide

/-- A byte left out makes an access narrow. -/
theorem enabled_ne_full {en : List Bool} (hen : en.length = 4) (h : false ∈ en) : enabled 0 en 0 ≠ 15 := fun hfull => by
  simp [enabled_full hen hfull] at h

/-- An enabled byte makes an access count. -/
theorem enabled_ne_empty {en : List Bool} (hen : en.length = 4) (h : true ∈ en) : enabled 0 en 0 ≠ 0 := fun hempty => by
  simp [enabled_empty hen hempty] at h

/-- The mask of an access holds 0xFF in the enabled bytes and 0 in the others. -/
theorem byteMask_byte {en : List Bool} (hen : en.length = 4) {k : Nat} (hk : k < 4) :
    (byteMask (enabled 0 en 0) >>> (8 * k)) &&& 0xFF = if en.getD k false then 0xFF else 0 := by
  match en, hen with
  | [a, b, c, d], _ =>
    revert a b c d k
    decide

/-- A masked word holds the enabled bytes as they stand and 0 in the others. -/
theorem masked_byte (w : Word) {en : List Bool} (hen : en.length = 4) {k : Nat} (hk : k < 4) :
    ((w &&& byteMask (enabled 0 en 0)) >>> (8 * k)) &&& 0xFF = if en.getD k false then (w >>> (8 * k)) &&& 0xFF else 0 := by
  rw [BitVec.ushiftRight_and_distrib, BitVec.and_assoc, byteMask_byte hen hk]
  split
  · rfl
  · exact BitVec.and_zero

/-- What the byte enables let through tells them again. -/
theorem lanes_enables {en : List Bool} {bytes : List Byte} (h : en.length = bytes.length) :
    (lanes en bytes).map Option.isSome = en := by
  unfold lanes
  induction en generalizing bytes with
  | nil => simp
  | cons e en ih =>
    match bytes, h with
    | b :: bytes, h => cases e <;> simpa using ih (by simpa using h)

theorem lanes_length {en : List Bool} {bytes : List Byte} (h : en.length = bytes.length) : (lanes en bytes).length = en.length := by
  simp [lanes, h]

theorem toNat_append_byte {n : Nat} (x : BitVec n) (b : Byte) : (x ++ b).toNat = 256 * x.toNat + b.toNat := by
  rw [BitVec.toNat_append, ← Nat.shiftLeft_add_eq_or_of_lt b.isLt, Nat.shiftLeft_eq, Nat.mul_comm]

/-- The number that the bytes of an aligned word make up, the first of them lowest. -/
theorem wordOf_aligned (off : Nat) (bytes : List (Option Byte)) :
    let byte (i : Nat) : Nat := ((bytes.getD i none).getD 0).toNat
    wordOf off bytes off = wd (256 * (256 * (256 * byte 3 + byte 2) + byte 1) + byte 0) := by
  intro byte
  have hsum (f : Nat → Nat) : ((List.range 4).map f).sum = f 0 + f 1 + f 2 + f 3 := by simp [List.range_succ, Nat.add_assoc]
  unfold wordOf
  rw [hsum]
  simp only [Nat.le_add_right, if_true, Nat.add_sub_cancel_left]
  refine congrArg wd ?_
  change byte 0 * 256 ^ 0 + byte 1 * 256 ^ 1 + byte 2 * 256 ^ 2 + byte 3 * 256 ^ 3 = _
  omega

/-- The bytes of a full access make up its word, the first of them lowest. -/
theorem wordOf_four_bytes (off : Nat) (a b c d : Byte) :
    wordOf off (lanes [true, true, true, true] [a, b, c, d]) off = d ++ c ++ b ++ a := by
  have hnumber : (d ++ c ++ b ++ a).toNat = 256 * (256 * (256 * d.toNat + c.toNat) + b.toNat) + a.toNat := by
    simp only [toNat_append_byte]
  have hword : wd (d ++ c ++ b ++ a).toNat = d ++ c ++ b ++ a := (BitVec.ofNat_toNat _ _).trans (BitVec.setWidth_eq _)
  rw [wordOf_aligned, ← hword, hnumber]
  rfl

/-! ### One narrow access -/

theorem State.narrowRead_full (s : State) (off : Nat) : s.narrowRead off 15 = s.fullRead off := by
  simp [State.narrowRead]

theorem State.narrowRead_empty (s : State) (off : Nat) : s.narrowRead off 0 = { s with rdata := 0 } := by
  simp [State.narrowRead]

/-- Some bytes of a register and not all: they are returned and the read is noted (R432). -/
theorem State.narrowRead_some {s : State} {off : Nat} {be : BitVec 4} (hm : msixOff off = false) (hb : s.bootDone = true)
    (hfull : be ≠ 15) (hempty : be ≠ 0) :
    s.narrowRead off be = { s with rdata := s.held off &&& byteMask be }.noteAccess 0 1 off := by
  unfold State.narrowRead
  rw [if_neg hfull, if_neg hempty]
  simp [State.value, hm, hb]

theorem State.narrowWrite_full (s : State) (off : Nat) (raw : Word) : s.narrowWrite off 15 raw = s.fullWrite off raw := by
  simp [State.narrowWrite]

theorem State.narrowWrite_empty (s : State) (off : Nat) (raw : Word) : s.narrowWrite off 0 raw = s := by
  simp [State.narrowWrite]

/-- Where no register lies every write is an absent one, whatever its bytes (R9, R434). -/
theorem State.narrowWrite_none {s : State} {off : Nat} {be : BitVec 4} (hm : msixOff off = false) (hl : locOf s.variant off = none)
    (hempty : be ≠ 0) (raw : Word) : s.narrowWrite off be raw = s.absentWrite off := by
  by_cases hfull : be = 15
  · rw [hfull, State.narrowWrite_full, State.fullWrite_none hm hl]
  · unfold State.narrowWrite
    rw [if_neg hfull, if_neg hempty]
    simp [hm, hl]

/-- A write of some bytes of FLT_SEV while its selector names no source is an absent one (R441). -/
theorem State.narrowWrite_unassigned {s : State} {off : Nat} {be : BitVec 4} (hm : msixOff off = false)
    (hl : locOf s.variant off = some (.flt 0x14)) (hsrc : (srcInfo s.variant s.flt.sevSel).isNone) (hfull : be ≠ 15) (hempty : be ≠ 0)
    (raw : Word) : s.narrowWrite off be raw = s.absentWrite off := by
  unfold State.narrowWrite
  rw [if_neg hfull, if_neg hempty]
  simp [hm, hl, hsrc]

/-- A write of some bytes of a register and not all is discarded and noted (R433). -/
theorem State.narrowWrite_some {s : State} {off : Nat} {be : BitVec 4} (hm : msixOff off = false) (hl : (locOf s.variant off).isSome)
    (hsrc : locOf s.variant off = some (.flt 0x14) → (srcInfo s.variant s.flt.sevSel).isSome) (hfull : be ≠ 15) (hempty : be ≠ 0)
    (raw : Word) : s.narrowWrite off be raw = (s.noteAccess 1 2 off).fault srcAccNarrow (wd off) .none := by
  obtain ⟨l, hl⟩ := Option.isSome_iff_exists.mp hl
  have hassigned : (decide (l = .flt 0x14) && (srcInfo s.variant s.flt.sevSel).isNone) = false := by
    by_cases hflt : l = .flt 0x14
    · simp [Option.isNone_eq_false_iff.mpr (hsrc (hflt ▸ hl))]
    · simp [hflt]
  unfold State.narrowWrite
  rw [if_neg hfull, if_neg hempty]
  simp only [hm, hl, hassigned, Bool.false_eq_true, if_false]

/-- ACC_NARROW is of class LOG and cannot be given another (R433, R510). -/
theorem srcInfo_accNarrow (v : Variant) : (srcInfo v srcAccNarrow).map (fun i => (i.dflt, i.mx)) = some (.log, .log) := by
  cases v <;> decide

/-- A write request of one aligned word is one narrow write. -/
theorem State.writeRequest_word (s : State) {off : Nat} {en : List Bool} {bytes : List Byte} (h4 : off % 4 = 0) (hen : en.length = 4)
    (hb : bytes.length = 4) :
    s.writeRequest off (lanes en bytes) = s.narrowWrite off (enabled 0 en 0) (wordOf off (lanes en bytes) off) := by
  have hlen : en.length = bytes.length := hen.trans hb.symm
  simp [State.writeRequest, lanes_length hlen, hen, touched_word h4, lanes_enables hlen, enabled_word]

/-! ### What reads send out -/

theorem State.clearRoc_out (s : State) (l : Loc) : (s.clearRoc l).out = s.out := by
  unfold State.clearRoc
  split <;> rfl

theorem State.latchShadow_out (s : State) (off : Nat) (l : Loc) : (s.latchShadow off l).out = s.out := by
  unfold State.latchShadow
  repeat' split
  all_goals rfl

theorem State.fullRead_out (s : State) (off : Nat) : (s.fullRead off).out = s.out := by
  have hclear (t : State) (l : Loc) : ((t.latchShadow off l).clearRoc l).out = t.out :=
    (State.clearRoc_out _ l).trans (State.latchShadow_out t off l)
  unfold State.fullRead
  repeat' split
  · rfl
  · rfl
  · exact hclear _ _
  · exact hclear _ _
  · rfl

/-- The read of one word sends nothing out. -/
theorem State.narrowRead_out (s : State) (off : Nat) (be : BitVec 4) : (s.narrowRead off be).out = s.out := by
  unfold State.narrowRead
  repeat' split
  · exact State.fullRead_out s off
  all_goals rfl

theorem State.narrowRead_inReset (s : State) (off : Nat) (be : BitVec 4) : (s.narrowRead off be).inReset = s.inReset :=
  congrArg (fun b => b.2.2.1) (State.narrowRead_rest s off be).1

/-! ### The words of a request (R431) -/

/-- A request that fills the word it begins in touches that word and then those of the rest of the request. -/
theorem touched_split {addr n : Nat} (hn : n = 4 - addr % 4) (m : Nat) :
    touched addr (n + m) = addr / 4 * 4 :: touched (addr + n) m := by
  have hcount : (addr % 4 + (n + m) + 3) / 4 = ((addr + n) % 4 + m + 3) / 4 + 1 := by omega
  have hnext (i : Nat) : addr / 4 * 4 + 4 * (i + 1) = (addr + n) / 4 * 4 + 4 * i := by omega
  simp only [touched, hcount, List.range_succ_eq_map, List.map_cons, List.map_map, Nat.mul_zero, Nat.add_zero, Function.comp_def,
    Nat.succ_eq_add_one, hnext]

theorem touched_first {addr n : Nat} (hn : n = 4 - addr % 4) : touched addr n = [addr / 4 * 4] := by
  have hrest : touched (addr + n) 0 = [] := by simp [touched, show ((addr + n) % 4 + 3) / 4 = 0 by omega]
  rw [← hrest, ← touched_split hn 0, Nat.add_zero]

theorem touched_length (addr n : Nat) : (touched addr n).length = (addr % 4 + n + 3) / 4 := by
  simp [touched]

/-- A request from a word's beginning on touches nothing below it. -/
theorem le_of_mem_touched {addr n w : Nat} (h4 : addr % 4 = 0) (hw : w ∈ touched addr n) : addr ≤ w := by
  obtain ⟨i, -, rfl⟩ := List.mem_map.mp hw
  omega

theorem getD_append_first {α : Type} {first : List α} {i : Nat} (h : i < first.length) (rest : List α) (d : α) :
    (first ++ rest).getD i d = first.getD i d := by
  rw [List.getD_eq_getElem?_getD, List.getD_eq_getElem?_getD, List.getElem?_append_left h]

theorem getD_append_rest {α : Type} {first : List α} {i : Nat} (h : first.length ≤ i) (rest : List α) (d : α) :
    (first ++ rest).getD i d = rest.getD (i - first.length) d := by
  rw [List.getD_eq_getElem?_getD, List.getD_eq_getElem?_getD, List.getElem?_append_right h]

/-- The first word of a request that goes on has the byte enables of the part that lies in it. -/
theorem enabled_append_first {addr : Nat} {first : List Bool} (hlen : first.length = 4 - addr % 4) (rest : List Bool) :
    enabled addr (first ++ rest) (addr / 4 * 4) = enabled addr first (addr / 4 * 4) := by
  unfold enabled
  refine congrArg (fun l : List Nat => BitVec.ofNat 4 l.sum) (List.map_congr_left fun i hi => ?_)
  have hi := List.mem_range.mp hi
  rw [getD_append_first (by omega)]

/-- A word behind the first part of a request has the byte enables of the rest. -/
theorem enabled_append_rest {addr w : Nat} {first : List Bool} (hw : addr + first.length ≤ w) (rest : List Bool) :
    enabled addr (first ++ rest) w = enabled (addr + first.length) rest w := by
  unfold enabled
  refine congrArg (fun l : List Nat => BitVec.ofNat 4 l.sum) (List.map_congr_left fun i _ => ?_)
  have hall : addr ≤ w + i := by omega
  have hrest : addr + first.length ≤ w + i := by omega
  rw [getD_append_rest (by omega), Nat.sub_sub]
  simp [hall, hrest]

/-- The first word of a write that goes on is made up of the bytes that lie in it. -/
theorem wordOf_append_first {addr : Nat} {first : List (Option Byte)} (hlen : first.length = 4 - addr % 4) (rest : List (Option Byte)) :
    wordOf addr (first ++ rest) (addr / 4 * 4) = wordOf addr first (addr / 4 * 4) := by
  unfold wordOf
  refine congrArg (fun l : List Nat => wd l.sum) (List.map_congr_left fun i hi => ?_)
  have hi := List.mem_range.mp hi
  rw [getD_append_first (by omega)]

/-- A word behind the first part of a write is made up of the bytes of the rest. -/
theorem wordOf_append_rest {addr w : Nat} {first : List (Option Byte)} (hw : addr + first.length ≤ w) (rest : List (Option Byte)) :
    wordOf addr (first ++ rest) w = wordOf (addr + first.length) rest w := by
  unfold wordOf
  refine congrArg (fun l : List Nat => wd l.sum) (List.map_congr_left fun i _ => ?_)
  rw [getD_append_rest (by omega), Nat.sub_sub, if_pos (by omega), if_pos (by omega)]

/-! ### Reads of several words -/

/-- The state behind the reads of some words of a request, with what each returned. -/
def State.readWords (addr : Nat) (en : List Bool) (s : State) : List Nat → State × List Word
  | [] => (s, [])
  | w :: ws =>
    let t := s.narrowRead w (enabled addr en w)
    let r := State.readWords addr en t ws
    (r.1, t.rdata :: r.2)

/-- The fold of a read request, behind words read already. -/
theorem foldl_narrowRead (addr : Nat) (en : List Bool) (ws : List Nat) (s : State) (before : List Word) :
    ws.foldl (fun (q : State × List Word) w =>
      let t := q.1.narrowRead w (enabled addr en w)
      (t, q.2 ++ [t.rdata])) (s, before) = ((s.readWords addr en ws).1, before ++ (s.readWords addr en ws).2) := by
  induction ws generalizing s before with
  | nil => simp [State.readWords]
  | cons w ws ih => simp [State.readWords, ih]

theorem State.readWords_length (addr : Nat) (en : List Bool) (ws : List Nat) (s : State) :
    (s.readWords addr en ws).2.length = ws.length := by
  induction ws generalizing s with
  | nil => rfl
  | cons w ws ih => simp [State.readWords, ih]

theorem State.readWords_out (addr : Nat) (en : List Bool) (ws : List Nat) (s : State) : (s.readWords addr en ws).1.out = s.out := by
  induction ws generalizing s with
  | nil => rfl
  | cons w ws ih => simp [State.readWords, ih, State.narrowRead_out]

/-- The reads of words depend on the request only by the byte enables of these words. -/
theorem State.readWords_congr {addr addr' : Nat} {en en' : List Bool} (ws : List Nat)
    (h : ∀ w ∈ ws, enabled addr en w = enabled addr' en' w) (s : State) : s.readWords addr en ws = s.readWords addr' en' ws := by
  induction ws generalizing s with
  | nil => rfl
  | cons w ws ih =>
    obtain ⟨hw, hws⟩ := List.forall_mem_cons.mp h
    simp [State.readWords, hw, ih hws]

/-- A read request of several words sends out what they returned together. -/
theorem State.readRequest_of_many {addr : Nat} {en : List Bool} (h : 1 < (touched addr en.length).length) (s : State) :
    s.readRequest addr en = { (s.readWords addr en (touched addr en.length)).1 with
      out := s.out ++ [.readData (s.readWords addr en (touched addr en.length)).2] } := by
  simp [State.readRequest, foldl_narrowRead, State.readWords_length, State.readWords_out, h]

/-- What a read request leaves is, what it sends out apart, what its words leave. -/
theorem State.readRequest_with_out (addr : Nat) (en : List Bool) (o : List Output) (s : State) :
    { s.readRequest addr en with out := o } = { (s.readWords addr en (touched addr en.length)).1 with out := o } := by
  unfold State.readRequest
  rw [foldl_narrowRead]
  dsimp only
  split <;> rfl

/-- A read request of one word is the read of that word, by its byte enables. -/
theorem State.readRequest_of_one {addr w : Nat} {en : List Bool} (h : touched addr en.length = [w]) (s : State) :
    s.readRequest addr en = s.narrowRead w (enabled addr en w) := by
  simp [State.readRequest, h]

/-- What a read request from a word's beginning on sends out and leaves as the word read. -/
theorem State.readRequest_returned {addr : Nat} {en : List Bool} {s : State} (h4 : addr % 4 = 0) (hen : en ≠ []) (hout : s.out = []) :
    let returned := (s.readWords addr en (touched addr en.length)).2
    if 4 < en.length then (s.readRequest addr en).out = [.readData returned]
    else (s.readRequest addr en).out = [] ∧ returned = [(s.readRequest addr en).rdata] := by
  intro returned
  have hpos := List.length_pos_iff.mpr hen
  have hcount := touched_length addr en.length
  split
  case isTrue hlong => rw [State.readRequest_of_many (by omega), hout]; rfl
  case isFalse hshort =>
    obtain ⟨w, hw⟩ := List.length_eq_one_iff.mp (hcount.trans (by omega))
    have hone := State.readRequest_of_one hw s
    refine ⟨by rw [hone, State.narrowRead_out, hout], ?_⟩
    simp only [returned, hw, hone, State.readWords]

/-- A read request that goes beyond a word is the read of that word and then the words of the rest, returned together. -/
theorem State.readRequest_append {addr : Nat} {first rest : List Bool} (hlen : first.length = 4 - addr % 4) (hrest : rest ≠ []) (s : State) :
    let u := s.readRequest addr first
    let r := u.readWords (addr + first.length) rest (touched (addr + first.length) rest.length)
    s.readRequest addr (first ++ rest) = { r.1 with out := s.out ++ [.readData (u.rdata :: r.2)] } := by
  intro u r
  have hu : u = s.narrowRead (addr / 4 * 4) (enabled addr first (addr / 4 * 4)) := State.readRequest_of_one (touched_first hlen) s
  have hwords : touched addr (first ++ rest).length = addr / 4 * 4 :: touched (addr + first.length) rest.length := by
    rw [List.length_append, touched_split hlen]
  have hmany : 1 < (touched addr (first ++ rest).length).length := by
    have := List.length_pos_iff.mpr hrest
    rw [hwords, List.length_cons, touched_length]
    omega
  have hbehind : ∀ w ∈ touched (addr + first.length) rest.length,
      enabled addr (first ++ rest) w = enabled (addr + first.length) rest w := fun w hw =>
    enabled_append_rest (le_of_mem_touched (by omega) hw) rest
  rw [State.readRequest_of_many hmany, hwords, State.readWords, enabled_append_first hlen, ← hu, State.readWords_congr _ hbehind]

/-! ### Writes of several words -/

/-- Folds of steps that agree on the elements of the list agree. -/
theorem foldl_congr_of_mem {α β : Type} {f g : α → β → α} {l : List β} (h : ∀ a, ∀ b ∈ l, f a b = g a b) (a : α) :
    l.foldl f a = l.foldl g a := by
  induction l generalizing a with
  | nil => rfl
  | cons b l ih =>
    obtain ⟨hb, hl⟩ := List.forall_mem_cons.mp (fun c hc a => h a c hc)
    rw [List.foldl_cons, List.foldl_cons, hb a]
    exact ih (fun a c hc => hl c hc a) (g a b)

/-- A write request that goes beyond a word is the write of that word and then the request of the rest. -/
theorem State.writeRequest_append {addr : Nat} {first : List (Option Byte)} (hlen : first.length = 4 - addr % 4)
    (rest : List (Option Byte)) (s : State) :
    s.writeRequest addr (first ++ rest) = (s.writeRequest addr first).writeRequest (addr + first.length) rest := by
  have hlen' : (first.map Option.isSome).length = 4 - addr % 4 := (List.length_map _).trans hlen
  unfold State.writeRequest
  rw [List.length_append, touched_split hlen, touched_first hlen, List.foldl_cons, List.foldl_cons, List.foldl_nil, List.map_append,
    enabled_append_first hlen', wordOf_append_first hlen]
  refine foldl_congr_of_mem (fun t w hw => ?_) _
  have hbehind := le_of_mem_touched (by omega) hw
  rw [enabled_append_rest (by simpa using hbehind), wordOf_append_rest hbehind, List.length_map]

/-! ### The rows -/

/-- A narrow read of an aligned word, by its byte enables. -/
theorem exec_narrowRead_word {off : Nat} {en : List Bool} {s : State} (hr : s.inReset = false) (h4 : off % 4 = 0) (hen : en.length = 4) :
    exec (.narrowRead off en) s = .next (s.quiet.narrowRead off (enabled 0 en 0)) := by
  rw [exec_narrowRead, State.command_quiet _ hr, State.readRequest_word _ h4 hen]

/-- A narrow write of an aligned word, by its byte enables. -/
theorem exec_narrowWrite_word {off : Nat} {en : List Bool} {bytes : List Byte} {s : State} (hr : s.inReset = false) (h4 : off % 4 = 0)
    (hen : en.length = 4) (hb : bytes.length = 4) :
    exec (.narrowWrite off en bytes) s = .next (s.quiet.narrowWrite off (enabled 0 en 0) (wordOf off (lanes en bytes) off)) := by
  rw [exec_narrowWrite, State.command_quiet _ hr, State.writeRequest_word _ h4 hen hb]

/-- A read request that goes beyond a word: the request of the first word, then that of the rest, and what they returned together. -/
theorem exec_narrowRead_append {addr : Nat} {first rest : List Bool} {s : State} (hr : s.inReset = false)
    (hlen : first.length = 4 - addr % 4) (hrest : rest ≠ []) :
    ∃ u v ws, exec (.narrowRead addr first) s = .next u ∧ exec (.narrowRead (addr + first.length) rest) u = .next v ∧
      (if 4 < rest.length then v.out = [.readData ws] else v.out = [] ∧ ws = [v.rdata]) ∧
      exec (.narrowRead addr (first ++ rest)) s = .next { v with out := [.readData (u.rdata :: ws)] } := by
  have hfirst := State.readRequest_of_one (touched_first hlen) s.quiet
  have hout : (s.quiet.readRequest addr first).out = [] := hfirst ▸ State.narrowRead_out s.quiet _ _
  have hreset : (s.quiet.readRequest addr first).inReset = false := (hfirst ▸ State.narrowRead_inReset s.quiet _ _).trans hr
  have hbegins : (addr + first.length) % 4 = 0 := by omega
  refine ⟨_, _, _, exec_narrowRead .. ▸ State.command_quiet _ hr, ?_, State.readRequest_returned hbegins hrest hout, ?_⟩
  · rw [exec_narrowRead, State.command_quiet _ hreset, State.quiet_of_out hout]
  · rw [exec_narrowRead, State.command_quiet _ hr, State.readRequest_append hlen hrest, State.readRequest_with_out]
    rfl

/-- A write request that goes beyond a word: the request of the first word, then that of the rest. -/
theorem exec_narrowWrite_append {addr : Nat} {en en' : List Bool} {bytes bytes' : List Byte} {s : State} (hr : s.inReset = false)
    (hlen : en.length = 4 - addr % 4) (hb : bytes.length = en.length) :
    ∃ u, exec (.narrowWrite addr en bytes) s = .next u ∧
      exec (.narrowWrite addr (en ++ en') (bytes ++ bytes')) s = .next (u.writeRequest (addr + en.length) (lanes en' bytes')) := by
  have hlanes : (lanes en bytes).length = en.length := lanes_length hb.symm
  have happend : lanes (en ++ en') (bytes ++ bytes') = lanes en bytes ++ lanes en' bytes' := List.zipWith_append hb.symm
  refine ⟨s.quiet.writeRequest addr (lanes en bytes), ?_, ?_⟩
  · rw [exec_narrowWrite, State.command_quiet _ hr]
  · rw [exec_narrowWrite, State.command_quiet _ hr, happend, State.writeRequest_append (hlanes.trans hlen), hlanes]

/-- Settles O17: an access of one word by its byte enables, all, some or none; a request of several words split at the end of the first. -/
theorem narrowAccessesAreNoted : Obligations.NarrowAccessesAreNoted := by
  unfold Obligations.NarrowAccessesAreNoted
  refine ⟨fun off en s hr h4 hen hm => ⟨fun hall => ?_, fun hall hnone hb => ?_, ?_⟩,
    fun off en bytes s hr h4 hen hlen hm => ⟨fun a b c d hall hbytes => ?_, fun hout hin hl hsrc => ?_, fun hin hnarrow habsent => ?_,
      ?_, srcInfo_accNarrow s.variant⟩,
    fun _ _ _ _ hr hlen hrest => exec_narrowRead_append hr hlen hrest,
    fun _ _ _ _ _ _ hr hlen hb _ _ => exec_narrowWrite_append hr hlen hb⟩
  · rw [exec_narrowRead_word hr h4 hen, hall, enabled_four_true, State.narrowRead_full, exec_rocRead, State.command_quiet _ hr]
  · have hsome := State.narrowRead_some (s := s.quiet) hm hb (fun h => hall (enabled_full hen h)) (fun h => hnone (enabled_empty hen h))
    refine ⟨_, exec_narrowRead_word hr h4 hen, ?_, ?_⟩ <;> rw [hsome]
    · exact fun k hk => masked_byte (s.held off) hen hk
    · rfl
  · rw [exec_narrowRead_word hr h4 rfl, enabled_four_false, State.narrowRead_empty]
  · rw [exec_narrowWrite_word hr h4 hen hlen, hall, hbytes, enabled_four_true, State.narrowWrite_full, wordOf_four_bytes,
      exec_registerWrite, State.command_quiet _ hr]
  · rw [exec_narrowWrite_word hr h4 hen hlen,
      State.narrowWrite_some (s := s.quiet) hm hl hsrc (enabled_ne_full hen hout) (enabled_ne_empty hen hin)]
    rfl
  · have habsent : s.quiet.narrowWrite off (enabled 0 en 0) (wordOf off (lanes en bytes) off) = s.quiet.absentWrite off := by
      obtain hl | ⟨hl, hsrc⟩ := habsent
      · exact State.narrowWrite_none (s := s.quiet) hm hl (enabled_ne_empty hen hin) _
      · have hout : false ∈ en := hnarrow.resolve_right (by simp [hl])
        exact State.narrowWrite_unassigned (s := s.quiet) hm hl hsrc (enabled_ne_full hen hout) (enabled_ne_empty hen hin) _
    rw [exec_narrowWrite_word hr h4 hen hlen, habsent]
    rfl
  · rw [exec_narrowWrite_word hr h4 rfl hlen, enabled_four_false, State.narrowWrite_empty]

end Sys2Proof.Machine
end

section
/-! SUPPORT. What each command does to the queue, the variant, the cam pool, the tables, the pins and CFG_LOCK, as one case split over the
commands, and the statements about the machine that follow from it. -/

namespace Sys2Proof.Machine

/-! ### What a command is -/

/-- The step that carries out a command, on the quiet state: a change of what Laws/Kept.lean follows by its own row alone, a read or a write of
a register, or a change that keeps all of it. -/
inductive State.Effect (s : State) : Instr → State → Prop where
  | kept {c : Instr} {t : State} (h : t.kept = s.kept) : s.Effect c t
  | read (c : Instr) (off : Nat) : s.Effect c (s.fullRead off)
  | reads (c : Instr) (addr : Nat) (en : List Bool) : s.Effect c (s.readRequest addr en)
  | write {c : Instr} (off : Nat) (v : Word) (h : c.writesRegister = true) : s.Effect c (s.fullWrite off v)
  | writes {c : Instr} (addr : Nat) (bs : List (Option Byte)) (h : c.writesRegister = true) : s.Effect c (s.writeRequest addr bs)
  | unsealed : s.Effect .sealedToConfigure s.sealedOpen
  | enLow : s.Effect .enLow s.enFalls
  | enHigh : s.Effect .enHigh { s with glb := { s.glb with enIn := true } }
  | tap (i : TapInstr) : s.Effect (.dbgTapInstruction i) (s.tapLoad i)
  | reset : s.Effect .internalReset s.enterReset
  | released (en good : Bool) : s.Effect (.resetRelease en good) (s.release0 en good)
  | powerLost : s.Effect .logicSupplyFail s.powerLost

@[simp] theorem State.quiet_kept (s : State) : s.quiet.kept = s.kept := rfl

/-- A command carried out is its change on the quiet state, and in internal reset nothing. -/
theorem State.Effect.of_change {s t u : State} {c : Instr} (hu : s.quiet.Effect c u) (h : (if s.inReset then s.quiet else u) = t) :
    s.quiet.Effect c t := by
  subst h
  split
  · exact .kept rfl
  · exact hu

theorem exec_effect {c : Instr} {s t : State} (h : exec c s = .next t) : s.quiet.Effect c t := by
  cases c
  case refRcLoRead | loRegisterRead | rocRead => exact .of_change (.read ..) (Host.Outcome.next.inj h)
  case narrowRead => exact .of_change (.reads ..) (Host.Outcome.next.inj h)
  case narrowWrite => exact .of_change (.writes _ _ rfl) (Host.Outcome.next.inj h)
  case crsCamDataAccess v =>
    cases v with
    | none => exact .of_change (.read ..) (Host.Outcome.next.inj h)
    | some w => exact .of_change (.write _ _ rfl) (Host.Outcome.next.inj h)
  case sealedToConfigure => exact .of_change .unsealed (Host.Outcome.next.inj h)
  case enLow => exact .of_change .enLow (Host.Outcome.next.inj h)
  case enHigh => exact .of_change .enHigh (Host.Outcome.next.inj h)
  case dbgTapInstruction => exact .of_change (.tap _) (Host.Outcome.next.inj h)
  case internalReset => exact .of_change .reset (Host.Outcome.next.inj h)
  case resetRelease en good =>
    rw [exec_resetRelease] at h
    cases h
    split
    · exact .released en good
    · exact .kept rfl
  case logicSupplyFail =>
    rw [exec_logicSupplyFail] at h
    cases h
    exact .powerLost
  case glbModeReqWrite | anchorSet | registerWrite | fltHistSelWrite | fltAck | fltInjArm | fltInjDisarm | fltPinLevel | clrUnc | clrTrip |
      clrIso | inpSafeClr | train | arm | legPwmPerWrite | commit | uncommit | cfgCrcRefWrite | cfgLockWrite | unitEnable | unitDisable |
      refEnable | refDisable | tcompEnWrite | hostEnable | hostDisable | ringEnable | ringDisable | hostRingQuotaWrite |
      hostTileBudgetWrite | tileCtrlEnWrite | legModeWrite | stepPairEnable | stepPairDisable | encoderEnable | inpFiltWrite =>
    exact .of_change (.write _ _ rfl) (Host.Outcome.next.inj h)
  case coreScrub | diagLegPhaseEnd | hostLinkDown =>
    refine .of_change (.kept ?_) (Host.Outcome.next.inj h)
    dsimp only
    split <;> simp
  case hotReset => exact .of_change (.kept (by simp [State.linkDown_kept])) (Host.Outcome.next.inj h)
  all_goals exact .of_change (.kept (by simp)) (Host.Outcome.next.inj h)

/-! ### CFG_LOCK before and after its first write (R440) -/

/-- CFG_LOCK holds nothing before it is written. -/
def State.lockFresh (s : State) : Prop := s.cfg.lockWritten = false → s.cfg.lock = 0

theorem State.lockFresh_of_lock {s t : State} (h : t.cfg.lock = s.cfg.lock ∧ t.cfg.lockWritten = s.cfg.lockWritten) (hs : s.lockFresh) :
    t.lockFresh := fun ht => h.1.trans (hs (h.2.symm.trans ht))

theorem State.lockFresh_of_kept {s t : State} (h : t.kept = s.kept) (hs : s.lockFresh) : t.lockFresh :=
  State.lockFresh_of_lock (State.lock_of_kept h) hs

theorem State.lockFresh_of_written {s : State} (h : s.cfg.lockWritten = true) : s.lockFresh := fun hn => by simp [h] at hn

theorem State.carryOut_lockFresh (s : State) (l : Loc) (off : Nat) (raw : Word) (hs : s.lockFresh) : (s.carryOut l off raw).lockFresh := by
  by_cases hl : l = .cfg 0x10
  · subst hl
    refine State.lockFresh_of_written ?_
    unfold State.carryOut
    dsimp only
    rw [if_neg (by simp)]
    exact (State.lock_of_kept (State.wrote_kept ..)).2
  · exact State.lockFresh_of_lock (State.carryOut_lock s l off raw hl) hs

theorem State.writeLoc_lockFresh (s : State) (l : Loc) (off : Nat) (raw : Word) (hs : s.lockFresh) : (s.writeLoc l off raw).lockFresh := by
  unfold State.writeLoc
  split
  · exact State.carryOut_lockFresh s l off raw hs
  · exact State.lockFresh_of_kept (State.absentWrite_kept ..) hs
  · exact State.lockFresh_of_kept (State.lockedWrite_kept ..) hs
  · exact State.lockFresh_of_kept (State.violWrite_kept ..) hs
  · exact State.lockFresh_of_kept (State.fault_kept ..) hs

theorem State.fullWrite_lockFresh (s : State) (off : Nat) (raw : Word) (hs : s.lockFresh) : (s.fullWrite off raw).lockFresh := by
  unfold State.fullWrite
  (repeat' split)
  · exact State.lockFresh_of_kept (State.msixWrite_kept ..) hs
  · exact State.lockFresh_of_kept (State.absentWrite_kept ..) hs
  · exact hs
  · exact State.writeLoc_lockFresh s _ off raw hs
  · exact State.writeLoc_lockFresh s _ off raw hs

theorem State.narrowWrite_lockFresh (s : State) (off : Nat) (be : BitVec 4) (raw : Word) (hs : s.lockFresh) :
    (s.narrowWrite off be raw).lockFresh := by
  unfold State.narrowWrite
  (repeat' split)
  · exact State.fullWrite_lockFresh s off raw hs
  · exact hs
  · exact hs
  · exact State.lockFresh_of_kept (State.absentWrite_kept ..) hs
  · exact State.lockFresh_of_kept (State.absentWrite_kept ..) hs
  · exact State.lockFresh_of_kept ((State.fault_kept ..).trans (State.noteAccess_kept ..)) hs

theorem State.writeRequest_lockFresh (s : State) (addr : Nat) (bytes : List (Option Byte)) (hs : s.lockFresh) :
    (s.writeRequest addr bytes).lockFresh := by
  unfold State.writeRequest
  exact List.foldlRecOn _ _ (motive := State.lockFresh) hs fun t ht w _ => State.narrowWrite_lockFresh t w _ _ ht

/-! ### The invariant -/

theorem State.inv_iff (s : State) : s.Inv ↔ Memory.wf s.cam = true ∧ s.camAddrOk ∧ s.lockFresh := Iff.rfl

theorem State.inv_of_outer {s t : State} (h : t.outer = s.outer) (hs : s.Inv) : t.Inv := by
  obtain ⟨hwf, haddr, hlock⟩ := s.inv_iff.mp hs
  have hcam : t.cam = s.cam ∧ t.camAddr = s.camAddr ∧ t.cfg.lock = s.cfg.lock ∧ t.cfg.lockWritten = s.cfg.lockWritten := by
    simp only [State.outer, Prod.mk.injEq] at h
    exact h.2
  exact t.inv_iff.mpr ⟨hcam.1 ▸ hwf, State.camAddrOk_of_outer h haddr, State.lockFresh_of_lock hcam.2.2 hlock⟩

theorem State.inv_of_kept {s t : State} (h : t.kept = s.kept) (hs : s.Inv) : t.Inv := State.inv_of_outer (State.outer_of_kept h) hs

/-- What the invariant says of the cam pool, its address and CFG_LOCK holds where the pool is empty and CFG_LOCK has its reset value. -/
theorem State.inv_of_reset {s : State} (hcam : s.cam = []) (haddr : s.camAddr = 0) (hlock : s.cfg.lock = 0) : s.Inv := by
  refine s.inv_iff.mpr ⟨by rw [hcam]; rfl, ?_, fun _ => hlock⟩
  unfold State.camAddrOk
  rw [haddr]
  cases s.variant <;> decide

theorem State.Effect.inv {c : Instr} {s t : State} (h : s.Effect c t) (hs : s.Inv) : t.Inv := by
  obtain ⟨hwf, haddr, hlock⟩ := s.inv_iff.mp hs
  cases h with
  | kept h => exact State.inv_of_kept h hs
  | read _ off =>
    obtain ⟨-, hcam, hl, hw, -, hok⟩ := State.fullRead_rest s off
    exact (State.inv_iff _).mpr ⟨hcam ▸ hwf, hok haddr, State.lockFresh_of_lock ⟨hl, hw⟩ hlock⟩
  | reads _ addr en =>
    obtain ⟨-, hcam, hl, hw, -, hok⟩ := State.readRequest_rest s addr en
    exact (State.inv_iff _).mpr ⟨hcam ▸ hwf, hok haddr, State.lockFresh_of_lock ⟨hl, hw⟩ hlock⟩
  | write off v =>
    exact (State.inv_iff _).mpr ⟨State.fullWrite_cam_wf s off v hwf, State.fullWrite_camAddr s off v haddr, State.fullWrite_lockFresh s off v hlock⟩
  | writes addr bs =>
    exact (State.inv_iff _).mpr
      ⟨State.writeRequest_cam_wf s addr bs hwf, State.writeRequest_camAddr s addr bs haddr, State.writeRequest_lockFresh s addr bs hlock⟩
  | unsealed => exact State.inv_of_outer (State.sealedOpen_outer s) hs
  | enLow => exact State.inv_of_kept (State.enFalls_kept s) hs
  | enHigh => exact hs
  | tap i => exact State.inv_of_kept (State.tapLoad_kept s i) hs
  | reset => exact State.inv_of_kept (State.enterReset_kept s) hs
  | released en good =>
    have h := State.release0_kept s en good
    simp only [State.kept, Prod.mk.injEq] at h
    obtain ⟨-, -, hcam, hat, -, -, -, -, hl, -⟩ := h
    exact State.inv_of_reset hcam hat hl
  | powerLost => exact State.inv_of_reset rfl rfl rfl

/-- A step is one DT count or a command. -/
theorem step_cases {s t : State} (h : step s = .next t) :
    t = idle s ∨ ∃ c rest, s.pending = c :: rest ∧ exec c { s with pending := rest } = .next t := by
  unfold step at h
  split at h
  next => exact .inl (Host.Outcome.next.inj h).symm
  next c rest hp => exact .inr ⟨c, rest, hp, h⟩

/-- Settles O1: the case of a queue that is not empty. -/
theorem stepRunsTheFrontCommand : Obligations.StepRunsTheFrontCommand := by
  unfold Obligations.StepRunsTheFrontCommand
  exact fun c rest s => rfl

/-- Settles O5: the invariant through each effect that a command can have. -/
theorem everyStepKeepsTheInvariant : Obligations.EveryStepKeepsTheInvariant := by
  unfold Obligations.EveryStepKeepsTheInvariant
  intro s t hs h
  obtain rfl | ⟨c, rest, -, hc⟩ := step_cases h
  · exact State.inv_of_kept (idle_kept s) hs
  · exact (exec_effect hc).inv hs

/-- Settles O6: the law of Laws/Sound.lean, that each command keeps the interlock and the length of the history. -/
theorem everyStepKeepsTheInterlock : Obligations.EveryStepKeepsTheInterlock := by
  unfold Obligations.EveryStepKeepsTheInterlock
  exact fun s t hs h => step_sound hs h

/-! ### What CFG_LOCK, the queue, the pins and the tables go through -/

/-- CFG_LOCK once written keeps its value through every effect but the resets. -/
theorem State.Effect.lock {c : Instr} {s t : State} (h : s.Effect c t) (hw : s.cfg.lockWritten = true) (hc : c.beginsAnew = false) :
    t.cfg.lock = s.cfg.lock ∧ t.cfg.lockWritten = s.cfg.lockWritten := by
  cases h with
  | kept h => exact State.lock_of_kept h
  | read _ off =>
    obtain ⟨-, -, hl, hlw, -⟩ := State.fullRead_rest s off
    exact ⟨hl, hlw⟩
  | reads _ addr en =>
    obtain ⟨-, -, hl, hlw, -⟩ := State.readRequest_rest s addr en
    exact ⟨hl, hlw⟩
  | write off v => exact State.fullWrite_lock s off v hw
  | writes addr bs => exact State.writeRequest_lock s addr bs hw
  | unsealed =>
    have h := State.sealedOpen_outer s
    simp only [State.outer, Prod.mk.injEq] at h
    exact h.2.2.2
  | enLow => exact State.lock_of_kept (s := { s with glb := { s.glb with enIn := false } }) (State.enFalls_kept s)
  | enHigh => exact ⟨rfl, rfl⟩
  | tap i => exact State.lock_of_kept (s := { s with tap := (s.tapLoad i).tap }) (State.tapLoad_kept s i)
  | reset =>
    exact State.lock_of_kept (s := { s with inReset := true, tap := { s.tap with instr := .bypass } }) (State.enterReset_kept s)
  | released | powerLost => simp [Instr.beginsAnew] at hc

/-- Settles O7: a written CFG_LOCK through each effect that a command can have. -/
theorem configLockHoldsUntilReset : Obligations.ConfigLockHoldsUntilReset := by
  unfold Obligations.ConfigLockHoldsUntilReset
  intro c s t hw hc h
  obtain ⟨hl, hlw⟩ := (exec_effect h).lock hw hc
  exact ⟨hl, hlw.trans hw⟩

theorem State.base_eq {s t : State} (h : t.base = s.base) :
    t.variant = s.variant ∧ t.pending = s.pending ∧ t.inReset = s.inReset ∧ t.tap = s.tap ∧ t.glb.enIn = s.glb.enIn := by
  simpa only [State.base, Prod.mk.injEq] using h

/-- The queue and the variant stay, and each pin changes by its own commands alone. -/
def pinsKept (c : Instr) (s t : State) : Prop :=
  t.pending = s.pending ∧ t.variant = s.variant ∧
  (c.beginsAnew = false → (c ≠ .enLow → c ≠ .enHigh → t.glb.enIn = s.glb.enIn) ∧
    (c ≠ .internalReset → c ≠ .sealedToConfigure → (∀ i, c ≠ .dbgTapInstruction i) → t.tap = s.tap) ∧
    (c ≠ .internalReset → t.inReset = s.inReset))

theorem pinsKept_of_base (c : Instr) {s t : State} (h : t.base = s.base) : pinsKept c s t := by
  obtain ⟨hv, hp, hr, ht, he⟩ := State.base_eq h
  exact ⟨hp, hv, fun _ => ⟨fun _ _ => he, fun _ _ _ => ht, fun _ => hr⟩⟩

theorem State.Effect.pinsKept {c : Instr} {s t : State} (h : s.Effect c t) : pinsKept c s t := by
  cases h with
  | kept h => exact pinsKept_of_base _ (State.base_of_kept h)
  | read _ off => exact pinsKept_of_base _ (State.fullRead_rest s off).1
  | reads _ addr en => exact pinsKept_of_base _ (State.readRequest_rest s addr en).1
  | write off v => exact pinsKept_of_base _ (State.fullWrite_base s off v)
  | writes addr bs => exact pinsKept_of_base _ (State.writeRequest_base s addr bs)
  | unsealed =>
    obtain ⟨hv, hp, hr, -, he⟩ := State.base_eq (State.base_of_outer (State.sealedOpen_outer s))
    exact ⟨hp, hv, fun _ => ⟨fun _ _ => he, fun _ hn => absurd rfl hn, fun _ => hr⟩⟩
  | enLow =>
    obtain ⟨hv, hp, hr, ht, -⟩ := State.base_eq (State.base_of_kept (State.enFalls_kept s))
    exact ⟨hp, hv, fun _ => ⟨fun hn => absurd rfl hn, fun _ _ _ => ht, fun _ => hr⟩⟩
  | enHigh => exact ⟨rfl, rfl, fun _ => ⟨fun _ hn => absurd rfl hn, fun _ _ _ => rfl, fun _ => rfl⟩⟩
  | tap i =>
    obtain ⟨hv, hp, hr, -, he⟩ := State.base_eq (State.base_of_kept (State.tapLoad_kept s i))
    exact ⟨hp, hv, fun _ => ⟨fun _ _ => he, fun _ _ hn => absurd rfl (hn i), fun _ => hr⟩⟩
  | reset =>
    obtain ⟨hv, hp, -, -, he⟩ := State.base_eq (State.base_of_kept (State.enterReset_kept s))
    exact ⟨hp, hv, fun _ => ⟨fun _ _ => he, fun hn => absurd rfl hn, fun hn => absurd rfl hn⟩⟩
  | released en good =>
    have h := State.release0_kept s en good
    simp only [State.kept, Prod.mk.injEq] at h
    exact ⟨h.2.1, h.1, fun hn => absurd hn (by simp [Instr.beginsAnew])⟩
  | powerLost => exact ⟨rfl, rfl, fun hn => absurd hn (by decide)⟩

/-- A command that is no clocked row and no reset happens at the DT count that has been reached. -/
theorem exec_clock {c : Instr} {s t : State} (hc : c.takesTime = false) (h : exec c s = .next t) : t.clock = s.clock := by
  have hq {u : State} (hu : u.clock = s.clock) (ht : (if s.inReset then s.quiet else u) = t) : t.clock = s.clock := by
    subst ht
    split
    · rfl
    · exact hu
  cases c
  case interpolationPeriod | planningTick | quotaRefill | crcPassStart | coreScrub | sealedToConfigure | resetRelease | logicSupplyFail =>
    simp [Instr.takesTime] at hc
  case crsCamDataAccess v => cases v <;> exact hq (by simp) (Host.Outcome.next.inj h)
  case diagLegPhaseEnd | hostLinkDown =>
    refine hq ?_ (Host.Outcome.next.inj h)
    dsimp only
    split <;> simp
  case hotReset => exact hq (by simp [State.linkDown_clock]) (Host.Outcome.next.inj h)
  all_goals exact hq (by simp) (Host.Outcome.next.inj h)

/-- Settles O8: the pins through each effect that a command can have, and the clock of the commands that take no time. -/
theorem commandsKeepWhatIsNotTheirs : Obligations.CommandsKeepWhatIsNotTheirs := by
  unfold Obligations.CommandsKeepWhatIsNotTheirs
  intro c s t h
  obtain ⟨hp, hv, hpins⟩ := (exec_effect h).pinsKept
  refine ⟨hp, hv, hpins, fun hc => ?_⟩
  simpa only [State.clock, Prod.mk.injEq] using exec_clock hc h

theorem State.tables_of_kept {s t : State} (h : t.kept = s.kept) : t.cam = s.cam ∧ t.tbl = s.tbl := by
  simp only [State.kept, Prod.mk.injEq] at h
  obtain ⟨-, -, hcam, -, htbl, -⟩ := h
  exact ⟨hcam, htbl⟩

/-- What changes no register leaves the cam pool and, but for the load of the NV image, the microstep tables. -/
theorem State.Effect.tables {c : Instr} {s t : State} (h : s.Effect c t) (hw : c.writesRegister = false) (hc : c.beginsAnew = false) :
    t.cam = s.cam ∧ (c ≠ .sealedToConfigure → t.tbl = s.tbl) := by
  have hk {u : State} (hu : t.cam = u.cam ∧ t.tbl = u.tbl) (hs : u.cam = s.cam ∧ u.tbl = s.tbl) :
      t.cam = s.cam ∧ (c ≠ .sealedToConfigure → t.tbl = s.tbl) := ⟨hu.1.trans hs.1, fun _ => hu.2.trans hs.2⟩
  cases h with
  | kept h => exact hk (State.tables_of_kept h) ⟨rfl, rfl⟩
  | read _ off =>
    obtain ⟨-, hcam, -, -, htbl, -⟩ := State.fullRead_rest s off
    exact ⟨hcam, fun _ => htbl⟩
  | reads _ addr en =>
    obtain ⟨-, hcam, -, -, htbl, -⟩ := State.readRequest_rest s addr en
    exact ⟨hcam, fun _ => htbl⟩
  | write _ _ h | writes _ _ h => simp [h] at hw
  | unsealed =>
    have h := State.sealedOpen_outer s
    simp only [State.outer, Prod.mk.injEq] at h
    exact ⟨h.2.1, fun hn => absurd rfl hn⟩
  | enLow => exact hk (State.tables_of_kept (State.enFalls_kept s)) ⟨rfl, rfl⟩
  | enHigh => exact hk (u := s) ⟨rfl, rfl⟩ ⟨rfl, rfl⟩
  | tap i => exact hk (State.tables_of_kept (State.tapLoad_kept s i)) ⟨rfl, rfl⟩
  | reset => exact hk (State.tables_of_kept (State.enterReset_kept s)) ⟨rfl, rfl⟩
  | released | powerLost => simp [Instr.beginsAnew] at hc

/-- Settles O9: the pool and the tables through each effect that a command can have. -/
theorem tablesChangeByWritesAlone : Obligations.TablesChangeByWritesAlone := by
  unfold Obligations.TablesChangeByWritesAlone
  intro c s t hw hc h
  obtain ⟨hcam, htbl⟩ := (exec_effect h).tables hw hc
  exact ⟨fun a => by rw [hcam]; rfl, fun hn w => by rw [htbl hn]; rfl⟩

/-! ### What is true of every state -/

/-- Settles O3: each arm of the dispatch answers a next state. -/
theorem everyCommandAnswersANextState : Obligations.EveryCommandAnswersANextState := by
  unfold Obligations.EveryCommandAnswersANextState
  intro c s
  cases c <;> exact ⟨_, rfl⟩

/-- Settles O4: both invariants at reset, where the pool and the history are empty and no leg is on. -/
theorem resetMeetsTheInvariant : Obligations.ResetMeetsTheInvariant := by
  unfold Obligations.ResetMeetsTheInvariant
  exact ⟨State.inv_of_reset rfl rfl rfl, State.reset_sound, fun v => State.inv_of_reset rfl rfl rfl⟩

/-- Settles O2: the two cases of the step of an empty queue. -/
theorem idleStepIsOneDtCount : Obligations.IdleStepIsOneDtCount := by
  unfold Obligations.IdleStepIsOneDtCount
  intro s hp
  have hstep : step s = .next (idle s) := by unfold step; rw [hp]
  refine ⟨fun hr => ?_, fun hr => ⟨s.pass 1, ?_, rfl, rfl, rfl, rfl, rfl⟩⟩ <;> rw [hstep]
  · unfold idle
    rw [if_pos hr]
  · unfold idle
    rw [if_neg (by simp [hr])]

end Sys2Proof.Machine
end

section
/-! SUPPORT. Reset and boot: what the release of nRESET, internal reset, the loss of the supply, the boot checks and the opening of the seal do. -/

namespace Sys2Proof.Machine

/-! ### Recording a fault -/

/-- FAULT frames change what is sent out alone. -/
theorem State.sendFault_frame (s : State) (c : FClass) : ∃ o, s.sendFault c = { s with out := o } := by
  unfold State.sendFault
  split
  · refine List.foldlRecOn _ _ (motive := fun (t : State) => ∃ o, t = { s with out := o }) ⟨s.out, rfl⟩ fun t ⟨o, ht⟩ p _ => ?_
    subst ht
    split
    · exact ⟨_, rfl⟩
    · exact ⟨o, rfl⟩
  · exact ⟨s.out, rfl⟩

/-- What announces a record changes: the pulse of nFAULT, the request of vector 15 and the frames sent. -/
theorem State.announce_frame (s : State) (c : FClass) :
    ∃ o, s.announce c = { s with flt := s.flt.startPulse s.dt c, host := s.host.hint c, out := o } := by
  unfold State.announce
  exact State.sendFault_frame _ c

/-- The first record of an empty history. -/
theorem State.record_empty {s : State} (h : s.flt.hist = []) (src : Nat) (c : FClass) (d : Word) :
    ∃ f x o, (s.record src c d false).1 = { s with flt := f, host := x, out := o } ∧ f.hist = [s.newEntry src c d false] := by
  have hdt : decide ((s.newEntry src c d false).dt = s.dt) = true := decide_eq_true rfl
  unfold State.record
  simp only [Bool.false_eq_true, if_false, State.twinEvent, h, List.find?_nil, List.takeWhile_nil, List.length_nil, Nat.zero_lt_succ, if_true,
    insertCycle, List.takeWhile_cons, hdt, List.length_cons, renumber]
  rw [(State.announce_frame _ c).choose_spec]
  exact ⟨_, _, _, rfl, Flt.startPulse_hist ..⟩

/-- A fault of class LOG or DEGRADE has no reaction, and where no axis is listed none settles. -/
theorem State.fault_of_degrade {s : State} {src : Nat} {c : FClass} (d : Word) (u : FUnit) (hc : s.classOf src = c)
    (hd : c = .log ∨ c = .degrade) (ha : (s.record src c d false).1.axes = []) : s.fault src d u = (s.record src c d false).1 := by
  unfold State.fault State.raise State.raiseAs State.settle State.listedAxes
  rw [hc]
  obtain rfl | rfl := hd <;> simp [State.react, ha]

theorem srcInfo_oscSwitch (v : Variant) : (srcInfo v srcOscSwitch).map SrcInfo.dflt = some .degrade := by cases v <;> decide

/-! ### The release of nRESET (R537) -/

/-- The state after the release of nRESET with a good primary oscillator. -/
def State.freed (s : State) (en : Bool) : State :=
  s.latched { State.reset with variant := s.variant, cfg := s.cfg.stored, fresh := s.fresh, pending := s.pending
                               glb := { State.reset.glb with enIn := en } }

/-- A fault of class LOG or DEGRADE where no record is held and no axis is listed leaves one record. -/
theorem State.fault_empty {s : State} {src : Nat} {c : FClass} (d : Word) (u : FUnit) (hc : s.classOf src = c) (hd : c = .log ∨ c = .degrade)
    (ha : s.axes = []) (hh : s.flt.hist = []) :
    ∃ f x o, s.fault src d u = { s with flt := f, host := x, out := o } ∧ f.hist = [s.newEntry src c d false] := by
  obtain ⟨f, x, o, hr, hf⟩ := State.record_empty hh src c d
  exact ⟨f, x, o, (State.fault_of_degrade d u hc hd (by rw [hr]; exact ha)).trans hr, hf⟩

/-- The class of a source that FLT_SEV has not changed. -/
theorem State.classOf_default {s : State} {src : Nat} {c : FClass} (hs : s.flt.sev = []) (hi : (srcInfo s.variant src).map SrcInfo.dflt = some c) :
    s.classOf src = c := by
  obtain ⟨r, hr, hc⟩ := Option.map_eq_some_iff.mp hi
  unfold State.classOf
  rw [hr, hs]
  exact hc

/-- The state that goes over to the backup oscillator, before the fault is recorded. -/
def State.onBackup (s : State) : State :=
  ({ s with glb := { s.glb with bkpActive := true, bkpOk := true, priOk := false, clkDev := Config.backupDeviation s.fresh }
            ref := s.ref.tcOff }).spend.spareIn

/-- The release with a failed primary oscillator goes over to the backup and records it. -/
theorem State.release0_backup (s : State) (en : Bool) : ∃ f x o, s.release0 en false = { (s.freed en).onBackup with flt := f, host := x, out := o } ∧
    f.hist.map (fun e => (e.src, e.ack)) = [(srcOscSwitch, false)] := by
  have hc : (s.freed en).onBackup.classOf srcOscSwitch = .degrade := State.classOf_default rfl (srcInfo_oscSwitch s.variant)
  obtain ⟨f, x, o, hf, hh⟩ := State.fault_empty (wd (Config.backupDeviation s.fresh).toNat) .none hc (.inr rfl) rfl rfl
  exact ⟨f, x, o, hf, by rw [hh]; rfl⟩

/-- Settles O10: the state freed by the release, which records the change to the backup where the primary has not qualified. -/
theorem resetReleaseBeginsAnew : Obligations.ResetReleaseBeginsAnew := by
  unfold Obligations.ResetReleaseBeginsAnew
  refine fun en primaryGood s => ⟨fun hr => ⟨s.release0 en primaryGood, ?_, ?_⟩, fun hr => ?_⟩
  · rw [exec_resetRelease, if_pos hr]
  · cases primaryGood with
    | true => exact ⟨rfl, rfl, rfl, rfl, rfl, rfl, rfl, rfl, rfl, rfl, rfl, rfl, rfl, rfl, rfl, rfl, rfl, rfl, rfl, rfl, rfl⟩
    | false =>
      obtain ⟨f, x, o, ht, hh⟩ := s.release0_backup en
      rw [ht]
      exact ⟨rfl, rfl, rfl, rfl, rfl, rfl, rfl, rfl, rfl, rfl, rfl, rfl, rfl, rfl, hh, rfl, rfl, rfl, rfl, rfl, rfl⟩
  · rw [exec_resetRelease, if_neg (by simp [hr])]
    rfl

/-! ### Legs at Hi-Z (R276) -/

/-- A leg at Hi-Z: both switches commanded off, and neither conducts. -/
def Leg.AtHiz (x : Leg) : Prop := x.hiz = true ∧ x.hi.cmd = false ∧ x.hi.on = false ∧ x.lo.cmd = false ∧ x.lo.on = false

theorem Leg.toHiz_atHiz (x : Leg) : x.toHiz.AtHiz := ⟨rfl, rfl, rfl, rfl, rfl⟩

theorem Leg.reset_atHiz : Leg.reset.AtHiz := ⟨rfl, rfl, rfl, rfl, rfl⟩

/-- An update of one leg that leaves it at Hi-Z keeps every leg at Hi-Z that was. -/
theorem State.updLeg_atHiz {s : State} {t l : Nat} {f : Leg → Leg} (hf : (s.leg t l).AtHiz → (f (s.leg t l)).AtHiz) {u j : Nat}
    (h : (s.leg u j).AtHiz) : ((s.updLeg t l f).leg u j).AtHiz := by
  rw [State.leg_updLeg]
  split
  next hp =>
    obtain ⟨rfl, rfl⟩ := hp
    exact hf h
  next => exact h

/-- A leg that the state does not list is at reset. -/
theorem State.leg_of_unlisted {s : State} {t l : Nat} (h : (t, l) ∉ s.listedLegs) : s.leg t l = Leg.reset := by
  have mem {β : Type} {k : Nat} {b : Bank β} {x : β} (hx : b.lookup k = some x) : (k, x) ∈ b := by
    obtain ⟨before, after, rfl, -⟩ := List.lookup_eq_some_iff.mp hx
    simp
  unfold State.leg State.tile Bank.get
  cases ht : s.tiles.lookup t with
  | none => rfl
  | some x =>
    cases hl : x.legs.lookup l with
    | none => simp [hl]
    | some y =>
      refine absurd ?_ h
      refine List.mem_flatMap.mpr ⟨(t, x), mem ht, List.mem_map.mpr ⟨(l, y), mem hl, rfl⟩⟩

/-- Where each step over the listed legs takes its leg to Hi-Z and keeps the others there, all are at Hi-Z at the end. -/
theorem State.foldl_listedLegs_atHiz {s : State} {f : State → Nat × Nat → State} (hself : ∀ u p, ((f u p).leg p.1 p.2).AtHiz)
    (hother : ∀ (u : State) p t l, (u.leg t l).AtHiz → ((f u p).leg t l).AtHiz) (t l : Nat) : ((s.listedLegs.foldl f s).leg t l).AtHiz := by
  have hkeep (ps : List (Nat × Nat)) (u : State) (h : (u.leg t l).AtHiz) : ((ps.foldl f u).leg t l).AtHiz :=
    List.foldlRecOn ps f (motive := fun (v : State) => (v.leg t l).AtHiz) h fun v hv p _ => hother v p t l hv
  by_cases hm : (t, l) ∈ s.listedLegs
  · obtain ⟨before, after, hs⟩ := List.append_of_mem hm
    rw [hs, List.foldl_append, List.foldl_cons]
    exact hkeep after _ (hself _ (t, l))
  · exact hkeep _ s (State.leg_of_unlisted hm ▸ Leg.reset_atHiz)

theorem State.endSol_atHiz {s : State} (t l : Nat) {u j : Nat} (h : (s.leg u j).AtHiz) : ((s.endSol t l).leg u j).AtHiz := by
  unfold State.endSol
  split
  · exact h
  · dsimp only
    refine State.updLeg_atHiz (fun h => h) ?_
    split <;> exact h

theorem State.legHiz_atHiz {s : State} (t l : Nat) {u j : Nat} (h : (s.leg u j).AtHiz) : ((s.legHiz t l).leg u j).AtHiz :=
  State.endSol_atHiz t l (State.updLeg_atHiz (fun _ => Leg.toHiz_atHiz _) h)

theorem State.legHiz_atHiz_self (s : State) (t l : Nat) : ((s.legHiz t l).leg t l).AtHiz :=
  State.endSol_atHiz t l (by rw [State.leg_updLeg_self]; exact Leg.toHiz_atHiz _)

theorem State.axisHiz_atHiz {s : State} (a : Nat) (c : StopCause) {u j : Nat} (h : (s.leg u j).AtHiz) : ((s.axisHiz a c).leg u j).AtHiz := by
  unfold State.axisHiz
  dsimp only
  have hl := List.foldlRecOn (axisLegs a) (fun (t : State) l => t.updLeg (axisTile a) l Leg.toHiz) (motive := fun (v : State) => (v.leg u j).AtHiz) h
    fun v hv l _ => State.updLeg_atHiz (fun _ => Leg.toHiz_atHiz _) hv
  split <;> exact hl

/-- The reaction that takes everything to Hi-Z takes every leg there. -/
theorem State.allHiz_atHiz (s : State) (c : StopCause) (t l : Nat) : ((s.allHiz c).leg t l).AtHiz := by
  unfold State.allHiz
  dsimp only
  refine List.foldlRecOn _ _ (motive := fun (v : State) => (v.leg t l).AtHiz) ?_ fun v hv n _ => ?_
  · refine List.foldlRecOn _ _ (motive := fun (v : State) => (v.leg t l).AtHiz) ?_ fun v hv a _ => State.axisHiz_atHiz a c hv
    exact State.foldl_listedLegs_atHiz (fun u p => State.legHiz_atHiz_self u p.1 p.2) (fun u p t l h => State.legHiz_atHiz p.1 p.2 h) t l
  · split
    · exact hv
    · exact hv

/-! ### Internal reset and the loss of the supply (R535, R537) -/

/-- An NV write in progress is given up: its slot loses its image, the other stays. -/
theorem CfgB.abandon_slots {c : CfgB} {w : NvWrite} (h : c.nvWrite = some w) :
    (w.slotB = false → c.abandon.nvA.image = [] ∧ c.abandon.nvB = c.nvB) ∧ (w.slotB = true → c.abandon.nvB.image = [] ∧ c.abandon.nvA = c.nvA) := by
  unfold CfgB.abandon CfgB.setSlot
  rw [h]
  constructor <;> intro hb <;> simp [hb]

theorem CfgB.abandon_nvWrite (c : CfgB) : c.abandon.nvWrite = none := by
  unfold CfgB.abandon
  split
  · assumption
  · rfl

/-- Internal reset takes every leg to Hi-Z. -/
theorem State.enterReset_atHiz (s : State) (t l : Nat) : (s.enterReset.leg t l).AtHiz := by
  unfold State.enterReset
  refine List.foldlRecOn _ (fun (u : State) a => u.updAxis a Axis.undrive) (motive := fun (v : State) => (v.leg t l).AtHiz) ?_ fun v hv a _ => hv
  exact State.foldl_listedLegs_atHiz (fun u p => by rw [State.leg_updLeg_self]; exact Leg.toHiz_atHiz _)
    (fun u p t l h => State.updLeg_atHiz (fun _ => Leg.toHiz_atHiz _) h) t l

/-- Internal reset leaves but the legs, the axes, the debug port, the NV write and the hold itself as they are. -/
theorem State.enterReset_frame (s : State) : ∃ axes tiles, s.enterReset =
    { s with axes := axes, tiles := tiles, inReset := true, cfg := s.cfg.abandon, tap := { s.tap with instr := .bypass } } := by
  have hl := List.foldlRecOn s.listedLegs (fun (u : State) p => u.updLeg p.1 p.2 Leg.toHiz)
    (motive := fun (v : State) => ∃ tiles, v = { s with tiles := tiles }) ⟨s.tiles, rfl⟩ fun v ⟨x, hv⟩ p _ => by subst hv; exact ⟨_, rfl⟩
  obtain ⟨tiles, hl⟩ := hl
  have ha := List.foldlRecOn (s.listedLegs.foldl (fun (u : State) p => u.updLeg p.1 p.2 Leg.toHiz) s).listedAxes
    (fun (u : State) a => u.updAxis a Axis.undrive) (motive := fun (v : State) => ∃ axes, v = { s with tiles := tiles, axes := axes })
    ⟨s.axes, hl⟩ fun v ⟨x, hv⟩ a _ => by subst hv; exact ⟨_, rfl⟩
  obtain ⟨axes, ha⟩ := ha
  refine ⟨axes, tiles, ?_⟩
  unfold State.enterReset
  dsimp only
  rw [ha]

theorem State.nfault_of_inReset {s : State} (h : s.inReset = true) : s.nfault = true := by
  unfold State.nfault
  rw [h]
  rfl

/-- In internal reset every command but the two resets changes nothing. -/
theorem exec_of_inReset {c : Instr} {s : State} (hr : s.inReset = true) (hc : c.beginsAnew = false) : exec c s = .next s.quiet := by
  cases c
  case resetRelease | logicSupplyFail => simp [Instr.beginsAnew] at hc
  all_goals exact congrArg _ (if_pos hr)

/-- Settles O11: the frame of internal reset and its legs, the state that a loss of the supply leaves, and the commands of a device in reset. -/
theorem internalResetAndSupplyLoss : Obligations.InternalResetAndSupplyLoss := by
  unfold Obligations.InternalResetAndSupplyLoss
  refine ⟨fun s hr => ?_, fun s => ⟨_, exec_logicSupplyFail s, ?_, fun w hw => ?_, fun w hw => ?_⟩, fun c s hr hc => ?_⟩
  · refine ⟨s.quiet.enterReset, by rw [exec_internalReset, State.command_quiet _ hr], ?_⟩
    obtain ⟨axes, tiles, he⟩ := State.enterReset_frame s.quiet
    have hlegs := State.enterReset_atHiz s.quiet
    rw [he] at hlegs ⊢
    exact ⟨rfl, State.nfault_of_inReset rfl, rfl, rfl, rfl, CfgB.abandon_nvWrite s.cfg, rfl, hlegs⟩
  · rfl
  · exact (CfgB.abandon_slots hw).1
  · exact (CfgB.abandon_slots hw).2
  · exact exec_of_inReset hr hc

/-! ### The boot checks (R542, R543) -/

/-- The end of the boot checks: they pass where two cores vote, a voter copy is in service and planning is not lost. -/
def State.bootPass (s : State) : Bool := decide (2 ≤ s.voting.length) && (s.spr.aIn || s.spr.bIn) && !s.spr.lost

def State.bootDecided (s : State) : State :=
  { (s.updSpr fun p => { p with lost := p.lost || !s.bootPass }) with bootDone := true, bootPassed := s.bootPass }

theorem State.bootDecided_passed (s : State) :
    s.bootDecided.bootPassed = (decide (2 ≤ s.bootDecided.voting.length) && (s.bootDecided.spr.aIn || s.bootDecided.spr.bIn) && !s.bootDecided.spr.lost) ∧
      (s.bootDecided.bootPassed = false → s.bootDecided.spr.lost = true) := by
  have hv : s.bootDecided.voting = s.voting := rfl
  have hl : s.bootDecided.spr.lost = (s.spr.lost || !s.bootPass) := rfl
  have hp : s.bootDecided.bootPassed = s.bootPass := rfl
  have hab : (s.bootDecided.spr.aIn || s.bootDecided.spr.bIn) = (s.spr.aIn || s.spr.bIn) := rfl
  rw [hv, hl, hp, hab]
  refine ⟨?_, fun h => by simp [h]⟩
  cases h : s.bootPass with
  | true => simpa [State.bootPass] using h.symm
  | false => simp

theorem State.boot_good {s : State} {o : BootObs} (hb : s.bootDone = false) (ho : o.romGood = true) : ∃ u : State, s.boot o = u.bootDecided := by
  unfold State.boot
  rw [hb, ho]
  exact ⟨_, rfl⟩

/-- Settles O12: the boot checks that have run, the bad ROM, and the decision that the checks end with. -/
theorem bootChecksDecideOnce : Obligations.BootChecksDecideOnce := by
  unfold Obligations.BootChecksDecideOnce
  intro o s hr
  rw [exec_bootComplete, State.command_quiet _ hr]
  refine ⟨fun hb => ?_, fun hb ho => ?_, fun hb ho => ?_⟩
  · unfold State.boot
    rw [if_pos (by exact hb)]
  · unfold State.boot
    rw [if_neg (by simp [hb]), if_pos (by simp [ho])]
  · obtain ⟨u, hu⟩ := State.boot_good (s := s.quiet) hb ho
    rw [hu]
    exact ⟨_, rfl, rfl, u.bootDecided_passed⟩

/-! ### The opening of the seal (R54, R545) -/

/-- The next DT at which a period begins lies within a period, and is congruent to PHASE. -/
theorem State.untilNext_spec (s : State) {p : Nat} (hp : 0 < p) (last : Option Nat) :
    s.untilNext p last ≤ p ∧ (s.dt + s.untilNext p last) % p = s.ref.phase % p := by
  unfold State.untilNext
  dsimp only
  have hphase := Nat.mod_lt s.ref.phase hp
  have hdt := Nat.mod_lt s.dt hp
  have hd := Nat.mod_lt (p + s.ref.phase % p - s.dt % p) hp
  have hsum : (s.dt + (p + s.ref.phase % p - s.dt % p) % p) % p = s.ref.phase % p := by
    rw [Nat.add_mod_mod, ← Nat.mod_add_mod, show s.dt % p + (p + s.ref.phase % p - s.dt % p) = s.ref.phase % p + p by omega, Nat.add_mod_right,
      Nat.mod_mod]
  split
  next h =>
    rw [h.1] at hsum
    exact ⟨Nat.le_refl p, by rw [Nat.add_mod_right]; exact hsum⟩
  next => exact ⟨Nat.le_of_lt hd, hsum⟩

theorem State.mayConfigure_iff {s : State} : s.mayConfigure = true ↔
    s.glb.mode = .sealed ∧ s.bootDone = true ∧ s.bootPassed = true ∧ ∃ a, s.glb.anchor = some a ∧ 4096 ≤ a := by
  unfold State.mayConfigure
  cases h : s.glb.anchor with
  | none => simp
  | some a =>
    have ha : a / 4096 ≠ 0 ↔ 4096 ≤ a := by omega
    simp [ha, and_assoc]

/-- The seal opened: at the next period boundary, after the load of the NV image. -/
theorem State.sealedOpen_of_may {s : State} (h : s.mayConfigure = true) : ∃ u : State, u.tap = s.tap ∧ u.clock = s.clock ∧
    s.sealedOpen = { u.pass (u.untilNext 2000 u.lastPeriod) with
      glb := u.glb.enter .configure 7, tap := if s.tap.instr = .extest then { s.tap with instr := .bypass } else s.tap } := by
  obtain ⟨-, -, -, ht, -⟩ := State.base_eq (State.base_of_outer (State.nvLoad_outer s))
  refine ⟨s.nvLoad, ht, State.nvLoad_clock s, ?_⟩
  unfold State.sealedOpen
  rw [if_pos h, ← ht]
  rfl

/-! ### The chain of the debug port (R540) -/

/-- A place within the block of a tile: 12 rows of 8 balls from its origin, or 8 of 12 where it is transposed (R528). -/
def Ball.within (b : Ball) (origin : Ball × Bool) : Bool :=
  decide (origin.1.row ≤ b.row) && decide (origin.1.col ≤ b.col) &&
    (if origin.2 then decide (b.row < origin.1.row + 8) && decide (b.col < origin.1.col + 12)
     else decide (b.row < origin.1.row + 12) && decide (b.col < origin.1.col + 8))

theorem pattern_within : ∀ b ∈ allTileBalls, 1 ≤ b.pattern.row ∧ b.pattern.row ≤ 12 ∧ 1 ≤ b.pattern.col ∧ b.pattern.col ≤ 8 := by decide

theorem tileBall_within (v : Variant) (t : Nat) {b : TileBall} (hb : b ∈ allTileBalls) : (tileBall v t b).within (tileOrigin v t) = true := by
  obtain ⟨hr, hr', hc, hc'⟩ := pattern_within b hb
  unfold tileBall Ball.within
  cases h : (tileOrigin v t).2 <;> simp only [h, Bool.false_eq_true, if_false, if_true, Bool.and_eq_true, decide_eq_true_eq] <;> omega

/-- No global ball of a variant lies in the block of one of its tiles. -/
theorem globalBall_outside (v : Variant) : ∀ b ∈ v.chain, ∀ t < v.tiles, (globalBall v b).any (fun x => x.within (tileOrigin v t)) = false := by
  cases v <;> decide

theorem globalBall_ne_tileBall {v : Variant} {b : GlobalBall} (hb : b ∈ v.chain) {t : Nat} (ht : t < v.tiles) {ball : TileBall}
    (hball : ball ∈ allTileBalls) : globalBall v b ≠ some (tileBall v t ball) := by
  intro h
  have hout := globalBall_outside v b hb t ht
  rw [h, Option.any_some, tileBall_within v t hball] at hout
  exact Bool.noConfusion hout

/-- Settles O13: the seal that opens or stays, the instructions of the debug port, and the balls of its chain. -/
theorem sealedOpensAndDebugPortObeys : Obligations.SealedOpensAndDebugPortObeys := by
  unfold Obligations.SealedOpensAndDebugPortObeys
  refine ⟨fun a s hr hm hb hp ha hle => ?_, fun s hr hno => ?_, fun i s hr => ?_, fun b s => rfl, fun v b hb => ⟨?_, fun t ball ht hball =>
    globalBall_ne_tileBall hb ht hball⟩⟩
  · obtain ⟨u, ht, hc, he⟩ := State.sealedOpen_of_may (s := s.quiet) (State.mayConfigure_iff.mpr ⟨hm, hb, hp, a, ha, hle⟩)
    refine ⟨_, by rw [exec_sealedToConfigure, State.command_quiet _ hr, he], rfl, rfl, ?_⟩
    have hdt : u.dt = s.dt := congrArg Prod.fst hc
    obtain ⟨hn, hphase⟩ := u.untilNext_spec (p := 2000) (by decide) u.lastPeriod
    rw [hdt] at hphase
    have hpass : (u.pass (u.untilNext 2000 u.lastPeriod)).dt = s.dt + u.untilNext 2000 u.lastPeriod := by rw [← hdt]; rfl
    dsimp only
    rw [hpass]
    refine ⟨by omega, by omega, hphase, ?_⟩
    change (if s.tap.instr = .extest then _ else _) = _
    split <;> rfl
  · have hmay : s.quiet.mayConfigure = false := by
      rw [Bool.eq_false_iff]
      intro h
      obtain ⟨hm, hb, hp, a, ha, hle⟩ := State.mayConfigure_iff.mp h
      have ha : s.glb.anchor = some a := ha
      obtain hn | hn | hn | hn | ⟨c, hn, hlt⟩ := hno
      · exact hn hm
      · exact absurd hb (by simp [hn])
      · exact absurd hp (by simp [hn])
      · simp [ha] at hn
      · rw [ha] at hn
        cases hn
        omega
    rw [exec_sealedToConfigure, State.command_quiet _ hr]
    unfold State.sealedOpen
    rw [if_neg (by simp [hmay])]
  · rw [exec_dbgTapInstruction, State.command_quiet _ hr]
    refine ⟨_, rfl, fun h => ?_, fun h => ?_, fun h => ?_, fun cells h hi => ?_, fun cells h h1 h2 => ?_, fun slot image h hm hs => ?_, fun slot image h hn => ?_⟩
    · obtain rfl | rfl := h <;> rfl
    · subst h; rfl
    · subst h
      unfold State.tapLoad
      by_cases hm : s.glb.mode = .sealed <;> simp [hm]
    · subst h
      unfold State.tapLoad
      dsimp only
      rw [if_pos (by exact hi)]
      rfl
    · subst h
      unfold State.tapLoad
      dsimp only
      rw [if_neg (by exact not_or_intro h1 h2)]
    · subst h
      unfold State.tapLoad
      dsimp only
      rw [if_pos (by simp [hm, hs])]
      exact ⟨rfl, rfl, fun j => Bank.get_set .., rfl⟩
    · subst h
      unfold State.tapLoad
      dsimp only
      have hno : ¬ (decide (s.glb.mode = .sealed) && decide (slot < 4)) = true := by
        simpa using fun hm => hn.resolve_left fun h => h hm
      exact if_neg hno
  · exact (List.mem_filter.mp hb).2

end Sys2Proof.Machine
end

section
/-! SUPPORT. Register accesses: the offsets of the blocks, full writes outside the configuration set, full reads, and the registers of
GLB, CRS_CAM and CFG that act at once. -/

namespace Sys2Proof.Machine

/-! ### What the outputs of the step before are for: nothing that a register holds or judges -/

@[simp] theorem State.stored_quiet (s : State) (l : Loc) : s.quiet.stored l = s.stored l := rfl
@[simp] theorem State.merged_quiet (s : State) (l : Loc) (v : Word) : s.quiet.merged l v = s.merged l v := rfl
@[simp] theorem State.lockHolds_quiet (s : State) (l : Loc) (a b : Word) : s.quiet.lockHolds l a b = s.lockHolds l a b := rfl
@[simp] theorem State.lockViolated_quiet (s : State) (l : Loc) (r a b : Word) : s.quiet.lockViolated l r a b = s.lockViolated l r a b := rfl
@[simp] theorem State.sealedOk_quiet (s : State) (l : Loc) : s.quiet.sealedOk l = s.sealedOk l := rfl
@[simp] theorem State.judge6_quiet (s : State) (l : Loc) (r a b : Word) : s.quiet.judge6 l r a b = s.judge6 l r a b := rfl
@[simp] theorem State.held_quiet (s : State) (off : Nat) : s.quiet.held off = s.held off := rfl

/-! ### The offsets of the blocks (R458) -/

theorem locOf_glb (v : Variant) : ∀ o ∈ glbOffs, locOf v o = some (.glb o) := by cases v <;> decide
theorem locOf_ref (v : Variant) : ∀ o ∈ refOffs, locOf v (0x1000 + o) = some (.ref o) := by cases v <;> decide
theorem locOf_host (v : Variant) : ∀ o ∈ hostOffs, locOf v (0x2000 + o) = some (.host o) := by cases v <;> decide
theorem locOf_flt (v : Variant) : ∀ o ∈ fltOffs, locOf v (0x3000 + o) = some (.flt o) := by cases v <;> decide
theorem locOf_thm (v : Variant) : ∀ o ∈ thmOffs, locOf v (0x4000 + o) = some (.thm o) := by cases v <;> decide
theorem locOf_spr (v : Variant) : ∀ o ∈ sprOffs, locOf v (0x5000 + o) = some (.spr o) := by cases v <;> decide
theorem locOf_cfg (v : Variant) : ∀ o ∈ cfgOffs, locOf v (0x30000 + o) = some (.cfg o) := by cases v <;> decide

/-- The offsets of the units' registers lie below the MSI-X structures. -/
theorem instOff_low {base stride count n o : Nat} (h : base + stride * count + o < 0x3E000) : instOff base stride count n o < 0x3E000 := by
  unfold instOff
  split
  case isTrue hn =>
    have := Nat.mul_le_mul_left stride (Nat.le_of_lt hn)
    omega
  case isFalse => decide

theorem unitReg_low (k : UnitKind) (n : Nat) {o : Nat} (h : o < 256) : unitReg k n o < 0x3E000 := by
  cases k
  · exact instOff_low (by omega)
  · exact instOff_low (by omega)

theorem tileReg_low (t : Nat) {o : Nat} (h : o < 4096) : tileReg t o < 0x3E000 := instOff_low (by omega)

theorem legReg_low (t l : Nat) {o : Nat} (h : o < 64) : legReg t l o < 0x3E000 := by
  unfold legReg
  split
  · exact tileReg_low t (by omega)
  · decide

theorem ringReg_low (r : Nat) {o : Nat} (h : o < 32) : ringReg r o < 0x3E000 := instOff_low (by omega)

/-! ### Full writes of registers outside the configuration set (R441) -/

/-- A register outside the configuration set whose write none of the special rules of R440 and R522 concerns. -/
def Loc.plain : Loc → Bool
  | .cfg _ => false
  | .cam 4 => false
  | .flt 0x00 => false
  | .flt 0x0C => false
  | .flt 0x14 => false
  | .spr 0x00 => false
  | l => decide (l.setMask = 0)

theorem Loc.plain_iff {l : Loc} (h : l.plain = true) :
    l.setMask = 0 ∧ (∀ o, l ≠ .cfg o) ∧ l ≠ .cam 4 ∧ l ≠ .flt 0x00 ∧ l ≠ .flt 0x0C ∧ l ≠ .flt 0x14 ∧ l ≠ .spr 0x00 := by
  unfold Loc.plain at h
  split at h <;> simp_all

/-- The verdict on a write of such a register outside Sealed. -/
theorem State.judge_plain {s : State} {l : Loc} {raw : Word} (hp : l.plain = true) (hm : s.glb.mode ≠ .sealed ∨ s.sealedOk l = true) :
    s.judgeWrite l raw =
      if s.lockHolds l (s.stored l) (s.merged l raw) then .locked else s.judge6 l raw (s.stored l) (s.merged l raw) := by
  obtain ⟨hs, hcfg, -, h0, -, h14, hspr⟩ := Loc.plain_iff hp
  exact State.judge_outside hm hs hcfg hspr h14 h0

/-- A full write of such a register that passes every step. -/
theorem State.fullWrite_plain {s : State} {off : Nat} {l : Loc} {raw : Word} (hoff : off < 0x3E000) (hl : locOf s.variant off = some l)
    (hw : l.wmBits = 0 ∨ fld raw 16 l.wmBits ≠ 0) (hp : l.plain = true) (hj : s.judgeWrite l raw = .ok) :
    s.fullWrite off raw = (s.putLoc l (s.merged l raw)).wrote l off raw (s.stored l) (s.merged l raw) := by
  obtain ⟨hs, -, hcam, -, hinj, -, -⟩ := Loc.plain_iff hp
  rw [State.fullWrite_ok (msixOff_low hoff) hl hw hcam hj, State.carryOut_outside hs hinj]

/-- The same register outside Sealed, with no lock and no condition of its owner. -/
theorem State.fullWrite_free {s : State} {off : Nat} {l : Loc} {raw : Word} (hoff : off < 0x3E000) (hl : locOf s.variant off = some l)
    (hw : l.wmBits = 0 ∨ fld raw 16 l.wmBits ≠ 0) (hp : l.plain = true) (hm : s.glb.mode ≠ .sealed ∨ s.sealedOk l = true)
    (hlock : s.lockHolds l (s.stored l) (s.merged l raw) = false) (hbad : s.judge6 l raw (s.stored l) (s.merged l raw) = .ok) :
    s.fullWrite off raw = (s.putLoc l (s.merged l raw)).wrote l off raw (s.stored l) (s.merged l raw) := by
  refine State.fullWrite_plain hoff hl hw hp ?_
  rw [State.judge_plain hp hm, hlock]
  exact hbad

/-- A full write that a lock discards. -/
theorem State.fullWrite_locked {s : State} {off : Nat} {l : Loc} {raw : Word} (hoff : off < 0x3E000) (hl : locOf s.variant off = some l)
    (hw : l.wmBits = 0 ∨ fld raw 16 l.wmBits ≠ 0) (hc : l ≠ .cam 4) (hj : s.judgeWrite l raw = .locked) :
    s.fullWrite off raw = s.lockedWrite off := by
  rw [State.fullWrite_at (msixOff_low hoff) hl hw hc, State.writeLoc, hj]

/-! ### GLB_MODE_REQ and the anchor (R57, R371) -/

/-- The anchor and the mode request are accepted in Sealed too. -/
theorem State.sealedOk_of {s : State} {l : Loc} (h : l = .glb 0x24 ∨ l = .glb 0x30 ∨ l = .glb 0x34) : s.sealedOk l = true := by
  simp [State.sealedOk, decide_eq_true h, Machine.sealedOk]

theorem State.write_modeReq (s : State) (v : Word) : s.fullWrite 0x24 v = s.noteMode v := by
  rw [State.fullWrite_free (by decide) (locOf_glb _ 0x24 (by decide)) (.inl rfl) rfl (.inr (State.sealedOk_of (.inl rfl))) rfl rfl]
  rfl

/-- A write of GLB_ANCHOR_LO or GLB_ANCHOR_HI is judged by the mode alone. -/
theorem State.lockHolds_anchor {s : State} {l : Loc} (a b : Word) (hl : l = .glb 0x30 ∨ l = .glb 0x34) :
    s.lockHolds l a b = decide (s.glb.mode ≠ .sealed ∧ s.glb.mode ≠ .configure) := by
  obtain rfl | rfl := hl <;> rfl

theorem State.write_anchor {s : State} {o : Nat} (v : Word) (ho : o = 0x30 ∨ o = 0x34) (hm : s.glb.mode = .sealed ∨ s.glb.mode = .configure) :
    s.fullWrite o v = (s.store (.glb o) (s.merged (.glb o) v)).wrote (.glb o) o v (s.stored (.glb o)) (s.merged (.glb o) v) := by
  have hloc : (Loc.glb o = .glb 0x30 ∨ Loc.glb o = .glb 0x34) := by simpa using ho
  have hlock : s.lockHolds (.glb o) (s.stored (.glb o)) (s.merged (.glb o) v) = false := by
    rw [State.lockHolds_anchor _ _ hloc]
    obtain h | h := hm <;> simp [h]
  rw [State.fullWrite_free (by omega) (locOf_glb _ o (by obtain rfl | rfl := ho <;> decide)) (.inl (by obtain rfl | rfl := ho <;> rfl))
    (by obtain rfl | rfl := ho <;> rfl) (.inr (State.sealedOk_of (.inr hloc))) hlock rfl]
  rfl

theorem State.write_anchorHi {s : State} (v : Word) (hm : s.glb.mode = .sealed ∨ s.glb.mode = .configure) :
    s.fullWrite 0x34 v = ({ s with glb := { s.glb with anchorHi := v } }).anchorHiWritten := by
  have hv : s.merged (.glb 0x34) v = v := by simp [State.merged, Loc.wmBits, Loc.rwMask, wd]
  rw [State.write_anchor v (.inr rfl) hm, hv]
  rfl

theorem State.write_anchorLo {s : State} (v : Word) (hm : s.glb.mode = .sealed ∨ s.glb.mode = .configure) :
    s.fullWrite 0x30 v =
      { s with glb := { s.glb with anchorLo := (s.glb.anchorLo &&& 0xFFF) ||| (v &&& 0xFFFFF000), loWritten := true } } := by
  have hv : s.merged (.glb 0x30) v = (s.glb.anchorLo &&& 0xFFF) ||| (v &&& 0xFFFFF000) := rfl
  rw [State.write_anchor v (.inl rfl) hm, hv]
  rfl

/-- Outside Sealed and Configure the anchor is locked. -/
theorem State.write_anchorHi_locked {s : State} (v : Word) (h1 : s.glb.mode ≠ .sealed) (h2 : s.glb.mode ≠ .configure) :
    s.fullWrite 0x34 v = s.lockedWrite 0x34 := by
  refine State.fullWrite_locked (by decide) (locOf_glb _ 0x34 (by decide)) (.inl rfl) (by decide) ?_
  rw [State.judge_plain rfl (.inl h1), State.lockHolds_anchor _ _ (.inr rfl), decide_eq_true ⟨h1, h2⟩]
  rfl

/-! ### Full reads (R25, R436, R437, R544) -/

/-- A full read of a register before boot has completed. -/
theorem State.fullRead_unbooted {s : State} {off : Nat} (hm : msixOff off = false) (hb : s.bootDone = false) :
    s.fullRead off = { s with rdata := ({ State.reset with variant := s.variant }).held off } := by
  unfold State.fullRead
  rw [hm, if_neg Bool.false_ne_true]
  split
  case h_1 hl => rw [State.held_none (s := { State.reset with variant := s.variant }) hl]
  case h_2 => simp [State.value, hb]

/-- A full read of a register once boot has completed: what it holds is returned, then shadows are latched and ROC fields cleared. -/
theorem State.fullRead_at {s : State} {off : Nat} {l : Loc} (hm : msixOff off = false) (hl : locOf s.variant off = some l)
    (hb : s.bootDone = true) (hc : l ≠ .cam 4) :
    s.fullRead off = (({ s with rdata := s.held off }).latchShadow off l).clearRoc l := by
  unfold State.fullRead
  simp [hm, hl, hb, hc, State.value]

/-- A full read of a register that has no shadow to latch. -/
theorem State.fullRead_noLo {s : State} {off : Nat} {l : Loc} (hm : msixOff off = false) (hl : locOf s.variant off = some l)
    (hb : s.bootDone = true) (hc : l ≠ .cam 4) (hlo : l.isLo = false) (hrc : l ≠ .ref 0x10) :
    s.fullRead off = ({ s with rdata := s.held off }).clearRoc l := by
  rw [State.fullRead_at hm hl hb hc]
  simp [State.latchShadow, hlo, hrc]

/-- Nothing that a read clears is what it has returned. -/
theorem State.clearRoc_rdata (s : State) (l : Loc) : (s.clearRoc l).rdata = s.rdata := by
  unfold State.clearRoc
  split <;> rfl

theorem State.latchShadow_rdata (s : State) (off : Nat) (l : Loc) : (s.latchShadow off l).rdata = s.rdata := by
  unfold State.latchShadow
  repeat' split
  all_goals rfl

/-- A full read returns what the register holds. -/
theorem State.fullRead_rdata {s : State} {off : Nat} (hm : msixOff off = false) (hb : s.bootDone = true) :
    (s.fullRead off).rdata = s.held off := by
  have h (w : Word) (l : Loc) : ((({ s with rdata := w }).latchShadow off l).clearRoc l).rdata = w := by
    rw [State.clearRoc_rdata, State.latchShadow_rdata]
  have hv : s.value off = s.held off := if_pos hb
  unfold State.fullRead
  rw [hm, if_neg Bool.false_ne_true]
  split
  case h_1 hl => exact (State.held_none hl).symm
  case h_2 l _ =>
    dsimp only
    rw [if_pos hb]
    split
    · exact (h _ l).trans hv
    · exact (h _ l).trans hv

/-- GLB_MODE_REQ is write-only and reads 0. -/
theorem State.held_modeReq (s : State) : s.held 0x24 = 0 := by
  have hl : locOf s.variant 0x24 = some (.glb 0x24) := locOf_glb _ 0x24 (by decide)
  have hlo : locOf s.variant (0x24 - 4) = some (.glb 0x20) := locOf_glb _ 0x20 (by decide)
  simp [State.held, hl, State.isHi, hlo, Loc.isLo, State.readLoc, State.glbRead]

theorem State.read_modeReq (s : State) : s.fullRead 0x24 = { s with rdata := 0 } := by
  have hl : locOf s.variant 0x24 = some (.glb 0x24) := locOf_glb _ 0x24 (by decide)
  obtain hb | hb := Bool.eq_false_or_eq_true s.bootDone
  · rw [State.fullRead_noLo rfl hl hb (by decide) rfl (by decide), State.held_modeReq]
    rfl
  · rw [State.fullRead_unbooted rfl hb, State.held_modeReq]

/-- Settles O14: the mode request and the anchor registers from what a full write of each does. -/
theorem modeRequestAndAnchor : Obligations.ModeRequestAndAnchor := by
  unfold Obligations.ModeRequestAndAnchor
  refine ⟨fun v s hr => ⟨?_, ?_⟩, fun v s hr => ⟨fun hm hlo => ?_, fun hm hlo => ?_, fun hm hlo => ?_, fun hm => ?_, fun h1 h2 => ?_⟩⟩
  · rw [exec_glbModeReqWrite, State.command_quiet _ hr, State.write_modeReq]
    rfl
  · rw [exec_rocRead, State.command_quiet _ hr]
    exact congrArg _ (State.read_modeReq _)
  · rw [exec_anchorSet, State.command_quiet _ hr, State.write_anchorHi (s := s.quiet) v (.inl hm)]
    simp [State.anchorHiWritten, addr64, hm, hlo]
  · rw [exec_anchorSet, State.command_quiet _ hr, State.write_anchorHi (s := s.quiet) v (.inr hm)]
    simp [State.anchorHiWritten, addr64, hm, hlo]
  · rw [exec_anchorSet, State.command_quiet _ hr, State.write_anchorHi (s := s.quiet) v hm]
    simp [State.anchorHiWritten, hlo]
  · rw [exec_registerWrite, State.command_quiet _ hr, State.write_anchorLo (s := s.quiet) v hm]
    rfl
  · rw [exec_anchorSet, State.command_quiet _ hr, State.write_anchorHi_locked (s := s.quiet) v h1 h2]

/-! ### _LO and _HI pairs (R69, R436) -/

/-- A _HI register reads the shadow of its pair. -/
theorem State.held_hi {s : State} {off : Nat} {l h : Loc} (hl : locOf s.variant off = some l) (hh : locOf s.variant (off + 4) = some h)
    (hlo : l.isLo = true ∨ l = .ref 0x10) : s.held (off + 4) = Bank.get 0 s.shadows off := by
  have hhi : s.isHi (off + 4) = true := by
    unfold State.isHi
    rw [Nat.add_sub_cancel, hl]
    obtain h | h := hlo <;> simp [h]
  unfold State.held
  rw [hh]
  simp [hhi]

/-- A _LO register has no ROC field. -/
theorem State.clearRoc_lo (s : State) {l : Loc} (h : l.isLo = true) : s.clearRoc l = s := by
  unfold State.clearRoc
  split <;> first | cases h | rfl

/-- A full read of a _LO register copies the high word into the shadow of the pair. -/
theorem State.fullRead_lo {s : State} {off : Nat} {l h : Loc} (hm : msixOff off = false) (hl : locOf s.variant off = some l)
    (hb : s.bootDone = true) (hlo : l.isLo = true) (hrc : l ≠ .ref 0x10) (hh : locOf s.variant (off + 4) = some h) :
    s.fullRead off = { s with rdata := s.held off, shadows := Bank.set s.shadows off (s.readLoc h) } := by
  have hc : l ≠ .cam 4 := fun e => by simp [e, Loc.isLo] at hlo
  rw [State.fullRead_at hm hl hb hc, State.clearRoc_lo _ hlo]
  simp only [State.latchShadow, hrc, if_false, hlo, if_true, hh]
  rfl

/-- The state after a full read of REF_RC_LO. -/
def State.latchedRc (s : State) : State :=
  { s with rdata := wd s.ref.rc64
           shadows := Bank.set (Bank.set (Bank.set s.shadows 0x1010 (wd (s.ref.rc64 / 2 ^ 32))) 0x1020 (wd s.dt)) 0x1024 (wd (s.dt / 2 ^ 32))
           out := [] }

/-- A full read of REF_RC_LO latches the high word of the RC and the DT. -/
theorem State.fullRead_rcLo {s : State} (hb : s.bootDone = true) : s.quiet.fullRead 0x1010 = s.latchedRc := by
  have hl : locOf s.variant 0x1010 = some (.ref 0x10) := locOf_ref _ 0x10 (by decide)
  have hbelow : locOf s.variant (0x1010 - 4) = none := by cases s.variant <;> rfl
  have hheld : s.held 0x1010 = wd s.ref.rc64 := by simp [State.held, hl, State.isHi, hbelow, State.readLoc, State.refRead]
  rw [State.fullRead_at (s := s.quiet) rfl hl hb (by decide), State.held_quiet, hheld]
  rfl

/-- The registers of the DT snapshot are shadows themselves. -/
theorem State.held_snapLo (s : State) : s.held 0x1020 = Bank.get 0 s.shadows 0x1020 := by
  have hl : locOf s.variant 0x1020 = some (.ref 0x20) := locOf_ref _ 0x20 (by decide)
  have hbelow : locOf s.variant (0x1020 - 4) = some (.ref 0x1C) := locOf_ref _ 0x1C (by decide)
  simp [State.held, hl, State.isHi, hbelow, Loc.isLo, State.readLoc, State.refRead]

theorem State.held_snapHi (s : State) : s.held 0x1024 = Bank.get 0 s.shadows 0x1024 := by
  have hl : locOf s.variant 0x1024 = some (.ref 0x24) := locOf_ref _ 0x24 (by decide)
  have hbelow : locOf s.variant (0x1024 - 4) = some (.ref 0x20) := locOf_ref _ 0x20 (by decide)
  simp [State.held, hl, State.isHi, hbelow, Loc.isLo, State.readLoc, State.refRead]

/-- A narrow read with every byte enabled returns what the register holds. -/
theorem exec_narrowRead_full {off : Nat} {s : State} (hr : s.inReset = false) (hb : s.bootDone = true) (hm : msixOff off = false)
    (h4 : off % 4 = 0) : ∃ u, exec (.narrowRead off [true, true, true, true]) s = .next u ∧ u.rdata = s.held off := by
  refine ⟨s.quiet.fullRead off, ?_, State.fullRead_rdata hm hb⟩
  rw [exec_narrowRead_word hr h4 rfl, enabled_four_true, State.narrowRead_full]

/-- Settles O15: the shadows that a read latches are those that the reads of _HI return. -/
theorem lowReadsLatchTheirShadows : Obligations.LowReadsLatchTheirShadows := by
  unfold Obligations.LowReadsLatchTheirShadows
  refine ⟨fun s hr hb => ⟨s.quiet.fullRead 0x1010, ?_, ?_⟩, fun off l h s hr hb hm hm4 hl hlo hh hrc => ?_⟩
  · rw [exec_refRcLoRead, State.command_quiet _ hr]
  · rw [State.fullRead_rcLo hb]
    have hloc (o : Nat) (ho : o ∈ refOffs) : locOf s.variant (0x1000 + o) = some (.ref o) := locOf_ref _ o ho
    refine ⟨rfl, rfl, ?_, ?_, ?_, fun o h1 h2 h3 => ?_⟩
    · obtain ⟨u, hu, hrd⟩ := exec_narrowRead_full (off := 0x1014) (s := s.latchedRc) hr hb rfl rfl
      refine ⟨u, hu, hrd.trans ?_⟩
      refine (State.held_hi (s := s.latchedRc) (off := 0x1010) (hloc 0x10 (by decide)) (hloc 0x14 (by decide)) (.inr rfl)).trans ?_
      simp [State.latchedRc, Bank.get_set]
    · obtain ⟨u, hu, hrd⟩ := exec_narrowRead_full (off := 0x1020) (s := s.latchedRc) hr hb rfl rfl
      refine ⟨u, hu, hrd.trans ?_⟩
      rw [State.held_snapLo]
      simp [State.latchedRc, Bank.get_set]
    · obtain ⟨u, hu, hrd⟩ := exec_narrowRead_full (off := 0x1024) (s := s.latchedRc) hr hb rfl rfl
      refine ⟨u, hu, hrd.trans ?_⟩
      rw [State.held_snapHi]
      simp [State.latchedRc]
    · simp [State.latchedRc, Bank.get_set, h1, h2, h3]
  · have hread : s.quiet.fullRead off = { s.quiet with rdata := s.held off, shadows := Bank.set s.shadows off (s.readLoc h) } :=
      State.fullRead_lo (s := s.quiet) hm hl hb hlo hrc hh
    have hshadow (t : State) (ht : t.variant = s.variant) (hs : t.shadows = Bank.set s.shadows off (s.readLoc h)) :
        t.held (off + 4) = s.readLoc h := by
      rw [State.held_hi (ht ▸ hl) (ht ▸ hh) (.inl hlo), hs, Bank.get_set_self]
    have hval : s.value off = s.held off := if_pos hb
    refine ⟨s.quiet.fullRead off, (s.quiet.fullRead off).quiet.fullRead (off + 4), ?_, ?_, fun n hn => ?_, ?_, ?_⟩
    · rw [exec_loRegisterRead, State.command_quiet _ hr]
    · rw [State.fullRead_rdata (s := s.quiet) hm hb, hval, State.held_quiet]
    · rw [hread]
      exact Bank.get_set_ne _ _ _ _ _ hn
    · rw [exec_loRegisterRead, State.command_quiet _ (by rw [hread]; exact hr)]
    · rw [State.fullRead_rdata (s := (s.quiet.fullRead off).quiet) hm4 (by rw [hread]; exact hb)]
      exact hshadow _ (by rw [hread]; rfl) (by rw [hread]; rfl)

/-! ### ROC fields (R437) -/

/-- A full read of a register that is no _LO returns what it holds and clears its ROC fields. -/
theorem exec_rocRead_noLo {off : Nat} {l : Loc} {s : State} (hr : s.inReset = false) (hb : s.bootDone = true) (hoff : off < 0x3E000)
    (hl : locOf s.variant off = some l) (hc : l ≠ .cam 4) (hlo : l.isLo = false) (hrc : l ≠ .ref 0x10) :
    exec (.rocRead off) s = .next (({ s.quiet with rdata := s.held off }).clearRoc l) := by
  rw [exec_rocRead, State.command_quiet _ hr, State.fullRead_noLo (s := s.quiet) (msixOff_low hoff) hl hb hc hlo hrc]
  rfl

theorem State.held_acc (s : State) : s.held 0x40 = s.glb.acc := by
  have hl : locOf s.variant 0x40 = some (.glb 0x40) := locOf_glb _ 0x40 (by decide)
  have hbelow : locOf s.variant (0x40 - 4) = none := by cases s.variant <;> rfl
  simp [State.held, hl, State.isHi, hbelow, State.readLoc, State.glbRead]

/-- Settles O16: what a read before and behind the end of boot does, register by register. -/
theorem fullReadsClearRocFields : Obligations.FullReadsClearRocFields := by
  unfold Obligations.FullReadsClearRocFields
  refine ⟨fun off s hr hb hm => ?_, fun s hr hb => ⟨fun off hm _ => ?_, ?_, ?_, ?_, ?_, ?_, ?_, ?_, fun a ha => ?_, fun a ha => ?_,
    fun n hn => ?_, fun n l hn hl => ?_⟩⟩
  · rw [exec_rocRead, State.command_quiet _ hr, State.fullRead_unbooted (s := s.quiet) hm hb]
    rfl
  · exact ⟨s.quiet.fullRead off, by rw [exec_rocRead, State.command_quiet _ hr], State.fullRead_rdata hm hb⟩
  · refine ⟨_, exec_rocRead_noLo hr hb (by decide) (locOf_glb _ 0x40 (by decide)) (by decide) rfl (by decide), ?_⟩
    rw [State.held_acc]
    rfl
  · exact ⟨_, exec_rocRead_noLo hr hb (by decide) (locOf_ref _ 0x08 (by decide)) (by decide) rfl (by decide), rfl⟩
  · exact ⟨_, exec_rocRead_noLo hr hb (by decide) (locOf_host _ 0x04 (by decide)) (by decide) rfl (by decide), rfl⟩
  · exact ⟨_, exec_rocRead_noLo hr hb (by decide) (locOf_flt _ 0x04 (by decide)) (by decide) rfl (by decide), rfl⟩
  · exact ⟨_, exec_rocRead_noLo hr hb (by decide) (locOf_thm _ 0x10 (by decide)) (by decide) rfl (by decide), rfl⟩
  · exact ⟨_, exec_rocRead_noLo hr hb (by decide) (locOf_spr _ 0x04 (by decide)) (by decide) rfl (by decide), rfl⟩
  · exact ⟨_, exec_rocRead_noLo hr hb (by decide) (locOf_cfg _ 0x00 (by decide)) (by decide) rfl (by decide), rfl⟩
  · exact ⟨_, exec_rocRead_noLo hr hb (unitReg_low .axis a (by decide)) (locOf_axis _ a 0x10 ha (.inl (by decide))) (by simp) rfl (by simp), rfl⟩
  · exact ⟨_, exec_rocRead_noLo hr hb (unitReg_low .axis a (by decide)) (locOf_axis _ a 0xAC ha (.inr (by decide))) (by simp) rfl (by simp), rfl⟩
  · exact ⟨_, exec_rocRead_noLo hr hb (tileReg_low n (by decide)) (locOf_tile _ n 0x10 hn (by decide)) (by simp) rfl (by simp), rfl⟩
  · refine ⟨_, exec_rocRead_noLo hr hb (legReg_low n l (by decide)) (locOf_leg _ n l 0x10 hn hl (by decide)) (by simp) rfl (by simp), ?_, fun j hj => ?_⟩
    · simp [State.clearRoc]
    · exact (State.leg_updLeg ..).trans (if_neg fun h => hj h.2)

/-! ### CRS_CAM_DATA (R184) -/

/-- A cam pool whose list names its first byte twice, which no run reaches (`State.Inv`), in Configure. -/
def twiceListed : State :=
  { State.reset with inReset := false, glb := { State.reset.glb with mode := .configure }, cam := [(0, 5), (0, 7)] }

theorem twiceListed_write : exec (.crsCamDataAccess (some 0)) twiceListed = .next (twiceListed.quiet.fullWrite 0xC804 0) := by
  rw [exec_crsCamDataAccess, State.command_quiet _ rfl]

theorem twiceListed_reads : Memory.readWord (twiceListed.quiet.fullWrite 0xC804 0).cam twiceListed.camAddr = 7 := by decide

/-- Refutes O18: the statement takes the pool as any list of bytes; in one that names a byte twice a write of 0 uncovers the second entry. -/
theorem not_camDataStepsThroughThePool : ¬ Obligations.CamDataStepsThroughThePool := by
  unfold Obligations.CamDataStepsThroughThePool
  intro h
  obtain ⟨-, hwrite, -⟩ := h twiceListed rfl
  obtain ⟨t, ht, hread, -⟩ := hwrite 0 (by decide) (by decide)
  rw [twiceListed_write] at ht
  rw [← Host.Outcome.next.inj ht, twiceListed_reads] at hread
  exact absurd hread (by decide)

/-! ### How a full write is judged (R441) -/

/-- The steps of the order from the fourth on. -/
theorem State.judge_open {s : State} {l : Loc} {raw : Word} (h1 : l = .flt 0x14 → (srcInfo s.variant s.flt.sevSel).isSome)
    (h2 : s.glb.mode = .sealed → s.sealedOk l = true) :
    s.judgeWrite l raw = verdict [(s.lockViolated l raw (s.stored l) (s.merged l raw), .viol),
      (s.lockHolds l (s.stored l) (s.merged l raw), .locked), (true, s.judge6 l raw (s.stored l) (s.merged l raw))] := by
  have hsrc : (decide (l = .flt 0x14) && (srcInfo s.variant s.flt.sevSel).isNone) = false := by
    by_cases hl : l = .flt 0x14
    · simp [Option.isNone_eq_false_iff.mpr (h1 hl)]
    · simp [hl]
  have hseal : (decide (s.glb.mode = .sealed) && !s.sealedOk l) = false := by
    by_cases hm : s.glb.mode = .sealed
    · simp [h2 hm]
    · simp [hm]
  simp only [State.judgeWrite, verdict, hsrc, hseal, Bool.false_eq_true, if_false]

theorem srcInfo_cfgWrLocked (v : Variant) : (srcInfo v srcCfgWrLocked).map (fun i => (i.dflt, i.mx)) = some (.log, .log) := by
  cases v <;> decide

/-- A WM write with an all-zero mask changes nothing. -/
theorem State.fullWrite_masked {s : State} {off : Nat} {raw : Word} {l : Loc} (hm : msixOff off = false) (hl : locOf s.variant off = some l)
    (hw : l.wmBits ≠ 0) (h0 : fld raw 16 l.wmBits = 0) : s.fullWrite off raw = s := by
  simp [State.fullWrite, hm, hl, hw, h0]

/-- Settles O19: the verdict of a write step by step. -/
theorem fullWritesAreJudgedInOrder : Obligations.FullWritesAreJudgedInOrder := by
  unfold Obligations.FullWritesAreJudgedInOrder
  refine ⟨fun off v l s hr hm hl hc => ?_, fun off s => ⟨rfl, srcInfo_cfgWrLocked s.variant⟩⟩
  rw [exec_registerWrite, State.command_quiet _ hr]
  refine ⟨fun hw h0 => congrArg _ (State.fullWrite_masked hm hl hw h0), fun hw => ?_⟩
  have hat : s.quiet.fullWrite off v = s.quiet.writeLoc l off v := State.fullWrite_at hm hl (Decidable.or_iff_not_imp_left.2 hw) hc
  rw [hat]
  unfold State.writeLoc
  refine ⟨fun h14 hn => ?_, fun h1 => ⟨fun hmode hs => ?_, fun h2 => ?_⟩⟩
  · simp [State.judgeWrite, verdict, h14, hn]
  · have hsrc : (decide (l = .flt 0x14) && (srcInfo s.variant s.flt.sevSel).isNone) = false := by
      by_cases hl : l = .flt 0x14
      · simp [Option.isNone_eq_false_iff.mpr (h1 hl)]
      · simp [hl]
    simp [State.judgeWrite, verdict, hsrc, hmode, hs]
  · rw [State.judge_open (s := s.quiet) h1 h2]
    simp only [State.stored_quiet, State.merged_quiet, State.lockViolated_quiet, State.lockHolds_quiet, State.judge6_quiet, verdict]
    refine ⟨fun hv => by simp [hv], fun hv => ⟨fun hl => by simp [hv, hl], fun hl => ⟨fun src hj => ?_, fun hj => ?_, fun hj => ?_⟩⟩⟩
    all_goals simp [hv, hl, hj]

end Sys2Proof.Machine
end

section
/-! SUPPORT. The registers that act at once: the fault port, the clears, the generator's registers, and CFG. -/

namespace Sys2Proof.Machine

/-- A command outside internal reset answers with what it does to the state without the outputs of the step before. -/
theorem exists_next {c : Instr} {s : State} {f : State → State} {P : State → Prop} (he : exec c s = s.command f) (hr : s.inReset = false)
    (h : P (f s.quiet)) : ∃ t, exec c s = .next t ∧ P t :=
  ⟨f s.quiet, he.trans (State.command_quiet f hr), h⟩

/-! ### Fields of the word that a write leaves (R438) -/

theorem fld_eq_extract (w : Word) (lo n : Nat) : fld w lo n = (w.extractLsb' lo n).toNat := by
  simp [fld, Nat.shiftRight_eq_div_pow]

theorem fld_congr {a b : Word} {lo n : Nat} (h : ∀ i, i < n → a.getLsbD (lo + i) = b.getLsbD (lo + i)) : fld a lo n = fld b lo n := by
  rw [fld_eq_extract, fld_eq_extract]
  congr 1
  ext i hi
  simpa [hi] using h i hi

/-- A field of the written word replaces that of the register where the mask covers it. -/
theorem State.getLsbD_merged {s : State} {l : Loc} (hw : l.wmBits = 0) (v : Word) (i : Nat) :
    (s.merged l v).getLsbD i = if (wd l.rwMask).getLsbD i then v.getLsbD i else (s.stored l).getLsbD i := by
  unfold State.merged
  rw [if_pos hw]
  by_cases hi : i < 32
  · cases h : (wd l.rwMask).getLsbD i <;> simp [BitVec.getLsbD_or, BitVec.getLsbD_and, BitVec.getLsbD_not, h, hi, -BitVec.getLsbD_eq_getElem]
  · simp [BitVec.getLsbD_of_ge _ i (Nat.le_of_not_lt hi)]

theorem State.fld_merged {s : State} {l : Loc} (hw : l.wmBits = 0) (v : Word) {lo n : Nat}
    (hm : ∀ i, i < n → (wd l.rwMask).getLsbD (lo + i) = true) : fld (s.merged l v) lo n = fld v lo n :=
  fld_congr fun i hi => by rw [State.getLsbD_merged hw, if_pos (hm i hi)]

theorem State.bit_merged {s : State} {l : Loc} (hw : l.wmBits = 0) (v : Word) {i : Nat} (hm : (wd l.rwMask).getLsbD i = true) :
    bit (s.merged l v) i = bit v i := by
  unfold bit
  rw [State.getLsbD_merged hw, if_pos hm]

/-- A register whose every bit is written takes the word. -/
theorem State.merged_all {s : State} {l : Loc} (hw : l.wmBits = 0) (hm : wd l.rwMask = 0xFFFFFFFF) (v : Word) : s.merged l v = v := by
  unfold State.merged
  rw [if_pos hw, hm]
  simp

theorem bit_or_one (v : Word) : bit (v ||| 1) 0 = true := by simp [bit]

theorem bit_or_two (v : Word) : bit (v ||| 2) 1 = true := by simp [bit]

theorem bit_and_notOne (v : Word) : bit (v &&& ~~~ (1 : Word)) 0 = false := by simp [bit]

/-- The lowest bit alone is set or cleared. -/
theorem bit_or_one_ne (v : Word) {i : Nat} (h : 0 < i) : bit (v ||| 1) i = bit v i := by
  have h1 : (1#32).getLsbD i = false := by simp [BitVec.getLsbD_one]; omega
  simp [bit, h1]

theorem fld_or_one (v : Word) {lo : Nat} (h : 0 < lo) (n : Nat) : fld (v ||| 1) lo n = fld v lo n :=
  fld_congr fun _ _ => bit_or_one_ne v (Nat.lt_of_lt_of_le h (Nat.le_add_right ..))

/-! ### The port latch and its selector (R515, R519) -/

/-- A full write of FLT_PIN, outside Sealed. -/
theorem State.write_pin {s : State} (v : Word) (hm : s.glb.mode ≠ .sealed) :
    s.fullWrite 0x3008 v = { s with flt := { s.flt with level := bit v 0 } } := by
  rw [State.fullWrite_free (by decide) (locOf_flt _ 0x08 (by decide)) (.inl rfl) rfl (.inl hm) rfl rfl]
  simp only [State.putLoc, State.store, State.wrote, State.bit_merged rfl v (by decide : (wd (Loc.flt 0x08).rwMask).getLsbD 0 = true)]

/-- The history port's selector set to an age. -/
def State.aged (s : State) (n : Nat) : State := { s with flt := { s.flt with histSel := n } }

/-- A full write of FLT_HIST_SEL with a mask that is not all zero, outside Sealed. -/
theorem State.write_histSel {s : State} {v : Word} {n : Nat} (hm : s.glb.mode ≠ .sealed) (hv : fld v 16 5 ≠ 0)
    (hn : ((wd s.flt.histSel &&& ~~~ ((v >>> 16) &&& 31)) ||| (v &&& ((v >>> 16) &&& 31))).toNat = n) :
    s.fullWrite 0x3020 v = (s.aged n).latchEntry n := by
  subst hn
  rw [State.fullWrite_free (by decide) (locOf_flt _ 0x20 (by decide)) (.inr hv) rfl (.inl hm) rfl rfl]
  simp only [State.wrote, hv, if_false]
  rfl

/-- What the port latch takes. -/
theorem State.latchEntry_some {s : State} {age : Nat} {e : Entry} (h : s.flt.hist[age]? = some e) :
    s.latchEntry age = { s with flt := { s.flt with latch := e.words s.dt, latchRec := some e.uid } } := by
  simp [State.latchEntry, h]

theorem State.latchEntry_none {s : State} {age : Nat} (h : s.flt.hist[age]? = none) :
    s.latchEntry age = { s with flt := { s.flt with latch := List.replicate 11 0, latchRec := none } } := by
  simp [State.latchEntry, h]

/-- A full write of FLT_ACK, outside Sealed. -/
theorem State.write_ack {s : State} (v : Word) (hm : s.glb.mode ≠ .sealed) :
    s.fullWrite 0x3070 v = if bit v 0 then s.ackLatch else s := by
  rw [State.fullWrite_free (by decide) (locOf_flt _ 0x70 (by decide)) (.inl rfl) rfl (.inl hm) rfl rfl]
  rfl

/-- An entry of a bank whose elements are all mapped is the default or a mapped one. -/
theorem Bank.get_map {α : Type} {P : α → Prop} (d : α) (b : Bank α) (f : α → α) (k : Nat) (hd : P d) (hf : ∀ x, P (f x)) :
    P (Bank.get d (b.map fun p => (p.1, f p.2)) k) := by
  induction b with
  | nil => exact hd
  | cons p b ih =>
    unfold Bank.get at ih ⊢
    rw [List.map_cons, List.lookup_cons]
    split
    · exact hf p.2
    · exact ih

/-- An acknowledged record holds nothing isolated any longer. -/
theorem State.ackRecord_some {s : State} {u : Nat} {e : Entry} (hf : s.flt.hist.find? (fun e => decide (e.uid = u)) = some e)
    (ha : s.mayAck e = true) :
    (∃ x ∈ (s.ackRecord u).flt.hist, x.uid = u) ∧ (∀ x ∈ (s.ackRecord u).flt.hist, x.uid = u → x.ack = true) ∧
    (∀ x ∈ (s.ackRecord u).flt.hist, x.uid ≠ u → x ∈ s.flt.hist) ∧ (∀ a, u ∉ ((s.ackRecord u).axis a).isoHold) ∧
    (∀ n, u ∉ ((s.ackRecord u).tile n).isoHold) ∧ (s.ackRecord u).flt.latch = s.flt.latch := by
  have hmem := List.mem_of_find?_eq_some hf
  have huid : e.uid = u := by simpa using List.find?_some hf
  simp only [State.ackRecord, hf, ha, if_true]
  refine ⟨⟨{ e with ack := true }, List.mem_map.mpr ⟨e, hmem, if_pos huid⟩, huid⟩, fun x hx hu => ?_, fun x hx hu => ?_, fun a => ?_,
    fun n => ?_, trivial⟩
  · obtain ⟨y, -, rfl⟩ := List.mem_map.mp hx
    by_cases hy : y.uid = u
    · rw [if_pos hy]
    · rw [if_neg hy] at hu
      exact absurd hu hy
  · obtain ⟨y, hy, rfl⟩ := List.mem_map.mp hx
    by_cases hyu : y.uid = u
    · rw [if_pos hyu] at hu
      exact absurd hyu hu
    · rwa [if_neg hyu]
  · exact Bank.get_map (P := fun x : Axis => u ∉ x.isoHold) _ _ (fun x => { x with isoHold := x.isoHold.filter fun w => decide (w ≠ u) }) _
      (List.not_mem_nil) fun x => by simp
  · exact Bank.get_map (P := fun x : Tile => u ∉ x.isoHold) _ _ (fun x => { x with isoHold := x.isoHold.filter fun w => decide (w ≠ u) }) _
      (List.not_mem_nil) fun x => by simp

/-- Nothing is acknowledged where the record is gone or its cause persists. -/
theorem State.ackLatch_idle {s : State} (h : s.flt.latchRec = none ∨
    (∃ u, s.flt.latchRec = some u ∧ s.flt.hist.find? (fun e => decide (e.uid = u)) = none) ∨
    (∃ u e, s.flt.latchRec = some u ∧ s.flt.hist.find? (fun e => decide (e.uid = u)) = some e ∧ s.mayAck e = false)) : s.ackLatch = s := by
  obtain h | ⟨u, hu, hf⟩ | ⟨u, e, hu, hf, ha⟩ := h
  · simp [State.ackLatch, h]
  · simp [State.ackLatch, hu, State.ackRecord, hf]
  · simp [State.ackLatch, hu, State.ackRecord, hf, ha]

/-! ### Test injection (R522) -/

/-- FLT_INJ is judged by its own conditions alone outside Sealed. -/
theorem State.judge_inj {s : State} (v : Word) (hm : s.glb.mode ≠ .sealed) :
    s.judgeWrite (.flt 0x0C) v = s.fltBad 0x0C v (s.merged (.flt 0x0C) v) :=
  State.judge_outside (.inl hm) rfl (fun _ => Loc.noConfusion) (by decide) (by decide) (by decide)

theorem State.write_inj_armed {s : State} (v : Word) (hm : s.glb.mode ≠ .sealed) (ha : s.flt.injArmed = true) :
    s.fullWrite 0x300C v = if bit v 0 then s.fault srcFltCfgBad 0x300C .none else { s with flt := { s.flt with injArmed := false } } := by
  have hj : s.judgeWrite (.flt 0x0C) v = if bit v 0 then .bad srcFltCfgBad else .ok := by
    rw [State.judge_inj v hm]
    simp [State.fltBad, ha, verdict]
  rw [State.fullWrite_at rfl (locOf_flt _ 0x0C (by decide)) (.inl rfl) (by decide), State.writeLoc, hj]
  cases bit v 0 with
  | false => simp [State.carryOut, Loc.setMask, State.putLoc, ha]
  | true => rfl

theorem State.write_inj_free {s : State} (v : Word) (hm : s.glb.mode ≠ .sealed) (ha : s.flt.injArmed = false) (hb : bit v 0 = true)
    (hj : s.injBad (s.merged (.flt 0x0C) v) = .ok) :
    s.fullWrite 0x300C v = { s with flt := { s.flt with injUnit := fld v 16 16, injTarget := fld v 8 3, injArmed := true } } := by
  have hok : s.judgeWrite (.flt 0x0C) v = .ok := by
    rw [State.judge_inj v hm]
    simp [State.fltBad, ha, hj]
  rw [State.fullWrite_ok rfl (locOf_flt _ 0x0C (by decide)) (.inl rfl) (by decide) hok]
  have hunit : fld (s.merged (.flt 0x0C) v) 16 16 = fld v 16 16 := State.fld_merged rfl v (by decide)
  have htarget : fld (s.merged (.flt 0x0C) v) 8 3 = fld v 8 3 := State.fld_merged rfl v (by decide)
  simp [State.carryOut, Loc.setMask, State.putLoc, ha, State.store, State.wrote, State.injWritten, hb, hunit, htarget]

/-- Settles O21: each register of the fault port from what a full write of it does. -/
theorem faultPortFollowsItsRegisters : Obligations.FaultPortFollowsItsRegisters := by
  unfold Obligations.FaultPortFollowsItsRegisters
  refine ⟨fun v s hr hm => ⟨_, ?_, rfl, ?_⟩, fun v s hr hm hv => ⟨s.quiet.fullWrite 0x3020 v, ?_, ?_⟩,
    fun v s hr hm => ⟨fun u e hb hu hf ha => ?_, fun h => ?_⟩, fun v s hr hm => ⟨fun ha hj => ?_, fun ha => ?_, fun ha => ?_⟩⟩
  · rw [exec_fltPinLevel, State.command_quiet _ hr, State.write_pin (s := s.quiet) v hm]
    rfl
  · simp [State.nfault, hr]
  · rw [exec_fltHistSelWrite, State.command_quiet _ hr]
  · generalize hn : ((wd s.flt.histSel &&& ~~~ ((v >>> 16) &&& 31)) ||| (v &&& ((v >>> 16) &&& 31))).toNat = n
    rw [State.write_histSel (s := s.quiet) hm hv hn]
    cases h : s.flt.hist[n]? with
    | none =>
      rw [State.latchEntry_none (s := s.quiet.aged n) h]
      exact ⟨rfl, fun e he => (nomatch h.symm.trans he), fun _ => ⟨rfl, rfl⟩, rfl⟩
    | some e =>
      rw [State.latchEntry_some (s := s.quiet.aged n) h]
      refine ⟨rfl, fun e' he => ?_, fun hn => (nomatch h.symm.trans hn), rfl⟩
      obtain rfl : e = e' := Option.some.inj (h.symm.trans he)
      exact ⟨rfl, rfl⟩
  · refine ⟨s.quiet.ackRecord u, ?_, State.ackRecord_some (s := s.quiet) hf ha⟩
    rw [exec_fltAck, State.command_quiet _ hr, State.write_ack (s := s.quiet) v hm, if_pos hb]
    simp [State.ackLatch, hu]
  · rw [exec_fltAck, State.command_quiet _ hr, State.write_ack (s := s.quiet) v hm]
    obtain hb | h := h
    · rw [if_neg (by simp [hb])]
    · rw [State.ackLatch_idle (s := s.quiet) h, ite_self]
  · rw [exec_fltInjArm, State.command_quiet _ hr, State.write_inj_free (s := s.quiet) _ hm ha (bit_or_one v) hj]
    rw [fld_or_one v (by decide), fld_or_one v (by decide)]
    rfl
  · rw [exec_fltInjArm, State.command_quiet _ hr, State.write_inj_armed (s := s.quiet) _ hm ha, if_pos (bit_or_one v)]
  · rw [exec_fltInjDisarm, State.command_quiet _ hr, State.write_inj_armed (s := s.quiet) _ hm ha, if_neg (Bool.eq_false_iff.mp (bit_and_notOne v))]
    rfl

/-! ### The clears (R155, R306, R307, R341) -/

theorem State.setAxis_setAxis (s : State) (a : Nat) (x y : Axis) : (s.setAxis a x).setAxis a y = s.setAxis a y := by
  simp [State.setAxis, Bank.set_set]

theorem State.setCourse_setCourse (s : State) (c : Nat) (x y : Course) : (s.setCourse c x).setCourse c y = s.setCourse c y := by
  simp [State.setCourse, Bank.set_set]

/-- Storing a register that holds nothing stores the unit as it is. -/
theorem State.clrUnc_store (s : State) (k : UnitKind) (n : Nat) (v : Word) (f : Motion → Motion) :
    (s.store (.unit k n 0x50) v).updMotion k n f = s.updMotion k n f := by
  cases k with
  | axis => simp [State.store, Axis.store, State.updMotion, State.setMotion, State.updAxis, State.motion, State.setAxis_setAxis]
  | course => simp [State.store, Course.store, State.updMotion, State.setMotion, State.updCourse, State.motion, State.setCourse_setCourse]

theorem State.write_clrUnc {s : State} {k : UnitKind} {n : Nat} {v : Word} (hm : s.glb.mode ≠ .sealed) (hb : bit v 0 = true)
    (hp : s.present k n = true) (hs : (s.motion k n).still = true) :
    s.fullWrite (unitReg k n 0x50) v = s.updMotion k n fun m => { m with posUnc := false } := by
  have hok : s.judgeWrite (.unit k n 0x50) v = .ok := by
    rw [State.judge_plain (by cases k <;> rfl) (.inl hm)]
    cases k with
    | axis => simp [State.lockHolds, axisMask, State.judge6, verdict, show (s.axis n).m.still = true from hs]
    | course => simp [State.lockHolds, courseMask, State.judge6, verdict, show (s.course n).m.still = true from hs]
  rw [State.fullWrite_plain (unitReg_low k n (by decide)) (locOf_unit s k n 0x50 hp (by decide)) (.inl (by cases k <;> rfl)) (by cases k <;> rfl) hok]
  simp only [State.putLoc, State.wrote, State.clearUnc, hb, if_true, State.clrUnc_store]

/-- The latch of a leg is read by its cause. -/
theorem State.tripActive_store (s : State) (t l : Nat) (v : Word) : (s.store (.leg t l 0x38) v).tripActive t l = s.tripActive t l := by
  have hleg : (s.store (.leg t l 0x38) v).leg t l = s.leg t l := State.leg_updLeg_self ..
  have hiso : ((s.store (.leg t l 0x38) v).tile t).iso = (s.tile t).iso := by simp [State.store, State.updLeg, State.setLeg]
  unfold State.tripActive
  rw [hleg, hiso]
  rfl

theorem State.write_clrTrip {s : State} {t l : Nat} {v : Word} (hm : s.glb.mode ≠ .sealed) (hb : bit v 0 = true)
    (ht : t < s.variant.tiles) (hl : l < 16) :
    s.fullWrite (legReg t l 0x38) v =
      if (s.leg t l).latch && s.tripActive t l then s.setLeg t l (s.leg t l)
      else s.updLeg t l fun x => { x with latch := false, cause := 0 } := by
  rw [State.fullWrite_free (legReg_low t l (by decide)) (locOf_leg _ t l 0x38 ht hl (by decide)) (.inl rfl) rfl (.inl hm)
    (by simp [State.lockHolds]) rfl]
  have hstored (w : Word) : s.store (.leg t l 0x38) w = s.setLeg t l (s.leg t l) := rfl
  simp only [State.putLoc, State.wrote, State.clearTrip, State.tripActive_store, hb, Bool.true_and]
  simp only [hstored, State.leg_setLeg_self, State.updLeg, State.setLeg_setLeg]
  cases (s.leg t l).latch && s.tripActive t l <;> rfl

theorem State.write_clrIso {s : State} {t : Nat} {v : Word} (hm : s.glb.mode ≠ .sealed) (hb : bit v 0 = true) (ht : t < s.variant.tiles) :
    s.fullWrite (tileReg t 0x14) v =
      s.updTile t fun x => if !x.vgUv && !x.vgOv && !x.isoLife then { x with iso := false } else x := by
  rw [State.fullWrite_free (tileReg_low t (by decide)) (locOf_tile _ t 0x14 ht (by decide)) (.inl rfl) rfl (.inl hm) rfl rfl]
  simp only [State.putLoc, State.wrote, State.clearIso, hb, Bool.true_and]
  rfl

/-- One bit of a map set or cleared. -/
theorem getLsbD_mapSet (b : BitVec 64) {i : Nat} (hi : i < 64) (v : Bool) (n : Nat) :
    (mapSet b i v).getLsbD n = if n = i then v else b.getLsbD n := by
  have hone : (BitVec.ofNat 64 (2 ^ i)).getLsbD n = decide (n = i) := by
    rw [BitVec.getLsbD_ofNat, Nat.testBit_two_pow]
    by_cases h : n = i
    · simp [h, hi]
    · simp [h, Ne.symm h]
  unfold mapSet
  generalize BitVec.ofNat 64 (2 ^ i) = m at hone ⊢
  by_cases hn : n < 64
  · by_cases h : n = i
    · subst h
      cases v <;> simp [hone, hn, -BitVec.getLsbD_eq_getElem]
    · cases v <;> simp [hone, hn, h, -BitVec.getLsbD_eq_getElem]
  · have h : n ≠ i := by omega
    simp [h, BitVec.getLsbD_of_ge _ n (Nat.le_of_not_lt hn)]

/-- A bit of a clear takes effect: the input is present, known and not at its active level. -/
def State.safeFree (s : State) (n : Nat) : Bool :=
  decide (n < s.variant.senses) && s.inp.isKnown n && decide (s.inp.level n ≠ s.inp.safeAct.getLsbD n)

/-- The latches after the clear of the first `k` inputs of a word. -/
def State.clearsTo (s : State) (j : Nat) (v : Word) (k : Nat) (l : BitVec 64) : Prop :=
  ∀ n, n < 64 → l.getLsbD n =
    (s.inp.latch.getLsbD n && !(decide (n / 32 = j) && decide (n % 32 < k) && bit v (n % 32) && s.safeFree n))

theorem State.clearsTo_succ {s : State} {j k : Nat} {v : Word} {l : BitVec 64} (hk : k < 32) (hj : j < 2) (h : s.clearsTo j v k l) :
    s.clearsTo j v (k + 1) (if bit v k && s.safeFree (32 * j + k) then mapSet l (32 * j + k) false else l) := by
  intro n hn
  have hbelow : n ≠ 32 * j + k → (decide (n / 32 = j) && decide (n % 32 < k + 1)) = (decide (n / 32 = j) && decide (n % 32 < k)) := by
    intro hne
    by_cases hq : n / 32 = j
    · have hmod : n % 32 < k + 1 ↔ n % 32 < k := by omega
      simp [hq, hmod]
    · simp [hq]
  by_cases hne : n = 32 * j + k
  · subst hne
    have hdiv : (32 * j + k) / 32 = j := by omega
    have hmod : (32 * j + k) % 32 = k := by omega
    have hl := h _ hn
    simp only [hdiv, hmod, Nat.lt_irrefl, Nat.lt_succ_self, decide_true, decide_false, Bool.true_and, Bool.false_and, Bool.not_false,
      Bool.and_true] at hl ⊢
    cases hc : bit v k && s.safeFree (32 * j + k) with
    | true => simp [getLsbD_mapSet _ hn]
    | false => simp [hl]
  · rw [hbelow hne, ← h n hn]
    split
    · rw [getLsbD_mapSet _ (by omega), if_neg hne]
    · rfl

/-- The clear of one input of a word. -/
def State.clearOne (j : Nat) (v : Word) (t : State) (i : Nat) : State :=
  let n := 32 * j + i
  if bit v i && decide (n < t.variant.senses) && t.inp.isKnown n && decide (t.inp.level n ≠ t.inp.safeAct.getLsbD n) then
    { t with inp := { t.inp with latch := mapSet t.inp.latch n false } }
  else t

/-- Latches do not decide whether a clear takes effect. -/
theorem State.clearOne_latch (s : State) (j : Nat) (v : Word) (l : BitVec 64) (i : Nat) :
    State.clearOne j v { s with inp := { s.inp with latch := l } } i =
      { s with inp := { s.inp with latch := if bit v i && s.safeFree (32 * j + i) then mapSet l (32 * j + i) false else l } } := by
  have hcond : (bit v i && decide (32 * j + i < s.variant.senses) && s.inp.isKnown (32 * j + i) &&
      decide (s.inp.level (32 * j + i) ≠ s.inp.safeAct.getLsbD (32 * j + i))) = (bit v i && s.safeFree (32 * j + i)) := by
    simp [State.safeFree, Bool.and_assoc]
  cases hb : bit v i && s.safeFree (32 * j + i) with
  | true => exact if_pos (hcond.trans hb)
  | false => exact if_neg (Bool.eq_false_iff.mp (hcond.trans hb))

/-- The clears of the first `k` inputs of a word change the latches alone. -/
theorem State.safeClr_upTo (s : State) {j : Nat} (hj : j < 2) (v : Word) {k : Nat} (hk : k ≤ 32) :
    ∃ l, (List.range k).foldl (State.clearOne j v) s = { s with inp := { s.inp with latch := l } } ∧ s.clearsTo j v k l := by
  induction k with
  | zero => exact ⟨s.inp.latch, rfl, fun n _ => by simp⟩
  | succ k ih =>
    obtain ⟨l, hl, hc⟩ := ih (by omega)
    refine ⟨_, ?_, State.clearsTo_succ (by omega) hj hc⟩
    rw [List.range_succ, List.foldl_append, hl]
    exact State.clearOne_latch s j v l k

theorem State.safeClr_frame (s : State) {j : Nat} (hj : j < 2) (v : Word) :
    ∃ l, s.safeClr j v = { s with inp := { s.inp with latch := l } } ∧ s.clearsTo j v 32 l :=
  State.safeClr_upTo s hj v (Nat.le_refl _)

theorem locOf_safeClr (v : Variant) {j : Nat} (hj : j < 2) (hs : 32 * j < v.senses) :
    locOf v (instOff 0x6048 4 2 j 0) = some (.inp (0x48 + 4 * j)) := by
  obtain rfl | rfl : j = 0 ∨ j = 1 := by omega
  · cases v <;> rfl
  · revert hs
    cases v <;> decide

/-- INP_SAFE_CLR is judged by the inputs that it names alone. -/
theorem State.judge_safeClr {s : State} (v : Word) {j : Nat} (hj : j < 2) (hm : s.glb.mode ≠ .sealed) :
    s.judgeWrite (.inp (0x48 + 4 * j)) v = if v.toNat / 2 ^ (s.variant.senses - 32 * j) ≠ 0 then .absent else .ok := by
  obtain rfl | rfl : j = 0 ∨ j = 1 := by omega
  all_goals
    rw [State.judge_plain rfl (.inl hm)]
    simp [State.lockHolds, inpMask, State.judge6, State.inpBad, verdict]

theorem State.write_safeClr {s : State} {v : Word} {j : Nat} (hj : j < 2) (hs : 32 * j < s.variant.senses) (hm : s.glb.mode ≠ .sealed) :
    s.fullWrite (instOff 0x6048 4 2 j 0) v =
      if v.toNat / 2 ^ (s.variant.senses - 32 * j) ≠ 0 then s.absentWrite (0x6048 + 4 * j) else s.safeClr j v := by
  have hoff : instOff 0x6048 4 2 j 0 = 0x6048 + 4 * j := if_pos hj
  have hlow : instOff 0x6048 4 2 j 0 < 0x3E000 := instOff_low (by decide)
  split
  case isTrue h =>
    have hj' := State.judge_safeClr v hj hm
    rw [if_pos h] at hj'
    rw [State.fullWrite_at (msixOff_low hlow) (locOf_safeClr _ hj hs) (.inl rfl) (by simp), State.writeLoc, hj', hoff]
  case isFalse h =>
    have hj' := State.judge_safeClr v hj hm
    rw [if_neg h] at hj'
    obtain rfl | rfl : j = 0 ∨ j = 1 := by omega
    · rw [State.fullWrite_plain hlow (locOf_safeClr _ hj hs) (.inl rfl) rfl hj']
      rfl
    · rw [State.fullWrite_plain hlow (locOf_safeClr _ hj hs) (.inl rfl) rfl hj']
      rfl

/-- Settles O22: each clear from what a full write of its register does. -/
theorem clearsActWhereTheirCauseIsGone : Obligations.ClearsActWhereTheirCauseIsGone := by
  unfold Obligations.ClearsActWhereTheirCauseIsGone
  refine ⟨fun v s hr hm hb => ⟨fun k n hp hs => ?_, fun t l ht hl ha => ?_, fun t l ht hl hlatch ha => ?_, fun n hn h1 h2 h3 => ?_,
    fun n hn h => ?_⟩, fun v j s hr hm hj hs hv => ?_, fun v j s hr hm hj hs hv => ?_⟩
  · rw [exec_clrUnc, State.command_quiet _ hr, State.write_clrUnc (s := s.quiet) hm hb (by simpa using hp) (by simpa using hs)]
  · rw [exec_clrTrip, State.command_quiet _ hr, State.write_clrTrip (s := s.quiet) hm hb ht hl, if_neg]
    have hq : s.quiet.tripActive t l = s.tripActive t l := rfl
    simp [hq, ha]
  · refine ⟨s.quiet.setLeg t l (s.leg t l), ?_, fun m j => ?_, ?_⟩
    · rw [exec_clrTrip, State.command_quiet _ hr, State.write_clrTrip (s := s.quiet) hm hb ht hl]
      exact congrArg _ (if_pos (Bool.and_eq_true_iff.mpr ⟨hlatch, ha⟩))
    · rw [State.leg_setLeg]
      split
      case isTrue h => rw [h.1, h.2]
      case isFalse => rfl
    · rfl
  · refine ⟨_, ?_, rfl⟩
    rw [exec_clrIso, State.command_quiet _ hr, State.write_clrIso (s := s.quiet) hm hb hn]
    simp [State.updTile, h1, h2, h3]
  · refine ⟨_, ?_, rfl⟩
    rw [exec_clrIso, State.command_quiet _ hr, State.write_clrIso (s := s.quiet) hm hb hn]
    obtain h | h := h <;> simp [State.updTile, h]
  · rw [exec_inpSafeClr, State.command_quiet _ hr, State.write_safeClr (s := s.quiet) hj hs hm]
    exact congrArg _ (if_pos hv)
  · obtain ⟨l, hl, hc⟩ := State.safeClr_frame s.quiet hj v
    have hwrite : s.quiet.fullWrite (instOff 0x6048 4 2 j 0) v = s.quiet.safeClr j v :=
      (State.write_safeClr (s := s.quiet) hj hs hm).trans (if_neg (not_not_intro hv))
    refine exists_next (exec_inpSafeClr j v s) hr ?_
    simp only [hwrite, hl]
    refine ⟨rfl, fun n hn => ?_⟩
    have hmod : n % 32 < 32 := Nat.mod_lt _ (by decide)
    have hquiet : s.quiet.safeFree n = s.safeFree n := rfl
    rw [hc n hn, hquiet]
    simp [State.safeFree, hmod, Bool.and_assoc]

/-! ### The fixed-frequency generator and LEG_CTRL.MODE (R62, R221) -/

/-- A write that is carried out has passed its owner's check. -/
theorem State.judge6_of_ok {s : State} {l : Loc} {raw : Word} (h : s.judgeWrite l raw = .ok) :
    s.judge6 l raw (s.stored l) (s.merged l raw) = .ok := by
  simp only [State.judgeWrite, verdict] at h
  split at h
  · cases h
  · split at h
    · cases h
    · split at h
      · cases h
      · split at h
        · cases h
        · simpa using h

theorem State.write_pwmPer {s : State} {t l : Nat} {v : Word} (hm : s.glb.mode ≠ .sealed) (ht : t < s.variant.tiles) (hl : l < 16)
    (hmode : (s.leg t l).mode = 4) (hper : 2000 ≤ fld v 0 16) (hph : fld v 16 16 ≠ 65535) :
    s.fullWrite (legReg t l 0x24) v =
      s.setLeg t l { s.leg t l with armedSet := true, shadow := { (s.leg t l).shadow with per := fld v 0 16, ph := fld v 16 16 } } := by
  have hv : s.merged (.leg t l 0x24) v = v := State.merged_all rfl rfl v
  rw [State.fullWrite_free (legReg_low t l (by decide)) (locOf_leg _ t l 0x24 ht hl (by decide)) (.inl rfl) rfl (.inl hm)
    (by simp [State.lockHolds]) (by simp [State.judge6, State.legBad, verdict, hv, hmode, hper, hph]), hv]
  simp [State.putLoc, State.store, State.wrote, State.updLeg, State.setLeg_setLeg, Leg.store]

/-- LEG_PWM_CTL takes its fields. -/
theorem State.write_arm {s : State} {t l : Nat} {v : Word} (hm : s.glb.mode ≠ .sealed) (ht : t < s.variant.tiles) (hl : l < 16)
    (hmode : (s.leg t l).mode = 4) (h0 : bit v 8 = false ∨ fld v 24 4 ≤ 11) (h1 : bit v 9 = false ∨ fld v 28 4 ≤ 11) :
    s.fullWrite (legReg t l 0x20) (v ||| 1) =
      s.setLeg t l { s.leg t l with armedSet := true, ctl := s.merged (.leg t l 0x20) (v ||| 1) } := by
  have hmask (i : Nat) (hi : (0xFF000300#32).getLsbD i = true) : (wd (Loc.leg t l 0x20).rwMask).getLsbD i = true := hi
  have hw0 : (Loc.leg t l 0x20).wmBits = 0 := rfl
  have hb8 : bit (s.merged (.leg t l 0x20) (v ||| 1)) 8 = bit v 8 := by
    rw [State.bit_merged hw0 _ (hmask 8 rfl), bit_or_one_ne v (by decide)]
  have hb9 : bit (s.merged (.leg t l 0x20) (v ||| 1)) 9 = bit v 9 := by
    rw [State.bit_merged hw0 _ (hmask 9 rfl), bit_or_one_ne v (by decide)]
  have hf24 : fld (s.merged (.leg t l 0x20) (v ||| 1)) 24 4 = fld v 24 4 := by
    rw [State.fld_merged hw0 _ fun i hi => hmask _ ((by decide : ∀ i < 4, (0xFF000300#32).getLsbD (24 + i) = true) i hi), fld_or_one v (by decide)]
  have hf28 : fld (s.merged (.leg t l 0x20) (v ||| 1)) 28 4 = fld v 28 4 := by
    rw [State.fld_merged hw0 _ fun i hi => hmask _ ((by decide : ∀ i < 4, (0xFF000300#32).getLsbD (28 + i) = true) i hi), fld_or_one v (by decide)]
  have hbad : s.legBad t l 0x20 (v ||| 1) (s.merged (.leg t l 0x20) (v ||| 1)) = .ok := by
    have h8 : (bit v 8 && decide (11 < fld v 24 4)) = false := by obtain h | h := h0 <;> simp [h]
    have h9 : (bit v 9 && decide (11 < fld v 28 4)) = false := by obtain h | h := h1 <;> simp [h]
    simp only [State.legBad, verdict, hb8, hb9, hf24, hf28, h8, h9, bit_or_one, hmode]
    rfl
  rw [State.fullWrite_free (legReg_low t l (by decide)) (locOf_leg _ t l 0x20 ht hl (by decide)) (.inl rfl) rfl (.inl hm)
    (by simp [State.lockHolds]) hbad]
  simp only [State.putLoc, State.store, State.wrote, bit_or_one, if_true, State.updLeg, State.leg_setLeg_self, State.setLeg_setLeg]
  rfl

/-- LEG_CTRL.MODE is stored and the leg goes idle at Hi-Z where it changes. -/
theorem State.write_legMode {s : State} {t l : Nat} {v : Word} (ht : t < s.variant.tiles) (hl : l < 16)
    (hj : s.judgeWrite (.leg t l 0) v = .ok) :
    s.fullWrite (legReg t l 0) v = s.setLeg t l (({ s.leg t l with mode := fld v 0 3 }).modeWritten (wd (s.leg t l).mode).toNat) := by
  have hsmall : (s.merged (.leg t l 0) v).toNat ≤ 4 := by
    have h6 := State.judge6_of_ok hj
    simp only [State.judge6, State.legBad, verdict] at h6
    refine Nat.le_of_not_lt fun hbig => ?_
    simp [hbig] at h6
  have hmode : (s.merged (.leg t l 0) v).toNat = fld v 0 3 := by
    rw [← State.fld_merged (s := s) (l := .leg t l 0) rfl v (lo := 0) (n := 3)
      (fun i hi => (by decide : ∀ i < 3, (7#32).getLsbD (0 + i) = true) i hi)]
    simp only [fld]
    omega
  rw [State.fullWrite_plain (legReg_low t l (by decide)) (locOf_leg _ t l 0 ht hl (by decide)) (.inl rfl) rfl hj]
  simp [State.putLoc, State.store, State.wrote, State.updLeg, State.setLeg_setLeg, Leg.store, hmode, State.stored, Leg.stored]

theorem Leg.modeWritten_mode (x : Leg) (old : Nat) : (x.modeWritten old).mode = x.mode := by
  unfold Leg.modeWritten
  split <;> rfl

theorem Leg.modeWritten_changed {x : Leg} {old : Nat} (h : x.mode ≠ old) :
    (x.modeWritten old).hiz = true ∧ (x.modeWritten old).solPhase = .idle := by
  simp [Leg.modeWritten, h, Leg.toHiz]

/-- Settles O23: each register of the generator and LEG_CTRL.MODE from what a full write of it does. -/
theorem pwmWritesReachTheShadow : Obligations.PwmWritesReachTheShadow := by
  unfold Obligations.PwmWritesReachTheShadow
  refine fun v t l s hr ht hl => ⟨fun hm hmode hper hph => ?_, fun hm hmode h0 h1 => ?_, fun hj => ?_⟩
  · rw [exec_legPwmPerWrite, State.command_quiet _ hr, State.write_pwmPer (s := s.quiet) hm ht hl hmode hper hph]
    rfl
  · refine exists_next (exec_arm t l v s) hr ?_
    rw [State.write_arm (s := s.quiet) hm ht hl hmode h0 h1]
    simp only [State.leg_setLeg_self]
    refine ⟨trivial, rfl, ?_, fun m j hne => ?_⟩
    · refine BitVec.eq_of_getLsbD_eq fun i _ => ?_
      rw [BitVec.getLsbD_and, BitVec.getLsbD_and, State.getLsbD_merged rfl]
      cases h : (0xFF000300 : Word).getLsbD i with
      | false => simp
      | true =>
        have hi : 0 < i := Nat.pos_of_ne_zero fun h0 => by subst h0; exact absurd h (by decide)
        rw [if_pos (show (wd (Loc.leg t l 0x20).rwMask).getLsbD i = true from h), show (v ||| 1).getLsbD i = v.getLsbD i from bit_or_one_ne v hi]
    · exact (State.leg_setLeg ..).trans (if_neg fun h => hne (by rw [h.1, h.2]))
  · refine exists_next (exec_legModeWrite t l v s) hr ?_
    rw [State.write_legMode (s := s.quiet) ht hl hj]
    simp only [State.leg_setLeg_self, Leg.modeWritten_mode]
    refine ⟨trivial, fun hne h8 => Leg.modeWritten_changed ?_, fun m j hne => ?_⟩
    · have hold : (wd (s.leg t l).mode).toNat = (s.leg t l).mode := by simp [wd]; omega
      simpa [hold] using hne
    · exact (State.leg_setLeg ..).trans (if_neg fun h => hne (by rw [h.1, h.2]))

/-! ### CFG_COMMIT, CFG_CRC_REF and CFG_LOCK (R440, R449) -/

/-- A full write of a register of the CFG block outside Sealed is judged by CFG_LOCK alone. -/
theorem State.write_cfg {s : State} {o : Nat} (v : Word) (ho : o ∈ cfgOffs) (hm : s.glb.mode ≠ .sealed) :
    s.fullWrite (0x30000 + o) v =
      if s.lockViolated (.cfg o) v (s.stored (.cfg o)) (s.merged (.cfg o) v) then s.violWrite (0x30000 + o)
      else (s.store (.cfg o) (s.merged (.cfg o) v)).wrote (.cfg o) (0x30000 + o) v (s.stored (.cfg o)) (s.merged (.cfg o) v) := by
  have hoff : 0x30000 + o < 0x3E000 := by
    have := (by decide : ∀ o ∈ cfgOffs, o < 0x100) o ho
    omega
  have hj : s.judgeWrite (.cfg o) v =
      if s.lockViolated (.cfg o) v (s.stored (.cfg o)) (s.merged (.cfg o) v) then .viol else .ok := by
    rw [State.judge_open Loc.noConfusion fun h => absurd h hm]
    simp [verdict, State.lockHolds, State.judge6]
  rw [State.fullWrite_at (msixOff_low hoff) (locOf_cfg _ o ho) (.inl rfl) Loc.noConfusion]
  cases hv : s.lockViolated (.cfg o) v (s.stored (.cfg o)) (s.merged (.cfg o) v) with
  | true =>
    rw [hv, if_pos rfl] at hj
    simp [State.writeLoc, hj]
  | false =>
    rw [hv, if_neg Bool.false_ne_true] at hj
    rw [State.writeLoc_ok hj, State.carryOut_outside rfl Loc.noConfusion]
    rfl

/-- What CFG_LOCK holds of the CFG block. -/
theorem State.lockViolated_cfg (s : State) (o : Nat) (raw old v : Word) :
    s.lockViolated (.cfg o) raw old v =
      ((decide (o = 0x10) && s.cfg.lockWritten) || (bit s.cfg.lock 2 && decide (o = 0x08) && decide (old ^^^ v ≠ 0)) ||
        (decide (o = 0x04) && bit s.cfg.lock 2 && (bit raw 0 || bit raw 1))) := by
  have hheld : s.heldMask (.cfg o) = if bit s.cfg.lock 2 && decide (o = 0x08) then 0xFFFFFFFF else 0 := by
    by_cases h2 : bit s.cfg.lock 2 <;> by_cases h8 : o = 0x08 <;> simp [State.heldMask, h2, h8, Loc.setMask]
  unfold State.lockViolated
  rw [hheld]
  cases hc : bit s.cfg.lock 2 && decide (o = 0x08) with
  | true => simp [changes, wd]
  | false => simp

theorem State.write_commit {s : State} (v : Word) (hm : s.glb.mode ≠ .sealed) :
    s.fullWrite 0x30004 v =
      if bit s.cfg.lock 2 && (bit v 0 || bit v 1) then s.violWrite 0x30004 else { s with cfg := s.cfg.commitWrite v } := by
  rw [State.write_cfg (o := 0x04) v (by decide) hm, State.lockViolated_cfg]
  simp only [Nat.reduceEqDiff, decide_false, decide_true, Bool.false_and, Bool.and_false, Bool.or_false, Bool.true_and]
  rfl

theorem State.write_crcRef {s : State} (v : Word) (hm : s.glb.mode ≠ .sealed) (hl : bit s.cfg.lock 2 = false) :
    s.fullWrite 0x30008 v = { s with cfg := { s.cfg.withdraw with ref := v } } := by
  have hv : s.merged (.cfg 0x08) v = v := State.merged_all rfl rfl v
  rw [State.write_cfg (o := 0x08) v (by decide) hm, State.lockViolated_cfg, hv]
  simp [hl, State.store, State.wrote, CfgB.withdraw]

theorem State.write_lock {s : State} (v : Word) (hm : s.glb.mode ≠ .sealed) :
    s.fullWrite 0x30010 v =
      if s.cfg.lockWritten then s.violWrite 0x30010
      else { s with cfg := { s.cfg with lock := (s.cfg.lock &&& ~~~ 7) ||| (v &&& 7), lockWritten := true } } := by
  rw [State.write_cfg (o := 0x10) v (by decide) hm, State.lockViolated_cfg]
  simp only [Nat.reduceEqDiff, decide_false, decide_true, Bool.false_and, Bool.and_false, Bool.or_false, Bool.true_and]
  rfl

/-- Settles O24: each register of the CFG block from what a full write of it does. -/
theorem commitAndLockFollowTheirRules : Obligations.CommitAndLockFollowTheirRules := by
  unfold Obligations.CommitAndLockFollowTheirRules
  refine fun v s hr hm => ⟨fun hl hb => ?_, fun hl => ?_, fun hl => ?_, fun hl => ⟨?_, ?_⟩, fun hw h0 => ?_, fun hw => ?_⟩
  · rw [exec_commit, State.command_quiet _ hr, State.write_commit (s := s.quiet) _ hm]
    simp only [State.quiet_cfg, hl, Bool.false_and, Bool.false_eq_true, if_false, CfgB.commitWrite, bit_or_one, bit_or_one_ne v Nat.one_pos, hb,
      if_true]
  · rw [exec_uncommit, State.command_quiet _ hr, State.write_commit (s := s.quiet) _ hm]
    simp only [State.quiet_cfg, hl, Bool.false_and, Bool.false_eq_true, if_false, CfgB.commitWrite, bit_or_two, if_true]
  · rw [exec_cfgCrcRefWrite, State.command_quiet _ hr, State.write_crcRef (s := s.quiet) v hm hl]
    rfl
  · rw [exec_commit, State.command_quiet _ hr, State.write_commit (s := s.quiet) _ hm]
    simp only [State.quiet_cfg, hl, bit_or_one, Bool.true_or, Bool.and_self, if_true]
  · rw [exec_uncommit, State.command_quiet _ hr, State.write_commit (s := s.quiet) _ hm]
    simp only [State.quiet_cfg, hl, bit_or_two, Bool.or_true, Bool.and_self, if_true]
  · rw [exec_cfgLockWrite, State.command_quiet _ hr, State.write_lock (s := s.quiet) v hm]
    simp [hw, h0]
  · rw [exec_cfgLockWrite, State.command_quiet _ hr, State.write_lock (s := s.quiet) v hm]
    exact congrArg _ (if_pos hw)

end Sys2Proof.Machine
end

section
/-! SUPPORT. What the reaction to a fault leaves as it is. -/

namespace Sys2Proof.Machine
/-! ### What a stop, a record and a reaction leave as it is -/

/-- What no record of a fault, no reaction and no stop of a unit changes: the reference and the chain, temperatures, cores, inputs, the CFG
block, the off-state test, the shadows and what boot has found. -/
def State.aside (s : State) : Ref × Strait × Thm × Spr × Inp × CfgB × Bank DiagTile × Bank Word × Word × List Nat × Bool × Bool :=
  (s.ref, s.str, s.thm, s.spr, s.inp, s.cfg, s.diag, s.shadows, s.rdata, s.camBad, s.bootDone, s.bootPassed)

@[simp] theorem State.aside_eta (s : State) :
    (s.ref, s.str, s.thm, s.spr, s.inp, s.cfg, s.diag, s.shadows, s.rdata, s.camBad, s.bootDone, s.bootPassed) = s.aside := rfl

@[simp] theorem State.aside_mk (variant_ : Variant) (dt_ : Nat) (lastPeriod_ : Option Nat) (lastTick_ : Option Nat) (inReset_ : Bool) (bootDone_ : Bool) (bootPassed_ : Bool) (tap_ : TapPort) (glb_ : Glb) (ref_ : Ref) (str_ : Strait) (host_ : HostB) (flt_ : Flt) (thm_ : Thm) (spr_ : Spr) (inp_ : Inp) (axes_ : Bank Axis) (courses_ : Bank Course) (camAddr_ : Nat) (cam_ : List Host.Cell) (camBad_ : List Nat) (tiles_ : Bank Tile) (tbl_ : Bank Word) (cfg_ : CfgB) (diag_ : Bank DiagTile) (shadows_ : Bank Word) (rdata_ : Word) (out_ : List Output) (fresh_ : Nat) (pending_ : List Instr) :
    (State.mk variant_ dt_ lastPeriod_ lastTick_ inReset_ bootDone_ bootPassed_ tap_ glb_ ref_ str_ host_ flt_ thm_ spr_ inp_ axes_ courses_ camAddr_ cam_ camBad_ tiles_ tbl_ cfg_ diag_ shadows_ rdata_ out_ fresh_ pending_).aside =
      (ref_, str_, thm_, spr_, inp_, cfg_, diag_, shadows_, rdata_, camBad_, bootDone_, bootPassed_) := rfl

@[simp] theorem ite_aside (c : Prop) [Decidable c] (s t : State) : (if c then s else t).aside = if c then s.aside else t.aside := by
  split <;> rfl

/-- A fold keeps what each of its steps keeps. -/
theorem foldl_aside (f : State → α → State) (h : ∀ s a, (f s a).aside = s.aside) (l : List α) (s : State) :
    (l.foldl f s).aside = s.aside :=
  List.foldlRecOn l f (motive := fun t => t.aside = s.aside) rfl fun t ht a _ => (h t a).trans ht

@[simp] theorem State.setAxis_aside (s : State) (a : Nat) (x : Axis) : (s.setAxis a x).aside = s.aside := by
  unfold State.setAxis
  simp

@[simp] theorem State.setCourse_aside (s : State) (c : Nat) (x : Course) : (s.setCourse c x).aside = s.aside := by
  unfold State.setCourse
  simp

@[simp] theorem State.setTile_aside (s : State) (t : Nat) (x : Tile) : (s.setTile t x).aside = s.aside := by
  unfold State.setTile
  simp

@[simp] theorem State.setLeg_aside (s : State) (t l : Nat) (x : Leg) : (s.setLeg t l x).aside = s.aside := by
  unfold State.setLeg
  simp

@[simp] theorem State.setRing_aside (s : State) (r : Nat) (x : Ring) : (s.setRing r x).aside = s.aside := by
  unfold State.setRing
  simp

@[simp] theorem State.setMotion_aside (s : State) (k : UnitKind) (n : Nat) (m : Motion) : (s.setMotion k n m).aside = s.aside := by
  unfold State.setMotion
  split <;> simp

@[simp] theorem State.updAxis_aside (s : State) (a : Nat) (f : Axis → Axis) : (s.updAxis a f).aside = s.aside := by
  unfold State.updAxis
  simp

@[simp] theorem State.updCourse_aside (s : State) (c : Nat) (f : Course → Course) : (s.updCourse c f).aside = s.aside := by
  unfold State.updCourse
  simp

@[simp] theorem State.updTile_aside (s : State) (t : Nat) (f : Tile → Tile) : (s.updTile t f).aside = s.aside := by
  unfold State.updTile
  simp

@[simp] theorem State.updLeg_aside (s : State) (t l : Nat) (f : Leg → Leg) : (s.updLeg t l f).aside = s.aside := by
  unfold State.updLeg
  simp

@[simp] theorem State.updRing_aside (s : State) (r : Nat) (f : Ring → Ring) : (s.updRing r f).aside = s.aside := by
  unfold State.updRing
  simp

@[simp] theorem State.updMotion_aside (s : State) (k : UnitKind) (n : Nat) (f : Motion → Motion) : (s.updMotion k n f).aside = s.aside := by
  unfold State.updMotion
  simp

@[simp] theorem State.emit_aside (s : State) (o : Output) : (s.emit o).aside = s.aside := by
  unfold State.emit
  simp

@[simp] theorem State.complete_aside (s : State) (g : Tag) (r : List Word) : (s.complete g r).aside = s.aside := by
  unfold State.complete
  simp

@[simp] theorem State.sendFault_aside (s : State) (c : FClass) : (s.sendFault c).aside = s.aside := by
  unfold State.sendFault
  simp [foldl_aside]

@[simp] theorem State.announce_aside (s : State) (c : FClass) : (s.announce c).aside = s.aside := by
  unfold State.announce
  simp

@[simp] theorem State.rehold_aside (s : State) (u v : Nat) : (s.rehold u v).aside = s.aside := by
  unfold State.rehold
  simp

@[simp] theorem State.fifth_aside (s : State) (e x : Entry) (l older : List Entry) : (s.fifth e x l older).1.aside = s.aside := by
  unfold State.fifth
  split <;> simp

@[simp] theorem State.record_aside (s : State) (src : Nat) (c : FClass) (detail : Word) (inj : Bool) : (s.record src c detail inj).1.aside = s.aside := by
  unfold State.record
  dsimp only
  (repeat' split) <;> simp

@[simp] theorem State.postStop_aside (s : State) (k : UnitKind) (n : Nat) (c : StopCause) : (s.postStop k n c).aside = s.aside := by
  unfold State.postStop
  simp

@[simp] theorem State.endSol_aside (s : State) (t l : Nat) : (s.endSol t l).aside = s.aside := by
  unfold State.endSol
  split <;> simp

@[simp] theorem State.payOwed_aside (s : State) : (s.payOwed).aside = s.aside := by
  unfold State.payOwed
  simp [foldl_aside]

@[simp] theorem State.legHiz_aside (s : State) (t l : Nat) : (s.legHiz t l).aside = s.aside := by
  unfold State.legHiz
  simp

@[simp] theorem State.axisHiz_aside (s : State) (a : Nat) (c : StopCause) : (s.axisHiz a c).aside = s.aside := by
  unfold State.axisHiz
  simp [foldl_aside]

@[simp] theorem State.allHiz_aside (s : State) (c : StopCause) : (s.allHiz c).aside = s.aside := by
  unfold State.allHiz
  simp [foldl_aside]

@[simp] theorem State.answerMode_aside (s : State) (g : Tag) (status : Nat) : (s.answerMode g status).aside = s.aside := by
  unfold State.answerMode
  simp

@[simp] theorem State.overtake_aside (s : State) : (s.overtake).aside = s.aside := by
  unfold State.overtake
  (repeat' split) <;> simp

@[simp] theorem State.answerOvertaken_aside (s : State) : (s.answerOvertaken).aside = s.aside := by
  unfold State.answerOvertaken
  simp [foldl_aside]

@[simp] theorem State.eventMode_aside (s : State) (m : DevMode) (cause : Nat) : (s.eventMode m cause).aside = s.aside := by
  unfold State.eventMode
  simp

@[simp] theorem State.holdAxis_aside (s : State) (uid a : Nat) : (s.holdAxis uid a).aside = s.aside := by
  unfold State.holdAxis
  simp

@[simp] theorem State.isoAxis_aside (s : State) (a uid : Nat) : (s.isoAxis a uid).aside = s.aside := by
  unfold State.isoAxis
  simp

@[simp] theorem State.holdTile_aside (s : State) (uid t : Nat) : (s.holdTile uid t).aside = s.aside := by
  unfold State.holdTile
  simp [foldl_aside]

@[simp] theorem State.isoTile_aside (s : State) (t : Nat) : (s.isoTile t).aside = s.aside := by
  unfold State.isoTile
  simp [foldl_aside]

@[simp] theorem State.legsFollow_aside (s : State) (t l : Nat) : (s.legsFollow t l).aside = s.aside := by
  unfold State.legsFollow
  simp [foldl_aside]

@[simp] theorem State.isolateLeg_aside (s : State) (t l uid : Nat) : (s.isolateLeg t l uid).aside = s.aside := by
  unfold State.isolateLeg
  simp

@[simp] theorem State.isolate_aside (s : State) (u : FUnit) (uid : Nat) : (s.isolate u uid).aside = s.aside := by
  unfold State.isolate
  split <;> simp (disch := (intros; simp)) [foldl_aside]

@[simp] theorem State.haltAll_aside (s : State) (starved : Bool) (except : Option (UnitKind × Nat)) : (s.haltAll starved except).aside = s.aside := by
  unfold State.haltAll
  simp [foldl_aside]

@[simp] theorem State.react_aside (s : State) (c : FClass) (u : FUnit) (uid : Nat) (starved : Bool) (except : Option (UnitKind × Nat)) : (s.react c u uid starved except).aside = s.aside := by
  unfold State.react
  (repeat' split) <;> simp

@[simp] theorem State.raiseAs_aside (s : State) (src : Nat) (c : FClass) (detail : Word) (inj : Bool) (u : FUnit) : (s.raiseAs src c detail inj u).aside = s.aside := by
  unfold State.raiseAs
  simp

@[simp] theorem State.raise_aside (s : State) (src : Nat) (detail : Word) (u : FUnit) : (s.raise src detail u).aside = s.aside := by
  unfold State.raise
  simp

@[simp] theorem State.entryEnded_aside (s : State) (k : UnitKind) (n status : Nat) : (s.entryEnded k n status).aside = s.aside := by
  unfold State.entryEnded
  split <;> simp

@[simp] theorem State.silentEnd_aside (s : State) (k : UnitKind) (n : Nat) (a : Move) (status : Nat) : (s.silentEnd k n a status).aside = s.aside := by
  unfold State.silentEnd
  simp

@[simp] theorem State.completeMove_aside (s : State) (k : UnitKind) (n : Nat) (a : Move) (status : Nat) : (s.completeMove k n a status).aside = s.aside := by
  unfold State.completeMove
  simp

@[simp] theorem State.completeMoveBy_aside (s : State) (k : UnitKind) (n : Nat) (a : Move) (status : Nat) (mem : Option (Nat × Nat)) : (s.completeMoveBy k n a status mem).aside = s.aside := by
  unfold State.completeMoveBy
  simp

@[simp] theorem State.entryCaught_aside (s : State) (k : UnitKind) (n : Nat) (c : StopCause) : (s.entryCaught k n c).aside = s.aside := by
  unfold State.entryCaught
  simp

@[simp] theorem State.cancelLook_aside (s : State) (k : UnitKind) (n : Nat) : (s.cancelLook k n).aside = s.aside := by
  unfold State.cancelLook
  simp [foldl_aside]

@[simp] theorem State.cancelDwell_aside (s : State) (k : UnitKind) (n : Nat) : (s.cancelDwell k n).aside = s.aside := by
  unfold State.cancelDwell
  split <;> simp

@[simp] theorem State.completeStops_aside (s : State) (k : UnitKind) (n : Nat) : (s.completeStops k n).aside = s.aside := by
  unfold State.completeStops
  simp [foldl_aside]

@[simp] theorem State.freeWindow_aside (s : State) (k : UnitKind) (n : Nat) : (s.freeWindow k n).aside = s.aside := by
  unfold State.freeWindow
  simp

@[simp] theorem State.cancelLater_aside (s : State) (k : UnitKind) (n : Nat) : (s.cancelLater k n).aside = s.aside := by
  unfold State.cancelLater
  simp (disch := (intros; split <;> simp)) [foldl_aside]

@[simp] theorem State.endFollowed_aside (s : State) (k : UnitKind) (n status : Nat) (mem : Option (Nat × Nat)) : (s.endFollowed k n status mem).aside = s.aside := by
  unfold State.endFollowed
  dsimp only
  (repeat' split) <;> simp

@[simp] theorem State.finishStop_aside (s : State) (k : UnitKind) (n : Nat) : (s.finishStop k n).aside = s.aside := by
  unfold State.finishStop
  dsimp only
  (repeat' split) <;> simp

@[simp] theorem State.beginStop_aside (s : State) (k : UnitKind) (n : Nat) : (s.beginStop k n).aside = s.aside := by
  unfold State.beginStop
  split <;> simp

@[simp] theorem State.setMember_aside (s : State) (c slot : Nat) (m : Member) : (s.setMember c slot m).aside = s.aside := by
  unfold State.setMember
  simp

@[simp] theorem State.setParent_aside (s : State) (k : UnitKind) (n : Nat) (p : Option (Nat × Nat)) : (s.setParent k n p).aside = s.aside := by
  unfold State.setParent
  split <;> simp

@[simp] theorem State.detach_aside (s : State) (c slot : Nat) : (s.detach c slot).aside = s.aside := by
  unfold State.detach
  simp

@[simp] theorem State.markMember_aside (s : State) (c slot a : Nat) : (s.markMember c slot a).aside = s.aside := by
  unfold State.markMember
  simp

@[simp] theorem State.memberReport_aside (s : State) (a : Nat) : (s.memberReport a).aside = s.aside := by
  unfold State.memberReport
  simp [foldl_aside]

@[simp] theorem State.memberEvent_aside (s : State) (a : Nat) (cause : Option StopCause) : (s.memberEvent a cause).aside = s.aside := by
  unfold State.memberEvent
  dsimp only
  (repeat' split) <;> simp (disch := (intros; (repeat' split) <;> (try simp))) [foldl_aside]

@[simp] theorem State.settleAxis_aside (s : State) (c : FClass) (a : Nat) : (s.settleAxis c a).aside = s.aside := by
  unfold State.settleAxis
  (repeat' split) <;> simp

@[simp] theorem State.settle_aside (s : State) (c : optParam FClass FClass.log) : (s.settle c).aside = s.aside := by
  unfold State.settle
  simp [foldl_aside]

@[simp] theorem State.fault_aside (s : State) (src : Nat) (detail : Word) (u : FUnit) : (s.fault src detail u).aside = s.aside := by
  unfold State.fault
  simp

end Sys2Proof.Machine
end

section
/-! SUPPORT. The registers of the reference, the rings and the inputs. -/

namespace Sys2Proof.Machine

/-! ### Full writes of registers of the configuration set (R441, R451) -/

theorem CfgB.dirty_clearing (c : CfgB) (ws : List Word) : (c.dirty ws).clearing = c.clearing := by
  unfold CfgB.dirty
  split <;> rfl

/-- A write that is carried out first notes, in the CFG block, that the set has changed. -/
theorem State.carryOut_frame (s : State) {l : Loc} (off : Nat) (raw : Word) (hf : l ≠ .flt 0x0C) :
    ∃ c, c.clearing = s.cfg.clearing ∧ s.carryOut l off raw =
      (({ s with cfg := c }).putLoc l (s.merged l raw)).wrote l off raw (s.stored l) (s.merged l raw) := by
  unfold State.carryOut
  simp only [hf, decide_false, Bool.false_and, Bool.false_eq_true, if_false]
  split
  · exact ⟨_, CfgB.dirty_clearing .., rfl⟩
  · exact ⟨s.cfg, rfl, rfl⟩

/-- A full write of a register of the set that passes every step. -/
theorem State.fullWrite_inSet {s : State} {off : Nat} {l : Loc} {raw : Word} (hoff : off < 0x3E000) (hl : locOf s.variant off = some l)
    (hw : l.wmBits = 0) (hc : l ≠ .cam 4) (hf : l ≠ .flt 0x0C) (hj : s.judgeWrite l raw = .ok) :
    ∃ c, c.clearing = s.cfg.clearing ∧ s.fullWrite off raw =
      (({ s with cfg := c }).putLoc l (s.merged l raw)).wrote l off raw (s.stored l) (s.merged l raw) := by
  rw [State.fullWrite_ok (msixOff_low hoff) hl (.inl hw) hc hj]
  exact State.carryOut_frame s off raw hf

/-! ### REF_CTRL and the start of the RC (R80 to R82, R118) -/

theorem State.write_refCtrl {s : State} {v : Word} (hj : s.judgeWrite (.ref 0) v = .ok) :
    ∃ c, s.fullWrite 0x1000 v =
      ({ s with cfg := c, ref := { s.ref with ctrl := s.merged (.ref 0) v } }).refCtrlWritten s.ref.ctrl (s.merged (.ref 0) v) := by
  obtain ⟨c, -, h⟩ := State.fullWrite_inSet (by decide) (locOf_ref _ 0x00 (by decide)) rfl (by decide) (by decide) hj
  exact ⟨c, h⟩

section
variable (s : State) (old v : Word)

/-- TCOMP_EN = 0 ends the compensation; nothing else of the write is undone by it. -/
theorem State.refCtrlWritten_ref : ∃ p, (s.refCtrlWritten old v).ref =
    if bit v 1 then { s.ref with startPend := p } else ({ s.ref with startPend := p }).tcOff := by
  unfold State.refCtrlWritten
  cases bit v 1
  · cases bit v 0 && !bit old 0 && decide (s.glb.mode ≠ .configure) <;> exact ⟨_, rfl⟩
  · cases bit v 0 && !bit old 0 && decide (s.glb.mode ≠ .configure) <;> exact ⟨_, rfl⟩

theorem State.refCtrlWritten_ctrl : (s.refCtrlWritten old v).ref.ctrl = s.ref.ctrl := by
  obtain ⟨p, h⟩ := State.refCtrlWritten_ref s old v
  rw [h]
  split <;> rfl

theorem State.refCtrlWritten_rc : (s.refCtrlWritten old v).ref.rc = s.ref.rc := by
  obtain ⟨p, h⟩ := State.refCtrlWritten_ref s old v
  rw [h]
  split <;> rfl

theorem State.refCtrlWritten_run : (s.refCtrlWritten old v).ref.run = s.ref.run := by
  obtain ⟨p, h⟩ := State.refCtrlWritten_ref s old v
  rw [h]
  split <;> rfl

end

theorem State.refCtrlWritten_tcC {s : State} {old v : Word} (hb : bit v 1 = true) : (s.refCtrlWritten old v).ref.tcC = s.ref.tcC := by
  obtain ⟨p, h⟩ := State.refCtrlWritten_ref s old v
  rw [h, if_pos hb]

theorem State.refCtrlWritten_tcOff {s : State} {old v : Word} (hb : bit v 1 = false) :
    (s.refCtrlWritten old v).ref.tcAct = false ∧ (s.refCtrlWritten old v).ref.tcC = 0 := by
  obtain ⟨p, h⟩ := State.refCtrlWritten_ref s old v
  rw [h, if_neg (Bool.eq_false_iff.mp hb)]
  exact ⟨rfl, rfl⟩

/-- EN set outside Configure schedules the start. -/
theorem State.refCtrlWritten_starts {s : State} {old v : Word} (hm : s.glb.mode ≠ .configure) (hv : bit v 0 = true) (ho : bit old 0 = false) :
    (s.refCtrlWritten old v).ref.startPend = true := by
  simp only [State.refCtrlWritten, hv, ho, Bool.not_false, Bool.and_self, decide_eq_true hm, if_true]
  split <;> rfl

/-- The RC as it begins: at PRESET, or where it stood. -/
theorem State.rcBegin_due {s : State} (hd : s.ref.startDue = true) :
    s.rcBegin = { s with
      inp := { s.inp with encCnt := if fld s.ref.src 0 4 = 1 then Bank.set s.inp.encCnt (fld s.ref.src 4 4) (wd (s.ref.startValue / 2 ^ 40))
                                    else s.inp.encCnt }
      ref := { s.ref with
      run := true, startPend := false, startDue := false, rc := s.ref.startValue, rcLast := s.ref.startValue, markFrom := s.ref.startValue / 2 ^ 40
      encRate := if s.ref.encDt + 65536 ≤ s.dt then 0 else s.ref.encRate
      lock := if decide (fld s.ref.src 0 4 = 2) then .acquiring else .none
      lineRate := s.ref.lineRateNom, lineGood := 0, lineBad := 0, lineDt := s.dt, linePeriod := s.ref.linePeriodNom } } := by
  unfold State.rcBegin
  rw [if_pos hd]
  unfold State.loadCount
  split <;> rfl

/-- The three writable bits of REF_CTRL are those written. -/
theorem State.merged_refCtrl (s : State) (v : Word) : s.merged (.ref 0) v &&& 7 = v &&& 7 := by
  refine BitVec.eq_of_getLsbD_eq fun i _ => ?_
  rw [BitVec.getLsbD_and, BitVec.getLsbD_and, State.getLsbD_merged rfl]
  cases h : (7 : Word).getLsbD i with
  | false => simp
  | true => rw [if_pos (show (wd (Loc.ref 0).rwMask).getLsbD i = true from h)]

theorem State.bit_refCtrl (s : State) (v : Word) {i : Nat} (hi : i < 3) : bit (s.merged (.ref 0) v) i = bit v i :=
  State.bit_merged rfl v ((by decide : ∀ i < 3, (7#32).getLsbD i = true) i hi)

/-! ### Training (R103, R95, R30) -/

theorem locOf_strCtrl {v : Variant} (h : 0 < v.ports) : locOf v 0x1060 = some (.ref 0x60) := by
  revert h
  cases v <;> decide

theorem State.write_strCtrl {s : State} {v : Word} (hp : 0 < s.variant.ports) (hj : s.judgeWrite (.ref 0x60) v = .ok) :
    ∃ c, s.fullWrite 0x1060 v =
      ({ s with cfg := c, str := { s.str with ctrl := s.merged (.ref 0x60) v } }).strCtrlWritten v s.str.ctrl (s.merged (.ref 0x60) v) := by
  obtain ⟨c, -, h⟩ := State.fullWrite_inSet (by decide) (locOf_strCtrl hp) rfl (by decide) (by decide) hj
  exact ⟨c, h⟩

theorem State.merged_strCtrl (s : State) (v : Word) : s.merged (.ref 0x60) v &&& 0xFFCF = v &&& 0xFFCF := by
  refine BitVec.eq_of_getLsbD_eq fun i _ => ?_
  rw [BitVec.getLsbD_and, BitVec.getLsbD_and, State.getLsbD_merged rfl]
  cases h : (0xFFCF : Word).getLsbD i with
  | false => simp
  | true => rw [if_pos (show (wd (Loc.ref 0x60).rwMask).getLsbD i = true from h)]

/-- The strait after a write of its role that asks for training. -/
def Strait.roleSet (t : Strait) (old : Nat) : Strait :=
  let u := if old = fld t.ctrl 0 2 then t else t.newRole (fld t.ctrl 0 2)
  if u.isFollower && !u.long then u.train else u

theorem State.strCtrlWritten_train {s : State} {raw old : Word} (hr : bit raw 5 = true) :
    (s.strCtrlWritten raw old s.str.ctrl).str = s.str.roleSet (fld old 0 2) ∧
    (s.strCtrlWritten raw old s.str.ctrl).ref.phase =
      if fld old 0 2 = fld s.str.ctrl 0 2 ∨ fld s.str.ctrl 0 2 = 2 then s.ref.phase else 0 := by
  unfold State.strCtrlWritten State.retrain Strait.roleSet
  simp only [hr, if_true]
  by_cases h : fld old 0 2 = fld s.str.ctrl 0 2
  · simp only [h, if_true, true_or]
    split <;> exact ⟨rfl, rfl⟩
  · simp only [h, if_false, false_or]
    split <;> exact ⟨rfl, rfl⟩

theorem Strait.roleSet_ctrl (t : Strait) (old : Nat) : (t.roleSet old).ctrl = t.ctrl := by
  unfold Strait.roleSet
  dsimp only
  repeat' split
  all_goals rfl

theorem Strait.roleSet_trains {t : Strait} {old : Nat} (h2 : fld t.ctrl 0 2 = 2) (h : old ≠ 2 ∨ t.long = false) :
    (t.roleSet old).training = true ∧ (t.roleSet old).reqNo = 0 ∧ (t.roleSet old).results = [] ∧ (t.roleSet old).link0 = 1 := by
  unfold Strait.roleSet
  by_cases ho : old = 2
  · have hlong : t.long = false := h.resolve_left (not_not_intro ho)
    simp [h2, ho, Strait.isFollower, hlong, Strait.train]
  · simp [h2, ho, Strait.isFollower, Strait.newRole, Strait.train]

theorem Strait.roleSet_idle {t : Strait} {old : Nat} (h : fld t.ctrl 0 2 ≠ 2 ∨ (old = 2 ∧ t.long = true)) :
    (t.roleSet old).training = t.training ∧ (t.roleSet old).link0 = t.link0 := by
  unfold Strait.roleSet
  by_cases h2 : fld t.ctrl 0 2 = 2
  · obtain ⟨ho, hlong⟩ := h.resolve_left (not_not_intro h2)
    simp [h2, ho, Strait.isFollower, hlong]
  · by_cases ho : old = fld t.ctrl 0 2
    · simp [ho, Strait.isFollower, h2]
    · simp [ho, Strait.isFollower, h2, Strait.newRole]

theorem Strait.roleSet_changed {t : Strait} {old : Nat} (h : fld t.ctrl 0 2 ≠ old) :
    (t.roleSet old).long = false ∧ (t.roleSet old).extrap = false ∧ (t.roleSet old).missRun = 0 := by
  unfold Strait.roleSet
  simp only [Ne.symm h, if_false]
  split <;> exact ⟨rfl, rfl, rfl⟩

/-- Settles O26: REF_CTRL and REF_STR_CTRL from what a full write of each does, and the start of the RC. -/
theorem referenceAndTrainingFollowTheirRegisters : Obligations.ReferenceAndTrainingFollowTheirRegisters := by
  unfold Obligations.ReferenceAndTrainingFollowTheirRegisters
  refine ⟨fun v s hr => ⟨fun hj => ?_, fun hj => ?_, fun hj => ?_, fun hd => ?_, fun hd => ?_⟩, fun v s hr hp hj => ?_⟩
  · obtain ⟨c, h⟩ := State.write_refCtrl hj
    refine exists_next (exec_refEnable v s) hr ?_
    have hb0 : bit (s.quiet.merged (.ref 0) (v ||| 1)) 0 = true := by
      rw [State.bit_refCtrl _ _ (by decide), bit_or_one]
    have hb1 : bit (s.quiet.merged (.ref 0) (v ||| 1)) 1 = bit v 1 := by
      rw [State.bit_refCtrl _ _ (by decide), bit_or_one_ne v Nat.one_pos]
    rw [h]
    refine ⟨?_, ?_, fun hm hb => State.refCtrlWritten_starts hm hb0 hb, fun hb => ?_⟩
    · rw [State.refCtrlWritten_ctrl, State.merged_refCtrl]
    · rw [State.refCtrlWritten_rc]
      rfl
    · exact State.refCtrlWritten_tcOff (hb1.trans hb)
  · obtain ⟨c, h⟩ := State.write_refCtrl hj
    refine exists_next (exec_refDisable v s) hr ?_
    rw [h, State.refCtrlWritten_ctrl, State.refCtrlWritten_run, State.bit_refCtrl _ _ (by decide), bit_and_notOne]
    exact ⟨rfl, rfl⟩
  · obtain ⟨c, h⟩ := State.write_refCtrl hj
    refine exists_next (exec_tcompEnWrite v s) hr ?_
    have hb : bit (s.quiet.merged (.ref 0) (v ||| 2)) 1 = true := by
      rw [State.bit_refCtrl _ _ (by decide), bit_or_two]
    rw [h, State.refCtrlWritten_ctrl, State.refCtrlWritten_tcC hb]
    exact ⟨hb, rfl⟩
  · refine exists_next (exec_rcStart s) hr ?_
    rw [State.rcBegin_due (s := s.quiet) hd]
    exact ⟨rfl, rfl, rfl, rfl, rfl, rfl, rfl, rfl, rfl⟩
  · rw [exec_rcStart, State.command_quiet _ hr, State.rcBegin, if_neg]
    exact Bool.eq_false_iff.mp hd
  · obtain ⟨c, h⟩ := State.write_strCtrl (s := s.quiet) hp hj
    refine exists_next (exec_train v s) hr ?_
    have hbit : bit (v ||| 0x20) 5 = true := by simp [bit]
    obtain ⟨hstr, hphase⟩ := State.strCtrlWritten_train (s := { s.quiet with cfg := c, str := { s.str with ctrl := s.quiet.merged (.ref 0x60) (v ||| 0x20) } })
      (old := s.str.ctrl) hbit
    have hset : s.quiet.fullWrite 0x1060 (v ||| 0x20) = ({ s.quiet with cfg := c, str := { s.str with ctrl := s.quiet.merged (.ref 0x60) (v ||| 0x20) } } : State).strCtrlWritten
      (v ||| 0x20) s.str.ctrl (s.quiet.merged (.ref 0x60) (v ||| 0x20)) := h
    rw [hset, hstr, hphase, Strait.roleSet_ctrl]
    refine ⟨State.merged_strCtrl .., fun h2 ho => Strait.roleSet_trains h2 ho, fun ho => Strait.roleSet_idle ho, fun hne => Strait.roleSet_changed hne,
      fun h2 ho => if_neg ?_⟩
    rintro (heq | heq)
    · exact h2 (heq.symm.trans ho)
    · exact h2 heq

/-! ### HOST_CTRL, rings and budgets (R369, R380, R381, R389, R390) -/

theorem State.write_hostCtrl {s : State} {v : Word} (hj : s.judgeWrite (.host 0) v = .ok) :
    s.fullWrite 0x2000 v =
      ({ s with host := { s.host with ctrl := s.merged (.host 0) v } }).clearing 0x2000 s.host.ctrl (s.merged (.host 0) v) :=
  State.fullWrite_plain (by decide) (locOf_host _ 0x00 (by decide)) (.inl rfl) rfl hj

theorem State.clearing_frame (s : State) (off : Nat) (old v : Word) : ∃ c, s.clearing off old v = { s with cfg := c } := by
  unfold State.clearing
  split
  · exact ⟨_, rfl⟩
  · exact ⟨s.cfg, rfl⟩

theorem State.bit_hostCtrl (s : State) (v : Word) : bit (s.merged (.host 0) v) 0 = bit v 0 :=
  State.bit_merged rfl v (by decide)

theorem State.write_ringCtrl {s : State} {r : Nat} {v : Word} (hr : r < s.variant.rings) (hj : s.judgeWrite (.ring r 0) v = .ok) :
    s.fullWrite (ringReg r 0) v =
      (s.updRing r fun x => { x with ctrl := s.merged (.ring r 0) v }).ringCtrlWritten r (s.ring r).ctrl (s.merged (.ring r 0) v) :=
  State.fullWrite_plain (ringReg_low r (by decide)) (locOf_ring _ r 0 hr (by decide) (by decide)) (.inl rfl) rfl hj

theorem State.bit_ringCtrl (s : State) (r : Nat) (v : Word) : bit (s.merged (.ring r 0) v) 0 = bit v 0 :=
  State.bit_merged rfl v ((by decide : (0x00F11F01#32).getLsbD 0 = true))

/-- A ring that is not OFF drains. -/
theorem Ring.drain_on {x : Ring} (h : x.state ≠ .off) :
    x.drain = { x with state := if x.outst = [] then .off else .drain, pref := [], reads := [], fi := x.ti, wait := 0
                       flags := x.flags ||| bw (x.pref.any Fetched.ready) 0 } := if_neg h

/-- A field at the low end of a register, all of it written and nothing above it. -/
theorem State.toNat_merged {s : State} {l : Loc} (hw : l.wmBits = 0) (v : Word) {n : Nat} (hm : wd l.rwMask = BitVec.ofNat 32 (2 ^ n - 1))
    (ho : (s.stored l).toNat < 2 ^ n) : (s.merged l v).toNat = fld v 0 n := by
  refine Nat.eq_of_testBit_eq fun i => ?_
  have hmask : (wd l.rwMask).getLsbD i = (decide (i < 32) && decide (i < n)) := by
    rw [hm, BitVec.getLsbD_ofNat, Nat.testBit_two_pow_sub_one]
  have hold : n ≤ i → (s.stored l).getLsbD i = false := fun h =>
    Nat.testBit_lt_two_pow (Nat.lt_of_lt_of_le ho (Nat.pow_le_pow_right (by decide) h))
  have hv : 32 ≤ i → v.getLsbD i = false := BitVec.getLsbD_of_ge v i
  show (s.merged l v).getLsbD i = _
  rw [State.getLsbD_merged hw, hmask]
  simp only [fld, Nat.pow_zero, Nat.div_one, Nat.testBit_mod_two_pow]
  show _ = (decide (i < n) && v.getLsbD i)
  by_cases hn : i < n
  · by_cases h32 : i < 32
    · simp [hn, h32]
    · simp [hn, h32, hv (Nat.le_of_not_lt h32), BitVec.getLsbD_of_ge _ i (Nat.le_of_not_lt h32)]
  · simp [hn, hold (Nat.le_of_not_lt hn)]

theorem State.write_ringQuota {s : State} {r : Nat} {v : Word} (hm : s.glb.mode ≠ .sealed) (hr : r < s.variant.rings)
    (hv : fld v 0 16 ≤ 16384) (hq : (s.ring r).quota < 65536) :
    s.fullWrite (ringReg r 0x14) v =
      s.setRing r { s.ring r with quota := fld v 0 16, credit := quotaWritten (s.ring r).credit (fld v 0 16) } := by
  have hnat : (s.merged (.ring r 0x14) v).toNat = fld v 0 16 :=
    State.toNat_merged rfl v rfl (by simpa [State.stored, Ring.stored, wd] using Nat.lt_of_le_of_lt (Nat.mod_le ..) hq)
  have hfld : fld (s.merged (.ring r 0x14) v) 0 16 = fld v 0 16 := by
    simp only [fld, Nat.pow_zero, Nat.div_one, Nat.mod_mod, hnat]
  rw [State.fullWrite_free (ringReg_low r (by decide)) (locOf_ring _ r 0x14 hr (by decide) (by decide)) (.inl rfl) rfl (.inl hm) rfl
    (by simp [State.judge6, State.ringBad, verdict, hfld, hv])]
  simp [State.putLoc, State.store, State.wrote, State.updRing, Ring.store, hnat, State.setRing, State.ring, Bank.get_set_self, Bank.set_set]

theorem State.write_budget {s : State} {n : Nat} {v : Word} (hm : s.glb.mode ≠ .sealed) (hn : n < s.variant.tiles)
    (hq : Bank.get 0xFFFF s.host.budget n < 65536) :
    s.fullWrite (instOff 0x2040 4 12 n 0) v = { s with host := { s.host with budget := Bank.set s.host.budget n (fld v 0 16) } } := by
  have hnat : (s.merged (.budget n) v).toNat = fld v 0 16 :=
    State.toNat_merged rfl v rfl (by simpa [State.stored, wd] using Nat.lt_of_le_of_lt (Nat.mod_le ..) hq)
  rw [State.fullWrite_free (instOff_low (by decide)) (locOf_budget _ n hn) (.inl rfl) rfl (.inl hm) rfl rfl]
  simp [State.putLoc, State.store, State.wrote, hnat]

/-- Settles O27: each register of the rings from what a full write of it does. -/
theorem ringsFollowTheirRegisters : Obligations.RingsFollowTheirRegisters := by
  unfold Obligations.RingsFollowTheirRegisters
  refine fun v r s hr hring => ⟨fun hj => ?_, fun hj => ?_, fun hj hb => ?_, fun hj hb => ?_, fun hm hv hq => ?_, fun n hn hm hq => ?_⟩
  · refine exists_next (exec_hostEnable v s) hr ?_
    obtain ⟨c, hc⟩ := State.clearing_frame { s.quiet with host := { s.host with ctrl := s.quiet.merged (.host 0) (v ||| 1) } } 0x2000 s.host.ctrl
      (s.quiet.merged (.host 0) (v ||| 1))
    have hw := (State.write_hostCtrl hj).trans hc
    rw [hw]
    exact ⟨(State.bit_hostCtrl ..).trans (bit_or_one v), rfl⟩
  · refine exists_next (exec_hostDisable v s) hr ?_
    obtain ⟨c, hc⟩ := State.clearing_frame { s.quiet with host := { s.host with ctrl := s.quiet.merged (.host 0) (v &&& ~~~ (1 : Word)) } } 0x2000
      s.host.ctrl (s.quiet.merged (.host 0) (v &&& ~~~ (1 : Word)))
    have hw := (State.write_hostCtrl hj).trans hc
    rw [hw]
    exact ⟨(State.bit_hostCtrl ..).trans (bit_and_notOne v), rfl⟩
  · refine exists_next (exec_ringEnable r v s) hr ?_
    have hset : bit (s.quiet.merged (.ring r 0) (v ||| 1)) 0 = true := (State.bit_ringCtrl ..).trans (bit_or_one v)
    rw [State.write_ringCtrl (s := s.quiet) hring hj]
    simp only [State.ringCtrlWritten, State.quiet_ring, hset, hb, Bool.not_false, Bool.and_self, if_true, State.ring_updRing_self]
    exact ⟨trivial, trivial, trivial, trivial, trivial, trivial, rfl⟩
  · refine exists_next (exec_ringDisable r v s) hr ?_
    have hclear : bit (s.quiet.merged (.ring r 0) (v &&& ~~~ (1 : Word))) 0 = false := (State.bit_ringCtrl ..).trans (bit_and_notOne v)
    rw [State.write_ringCtrl (s := s.quiet) hring hj]
    simp only [State.ringCtrlWritten, hclear, Bool.false_and, Bool.false_eq_true, if_false, Bool.not_false, if_true]
    have hring' (u : State) : (u.unask r).ring r = u.ring r := rfl
    rw [hring', State.ring_updRing_self, State.ring_updRing_self]
    refine ⟨?_, fun hstate => ?_⟩
    · unfold Ring.drain
      split <;> exact hclear
    · rw [Ring.drain_on (x := { s.quiet.ring r with ctrl := s.quiet.merged (.ring r 0) (v &&& ~~~ (1 : Word)) }) hstate]
      exact ⟨rfl, rfl, rfl⟩
  · refine exists_next (exec_hostRingQuotaWrite r v s) hr ?_
    rw [State.write_ringQuota (s := s.quiet) hm hring hv hq, State.ring_setRing_self]
    exact ⟨rfl, rfl⟩
  · refine exists_next (exec_hostTileBudgetWrite n v s) hr ?_
    rw [State.write_budget (s := s.quiet) hm hn hq]
    exact ⟨Bank.get_set_self .., rfl⟩

/-! ### The inputs (R185, R337, R339, R343, R442) -/

theorem State.safetyInput_inp (s : State) (n : Nat) : ∃ l, (s.safetyInput n).inp = { s.inp with latch := l } := by
  have haside (t : State) (src : Nat) (d : Word) : (t.fault src d .none).inp = t.inp :=
    congrArg (fun p => p.2.2.2.2.1) (State.fault_aside t src d .none)
  unfold State.safetyInput
  split
  · exact ⟨_, haside ..⟩
  · exact ⟨s.inp.latch, rfl⟩

/-- The scan of the safety inputs changes, of the inputs, their latches alone. -/
theorem State.safetyScan_inp (s : State) : ∃ l, s.safetyScan.inp = { s.inp with latch := l } := by
  refine List.foldlRecOn _ _ (motive := fun (t : State) => ∃ l, t.inp = { s.inp with latch := l }) ⟨s.inp.latch, rfl⟩ fun t ⟨l, ht⟩ n _ => ?_
  obtain ⟨l', h⟩ := State.safetyInput_inp t n
  exact ⟨l', by rw [h, ht]⟩

/-- An input forgotten is unknown, and no other. -/
theorem Inp.isKnown_forget (i : Inp) {n : Nat} (hn : n < 64) (now m : Nat) :
    (i.forget n now).isKnown m = if m = n then false else i.isKnown m := getLsbD_mapSet i.known hn false m

section
variable {s : State} {o : Nat} (ho : 0x100 ≤ o)
include ho

theorem State.putLoc_config (v : Word) : s.putLoc (.inp o) v = { s with inp := s.inp.store o v } := by
  unfold State.putLoc
  split
  · rename_i h; cases h
  · rename_i h; cases h; omega
  · rename_i h; cases h; omega
  · rfl

theorem Inp.store_pair (i : Inp) (v : Word) (h : o < 0x140) : i.store o v = { i with stepCfg := Bank.set i.stepCfg ((o - 0x100) / 4) v } := by
  unfold Inp.store
  split <;> first | omega | skip
  rw [if_pos ⟨ho, h⟩]

theorem Inp.stored_pair (i : Inp) (h : o < 0x140) : i.stored o = i.stepCfgOf ((o - 0x100) / 4) := by
  unfold Inp.stored
  split <;> first | omega | skip
  rw [if_pos ⟨ho, h⟩]

theorem State.wrote_pair (off : Nat) (raw old v : Word) (h : o < 0x140) :
    s.wrote (.inp o) off raw old v =
      if bit v 0 && !bit old 0 then s.pairOn ((o - 0x100) / 4) else if bit old 0 && !bit v 0 then s.pairOff ((o - 0x100) / 4) else s := by
  unfold State.wrote
  split <;> (rename_i hc; cases hc)
  all_goals first | omega | skip
  rw [if_neg (by omega), if_pos ⟨ho, h⟩]

theorem inpMask_pair (h : o < 0x140) : inpMask o = 0x37 := by
  unfold inpMask
  split <;> first | omega | skip
  rw [if_pos ⟨ho, h⟩]

end

section
variable {s : State} {o : Nat} (ho : 0x180 ≤ o) (h : o < 0x190)
include ho h

theorem Inp.store_enc (i : Inp) (v : Word) : i.store o v = { i with encCfg := Bank.set i.encCfg ((o - 0x180) / 4) v } := by
  unfold Inp.store
  split <;> first | omega | skip
  rw [if_neg (by omega), if_pos ⟨ho, h⟩]

theorem Inp.stored_enc (i : Inp) : i.stored o = i.encCfgOf ((o - 0x180) / 4) := by
  unfold Inp.stored
  split <;> first | omega | skip
  rw [if_neg (by omega), if_pos ⟨ho, h⟩]

theorem State.wrote_enc (off : Nat) (raw old v : Word) :
    s.wrote (.inp o) off raw old v = if bit v 0 && !bit old 0 then s.encOn ((o - 0x180) / 4) else s := by
  unfold State.wrote
  split <;> (rename_i hc; cases hc)
  all_goals first | omega | skip
  rw [if_neg (by omega), if_neg (by omega), if_pos ⟨ho, h⟩]

theorem inpMask_enc : inpMask o = 0x31 := by
  unfold inpMask
  split <;> first | omega | skip
  rw [if_neg (by omega), if_pos ⟨ho, h⟩]

end

/-- The state with INP_STEP_CFG of a pair written. -/
def State.pairSet (s : State) (c : CfgB) (n : Nat) (v : Word) : State :=
  { s with cfg := c, inp := { s.inp with stepCfg := Bank.set s.inp.stepCfg n v } }

/-- A full write of INP_STEP_CFG: the field EN is that written, and a change of it begins or ends the pair. -/
theorem State.write_stepCfg {s : State} {n : Nat} {v : Word} (hn : n < s.variant.pairs) (hj : s.judgeWrite (.inp (0x100 + 4 * n)) v = .ok) :
    ∃ c w, bit w 0 = bit v 0 ∧ s.fullWrite (instOff 0x6100 4 16 n 0) v =
      if bit w 0 && !bit (s.inp.stepCfgOf n) 0 then (s.pairSet c n w).pairOn n
      else if bit (s.inp.stepCfgOf n) 0 && !bit w 0 then (s.pairSet c n w).pairOff n else s.pairSet c n w := by
  have hpairs := Variant.pairs_le s.variant
  have hlo : 0x100 ≤ 0x100 + 4 * n := by omega
  have hhi : 0x100 + 4 * n < 0x140 := by omega
  have hindex : (0x100 + 4 * n - 0x100) / 4 = n := by omega
  have hold : s.stored (.inp (0x100 + 4 * n)) = s.inp.stepCfgOf n := (Inp.stored_pair hlo _ hhi).trans (by rw [hindex])
  have hmask : (wd (Loc.inp (0x100 + 4 * n)).rwMask).getLsbD 0 = true := by
    rw [show (Loc.inp (0x100 + 4 * n)).rwMask = 0x37 from inpMask_pair hlo hhi]
    decide
  obtain ⟨c, -, h⟩ := State.fullWrite_inSet (instOff_low (by decide)) (locOf_pair _ n hn) rfl Loc.noConfusion Loc.noConfusion hj
  refine ⟨c, s.merged (.inp (0x100 + 4 * n)) v, State.bit_merged rfl v hmask, ?_⟩
  rw [h, State.putLoc_config hlo, State.wrote_pair hlo _ _ _ _ hhi, Inp.store_pair hlo _ _ hhi, hold, hindex]
  rfl

theorem State.pairSet_bit (s : State) (c : CfgB) (n : Nat) (w : Word) : bit ((s.pairSet c n w).inp.stepCfgOf n) 0 = bit w 0 :=
  congrArg (bit · 0) (Bank.get_set_self ..)

/-- A pair enabled counts from 0, and its inputs are unknown. -/
theorem State.pairOn_inp (s : State) {n : Nat} (hn : n < 16) :
    (s.pairOn n).inp.stepCfg = s.inp.stepCfg ∧ Bank.get 0 (s.pairOn n).inp.stepCnt n = 0 ∧
    (s.pairOn n).inp.isKnown (2 * n) = false ∧ (s.pairOn n).inp.isKnown (2 * n + 1) = false := by
  obtain ⟨l, h⟩ := State.safetyScan_inp { s with inp := { (s.inp.forget (2 * n) s.dt).forget (2 * n + 1) s.dt with stepCnt := Bank.set s.inp.stepCnt n 0 } }
  have hknown (m : Nat) : (s.pairOn n).inp.isKnown m = ((s.inp.forget (2 * n) s.dt).forget (2 * n + 1) s.dt).isKnown m := by
    unfold State.pairOn
    rw [h]
    rfl
  refine ⟨?_, ?_, ?_, ?_⟩
  · unfold State.pairOn
    rw [h]
    rfl
  · unfold State.pairOn
    rw [h]
    exact Bank.get_set_self ..
  · rw [hknown, Inp.isKnown_forget _ (by omega), if_neg (by omega), Inp.isKnown_forget _ (by omega), if_pos rfl]
  · rw [hknown, Inp.isKnown_forget _ (by omega), if_pos rfl]

theorem State.pairOff_inp (s : State) {n : Nat} (hn : n < 16) :
    (s.pairOff n).inp.stepCfg = s.inp.stepCfg ∧ (s.pairOff n).inp.isKnown (2 * n) = false ∧ (s.pairOff n).inp.isKnown (2 * n + 1) = false := by
  obtain ⟨l, h⟩ := State.safetyScan_inp { s with inp := (s.inp.forget (2 * n) s.dt).forget (2 * n + 1) s.dt }
  have hknown (m : Nat) : (s.pairOff n).inp.isKnown m = ((s.inp.forget (2 * n) s.dt).forget (2 * n + 1) s.dt).isKnown m := by
    unfold State.pairOff
    rw [h]
    rfl
  refine ⟨?_, ?_, ?_⟩
  · unfold State.pairOff
    rw [h]
    rfl
  · rw [hknown, Inp.isKnown_forget _ (by omega), if_neg (by omega), Inp.isKnown_forget _ (by omega), if_pos rfl]
  · rw [hknown, Inp.isKnown_forget _ (by omega), if_pos rfl]

/-- A full write of INP_ENC_CFG. -/
theorem State.write_encCfg {s : State} {n : Nat} {v : Word} (hn : n < s.variant.encoders) (hj : s.judgeWrite (.inp (0x180 + 4 * n)) v = .ok)
    (hv : bit v 0 = true) (hold : bit (s.inp.encCfgOf n) 0 = false) :
    ∃ c w, bit w 0 = true ∧ s.fullWrite (instOff 0x6180 4 4 n 0) v =
      ({ s with cfg := c, inp := { s.inp with encCfg := Bank.set s.inp.encCfg n w } } : State).encOn n := by
  have hencs := Variant.encoders_le s.variant
  have hlo : 0x180 ≤ 0x180 + 4 * n := by omega
  have hhi : 0x180 + 4 * n < 0x190 := by omega
  have hindex : (0x180 + 4 * n - 0x180) / 4 = n := by omega
  have hwas : s.stored (.inp (0x180 + 4 * n)) = s.inp.encCfgOf n := (Inp.stored_enc hlo hhi _).trans (by rw [hindex])
  have hmask : (wd (Loc.inp (0x180 + 4 * n)).rwMask).getLsbD 0 = true := by
    rw [show (Loc.inp (0x180 + 4 * n)).rwMask = 0x31 from inpMask_enc hlo hhi]
    decide
  have hbit : bit (s.merged (.inp (0x180 + 4 * n)) v) 0 = true := (State.bit_merged rfl v hmask).trans hv
  obtain ⟨c, -, h⟩ := State.fullWrite_inSet (instOff_low (by decide)) (locOf_encoder _ n hn) rfl Loc.noConfusion Loc.noConfusion hj
  refine ⟨c, s.merged (.inp (0x180 + 4 * n)) v, hbit, ?_⟩
  rw [h, State.putLoc_config (by omega), State.wrote_enc hlo hhi, Inp.store_enc hlo hhi, hwas, hindex, hbit, hold]
  rfl

/-- The tile's enable as TILE_CTRL has it. -/
theorem State.write_tileCtrl {s : State} {n : Nat} {v : Word} (hn : n < s.variant.tiles) (hj : s.judgeWrite (.tile n 0) v = .ok) :
    s.fullWrite (tileOff n) v =
      (s.setTile n { s.tile n with ctrl := s.merged (.tile n 0) v }).clearing (tileOff n) (s.tile n).ctrl (s.merged (.tile n 0) v) :=
  State.fullWrite_plain (tileReg_low n (by decide)) (locOf_tile _ n 0 hn (by decide)) (.inl rfl) rfl hj

/-- An enable bit that was set keeps its unit effectively enabled to the next boundary. -/
theorem State.clearing_effective (s : State) (off : Nat) (old v : Word) :
    (s.clearing off old v).effective v off = (decide (s.glb.mode ≠ .configure) && (bit v 0 || bit old 0 || decide (off ∈ s.cfg.clearing))) := by
  unfold State.clearing State.effective
  by_cases hm : s.glb.mode = .configure
  · simp [hm]
  · cases hv : bit v 0 <;> cases ho : bit old 0 <;> simp [hm]

/-- The state of the inputs of a half after the first `k` bits of its filter word. -/
def State.filtTo (s : State) (j : Nat) (v : Word) (k : Nat) (x : Inp) : Prop :=
  ∀ i, i < 32 → x.filt.getLsbD (32 * j + i) = (if i < k then bit v i else s.inp.filt.getLsbD (32 * j + i)) ∧
    x.isKnown (32 * j + i) = (s.inp.isKnown (32 * j + i) && !(decide (i < k) && decide (s.inp.filt.getLsbD (32 * j + i) ≠ bit v i)))

/-- One bit of a filter word. -/
def State.filtOne (j : Nat) (v : Word) (t : State) (i : Nat) : State :=
  let n := 32 * j + i
  if t.inp.filt.getLsbD n = bit v i then t
  else { t with inp := { (t.inp.forget n t.dt) with filt := mapSet t.inp.filt n (bit v i) } }

theorem State.filtOne_to {s t : State} {j k : Nat} {v : Word} (hj : j < 2) (hk : k < 32) (h : s.filtTo j v k t.inp) :
    s.filtTo j v (k + 1) (State.filtOne j v t k).inp := by
  intro i hi
  obtain ⟨hf, hn⟩ := h i hi
  obtain ⟨hfk, hnk⟩ := h k hk
  rw [if_neg (Nat.lt_irrefl k)] at hfk
  unfold State.filtOne
  by_cases hik : i = k
  · subst hik
    simp only [Nat.lt_irrefl, decide_false, Bool.false_and, Bool.not_false, Bool.and_true] at hnk
    by_cases heq : s.inp.filt.getLsbD (32 * j + i) = bit v i
    · simp [hfk, heq, hnk]
    · have hknown := Inp.isKnown_forget t.inp (n := 32 * j + i) (by omega) t.dt (32 * j + i)
      rw [if_pos rfl] at hknown
      have hne : ¬ t.inp.filt.getLsbD (32 * j + i) = bit v i := by rwa [hfk]
      simp only [hne, if_false]
      refine ⟨?_, ?_⟩
      · rw [getLsbD_mapSet _ (by omega), if_pos rfl, if_pos (Nat.lt_succ_self i)]
      · refine hknown.trans ?_
        simp [heq]
  · have hlt : i < k + 1 ↔ i < k := by omega
    have hbit : 32 * j + i ≠ 32 * j + k := by omega
    have hother := Inp.isKnown_forget t.inp (n := 32 * j + k) (by omega) t.dt (32 * j + i)
    rw [if_neg hbit] at hother
    by_cases heq : t.inp.filt.getLsbD (32 * j + k) = bit v k
    · simp only [heq, if_true, hlt]
      exact ⟨hf, hn⟩
    · simp only [heq, if_false, hlt]
      refine ⟨?_, hother.trans hn⟩
      rw [getLsbD_mapSet _ (by omega), if_neg hbit]
      exact hf

theorem State.filtUpTo (s : State) {j : Nat} (hj : j < 2) (v : Word) {k : Nat} (hk : k ≤ 32) :
    s.filtTo j v k ((List.range k).foldl (State.filtOne j v) s).inp := by
  induction k with
  | zero => exact fun i _ => ⟨by simp, by simp⟩
  | succ k ih =>
    rw [List.range_succ, List.foldl_append]
    exact State.filtOne_to hj (by omega) (ih (by omega))

/-- A write of a filter word: the inputs whose bit changes are unknown. -/
theorem State.filtWrite_to (s : State) {j : Nat} (hj : j < 2) (v : Word) : s.filtTo j v 32 (s.filtWrite j v).inp := by
  obtain ⟨l, h⟩ := State.safetyScan_inp ((List.range 32).foldl (State.filtOne j v) s)
  show s.filtTo j v 32 (((List.range 32).foldl (State.filtOne j v) s).safetyScan).inp
  rw [h]
  exact State.filtUpTo s hj v (Nat.le_refl _)

theorem locOf_filt (v : Variant) {j : Nat} (hj : j < 2) (hs : 32 * j < v.senses) :
    locOf v (instOff 0x6008 4 2 j 0) = some (.inp (0x08 + 4 * j)) := by
  obtain rfl | rfl : j = 0 ∨ j = 1 := by omega
  · cases v <;> rfl
  · revert hs
    cases v <;> decide

theorem State.write_filt {s : State} {j : Nat} {v : Word} (hj : j < 2) (hs : 32 * j < s.variant.senses)
    (hok : s.judgeWrite (.inp (0x08 + 4 * j)) v = .ok) :
    ∃ c, s.fullWrite (instOff 0x6008 4 2 j 0) v = ({ s with cfg := c } : State).filtWrite j v := by
  obtain ⟨c, -, h⟩ := State.fullWrite_inSet (instOff_low (by decide)) (locOf_filt _ hj hs) rfl Loc.noConfusion Loc.noConfusion hok
  refine ⟨c, h.trans ?_⟩
  obtain rfl | rfl : j = 0 ∨ j = 1 := by omega
  · rw [State.merged_all rfl rfl v]
    rfl
  · rw [State.merged_all rfl rfl v]
    rfl

/-- Settles O28: each register of the inputs and tiles from what a full write of it does. -/
theorem inputConfigurationTakesEffect : Obligations.InputConfigurationTakesEffect := by
  unfold Obligations.InputConfigurationTakesEffect
  refine fun v n s hr => ⟨fun hn hj => ?_, fun hn hj hb => ?_, fun hn hj hb => ?_, fun hn hj hb => ?_, fun hn hs hj => ?_⟩
  · refine exists_next (exec_tileCtrlEnWrite n v s) hr ?_
    have hbit : bit (s.quiet.merged (.tile n 0) v) 0 = bit v 0 := State.bit_merged rfl v ((by decide : (1#32).getLsbD 0 = true))
    have htile (u : State) (off : Nat) (old w : Word) : (u.clearing off old w).tile n = u.tile n := by
      obtain ⟨c, hc⟩ := State.clearing_frame u off old w
      rw [hc]
      rfl
    rw [State.write_tileCtrl (s := s.quiet) hn hj]
    refine ⟨?_, ?_⟩
    · rw [htile, State.tile_setTile_self]
      exact hbit
    · unfold State.tileOn
      rw [htile, State.tile_setTile_self, State.clearing_effective, hbit]
      rfl
  · have h16 : n < 16 := Nat.lt_of_lt_of_le hn (Variant.pairs_le _)
    obtain ⟨c, w, hw, h⟩ := State.write_stepCfg (s := s.quiet) hn hj
    rw [bit_or_one] at hw
    refine exists_next (exec_stepPairEnable n v s) hr ?_
    rw [hw, show bit (s.quiet.inp.stepCfgOf n) 0 = false from hb] at h
    simp only [Bool.not_false, Bool.and_self, if_true] at h
    rw [h]
    obtain ⟨hcfg, hcnt, h0, h1⟩ := State.pairOn_inp (s.quiet.pairSet c n w) h16
    refine ⟨?_, hcnt, h0, h1⟩
    rw [← State.pairSet_bit s.quiet c n w] at hw
    simpa only [Inp.stepCfgOf, hcfg] using hw
  · have h16 : n < 16 := Nat.lt_of_lt_of_le hn (Variant.pairs_le _)
    obtain ⟨c, w, hw, h⟩ := State.write_stepCfg (s := s.quiet) hn hj
    rw [bit_and_notOne] at hw
    refine exists_next (exec_stepPairDisable n v s) hr ?_
    rw [hw, show bit (s.quiet.inp.stepCfgOf n) 0 = true from hb] at h
    simp only [Bool.false_and, Bool.false_eq_true, if_false, Bool.not_false, Bool.and_self, if_true] at h
    rw [h]
    obtain ⟨hcfg, h0, h1⟩ := State.pairOff_inp (s.quiet.pairSet c n w) h16
    refine ⟨?_, h0, h1⟩
    rw [← State.pairSet_bit s.quiet c n w] at hw
    simpa only [Inp.stepCfgOf, hcfg] using hw
  · obtain ⟨c, w, hw, h⟩ := State.write_encCfg (s := s.quiet) hn hj (bit_or_one v) hb
    refine exists_next (exec_encoderEnable n v s) hr ?_
    rw [h]
    exact ⟨(congrArg (bit · 0) (Bank.get_set_self ..)).trans hw, Bank.get_set_self ..⟩
  · obtain ⟨c, h⟩ := State.write_filt (s := s.quiet) hn hs hj
    refine exists_next (exec_inpFiltWrite n v s) hr ?_
    rw [h]
    intro i hi
    obtain ⟨hf, hk⟩ := State.filtWrite_to ({ s.quiet with cfg := c } : State) hn v i hi
    rw [if_pos hi] at hf
    refine ⟨hf, fun hne => ?_, fun heq => ?_⟩
    · rw [hk]
      simp [hi, hne]
    · rw [hk]
      simp [heq]

end Sys2Proof.Machine
end

section
/-! SUPPORT. What the chopper cycle leaves as it is: all of an axis but its coils, all of a leg but its switches. -/

namespace Sys2Proof.Machine

/-! ### A leg but for its switches -/

/-- A leg without its switches. -/
def Leg.bare (x : Leg) : Leg := { x with hi := GateSw.reset, lo := GateSw.reset }

@[simp] theorem Leg.setSw_bare (x : Leg) (w : Switch) (g : GateSw) : (x.setSw w g).bare = x.bare := by cases w <;> rfl

@[simp] theorem Leg.cmdOn_bare (x : Leg) (w : Switch) : (x.cmdOn w).bare = x.bare := by
  unfold Leg.cmdOn
  dsimp only
  split <;> simp

@[simp] theorem Leg.cmdOff_bare (x : Leg) (w : Switch) : (x.cmdOff w).bare = x.bare := Leg.setSw_bare ..

@[simp] theorem Leg.drive_bare (x : Leg) (w : Switch) : (x.drive w).bare = x.bare := by
  unfold Leg.drive
  dsimp only
  repeat' split
  all_goals simp

theorem Leg.hiz_of_bare {x y : Leg} (h : x.bare = y.bare) : x.hiz = y.hiz := by
  have h := congrArg Leg.hiz h
  exact h

/-! ### An axis but for its coils -/

/-- An axis without its coils. -/
def Axis.bare (x : Axis) : Axis := { x with coilA := CoilSt.reset, coilB := CoilSt.reset }

@[simp] theorem Axis.setCoil_bare (x : Axis) (c : Coil) (k : CoilSt) : (x.setCoil c k).bare = x.bare := by cases c <;> rfl

theorem Axis.m_of_bare {x y : Axis} (h : x.bare = y.bare) : x.m = y.m := by
  have h := congrArg Axis.m h
  exact h
theorem Axis.regs_of_bare {x y : Axis} (h : x.bare = y.bare) : x.regs = y.regs := by
  have h := congrArg Axis.regs h
  exact h
theorem Axis.driven_of_bare {x y : Axis} (h : x.bare = y.bare) : x.driven = y.driven := by
  have h := congrArg Axis.driven h
  exact h
theorem Axis.powerDue_of_bare {x y : Axis} (h : x.bare = y.bare) : x.powerDue = y.powerDue := by
  have h := congrArg Axis.powerDue h
  exact h
theorem Axis.hizzed_of_bare {x y : Axis} (h : x.bare = y.bare) : x.hizzed = y.hizzed := by
  have h := congrArg Axis.hizzed h
  exact h

/-! ### The chopper cycle -/

/-- Two states that differ in the coils of axes and the switches of legs alone, as far as axes and legs go. -/
structure State.likens (s t : State) : Prop where
  axis : ∀ b, (t.axis b).bare = (s.axis b).bare
  leg : ∀ n j, (t.leg n j).bare = (s.leg n j).bare

theorem State.likens_refl (s : State) : s.likens s := ⟨fun _ => rfl, fun _ _ => rfl⟩

theorem State.likens.trans {s t u : State} (h : s.likens t) (h' : t.likens u) : s.likens u :=
  ⟨fun b => (h'.axis b).trans (h.axis b), fun n j => (h'.leg n j).trans (h.leg n j)⟩

theorem State.likens_setAxis (s : State) (a : Nat) {x : Axis} (h : x.bare = (s.axis a).bare) : s.likens (s.setAxis a x) := by
  refine ⟨fun b => ?_, fun _ _ => rfl⟩
  rw [State.axis_setAxis]
  split
  · next hb => rw [hb, h]
  · rfl

theorem State.likens_updCoil (s : State) (a : Nat) (c : Coil) (f : CoilSt → CoilSt) : s.likens (s.updCoil a c f) :=
  State.likens_setAxis s a (Axis.setCoil_bare ..)

theorem State.likens_updLeg (s : State) (t l : Nat) {f : Leg → Leg} (h : (f (s.leg t l)).bare = (s.leg t l).bare) : s.likens (s.updLeg t l f) := by
  refine ⟨fun _ => rfl, fun n j => ?_⟩
  rw [State.leg_updLeg]
  split
  · next hn => rw [hn.1, hn.2, h]
  · rfl

/-- A change of a tile that leaves its legs. -/
theorem State.likens_updTile (s : State) (t : Nat) {f : Tile → Tile} (h : (f (s.tile t)).legs = (s.tile t).legs) : s.likens (s.updTile t f) := by
  refine ⟨fun _ => rfl, fun n j => ?_⟩
  have hlegs : ((s.updTile t f).tile n).legs = (s.tile n).legs := by
    rw [State.tile_updTile]
    split
    · next hn => rw [hn, h]
    · rfl
  simp only [State.leg, hlegs]

theorem State.likens_towardSlow (s : State) (a : Nat) (c : Coil) : s.likens (s.towardSlow a c) := by
  unfold State.towardSlow
  exact (State.likens_updLeg s _ _ (Leg.drive_bare ..)).trans (State.likens_updLeg _ _ _ (Leg.drive_bare ..))

theorem State.likens_towardOn (s : State) (a : Nat) (c : Coil) : s.likens (s.towardOn a c) := by
  unfold State.towardOn
  refine State.likens.trans (State.likens_updLeg s _ _ ?_) (State.likens_updLeg _ _ _ (Leg.drive_bare ..))
  split
  · exact Leg.cmdOff_bare ..
  · rfl

theorem State.likens_coilStep (s : State) (a : Nat) (c : Coil) : s.likens (s.coilStep a c) := by
  have hset (t : State) (f : CoilSt → CoilSt) : t.likens (t.updCoil a c f) := State.likens_updCoil t a c f
  have hhigh (t : State) (l : Nat) : t.likens (t.updLeg (axisTile a) l fun x => if x.hi.cmd then x else x.cmdOn .high) := by
    refine State.likens_updLeg t _ _ ?_
    split
    · rfl
    · exact Leg.cmdOn_bare ..
  unfold State.coilStep
  dsimp only
  split
  case h_1 =>
    split
    · exact s.likens_refl
    · split
      · exact (hhigh s _).trans (hset ..)
      · exact hhigh s _
  case h_2 => repeat' split
              all_goals first | exact s.likens_refl | exact hset ..
  case h_3 =>
    split
    · exact (s.likens_towardSlow a c).trans (hset ..)
    · exact s.likens_refl
  case h_4 =>
    split
    · exact hset ..
    · exact s.likens_refl
  all_goals exact s.likens_refl

theorem State.likens_coilSettle (s : State) (a : Nat) (c : Coil) : s.likens (s.coilSettle a c) :=
  ((s.likens_coilStep a c).trans (State.likens_coilStep _ a c)).trans (State.likens_coilStep _ a c)

theorem Tile.checkCalled_legs (x : Tile) (k : Nat) : (x.checkCalled k).legs = x.legs := by
  unfold Tile.checkCalled
  split <;> rfl

theorem State.likens_turnOn (s : State) (a : Nat) (c : Coil) : s.likens (s.turnOn a c) := by
  have hset (t : State) (k : CoilSt) (h : t.axis a = s.axis a) : t.likens (t.setAxis a ((s.axis a).setCoil c k)) :=
    State.likens_setAxis t a (by rw [Axis.setCoil_bare, h])
  unfold State.turnOn
  dsimp only
  split
  · exact ((hset s _ rfl).trans (State.likens_towardSlow ..)).trans (State.likens_coilSettle ..)
  · exact (((State.likens_updTile s _ (Tile.checkCalled_legs ..)).trans (hset _ _ rfl)).trans
      (State.likens_towardOn ..)).trans (State.likens_coilSettle ..)

theorem State.likens_startCoils (s : State) (a : Nat) : s.likens (s.startCoils a) :=
  (s.likens_turnOn a .A).trans (State.likens_turnOn _ a .B)

theorem State.likens_beginCoils (s : State) (a : Nat) : s.likens (s.beginCoils a) := by
  unfold State.beginCoils
  split
  · exact s.likens_startCoils a
  · exact s.likens_refl

end Sys2Proof.Machine
end

section
/-! SUPPORT. Descriptors at their rings: what a row of the table does with the descriptor at a ring's TI, and how a descriptor completes. -/

namespace Sys2Proof.Machine

/-! ### The rows that name an opcode -/

/-- A row that names an opcode takes one descriptor up. -/
theorem exec_descRow {o r : Nat} {d : Desc} {c : Instr} (hc : descRow o r d = some c) (s : State) :
    exec c s = s.command fun s => s.takeRow o r d := by
  unfold descRow at hc
  split at hc <;> cases hc <;> rfl

theorem State.takeRow_offered {s : State} {o r : Nat} {d : Desc} (ho : op d = o) (ht : s.ringTakes r = true)
    (hf : (s.ring r).offers d s.tickDt = true) : s.takeRow o r d = s.takeOne r d := by
  unfold State.takeRow
  rw [if_pos (by simp [ho, ht, hf])]

theorem State.takeRow_unoffered {s : State} {o r : Nat} {d : Desc}
    (h : op d ≠ o ∨ s.ringTakes r = false ∨ (s.ring r).offers d s.tickDt = false) : s.takeRow o r d = s := by
  unfold State.takeRow
  rw [if_neg]
  rcases h with h | h | h <;> simp [h]

@[simp] theorem State.waitReason_quiet (s : State) (r : Nat) (d : Desc) : s.quiet.waitReason r d = s.waitReason r d := by
  unfold State.waitReason
  simp only [State.quiet_ring, State.quiet_present, State.quiet_motion, State.quiet_host]
  rfl

/-- A row takes up the descriptor that its ring offers and nothing makes wait. -/
theorem exec_takesUp {s : State} {o r : Nat} {d : Desc} {c : Instr} (hc : descRow o r d = some c) (h : s.takesUp o r d) :
    exec c s = .next (s.quiet.takeUp r d) := by
  obtain ⟨hr, ho, ht, hf, hw⟩ := h
  rw [exec_descRow hc, State.command_quiet _ hr, State.takeRow_offered (s := s.quiet) ho ht hf]
  unfold State.takeOne
  simp only [State.waitReason_quiet, hw, if_true]

/-- A descriptor that fails a check is refused. -/
theorem exec_refused {s : State} {o r : Nat} {d : Desc} {c : Instr} {b : Bad} (hc : descRow o r d = some c) (h : s.takesUp o r d)
    (hb : (s.taken r d).check (s.ring r) d = some b) : exec c s = .next ((s.taken r d).refuse (s.headTag r) d ((s.ring r).target d) b) := by
  rw [exec_takesUp hc h]
  unfold State.takeUp
  dsimp only
  rw [show (s.quiet.setRing r ((s.quiet.ring r).advance d.w0 s.quiet.tickDt)).check (s.quiet.ring r) d = some b from hb]
  rfl

/-- A descriptor that passes every check is carried out. -/
theorem exec_accepts {s : State} {o r : Nat} {d : Desc} {c : Instr} (hc : descRow o r d = some c) (h : s.accepts o r d) :
    exec c s = .next ((s.taken r d).carry (s.headTag r) d ((s.ring r).target d)) := by
  obtain ⟨ht, hn⟩ := h
  rw [exec_takesUp hc ht]
  unfold State.takeUp
  dsimp only
  rw [show (s.quiet.setRing r ((s.quiet.ring r).advance d.w0 s.quiet.tickDt)).check (s.quiet.ring r) d = none from hn]
  rfl

theorem State.accepts.opcode {s : State} {o r : Nat} {d : Desc} (h : s.accepts o r d) : op d = o := h.1.2.1

/-! ### What is carried out at once (R150) -/

/-- A descriptor of a unit is carried out where its order does not matter, or nothing waits for standstill before it. -/
theorem State.carry_unit {s : State} {g : Tag} {d : Desc} {k : UnitKind} {n : Nat}
    (h : ordered (op d) = false ∨ ((s.motion k n).deferred = [] ∧ (op d ≠ 0x16 ∨ (s.motion k n).stopping = none))) :
    s.carry g d (.unit k n) = s.carryNow g d (.unit k n) (s.moveSlot d k n) := by
  unfold State.carry
  dsimp only
  rw [if_neg]
  rcases h with h | ⟨h, h' | h'⟩
  · simp [h]
  · simp [h, h']
  · simp [h, h']

/-- Behind a RESUME that waits for standstill, what has its place in the order waits with it, as does a RESUME during a stop. -/
theorem State.carry_deferred {s : State} {g : Tag} {d : Desc} {k : UnitKind} {n : Nat} (ho : ordered (op d) = true)
    (h : (s.motion k n).deferred ≠ [] ∨ (op d = 0x16 ∧ (s.motion k n).stopping.isSome = true)) :
    s.carry g d (.unit k n) = s.updMotion k n fun m => { m with deferred := m.deferred ++ [(g, d, Bank.get Profile.reset m.profs (fld d.w2 16 4))] } := by
  unfold State.carry
  dsimp only
  rw [if_pos]
  · rfl
  · rcases h with h | ⟨h, h'⟩
    · simp [ho, h]
    · rw [ho, h']
      simp [h]

/-! ### The state without the descriptor -/

@[simp] theorem State.taken_motion (s : State) (r : Nat) (d : Desc) (k : UnitKind) (n : Nat) : (s.taken r d).motion k n = s.motion k n := by
  cases k <;> rfl
@[simp] theorem State.taken_present (s : State) (r : Nat) (d : Desc) (k : UnitKind) (n : Nat) : (s.taken r d).present k n = s.present k n := by
  cases k <;> rfl
theorem State.taken_ring (s : State) (r : Nat) (d : Desc) (j : Nat) :
    (s.taken r d).ring j = if j = r then (s.ring r).advance d.w0 s.tickDt else s.ring j := State.ring_setRing ..
theorem State.taken_head (s : State) (r : Nat) (d : Desc) : (s.taken r d).ring r = (s.ring r).advance d.w0 s.tickDt := by
  rw [State.taken_ring, if_pos rfl]
theorem State.taken_frame (s : State) (r : Nat) (d : Desc) : { s.taken r d with host := s.host } = s.quiet := rfl

/-- The descriptor that a ring has given up is in its list of those not written back. -/
theorem Ring.advance_outst (x : Ring) (w : Word) (now : Nat) :
    (x.advance w now).outst = x.outst ++ [{ index := x.ti, word0 := w, takeDt := now, record := none, doneDt := 0 }] := rfl

/-- A descriptor that nothing has completed is open. -/
theorem State.isOpen_of_ring {s t : State} {r : Nat} {d : Desc} (h : (t.ring r).outst = ((s.taken r d).ring r).outst) : t.isOpen r (s.ring r).ti := by
  rw [State.taken_head, Ring.advance_outst] at h
  exact ⟨_, by rw [h]; exact List.mem_append_right _ (List.mem_singleton.2 rfl), rfl, rfl⟩

/-! ### Records (R422) -/

theorem State.mkRecord_seven (s : State) (w : Word) (ws : List Word) (fl st : Nat) :
    (s.mkRecord w ws fl st).getD 7 0 = recWord7 fl (fld w 0 8) st := by
  have hl : ((ws ++ List.replicate 5 (0 : Word)).take 5).length = 5 := by simp
  unfold State.mkRecord
  rw [List.getD_eq_getElem?_getD, List.getElem?_append_right (by simp)]
  simp

/-- Bits 7:0 of word 7 are the status. -/
theorem State.mkRecord_status (s : State) (w : Word) (ws : List Word) (fl st : Nat) :
    fld ((s.mkRecord w ws fl st).getD 7 0) 0 8 = st % 256 := by
  rw [State.mkRecord_seven]
  unfold recWord7 fld wd
  simp only [BitVec.toNat_ofNat]
  omega

/-- Bits 15:8 of word 7 are the opcode. -/
theorem State.mkRecord_opcode (s : State) (w : Word) (ws : List Word) (fl : Nat) {st : Nat} (hst : st < 256) :
    fld ((s.mkRecord w ws fl st).getD 7 0) 8 8 = fld w 0 8 := by
  have hop : fld w 0 8 < 256 := by unfold fld; omega
  rw [State.mkRecord_seven]
  generalize fld w 0 8 = o at hop ⊢
  unfold recWord7 fld wd
  simp only [BitVec.toNat_ofNat]
  omega

/-- The record of a descriptor that has not completed. -/
theorem State.complete_mem {s : State} {r idx : Nat} {e : Outst} (he : e ∈ (s.ring r).outst) (hi : e.index = idx) (hn : e.record = none)
    (w : List Word) : { e with record := some w, doneDt := s.dt } ∈ ((s.complete ⟨r, idx⟩ w).ring r).outst := by
  unfold State.complete
  rw [State.ring_updRing, if_pos rfl]
  exact List.mem_map.2 ⟨e, he, if_pos ⟨hi, hn⟩⟩

/-- A completion reaches its own ring alone. -/
theorem State.complete_ring_ne (s : State) {g : Tag} {j : Nat} (h : j ≠ g.ring) (w : List Word) : (s.complete g w).ring j = s.ring j := by
  unfold State.complete
  exact (State.ring_updRing ..).trans (if_neg h)

/-- A completion changes the open descriptors of its ring alone. -/
theorem State.complete_ring (s : State) (g : Tag) (w : List Word) (j : Nat) :
    (s.complete g w).ring j = { s.ring j with outst := ((s.complete g w).ring j).outst } := by
  unfold State.complete
  rw [State.ring_updRing]
  split
  · next h => rw [h]
  · rfl

/-- A completed descriptor has its record. -/
theorem State.complete_doneWith {s : State} {r idx : Nat} (h : s.isOpen r idx) {w : List Word} {st : Nat} (hw : fld (w.getD 7 0) 0 8 = st) :
    (s.complete ⟨r, idx⟩ w).doneWith r idx st := by
  obtain ⟨e, he, hi, hn⟩ := h
  exact ⟨_, State.complete_mem he hi hn w, hi, w, rfl, hw⟩

/-- A descriptor that its ring has just given up is open. -/
theorem State.taken_isOpen (s : State) (r : Nat) (d : Desc) : (s.taken r d).isOpen r (s.ring r).ti := State.isOpen_of_ring rfl

/-- A change outside the rings. -/
theorem State.isOpen_congr {s t : State} {r idx : Nat} (h : t.ring r = s.ring r) : t.isOpen r idx ↔ s.isOpen r idx := by
  unfold State.isOpen
  rw [h]

/-! ### Refusals (R407, R423) -/

/-- HOST_STAT.ADDR_S is set where a descriptor's status is ADDR_RANGE. -/
def State.noteAddr (s : State) (b : Bad) : State :=
  { s with host := { s.host with flags := s.host.flags ||| bw (decide (b.status = Status.addrRange)) 0 } }

theorem State.noteAddr_none (s : State) {b : Bad} (h : b.status ≠ Status.addrRange) : s.noteAddr b = s := by
  unfold State.noteAddr
  simp [h, bw, b2n, wd]

/-- A refused descriptor completes, and only ADDR_S may change besides. -/
theorem State.refuse_complete (s : State) (g : Tag) (d : Desc) (t : Target) (b : Bad) :
    ∃ u ws fl, s.refuse g d t b = (s.noteAddr b).complete g (State.mkRecord u d.w0 ws fl b.status) := by
  unfold State.refuse
  split
  · next h => exact ⟨s, _, _, by rw [State.noteAddr_none s (by rw [h]; decide)]⟩
  · have hn : (if b.status = Status.addrRange then { s with host := { s.host with flags := s.host.flags ||| bw true 0 } } else s) = s.noteAddr b := by
      split
      · next h => simp [State.noteAddr, h]
      · next h => exact (State.noteAddr_none s h).symm
    dsimp only
    rw [hn]
    cases t with
    | unit k n =>
      dsimp only
      split
      · exact ⟨_, _, _, rfl⟩
      · split
        · exact ⟨_, _, _, rfl⟩
        · exact ⟨_, _, _, rfl⟩
    | device => exact ⟨_, _, _, rfl⟩
    | legs m n => exact ⟨_, _, _, rfl⟩

theorem State.refuse_doneWith {s : State} {r idx : Nat} (h : s.isOpen r idx) (d : Desc) (t : Target) (b : Bad) :
    (s.refuse ⟨r, idx⟩ d t b).doneWith r idx (b.status % 256) := by
  obtain ⟨u, ws, fl, he⟩ := s.refuse_complete ⟨r, idx⟩ d t b
  rw [he]
  exact State.complete_doneWith h (State.mkRecord_status ..)

/-- A refusal changes the host block alone. -/
theorem State.refuse_frame (s : State) (g : Tag) (d : Desc) (t : Target) (b : Bad) (h : HostB) :
    { s.refuse g d t b with host := h } = { s with host := h } := by
  obtain ⟨u, ws, fl, he⟩ := s.refuse_complete g d t b
  rw [he]
  rfl

/-- The statuses with which a check fails. -/
def Bad.small (b : Option Bad) : Prop := ∀ x ∈ b, x.status < 256

theorem firstBad_small {l : List (Bool × Option Bad)} (h : ∀ p ∈ l, Bad.small p.2) : Bad.small (firstBad l) := by
  induction l with
  | nil => simp [firstBad, Bad.small]
  | cons p l ih =>
    unfold firstBad
    split
    · exact h p List.mem_cons_self
    · exact ih fun q hq => h q (List.mem_cons_of_mem _ hq)

theorem bad_small (w b : Nat) : Bad.small (bad w b) := by simp [Bad.small, bad, Status.invalidField]

theorem badStatus_small {st : Nat} (h : st < 256) : Bad.small (badStatus st) := by simpa [Bad.small, badStatus] using h

theorem orElse_small {a b : Option Bad} (ha : Bad.small a) (hb : Bad.small b) : Bad.small (a.orElse fun _ => b) := by
  cases a with
  | none => simpa using hb
  | some x => simpa using ha

theorem ite_small {p : Prop} [Decidable p] {a : Option Bad} (ha : Bad.small a) : Bad.small (if p then a else none) := by
  split
  · exact ha
  · simp [Bad.small]

theorem ite_none_small {p : Prop} [Decidable p] {a : Option Bad} (ha : Bad.small a) : Bad.small (if p then none else a) := by
  split
  · simp [Bad.small]
  · exact ha

/-- The ranges of an opcode's own fields. -/
theorem State.checkFields_small (s : State) (t : Target) (d : Desc) : Bad.small (s.checkFields t d) := by
  unfold State.checkFields
  split <;> first
    | exact firstBad_small (by simp [bad_small])
    | simp [Bad.small]

theorem State.check4_small (s : State) (t : Target) (d : Desc) : Bad.small (s.check4 t d) :=
  orElse_small (firstBad_small (by simp [bad_small]))
    (orElse_small (ite_small (firstBad_small (by simp [bad_small]))) (s.checkFields_small t d))

theorem State.check6_small (s : State) (t : Target) (d : Desc) : Bad.small (s.check6 t d) := by
  unfold State.check6
  split
  · exact ite_small (badStatus_small (by decide))
  · simp [Bad.small]

theorem State.check8_small (s : State) (t : Target) (d : Desc) : Bad.small (s.check8 t d) := by
  refine firstBad_small ?_
  have hslot : Bad.small ((slotField d).bind fun f => bad f.2.1 f.2.2) := by
    cases slotField d with
    | none => simp [Bad.small]
    | some f => exact bad_small f.2.1 f.2.2
  simp [bad_small, hslot]

/-- The status of a failed check has eight bits (R424). -/
theorem State.check_small (s : State) (x : Ring) (d : Desc) : Bad.small (s.check x d) :=
  orElse_small (firstBad_small (by simp [bad_small])) <|
  orElse_small (ite_none_small (badStatus_small (by decide))) <|
  orElse_small (ite_none_small (badStatus_small (by decide))) <|
  orElse_small (s.check4_small _ d) <|
  orElse_small (ite_small (badStatus_small (by decide))) <|
  orElse_small (s.check6_small _ d) <|
  orElse_small (ite_small (badStatus_small (by decide))) (s.check8_small _ d)

theorem State.complete_host (s : State) (g : Tag) (w : List Word) :
    (s.complete g w).host = { s.host with rings := (s.complete g w).host.rings } := rfl

theorem State.noteAddr_host (s : State) (b : Bad) :
    (s.noteAddr b).host = { s.host with flags := s.host.flags ||| bw (decide (b.status = Status.addrRange)) 0 } := rfl

theorem State.taken_host (s : State) (r : Nat) (d : Desc) : (s.taken r d).host = { s.host with rings := (s.taken r d).host.rings } := rfl

/-- Of the host block a refused descriptor leaves its ring and ADDR_S changed. -/
theorem State.refused_host (s : State) (r : Nat) (d : Desc) (b : Bad) (g : Tag) (w : List Word) :
    { (((s.taken r d).noteAddr b).complete g w).host with rings := s.host.rings, flags := s.host.flags } = s.host ∧
    (((s.taken r d).noteAddr b).complete g w).host.flags = s.host.flags ||| bw (decide (b.status = Status.addrRange)) 0 := by
  rw [State.complete_host, State.noteAddr_host, State.taken_host]
  exact ⟨rfl, rfl⟩

/-- A refused descriptor leaves the other rings, and its own has moved on. -/
theorem State.refused_rings (s : State) (r : Nat) (d : Desc) (b : Bad) (w : List Word) :
    (∀ j, j ≠ r → (((s.taken r d).noteAddr b).complete (s.headTag r) w).ring j = s.ring j) ∧
    ((((s.taken r d).noteAddr b).complete (s.headTag r) w).ring r).ti = ((s.ring r).ti + 1) % 2 ^ 32 := by
  refine ⟨fun j hj => ?_, ?_⟩
  · rw [State.complete_ring_ne (g := s.headTag r) _ hj]
    exact (s.taken_ring r d j).trans (if_neg hj)
  · rw [State.complete_ring]
    exact congrArg Ring.ti (s.taken_head r d)

/-- The descriptor that is refused. -/
theorem State.refused_head (s : State) (r : Nat) (d : Desc) (b : Bad) :
    ({ index := (s.ring r).ti, word0 := d.w0, takeDt := s.tickDt, record := none, doneDt := 0 } : Outst) ∈
      (((s.taken r d).noteAddr b).ring r).outst := by
  rw [show ((s.taken r d).noteAddr b).ring r = _ from s.taken_head r d]
  exact List.mem_append_right _ (List.mem_singleton.2 rfl)

/-- Settles O30: of a refused descriptor only its record and ADDR_S are left. -/
theorem refusedDescriptorsOnlyComplete : Obligations.RefusedDescriptorsOnlyComplete := by
  unfold Obligations.RefusedDescriptorsOnlyComplete
  intro o r d c b s hc ht hb
  have ho : fld d.w0 0 8 = o := ht.2.1
  have hsmall : b.status < 256 := State.check_small _ _ _ b (by rw [hb]; rfl)
  refine ⟨_, exec_refused hc ht hb, (State.refuse_frame _ _ _ _ _ s.host).trans (s.taken_frame r d), ?_⟩
  obtain ⟨u, ws, fl, he⟩ := (s.taken r d).refuse_complete (s.headTag r) d ((s.ring r).target d) b
  rw [he]
  obtain ⟨hrest, hfl⟩ := s.refused_host r d b (s.headTag r) (u.mkRecord d.w0 ws fl b.status)
  obtain ⟨hring, hti⟩ := s.refused_rings r d b (u.mkRecord d.w0 ws fl b.status)
  refine ⟨hrest, hfl, hring, hti, _, State.complete_mem (s.refused_head r d b) rfl rfl _, rfl, rfl, _, rfl, rfl, State.mkRecord_status .., ?_⟩
  rw [State.mkRecord_opcode _ _ _ _ hsmall, ho]

/-- Settles O31: a row acts only on the descriptor at its ring's TI, and that one waits while there is a reason. -/
theorem descriptorsWaitAtTheRing : Obligations.DescriptorsWaitAtTheRing := by
  unfold Obligations.DescriptorsWaitAtTheRing
  intro o r d c s hc hr
  rw [exec_descRow hc, State.command_quiet _ hr]
  refine ⟨fun h => congrArg _ (State.takeRow_unoffered h), fun ho ht hf hw => congrArg _ ?_⟩
  rw [State.takeRow_offered (s := s.quiet) ho ht hf]
  unfold State.takeOne
  simp only [State.waitReason_quiet, hw, if_false]

end Sys2Proof.Machine
end

section
/-! SUPPORT. Descriptors of rings, units and the device that are carried out or begin to wait. -/

namespace Sys2Proof.Machine

/-! ### What each opcode begins -/

section
variable {s : State} {g : Tag} {d : Desc} {t : Target} {p : Profile} {k : UnitKind} {n : Nat}

theorem State.carryNow_nop (h : op d = 0x00) : s.carryNow g d t p = s.ringDone g.ring g.index false := by
  unfold State.carryNow; simp only [h]
theorem State.carryNow_fence (h : op d = 0x01) : s.carryNow g d t p = s.takeFence g d := by
  unfold State.carryNow; simp only [h]
theorem State.carryNow_waitRc (h : op d = 0x02) : s.carryNow g d t p = s.takeWait g d := by
  unfold State.carryNow; simp only [h]
theorem State.carryNow_profile (h : op d = 0x10) : s.carryNow g d (.unit k n) p = s.takeProfile g d k n := by
  unfold State.carryNow; simp only [h]
theorem State.carryNow_move (h : op d = 0x11 ∨ op d = 0x12 ∨ op d = 0x13) : s.carryNow g d (.unit k n) p = s.takeMove g d k n p := by
  unfold State.carryNow
  rcases h with h | h | h <;> simp only [h]
theorem State.carryNow_stop (h : op d = 0x14 ∨ op d = 0x15) : s.carryNow g d (.unit k n) p = s.takeStop g d k n := by
  unfold State.carryNow
  rcases h with h | h <;> simp only [h]
theorem State.carryNow_resume (h : op d = 0x16) : s.carryNow g d (.unit k n) p = s.takeResume g d k n := by
  unfold State.carryNow; simp only [h]
theorem State.carryNow_current (h : op d = 0x17) : s.carryNow g d (.unit k n) p = s.takeCurrent g d n := by
  unfold State.carryNow; simp only [h]
theorem State.carryNow_home (h : op d = 0x20) : s.carryNow g d (.unit k n) p = s.takeHome g d n := by
  unfold State.carryNow; simp only [h]
theorem State.carryNow_char (h : op d = 0x21) : s.carryNow g d (.unit k n) p = s.takeChar g d n := by
  unfold State.carryNow; simp only [h]
theorem State.carryNow_play (h : op d = 0x28) : s.carryNow g d (.unit k n) p = s.takePlay g d k n := by
  unfold State.carryNow; simp only [h]
theorem State.carryNow_follow (h : op d = 0x29) : s.carryNow g d (.unit k n) p = s.takeFollow g d k n := by
  unfold State.carryNow; simp only [h]
theorem State.carryNow_bind (h : op d = 0x30) : s.carryNow g d (.unit k n) p = s.takeBind g d n := by
  unfold State.carryNow; simp only [h]
theorem State.carryNow_unbind (h : op d = 0x31) : s.carryNow g d (.unit k n) p = s.takeUnbind g d k n := by
  unfold State.carryNow; simp only [h]
theorem State.carryNow_sol {m : Nat} (h : op d = 0x38 ∨ op d = 0x39) : s.carryNow g d (.legs n m) p = s.takeSol g d n m := by
  unfold State.carryNow
  rcases h with h | h <;> simp only [h]
theorem State.carryNow_diag (h : op d = 0x40) : s.carryNow g d t p = s.takeDiag g d := by
  unfold State.carryNow; simp only [h]
theorem State.carryNow_history (h : op d = 0x41) : s.carryNow g d t p = s.takeHistory g d := by
  unfold State.carryNow; simp only [h]
theorem State.carryNow_mode (h : op d = 0x42) : s.carryNow g d t p = s.takeMode g d := by
  unfold State.carryNow; simp only [h]
theorem State.carryNow_nv (h : op d = 0x43) : s.carryNow g d t p = s.takeNv g d := by
  unfold State.carryNow; simp only [h]
theorem State.carryNow_selfTest (h : op d = 0x44) : s.carryNow g d t p = s.takeSelfTest g d := by
  unfold State.carryNow; simp only [h]
theorem State.carryNow_approve (h : op d = 0x45) : s.carryNow g d t p = s.takeApprove g d := by
  unfold State.carryNow; simp only [h]

/-- What is not ordered on a unit is carried out at once, whatever its target. -/
theorem State.carry_unordered (h : ordered (op d) = false) : ∃ p, s.carry g d t = s.carryNow g d t p := by
  cases t with
  | unit k n => exact ⟨_, State.carry_unit (.inl h)⟩
  | device => exact ⟨_, rfl⟩
  | legs i m => exact ⟨_, rfl⟩

end

/-- A descriptor whose order does not matter. -/
theorem exec_unordered {o r : Nat} {d : Desc} {c : Instr} {s : State} (hc : descRow o r d = some c) (h : s.accepts o r d) (ho : ordered o = false) :
    ∃ p, exec c s = .next ((s.taken r d).carryNow (s.headTag r) d ((s.ring r).target d) p) := by
  obtain ⟨p, hp⟩ := State.carry_unordered (s := s.taken r d) (g := s.headTag r) (t := (s.ring r).target d) (h.opcode.symm ▸ ho)
  exact ⟨p, (exec_accepts hc h).trans (congrArg _ hp)⟩

/-- A descriptor of a unit on which nothing waits for standstill. -/
theorem exec_unit {o r n : Nat} {k : UnitKind} {d : Desc} {c : Instr} {s : State} (hc : descRow o r d = some c) (h : s.accepts o r d)
    (ht : (s.ring r).target d = .unit k n)
    (hw : ordered o = false ∨ ((s.motion k n).deferred = [] ∧ (o ≠ 0x16 ∨ (s.motion k n).stopping = none))) :
    exec c s = .next ((s.taken r d).carryNow (s.headTag r) d (.unit k n) (Bank.get Profile.reset (s.motion k n).profs (fld d.w2 16 4))) := by
  rw [exec_accepts hc h, ht, State.carry_unit (by rw [State.taken_motion, h.opcode]; exact hw)]
  exact congrArg (fun m : Motion => Host.Outcome.next ((s.taken r d).carryNow (s.headTag r) d (.unit k n) (Bank.get Profile.reset m.profs (fld d.w2 16 4))))
    (s.taken_motion r d k n)

/-! ### SET_PROFILE and SET_CURRENT -/

theorem State.complete_frame (s : State) (g : Tag) (w : List Word) (h : HostB) :
    { s.complete g w with host := h } = { s with host := h } := rfl

theorem State.updRing_frame (s : State) (r : Nat) (f : Ring → Ring) (h : HostB) :
    { s.updRing r f with host := h } = { s with host := h } := rfl

/-- The state but for the host block and the units. -/
def State.offRings (s u : State) : State := { u with host := s.host, axes := s.axes, courses := s.courses }

@[simp] theorem State.complete_offRings (s u : State) (g : Tag) (w : List Word) : s.offRings (u.complete g w) = s.offRings u := rfl
@[simp] theorem State.updMotion_offRings (s u : State) (k : UnitKind) (n : Nat) (f : Motion → Motion) : s.offRings (u.updMotion k n f) = s.offRings u := by
  cases k <;> rfl
@[simp] theorem State.taken_offRings (s : State) (r : Nat) (d : Desc) : s.offRings (s.taken r d) = s.quiet := rfl

theorem exec_setProfile_accepted {r n : Nat} {k : UnitKind} {d : Desc} {s : State} (h : s.accepts 0x10 r d)
    (ht : (s.ring r).target d = .unit k n) : ∃ t, exec (.setProfile r d) s = .next t ∧
      (∀ i, Bank.get Profile.reset (t.motion k n).profs i =
        if i = fld d.w1 0 4 then Profile.ofWords d.param else Bank.get Profile.reset (s.motion k n).profs i) ∧
      t.doneWith r (s.ring r).ti Status.ok ∧
      t.motion k n = { s.motion k n with profs := (t.motion k n).profs, profBad := (t.motion k n).profBad } ∧
      { t with host := s.host, axes := s.axes, courses := s.courses } = s.quiet := by
  refine ⟨_, (exec_unit (o := 0x10) rfl h ht (.inl rfl)).trans (congrArg _ (State.carryNow_profile h.opcode)), ?_⟩
  unfold State.takeProfile
  dsimp only
  have hm : ((s.taken r d).updMotion k n fun m => { m with
      profs := Bank.set m.profs (fld d.w1 0 4) (Profile.ofWords d.param),
      profBad := m.profBad.filter fun j => decide (j ≠ fld d.w1 0 4) }).motion k n = { s.motion k n with
      profs := Bank.set (s.motion k n).profs (fld d.w1 0 4) (Profile.ofWords d.param),
      profBad := (s.motion k n).profBad.filter fun j => decide (j ≠ fld d.w1 0 4) } := by
    rw [State.motion_updMotion, if_pos ⟨rfl, rfl⟩, State.taken_motion]
  rw [State.motion_complete, hm]
  refine ⟨fun i => Bank.get_set .., State.complete_doneWith ((State.isOpen_congr (State.ring_updMotion ..)).2 (s.taken_isOpen r d))
    (State.mkRecord_status ..), rfl, ?_⟩
  exact (State.complete_offRings s _ _ _).trans ((State.updMotion_offRings s _ k n _).trans (s.taken_offRings r d))

/-! ### NOP, FENCE and WAIT_RC -/

/-- A descriptor of a ring that carries no values of its own. -/
theorem State.ringDone_done {s : State} {r idx : Nat} (h : s.isOpen r idx) (late : Bool) :
    ∃ w, s.ringDone r idx late = s.complete ⟨r, idx⟩ w ∧ fld (w.getD 7 0) 0 8 = Status.ok := by
  obtain ⟨e, he, hi, -⟩ := h
  unfold State.ringDone
  split
  · next hf => exact absurd hi (by simpa using List.find?_eq_none.1 hf e he)
  · exact ⟨_, rfl, State.mkRecord_status ..⟩

/-- The state with a FENCE taken up. -/
def State.fencing (s : State) (r : Nat) (d : Desc) : State :=
  (s.taken r d).updRing r fun x => { x with fence := some ((s.ring r).ti, (s.taken r d).fenceList r (s.ring r).ti d) }

theorem State.fencing_ring (s : State) (r : Nat) (d : Desc) : (s.fencing r d).ring r =
    { (s.ring r).advance d.w0 s.tickDt with fence := some ((s.ring r).ti, (s.taken r d).fenceList r (s.ring r).ti d) } := by
  unfold State.fencing
  rw [State.ring_updRing, if_pos rfl, State.taken_head]

theorem State.fencing_isOpen (s : State) (r : Nat) (d : Desc) : (s.fencing r d).isOpen r (s.ring r).ti :=
  State.isOpen_of_ring (by rw [State.fencing_ring, State.taken_head])

theorem State.fencing_frame (s : State) (r : Nat) (d : Desc) : { s.fencing r d with host := s.host } = s.quiet := rfl

/-- What a FENCE waits for is told by the state and the indices of the rings. -/
theorem State.fenceMet_congr {s t : State} (h : ∀ j, (t.ring j).state = (s.ring j).state ∧ (t.ring j).ci = (s.ring j).ci) (l : List (Nat × Nat)) :
    t.fenceMet l = s.fenceMet l := by
  unfold State.fenceMet
  simp only [h]

theorem State.fencing_met (s : State) (r : Nat) (d : Desc) (l : List (Nat × Nat)) : (s.fencing r d).fenceMet l = (s.taken r d).fenceMet l := by
  refine State.fenceMet_congr (fun j => ?_) l
  unfold State.fencing
  rw [State.ring_updRing]
  split
  · next hj => subst hj; exact ⟨rfl, rfl⟩
  · exact ⟨rfl, rfl⟩

/-- A FENCE with older descriptors before it holds its list. -/
theorem exec_fence_holds {r : Nat} {d : Desc} {s : State} (h : s.accepts 0x01 r d)
    (hm : (s.taken r d).fenceMet ((s.taken r d).fenceList r (s.ring r).ti d) = false) : exec (.fence r d) s = .next (s.fencing r d) := by
  obtain ⟨p, hp⟩ := exec_unordered (o := 0x01) rfl h rfl
  rw [hp, State.carryNow_fence h.opcode]
  refine congrArg _ (?_ : (s.fencing r d).fenceCheck r = _)
  unfold State.fenceCheck
  rw [State.fencing_ring]
  dsimp only
  rw [State.fencing_met, hm, if_neg (by decide)]

/-- A FENCE whose rings have all been written back completes. -/
theorem exec_fence_met {r : Nat} {d : Desc} {s : State} (h : s.accepts 0x01 r d)
    (hm : (s.taken r d).fenceMet ((s.taken r d).fenceList r (s.ring r).ti d) = true) : exec (.fence r d) s =
      .next (((s.fencing r d).ringDone r (s.ring r).ti false).updRing r fun x => { x with fence := none }) := by
  obtain ⟨p, hp⟩ := exec_unordered (o := 0x01) rfl h rfl
  rw [hp, State.carryNow_fence h.opcode]
  refine congrArg _ (?_ : (s.fencing r d).fenceCheck r = _)
  unfold State.fenceCheck
  rw [State.fencing_ring]
  dsimp only
  rw [State.fencing_met, hm, if_pos rfl]

/-- Settles O32: each of these descriptors does its one thing to its unit or its ring. -/
theorem settersAndRingDescriptors : Obligations.SettersAndRingDescriptors := by
  unfold Obligations.SettersAndRingDescriptors
  refine ⟨fun r n k d s ht => ⟨fun h => exec_setProfile_accepted h ht, fun h => ?_⟩,
    fun r d s => ⟨fun h => ?_, fun h hm => ?_, fun h hm => ?_, fun h => ?_⟩⟩
  · rw [exec_unit (o := 0x17) rfl h ht (.inl rfl), State.carryNow_current h.opcode]
    rfl
  · obtain ⟨p, hp⟩ := exec_unordered (o := 0x00) rfl h rfl
    obtain ⟨w, hw, hst⟩ := State.ringDone_done (s.taken_isOpen r d) false
    refine ⟨_, hp.trans (congrArg _ ((State.carryNow_nop h.opcode).trans hw)), State.complete_doneWith (s.taken_isOpen r d) hst, s.taken_frame r d⟩
  · exact ⟨_, exec_fence_holds h hm, by rw [State.fencing_ring], s.fencing_isOpen r d, s.fencing_frame r d⟩
  · obtain ⟨w, hw, hst⟩ := State.ringDone_done (s.fencing_isOpen r d) false
    obtain ⟨e, he, hi, hrec⟩ := State.complete_doneWith (s.fencing_isOpen r d) hst
    rw [exec_fence_met h hm, hw]
    refine ⟨_, rfl, ?_, ⟨e, ?_, hi, hrec⟩, (State.updRing_frame _ _ _ _).trans ((State.complete_frame _ _ _ _).trans (s.fencing_frame r d))⟩
    · rw [State.ring_updRing, if_pos rfl]
    · rw [State.ring_updRing, if_pos rfl]
      exact he
  · obtain ⟨p, hp⟩ := exec_unordered (o := 0x02) rfl h rfl
    rw [hp, State.carryNow_waitRc h.opcode]
    rfl

/-! ### Requests to host memory (R361, R397) -/

/-- What leaves the device for a request. -/
def State.sent (s : State) (o : Output) : List Output := if s.canIssue && s.reaches o then s.host.pieces o else []

/-- A posted request only leaves. -/
theorem State.post_eq (s : State) (o : Output) : s.post o = { s with out := s.out ++ s.sent o } := by
  unfold State.post State.sent
  split
  · rfl
  · rw [List.append_nil]

/-- An accepted operation is held, and its status block leaves. -/
theorem State.acceptLong_eq (s : State) (x : LongOp) : s.acceptLong x = { s with
    host := { s.host with longs := s.host.longs ++ [x] }
    out := s.out ++ s.sent (.memWrite x.osb (x.osbWords s.tickDt)) } := State.post_eq ..

/-! ### NV_COMMIT, SPARE_APPROVE and SET_MODE -/

/-- Where the configuration set and the slots of the NV store are the same, so is the slot that an NV_COMMIT writes. -/
theorem State.nvTarget_congr {s t : State} (h : t.cfg = s.cfg) (hv : t.variant = s.variant) : t.nvTarget = s.nvTarget := by
  unfold State.nvTarget State.nvNewer
  rw [h, hv]

theorem exec_nvCommit_accepted {r : Nat} {d : Desc} {s : State} (h : s.accepts 0x43 r d) :
    exec (.nvCommit r d) s = .next ((s.taken r d).takeNv (s.headTag r) d) := by
  obtain ⟨p, hp⟩ := exec_unordered (o := 0x43) rfl h rfl
  rw [hp, State.carryNow_nv h.opcode]

theorem exec_spareApprove_accepted {r : Nat} {d : Desc} {s : State} (h : s.accepts 0x45 r d) :
    exec (.spareApprove r d) s = .next ((s.taken r d).takeApprove (s.headTag r) d) := by
  obtain ⟨p, hp⟩ := exec_unordered (o := 0x45) rfl h rfl
  rw [hp, State.carryNow_approve h.opcode]

/-- A refusal leaves all but the host block. -/
theorem State.refuseWith_rest (s : State) (g : Tag) (d : Desc) (t : Target) (st : Nat) :
    (s.refuseWith g d t st).cfg = s.cfg ∧ (s.refuseWith g d t st).spr = s.spr ∧ ∀ k n, (s.refuseWith g d t st).motion k n = s.motion k n := by
  obtain ⟨u, ws, fl, he⟩ := s.refuse_complete g d t { status := st, word := 0, bit := 0 }
  unfold State.refuseWith
  rw [he]
  exact ⟨rfl, rfl, fun k n => by cases k <;> rfl⟩

/-- Settles O36: the NV write begins, the spare waits to be approved, and the mode waits for its boundary. -/
theorem deviceOperationsBegin : Obligations.DeviceOperationsBegin := by
  unfold Obligations.DeviceOperationsBegin
  intro r d s
  refine ⟨fun h hcom hcrc hblock => ?_, fun h hno => ?_, fun h ha => ?_, fun h ha => ?_, fun h => ?_⟩
  · intro u hlen
    have hcfg : u.cfg = s.cfg := by rw [show u = _ from State.acceptLong_eq ..]; rfl
    have hvar : u.variant = s.variant := by rw [show u = _ from State.acceptLong_eq ..]; rfl
    have hb : (s.taken r d).nvBlock = false := hblock
    rw [exec_nvCommit_accepted h]
    unfold State.takeNv
    rw [if_neg (by rw [show (s.taken r d).cfg = s.cfg from rfl, hcom, hcrc]; decide), if_neg (by rw [hb]; decide)]
    refine congrArg _ (?_ : u.nvBegin = _)
    unfold State.nvBegin
    dsimp only
    rw [if_neg (by omega), hcfg, State.nvTarget_congr hcfg hvar]
  · rw [exec_nvCommit_accepted h]
    unfold State.takeNv
    rw [if_pos (by rw [show (s.taken r d).cfg = s.cfg from rfl]; rcases hno with h | h <;> simp [h])]
    exact ⟨_, rfl, State.refuse_doneWith (s.taken_isOpen r d) _ _ _, (State.refuseWith_rest ..).1⟩
  · rw [exec_spareApprove_accepted h]
    unfold State.takeApprove
    rw [if_pos (show (s.taken r d).awaits d.w1 = true from ha)]
  · rw [exec_spareApprove_accepted h]
    unfold State.takeApprove
    rw [if_neg (by rw [show (s.taken r d).awaits d.w1 = false from ha]; decide)]
    exact ⟨_, rfl, State.refuse_doneWith (s.taken_isOpen r d) _ _ _, (State.refuseWith_rest ..).2.1⟩
  · obtain ⟨p, hp⟩ := exec_unordered (o := 0x42) rfl h rfl
    rw [hp, State.carryNow_mode h.opcode]
    rfl

end Sys2Proof.Machine
end

section
/-! SUPPORT. Motion descriptors taken up: moves, stops and RESUME. -/

namespace Sys2Proof.Machine

/-! ### Completions leave the motion of a unit -/

@[simp] theorem State.motion_entryEnded (s : State) (k j : UnitKind) (n i status : Nat) : (s.entryEnded k n status).motion j i = s.motion j i := by
  unfold State.entryEnded
  split
  · rfl
  · unfold State.updCourse
    cases j with
    | axis => rfl
    | course =>
      simp only [State.motion, State.course_setCourse]
      split
      · next h => rw [h]
      · rfl

@[simp] theorem State.motion_silentEnd (s : State) (k j : UnitKind) (n i : Nat) (a : Move) (status : Nat) :
    (s.silentEnd k n a status).motion j i = s.motion j i := by
  unfold State.silentEnd
  split
  · exact State.motion_entryEnded ..
  · rfl

@[simp] theorem State.motion_completeMove (s : State) (k j : UnitKind) (n i : Nat) (a : Move) (status : Nat) :
    (s.completeMove k n a status).motion j i = s.motion j i := by
  unfold State.completeMove
  split
  · exact State.motion_silentEnd ..
  · exact State.motion_complete ..

/-- Steps that each leave the motion of a unit leave it together. -/
theorem State.motion_foldl {α : Type} {f : State → α → State} {k : UnitKind} {n : Nat} (h : ∀ s a, (f s a).motion k n = s.motion k n)
    (l : List α) (s : State) : (l.foldl f s).motion k n = s.motion k n := by
  induction l generalizing s with
  | nil => rfl
  | cons a l ih => exact (ih (f s a)).trans (h s a)

/-- A cancelled lookahead is empty, and nothing waits for standstill. -/
theorem State.motion_cancelLook (s : State) (k : UnitKind) (n : Nat) :
    (s.cancelLook k n).motion k n = { s.motion k n with look := [], deferred := [], start := .none, held := false } := by
  unfold State.cancelLook
  dsimp only
  rw [State.motion_updMotion_self, State.motion_foldl fun _ _ => State.motion_complete .., State.motion_foldl fun _ _ => State.motion_completeMove ..]

/-- Giving up a reversal dwell ends the move that waits it out. -/
theorem State.motion_cancelDwell (s : State) (k : UnitKind) (n : Nat) :
    ∃ a w, (s.cancelDwell k n).motion k n = { s.motion k n with act := a, dwell := w } := by
  unfold State.cancelDwell
  split
  · next h => exact ⟨none, none, by rw [State.motion_updMotion_self, State.motion_completeMove]⟩
  · exact ⟨_, none, by rw [State.motion_updMotion_self]⟩
  · exact ⟨_, _, rfl⟩

/-! ### Moves -/

/-- A unit's motion set, the rest stands. -/
theorem State.updMotion_frame (s : State) (k : UnitKind) (n : Nat) (f : Motion → Motion) (x y) :
    { s.updMotion k n f with axes := x, courses := y } = { s with axes := x, courses := y } := by
  cases k <;> rfl

section
variable {r n : Nat} {k : UnitKind} {d : Desc} {s : State}

/-- A unit whose motion is set keeps what a ring holds open. -/
theorem State.updMotion_isOpen (f : Motion → Motion) : ((s.taken r d).updMotion k n f).isOpen r (s.ring r).ti :=
  (State.isOpen_congr (State.ring_updMotion ..)).2 (s.taken_isOpen r d)

/-- What the state of a descriptor's unit is once a move of it has entered the lookahead. -/
theorem State.enter_spec (v : Move) :
    (((s.taken r d).enter k n v).motion k n).look = (s.motion k n).look ++ [{ v with ord := (s.motion k n).taken }] ∧
    (((s.taken r d).enter k n v).motion k n).ret = none ∧ ((s.taken r d).enter k n v).isOpen r (s.ring r).ti ∧
    { (s.taken r d).enter k n v with axes := s.axes, courses := s.courses } = s.taken r d := by
  unfold State.enter
  refine ⟨?_, ?_, State.updMotion_isOpen _, State.updMotion_frame _ _ _ _ s.axes s.courses⟩
  · rw [State.motion_updMotion_self, State.taken_motion]
  · rw [State.motion_updMotion_self]

/-- A move of no distance completes, and its unit stands. -/
theorem State.takeZero_spec {v : Move} (hv : v.silent = false) (ht : v.tag = s.headTag r) :
    ((s.taken r d).takeZero k n v).doneWith r (s.ring r).ti Status.ok ∧
    ((s.taken r d).takeZero k n v).motion k n = (if (s.motion k n).act.isSome then { s.motion k n with ret := none }
      else { s.motion k n with ret := none, mode := .target, tgt := (s.motion k n).pos }) ∧
    s.offRings ((s.taken r d).takeZero k n v) = s.quiet := by
  unfold State.takeZero State.completeMove
  simp only [hv, Bool.false_eq_true, if_false, ht]
  refine ⟨State.complete_doneWith (State.updMotion_isOpen _) (State.mkRecord_status ..), ?_, ?_⟩
  · rw [State.motion_complete, State.motion_updMotion_self, State.taken_motion]
  · exact (State.complete_offRings s _ _ _).trans ((State.updMotion_offRings s _ k n _).trans (s.taken_offRings r d))

theorem State.takeMove_velocity {g : Tag} {p : Profile} (h : op d = 0x13) :
    s.takeMove g d k n p = s.enter k n (s.newMove g d true d.w1.toInt false p (bit d.w0 8)) := by
  unfold State.takeMove
  dsimp only
  rw [if_pos h]

/-- The position at which the moves before it take effect. -/
def Motion.baseAt (m : Motion) (rep : Bool) : Int := if (m.base rep).2 then m.pos + (m.base rep).1 else (m.base rep).1

/-- The move of a MOVE_TO or MOVE_BY. -/
def State.moveOf (s : State) (g : Tag) (d : Desc) (m : Motion) (p : Profile) : Move :=
  s.newMove g d false (if decide (op d = 0x12) then (m.base (bit d.w0 8)).1 + signed48 d.w1 d.w2 else signed48 d.w1 d.w2)
    (decide (op d = 0x12) && (m.base (bit d.w0 8)).2) (p.override d.w3) (bit d.w0 8)

/-- Where a MOVE_TO or MOVE_BY goes. -/
def Motion.goal (m : Motion) (d : Desc) : Int :=
  if decide (op d = 0x12) then m.baseAt (bit d.w0 8) + signed48 d.w1 d.w2 else signed48 d.w1 d.w2

theorem Motion.goal_to (m : Motion) {d : Desc} (h : op d = 0x11) : m.goal d = signed48 d.w1 d.w2 := by
  simp [Motion.goal, h]

theorem Motion.goal_by (m : Motion) {d : Desc} (h : op d = 0x12) : m.goal d = m.baseAt (bit d.w0 8) + signed48 d.w1 d.w2 := by
  simp [Motion.goal, h]

/-- The move has no distance to go, and may complete at take-up. -/
def State.atGoal (s : State) (d : Desc) (k : UnitKind) (n : Nat) (m : Motion) : Prop :=
  s.standing k n = true ∧ m.suspended = false ∧ (bit d.w0 8 = false ∨ s.idle k n = true) ∧ m.goal d - m.baseAt (bit d.w0 8) = 0

theorem State.takeMove_target {g : Tag} {p : Profile} (h : op d ≠ 0x13) (hov : p.overrideOk d.w3 = true)
    (hlo : -2 ^ 47 ≤ (s.motion k n).goal d) (hhi : (s.motion k n).goal d < 2 ^ 47)
    (hdist : ((s.motion k n).goal d - (s.motion k n).baseAt (bit d.w0 8)).natAbs < 2 ^ 47) :
    (s.atGoal d k n (s.motion k n) → s.takeMove g d k n p = s.takeZero k n (s.moveOf g d (s.motion k n) p)) ∧
    (¬ s.atGoal d k n (s.motion k n) → s.takeMove g d k n p = s.enter k n (s.moveOf g d (s.motion k n) p)) := by
  have hrange : ¬ ((s.motion k n).goal d < -2 ^ 47 ∨ 2 ^ 47 ≤ (s.motion k n).goal d ∨
      2 ^ 47 ≤ ((s.motion k n).goal d - (s.motion k n).baseAt (bit d.w0 8)).natAbs) := by omega
  have hgoal : s.atGoal d k n (s.motion k n) ↔ (s.standing k n && !(s.motion k n).suspended &&
      decide ((s.motion k n).goal d = (s.motion k n).baseAt (bit d.w0 8)) && (!bit d.w0 8 || s.idle k n)) = true := by
    unfold State.atGoal
    simp only [Bool.and_eq_true, Bool.or_eq_true, Bool.not_eq_true', decide_eq_true_eq, Int.sub_eq_zero]
    exact ⟨fun ⟨hst, hsu, hw, hg⟩ => ⟨⟨⟨hst, hsu⟩, hg⟩, hw⟩, fun ⟨⟨⟨hst, hsu⟩, hg⟩, hw⟩ => ⟨hst, hsu, hw, hg⟩⟩
  unfold State.takeMove
  dsimp only
  rw [if_neg h, if_neg (by rw [hov]; decide)]
  exact ⟨fun hz => (if_neg hrange).trans (if_pos (hgoal.1 hz)), fun hz => (if_neg hrange).trans (if_neg fun hc => hz (hgoal.2 hc))⟩

end

/-- Settles O33: a move enters the lookahead, completes at take-up where it has no distance to go, or waits behind a RESUME. -/
theorem movesEnterTheLookahead : Obligations.MovesEnterTheLookahead := by
  unfold Obligations.MovesEnterTheLookahead
  intro r n k d s ht
  refine ⟨fun hdef => ?_, fun hdef o c ho hc h => ?_⟩
  · intro m p b at_ x enters zero completes
    have henters {c : Instr} {isVel rel : Bool} {target : Int} {q : Profile}
        (he : exec c s = .next ((s.taken r d).enter k n ((s.taken r d).newMove (s.headTag r) d isVel target rel q (bit d.w0 8)))) :
        enters c isVel target rel q := by
      obtain ⟨hlook, hret, hopen, hframe⟩ := State.enter_spec (s := s) (r := r) (n := n) (k := k) (d := d)
        ((s.taken r d).newMove (s.headTag r) d isVel target rel q (bit d.w0 8))
      exact ⟨_, _, he, hlook, hret, rfl, rfl, rfl, rfl, rfl, rfl, rfl, rfl, rfl, hopen, hframe⟩
    have hmove {c : Instr} {o : Nat} (hc : descRow o r d = some c) (ho : o = 0x11 ∨ o = 0x12 ∨ o = 0x13) (h : s.accepts o r d) :
        exec c s = .next ((s.taken r d).takeMove (s.headTag r) d k n p) := by
      rw [exec_unit hc h ht (.inr ⟨hdef, .inl (by rcases ho with rfl | rfl | rfl <;> decide)⟩)]
      exact congrArg _ (State.carryNow_move (by rw [h.opcode]; exact ho))
    have hgo {c : Instr} {o : Nat} (hc : descRow o r d = some c) (ho : o = 0x11 ∨ o = 0x12) (h : s.accepts o r d)
        (hov : p.overrideOk d.w3 = true) (hlo : -2 ^ 47 ≤ m.goal d) (hhi : m.goal d < 2 ^ 47)
        (hdist : (m.goal d - m.baseAt (bit d.w0 8)).natAbs < 2 ^ 47) :
        (¬ zero (m.goal d - m.baseAt (bit d.w0 8)) → exec c s = .next ((s.taken r d).enter k n ((s.taken r d).moveOf (s.headTag r) d m p))) ∧
        (zero (m.goal d - m.baseAt (bit d.w0 8)) → completes c) := by
      have hm : (s.taken r d).motion k n = m := s.taken_motion r d k n
      have h13 : op d ≠ 0x13 := by rw [h.opcode]; rcases ho with rfl | rfl <;> decide
      obtain ⟨hz, hnz⟩ := State.takeMove_target (s := s.taken r d) (k := k) (n := n) (g := s.headTag r) h13 hov
        (by rw [hm]; exact hlo) (by rw [hm]; exact hhi) (by rw [hm]; exact hdist)
      rw [hm] at hz hnz
      have he := hmove hc (ho.imp_right .inl) h
      refine ⟨fun hzero => he.trans (congrArg _ (hnz hzero)), fun hzero => ?_⟩
      obtain ⟨hdone, hmot, hframe⟩ := State.takeZero_spec (s := s) (r := r) (n := n) (k := k) (d := d)
        (v := (s.taken r d).moveOf (s.headTag r) d m p) rfl rfl
      exact ⟨_, he.trans (congrArg _ (hz hzero)), hdone, hmot, hframe⟩
    refine ⟨fun h => ?_, fun h hov hlo hhi hdist => ?_, fun h hov hlo hhi hdist => ?_⟩
    · exact henters ((hmove (o := 0x13) rfl (.inr (.inr rfl)) h).trans (congrArg _ (State.takeMove_velocity h.opcode)))
    · have hgoal : m.goal d = x := m.goal_to h.opcode
      have hat : m.baseAt (bit d.w0 8) = at_ := rfl
      have hmv : (s.taken r d).moveOf (s.headTag r) d m p =
          (s.taken r d).newMove (s.headTag r) d false x false (p.override d.w3) (bit d.w0 8) := by
        simp [State.moveOf, h.opcode, x]
      obtain ⟨hnz, hz⟩ := hgo (o := 0x11) rfl (.inl rfl) h hov (by rw [hgoal]; exact hlo) (by rw [hgoal]; exact hhi) (by rw [hgoal, hat]; exact hdist)
      rw [hgoal, hat] at hnz hz
      exact ⟨fun hzero => henters (by rw [hnz hzero, hmv]), hz⟩
    · have hat : m.baseAt (bit d.w0 8) = at_ := rfl
      have hgoal : m.goal d = at_ + x := by rw [m.goal_by h.opcode, hat]
      have hsub : m.goal d - m.baseAt (bit d.w0 8) = x := by rw [hgoal, hat]; omega
      have hmv : (s.taken r d).moveOf (s.headTag r) d m p =
          (s.taken r d).newMove (s.headTag r) d false (b.1 + x) b.2 (p.override d.w3) (bit d.w0 8) := by
        simp [State.moveOf, h.opcode, x, b]
      obtain ⟨hnz, hz⟩ := hgo (o := 0x12) rfl (.inr rfl) h hov (by rw [hgoal]; exact hlo) (by rw [hgoal]; exact hhi) (by rw [hsub]; exact hdist)
      rw [hsub] at hnz hz
      exact ⟨fun hzero => henters (by rw [hnz hzero, hmv]), hz⟩
  · have hord : ordered (op d) = true := by rw [h.opcode]; rcases ho with rfl | rfl | rfl <;> decide
    rw [exec_accepts hc h, ht, State.carry_deferred hord (.inl (by rw [State.taken_motion]; exact hdef))]

/-! ### STOP and QSTOP -/

section
variable {r n : Nat} {k : UnitKind} {d : Desc} {s : State}

/-- The motion of a unit whose lookahead and dwell have been given up. -/
theorem State.motion_cancelled (s : State) (k : UnitKind) (n : Nat) :
    ∃ a w, ((s.cancelDwell k n).cancelLook k n).motion k n =
      { s.motion k n with act := a, dwell := w, look := [], deferred := [], start := .none, held := false } := by
  obtain ⟨a, w, h⟩ := s.motion_cancelDwell k n
  exact ⟨a, w, by rw [State.motion_cancelLook, h]⟩

theorem Motion.postStop_spec (m : Motion) (c : StopCause) (mem : Option (Nat × Nat)) :
    (m.postStop c mem).look = m.look ∧ (m.postStop c mem).deferred = m.deferred ∧ (m.postStop c mem).stopping.isSome = true := by
  unfold Motion.postStop
  split
  · exact ⟨rfl, rfl, rfl⟩
  · split
    · exact ⟨rfl, rfl, rfl⟩
    · exact ⟨rfl, rfl, rfl⟩

/-- A unit's motion updated is a unit's motion set. -/
theorem State.updMotion_eq_setMotion (s : State) (k : UnitKind) (n : Nat) (f : Motion → Motion) :
    s.updMotion k n f = s.setMotion k n ((s.updMotion k n f).motion k n) := by
  rw [State.motion_updMotion_self]
  rfl

/-! ### RESUME -/

theorem State.taken_limitRefuses (s : State) (r : Nat) (d : Desc) (k : UnitKind) (n : Nat) (x : Int) :
    (s.taken r d).limitRefuses k n x = s.limitRefuses k n x := by cases k <;> rfl

theorem exec_resume_now (ht : (s.ring r).target d = .unit k n) (h : s.accepts 0x16 r d) (hdef : (s.motion k n).deferred = [])
    (hstop : (s.motion k n).stopping = none) : exec (.resume r d) s = .next ((s.taken r d).takeResume (s.headTag r) d k n) := by
  rw [exec_unit (o := 0x16) rfl h ht (.inr ⟨hdef, .inr hstop⟩), State.carryNow_resume h.opcode]

/-- A RESUME of a unit that has retained nothing. -/
theorem State.takeResume_none {g : Tag} (hret : (s.motion k n).ret = none) :
    s.takeResume g d k n = s.refuseWith g d (.unit k n) Status.noRetained := by
  unfold State.takeResume
  dsimp only
  rw [hret]

/-- A RESUME of a value whose unit's position is uncertain. -/
theorem State.takeResume_uncertain {g : Tag} {x : Retained} (hret : (s.motion k n).ret = some x) (hp : (s.motion k n).posUnc = true)
    (hf : bit d.w0 9 = false) : s.takeResume g d k n = s.refuseWith g d (.unit k n) Status.uncertain := by
  unfold State.takeResume
  dsimp only
  rw [hret]
  dsimp only
  rw [if_pos (by rw [hp, hf]; decide)]

/-- A RESUME of a value that the position allows. -/
theorem State.takeResume_allowed {g : Tag} {x : Retained} (hret : (s.motion k n).ret = some x)
    (hp : (s.motion k n).posUnc = false ∨ bit d.w0 9 = true) : s.takeResume g d k n =
      if s.limitRefuses k n x.value.sign = some Status.limitActive then s.refuseWith g d (.unit k n) Status.limitActive
      else if x.value = 0 ∧ !x.isVel then
        (s.updMotion k n fun m => { m with ret := none }).complete g
          ((s.updMotion k n fun m => { m with ret := none }).motionRecord k n d.w0 false false 0 none false Status.ok)
      else s.enter k n (s.newMove g d x.isVel x.value (!x.isVel) x.prof false) := by
  unfold State.takeResume
  dsimp only
  rw [hret]
  dsimp only
  rw [if_neg (by rcases hp with h | h <;> simp [h])]

/-- A refused descriptor of a unit completes with its status, and the unit's motion stands. -/
theorem State.refuseWith_spec (s : State) (r : Nat) (d : Desc) (t : Target) (k : UnitKind) (n : Nat) {st : Nat} (hst : st < 256) :
    ((s.taken r d).refuseWith (s.headTag r) d t st).motion k n = s.motion k n ∧
    ((s.taken r d).refuseWith (s.headTag r) d t st).doneWith r (s.ring r).ti st := by
  obtain ⟨-, -, hm⟩ := (s.taken r d).refuseWith_rest (s.headTag r) d t st
  refine ⟨(hm k n).trans (s.taken_motion r d k n), ?_⟩
  have hdone := State.refuse_doneWith (s.taken_isOpen r d) d t { status := st, word := 0, bit := 0 }
  rwa [Nat.mod_eq_of_lt hst] at hdone

end

/-- Settles O34: what a stop gives up and waits for, and every answer to a RESUME. -/
theorem stopsAndResumes : Obligations.StopsAndResumes := by
  unfold Obligations.StopsAndResumes
  intro r n k d s ht
  refine ⟨fun o c ho hc h => ?_, fun x h hdef hstop hret hunc hlim hval => ?_, fun h hdef hstop hret => ?_, fun x h hdef hstop hret => ?_, fun h hstop => ?_⟩
  · intro u
    have hop : op d = 0x14 ∨ op d = 0x15 := by rw [h.opcode]; exact ho
    obtain ⟨a, w, hm⟩ := (s.taken r d).motion_cancelled k n
    rw [State.taken_motion] at hm
    rw [exec_unit hc h ht (.inl (by rcases ho with rfl | rfl <;> decide)), State.carryNow_stop hop]
    unfold State.takeStop
    cases hstand : (s.taken r d).standing k n with
    | true =>
      rw [if_pos rfl]
      refine ⟨_, rfl, ?_, ?_, fun _ => rfl, fun hc => by cases hc⟩
      · rw [State.motion_complete, hm]
      · rw [State.motion_complete, hm]
    | false =>
      rw [if_neg (by decide)]
      dsimp only
      obtain ⟨hlook, hdefer, hst⟩ := Motion.postStop_spec (u.motion k n) (if op d = 0x15 then .qstop else .stop) none
      refine ⟨_, rfl, ?_, ?_, fun hc => by (cases hc), fun _ => ⟨State.updMotion_eq_setMotion .., ?_, ?_⟩⟩
      · rw [State.motion_updMotion_self]
        exact hlook.trans (congrArg Motion.look hm)
      · rw [State.motion_updMotion_self]
        exact hdefer.trans (congrArg Motion.deferred hm)
      · rw [State.motion_updMotion_self]
        exact hst
      · rw [State.motion_updMotion_self, hm]
  · rw [exec_resume_now ht h hdef hstop, State.takeResume_allowed (s := s.taken r d) (by rw [State.taken_motion]; exact hret)
      (by rw [State.taken_motion]; exact hunc), if_neg (by rw [State.taken_limitRefuses]; exact hlim),
      if_neg (by rcases hval with hv | hv <;> simp [hv])]
    obtain ⟨hlook, hret', -, hframe⟩ := State.enter_spec (s := s) (r := r) (n := n) (k := k) (d := d)
      ((s.taken r d).newMove (s.headTag r) d x.isVel x.value (!x.isVel) x.prof false)
    exact ⟨_, _, rfl, hlook, hret', rfl, rfl, rfl, rfl, rfl, hframe⟩
  · rw [exec_resume_now ht h hdef hstop, State.takeResume_none (by rw [State.taken_motion]; exact hret)]
    exact ⟨_, rfl, s.refuseWith_spec r d _ k n (by decide)⟩
  · refine ⟨fun hp hf => ?_, fun hp => ⟨fun hlim => ?_, fun hlim hvel hzero => ?_⟩⟩
    · rw [exec_resume_now ht h hdef hstop, State.takeResume_uncertain (by rw [State.taken_motion]; exact hret)
        (by rw [State.taken_motion]; exact hp) hf]
      exact ⟨_, rfl, s.refuseWith_spec r d _ k n (by decide)⟩
    · rw [exec_resume_now ht h hdef hstop, State.takeResume_allowed (s := s.taken r d) (by rw [State.taken_motion]; exact hret)
        (by rw [State.taken_motion]; exact hp), if_pos (by rw [State.taken_limitRefuses]; exact hlim)]
      exact ⟨_, rfl, s.refuseWith_spec r d _ k n (by decide)⟩
    · rw [exec_resume_now ht h hdef hstop, State.takeResume_allowed (s := s.taken r d) (by rw [State.taken_motion]; exact hret)
        (by rw [State.taken_motion]; exact hp), if_neg (by rw [State.taken_limitRefuses]; exact hlim), if_pos (by simp [hvel, hzero])]
      refine ⟨_, rfl, ?_, State.complete_doneWith (State.updMotion_isOpen _) (State.mkRecord_status ..)⟩
      rw [State.motion_complete, State.motion_updMotion_self, State.taken_motion]
  · rw [exec_accepts (o := 0x16) rfl h, ht, State.carry_deferred (by rw [h.opcode]; decide)
      (.inr ⟨h.opcode, by rw [State.taken_motion]; exact hstop⟩)]

end Sys2Proof.Machine
end

section
/-! SUPPORT. READ_HISTORY, followers, playbacks, bonds and solenoid descriptors. -/

namespace Sys2Proof.Machine

/-! ### Acknowledging records -/

theorem Bank.get_map_fixed {α : Type} (d : α) (b : Bank α) (f : α → α) (k : Nat) (hd : f d = d) :
    Bank.get d (b.map fun p => (p.1, f p.2)) k = f (Bank.get d b k) := by
  induction b with
  | nil => exact hd.symm
  | cons p b ih =>
    unfold Bank.get at ih ⊢
    rw [List.map_cons, List.lookup_cons, List.lookup_cons]
    split
    · rfl
    · exact ih

/-- What keeps a unit isolated without a record. -/
def keptBut (u : Nat) (l : List Nat) : List Nat := l.filter fun w => decide (w ≠ u)

/-- The state behind an acknowledgement of what a record isolated. -/
def State.unheld (s : State) (u : Nat) (f : Flt) : State := { s with
  flt := f
  axes := s.axes.map fun p => (p.1, { p.2 with isoHold := keptBut u p.2.isoHold })
  tiles := s.tiles.map fun p => (p.1, { p.2 with isoHold := keptBut u p.2.isoHold }) }

theorem State.unheld_tile (s : State) (u : Nat) (f : Flt) (t : Nat) :
    (s.unheld u f).tile t = { s.tile t with isoHold := keptBut u (s.tile t).isoHold } :=
  Bank.get_map_fixed Tile.reset s.tiles (fun x => { x with isoHold := keptBut u x.isoHold }) t rfl

theorem State.unheld_axis (s : State) (u : Nat) (f : Flt) (a : Nat) :
    (s.unheld u f).axis a = { s.axis a with isoHold := keptBut u (s.axis a).isoHold } :=
  Bank.get_map_fixed Axis.reset s.axes (fun x => { x with isoHold := keptBut u x.isoHold }) a rfl

theorem State.unheld_leg (s : State) (u : Nat) (f : Flt) (t l : Nat) : (s.unheld u f).leg t l = s.leg t l := by
  unfold State.leg
  rw [State.unheld_tile]

/-- Whether a cause persists does not depend on what its record holds isolated. -/
theorem State.causePersists_unheld (s : State) (u : Nat) (f : Flt) (src : Nat) (d : Word) :
    (s.unheld u f).causePersists src d = s.causePersists src d := by
  have htrip (t l : Nat) : (s.unheld u f).tripActive t l = s.tripActive t l := by
    unfold State.tripActive
    simp only [State.unheld_leg, State.unheld_tile]
    rfl
  unfold State.causePersists
  simp only [htrip, State.unheld_tile]
  rfl

theorem State.mayAck_unheld (s : State) (u : Nat) (f : Flt) (e : Entry) : (s.unheld u f).mayAck e = s.mayAck e := by
  unfold State.mayAck
  simp only [State.causePersists_unheld]

/-- The record of a number is acknowledged where its cause is gone. -/
def State.acked (s : State) (us : List Nat) (e : Entry) : Entry := if us.any (fun u => decide (u = e.uid)) && s.mayAck e then { e with ack := true } else e

@[simp] theorem State.acked_uid (s : State) (us : List Nat) (e : Entry) : (s.acked us e).uid = e.uid := by
  unfold State.acked
  split <;> rfl

theorem State.mayAck_acked (s : State) (us : List Nat) (t : State) (e : Entry) : t.mayAck (s.acked us e) = t.mayAck e := by
  unfold State.acked
  split <;> rfl

/-- A number that an acknowledgement frees: a record of it is held whose cause is gone. -/
def State.frees (s : State) (us : List Nat) (w : Nat) : Prop := w ∈ us ∧ ∃ e ∈ s.flt.hist, e.uid = w ∧ s.mayAck e = true

/-- What acknowledging records brings: each record whose cause is gone is acknowledged, and nothing stays isolated for its sake. -/
structure State.acks (s : State) (us : List Nat) (t : State) : Prop where
  flt : t.flt = { s.flt with hist := s.flt.hist.map (s.acked us) }
  may : ∀ e, t.mayAck e = s.mayAck e
  axis : ∀ w a, w ∈ (t.axis a).isoHold → w ∈ (s.axis a).isoHold ∧ ¬ s.frees us w
  tile : ∀ w n, w ∈ (t.tile n).isoHold → w ∈ (s.tile n).isoHold ∧ ¬ s.frees us w

/-- An acknowledgement of a record that is gone, or whose cause persists, changes nothing. -/
theorem State.acks_same {s : State} {u : Nat} (h : ∀ e ∈ s.flt.hist, e.uid = u → s.mayAck e = false) : s.acks [u] s := by
  have hfree (w : Nat) : ¬ s.frees [u] w := by
    rintro ⟨hw, e, he, hu, hm⟩
    rw [List.mem_singleton] at hw
    rw [h e he (hu.trans hw)] at hm
    cases hm
  refine ⟨?_, fun _ => rfl, fun w a hw => ⟨hw, hfree w⟩, fun w n hw => ⟨hw, hfree w⟩⟩
  have hid : s.flt.hist.map (s.acked [u]) = s.flt.hist := by
    refine (List.map_congr_left fun e he => ?_).trans (List.map_id _)
    unfold State.acked
    rw [if_neg]
    · rfl
    · by_cases hu : e.uid = u
      · simp [h e he hu]
      · simp [Ne.symm hu]
  rw [hid]

/-- Elements of a list whose images under a function do not repeat are equal where their images are. -/
theorem eq_of_nodup_map {α β : Type} {f : α → β} {l : List α} (hn : (l.map f).Nodup) {x y : α} (hx : x ∈ l) (hy : y ∈ l)
    (hf : f x = f y) : x = y := by
  induction l with
  | nil => cases hx
  | cons z zs ih =>
    rw [List.map_cons, List.nodup_cons] at hn
    obtain ⟨hz, hzs⟩ := hn
    rcases List.mem_cons.1 hx with rfl | hxs <;> rcases List.mem_cons.1 hy with rfl | hys
    · rfl
    · exact absurd (List.mem_map.2 ⟨y, hys, hf.symm⟩) hz
    · exact absurd (List.mem_map.2 ⟨x, hxs, hf⟩) hz
    · exact ih hzs hxs hys

/-- One record is acknowledged, where no two records have the same number. -/
theorem State.acks_ackRecord {s : State} (hn : (s.flt.hist.map Entry.uid).Nodup) (u : Nat) : s.acks [u] (s.ackRecord u) := by
  unfold State.ackRecord
  split
  · next hf =>
    refine State.acks_same fun e he hu => ?_
    have := List.find?_eq_none.1 hf e he
    simp [hu] at this
  · next e hf =>
    have hmem := List.mem_of_find?_eq_some hf
    have huid : e.uid = u := by simpa using List.find?_some hf
    have hone (x : Entry) (hx : x ∈ s.flt.hist) (hu : x.uid = u) : x = e := eq_of_nodup_map hn hx hmem (hu.trans huid.symm)
    split
    · next hm =>
      refine ⟨?_, fun x => State.mayAck_unheld s u _ x, fun w a hw => ?_, fun w n hw => ?_⟩
      · have hmap : (s.flt.hist.map fun x => if x.uid = u then { x with ack := true } else x) = s.flt.hist.map (s.acked [u]) := by
          refine List.map_congr_left fun x hx => ?_
          unfold State.acked
          by_cases hu : x.uid = u
          · rw [if_pos hu, if_pos]
            rw [hone x hx hu]
            simp [huid, hm]
          · rw [if_neg hu, if_neg]
            simp [Ne.symm hu]
        rw [← hmap]
      · have hw : w ∈ ((s.unheld u _).axis a).isoHold := hw
        rw [State.unheld_axis] at hw
        obtain ⟨hin, hne⟩ := List.mem_filter.1 hw
        exact ⟨hin, fun h => absurd (List.mem_singleton.1 h.1) (by simpa using hne)⟩
      · have hw : w ∈ ((s.unheld u _).tile n).isoHold := hw
        rw [State.unheld_tile] at hw
        obtain ⟨hin, hne⟩ := List.mem_filter.1 hw
        exact ⟨hin, fun h => absurd (List.mem_singleton.1 h.1) (by simpa using hne)⟩
    · next hm => exact State.acks_same fun x hx hu => by rw [hone x hx hu]; simpa using hm

theorem State.acks.uids {s t : State} {us : List Nat} (h : s.acks us t) : t.flt.hist.map Entry.uid = s.flt.hist.map Entry.uid := by
  rw [h.flt]
  simp [Function.comp_def]

/-- Acknowledgements one after another. -/
theorem State.acks.trans {s t u : State} {us vs : List Nat} (h : s.acks us t) (h' : t.acks vs u) : s.acks (us ++ vs) u := by
  have hfree {w : Nat} (ht : ¬ t.frees vs w) (hs : ¬ s.frees us w) : ¬ s.frees (us ++ vs) w := by
    rintro ⟨hw, e, he, hu, hm⟩
    rcases List.mem_append.1 hw with hw | hw
    · exact hs ⟨hw, e, he, hu, hm⟩
    · refine ht ⟨hw, s.acked us e, ?_, by rw [State.acked_uid, hu], by rw [State.mayAck_acked, h.may, hm]⟩
      rw [h.flt]
      exact List.mem_map_of_mem he
  refine ⟨?_, fun e => (h'.may e).trans (h.may e), fun w a hw => ?_, fun w n hw => ?_⟩
  · have hmap : (s.flt.hist.map (s.acked us)).map (t.acked vs) = s.flt.hist.map (s.acked (us ++ vs)) := by
      rw [List.map_map]
      refine List.map_congr_left fun e _ => ?_
      have hm : t.mayAck (s.acked us e) = s.mayAck e := by rw [State.mayAck_acked, h.may]
      show t.acked vs (s.acked us e) = _
      unfold State.acked at hm ⊢
      cases hmay : s.mayAck e with
      | false => simp [hmay, h.may]
      | true =>
        by_cases hu : us.any (fun u => decide (u = e.uid)) = true
        · simp [h.may, hu, List.any_append]
        · simp only [Bool.not_eq_true] at hu
          simp [hmay, h.may, hu, List.any_append]
    rw [h'.flt, h.flt, ← hmap]
  · obtain ⟨hin, hnot⟩ := h'.axis w a hw
    obtain ⟨hin', hnot'⟩ := h.axis w a hin
    exact ⟨hin', hfree hnot hnot'⟩
  · obtain ⟨hin, hnot⟩ := h'.tile w n hw
    obtain ⟨hin', hnot'⟩ := h.tile w n hin
    exact ⟨hin', hfree hnot hnot'⟩

theorem State.acks_nil (s : State) : s.acks [] s := by
  refine ⟨?_, fun _ => rfl, fun w a hw => ⟨hw, fun h => absurd h.1 List.not_mem_nil⟩, fun w n hw => ⟨hw, fun h => absurd h.1 List.not_mem_nil⟩⟩
  have hid : s.flt.hist.map (s.acked []) = s.flt.hist := List.map_id _
  rw [hid]

/-- Records acknowledged one after another, where no two have the same number. -/
theorem State.acks_foldl {s : State} (hn : (s.flt.hist.map Entry.uid).Nodup) (es : List Entry) :
    s.acks (es.map Entry.uid) (es.foldl (fun t e => t.ackRecord e.uid) s) := by
  induction es generalizing s with
  | nil => exact s.acks_nil
  | cons e es ih =>
    have h1 := State.acks_ackRecord hn e.uid
    exact h1.trans (ih (h1.uids ▸ hn))

/-- Of all state an acknowledgement reaches the history and what the units hold. -/
def State.offFaults (s : State) : State := { s with flt := Flt.reset, axes := [], tiles := [] }

theorem State.ackRecord_offFaults (s : State) (u : Nat) : (s.ackRecord u).offFaults = s.offFaults := by
  unfold State.ackRecord
  split
  · rfl
  · split
    · rfl
    · rfl

theorem State.ackRecord_uids (s : State) (u : Nat) : (s.ackRecord u).flt.hist.map Entry.uid = s.flt.hist.map Entry.uid := by
  unfold State.ackRecord
  split
  · rfl
  · split
    · simp only [List.map_map]
      refine List.map_congr_left fun x _ => ?_
      show (if x.uid = u then _ else x : Entry).uid = x.uid
      split <;> rfl
    · rfl

theorem State.ackAll_frame (es : List Entry) (s : State) :
    (es.foldl (fun t e => t.ackRecord e.uid) s).offFaults = s.offFaults ∧
    (es.foldl (fun t e => t.ackRecord e.uid) s).flt.hist.map Entry.uid = s.flt.hist.map Entry.uid := by
  induction es generalizing s with
  | nil => exact ⟨rfl, rfl⟩
  | cons e es ih => exact ⟨(ih _).1.trans (s.ackRecord_offFaults _), (ih _).2.trans (s.ackRecord_uids _)⟩

/-! ### READ_HISTORY -/

/-- What a list of requests brings out. -/
def State.sentAll (s : State) (os : List Output) : List Output := if s.canIssue then (os.filter s.reaches).flatMap s.host.pieces else []

/-- Requests posted one after another. -/
theorem State.foldl_post (os : List Output) (s : State) : os.foldl State.post s = { s with out := s.out ++ s.sentAll os } := by
  induction os generalizing s with
  | nil => unfold State.sentAll; simp
  | cons o os ih =>
    rw [List.foldl_cons, ih, State.post_eq]
    have hreach : State.reaches { s with out := s.out ++ s.sent o } = s.reaches := funext fun o => by cases o <;> rfl
    have hall : State.sentAll { s with out := s.out ++ s.sent o } os = s.sentAll os := by
      unfold State.sentAll
      rw [hreach]
      rfl
    have hcons : s.sentAll (o :: os) = s.sent o ++ s.sentAll os := by
      unfold State.sentAll State.sent
      cases s.canIssue <;> cases hr : s.reaches o <;> simp [hr]
    rw [hall, hcons, List.append_assoc]

theorem State.taken_sentAll (s : State) (r : Nat) (d : Desc) (os : List Output) : (s.taken r d).sentAll os = s.sentAll os := by
  have hreach : (s.taken r d).reaches = s.reaches := funext fun o => by cases o <;> rfl
  unfold State.sentAll
  rw [hreach]
  rfl

theorem exec_readHistory_accepted {r : Nat} {d : Desc} {s : State} (h : s.accepts 0x41 r d) :
    exec (.readHistory r d) s = .next ((s.taken r d).takeHistory (s.headTag r) d) := by
  obtain ⟨p, hp⟩ := exec_unordered (o := 0x41) rfl h rfl
  rw [hp, State.carryNow_history h.opcode]

/-- The elements that a READ_HISTORY writes. -/
def historyElements (d : Desc) (es : List Entry) (dt : Nat) : List Output :=
  es.zipIdx.map fun p => Output.memWrite (addr64 d.w3 d.w4 + 48 * p.2) (wd p.1.num :: p.1.words dt)

/-- The words of a record do not depend on what is posted. -/
theorem State.foldl_elements (es : List (Entry × Nat)) (buf : Nat) (s : State) :
    es.foldl (fun t p => t.post (.memWrite (buf + 48 * p.2) (wd p.1.num :: p.1.words s.dt))) s =
      { s with out := s.out ++ s.sentAll (es.map fun p => Output.memWrite (buf + 48 * p.2) (wd p.1.num :: p.1.words s.dt)) } := by
  rw [← State.foldl_post, List.foldl_map]

/-- The state in which the elements have left. -/
def State.readOut (s : State) (r : Nat) (d : Desc) (es : List Entry) : State := { s.taken r d with out := s.sentAll (historyElements d es s.dt) }

/-- The state in which the elements have left and are acknowledged where that is asked. -/
def State.readDone (s : State) (r : Nat) (d : Desc) (es : List Entry) : State :=
  if bit d.w0 8 then es.foldl (fun t e => t.ackRecord e.uid) (s.readOut r d es) else s.readOut r d es

/-- What has left says nothing of a cause. -/
theorem State.readOut_mayAck (s : State) (r : Nat) (d : Desc) (es : List Entry) (e : Entry) : (s.readOut r d es).mayAck e = s.mayAck e := rfl

theorem State.takeHistory_eq (s : State) (r : Nat) (d : Desc) : ∃ ws, (s.taken r d).takeHistory (s.headTag r) d =
    (s.readDone r d ((s.flt.from d.w2.toNat).take (fld d.w1 0 6))).complete (s.headTag r)
      ((s.readDone r d ((s.flt.from d.w2.toNat).take (fld d.w1 0 6))).mkRecord d.w0 ws 0 Status.ok) := by
  unfold State.takeHistory
  dsimp only
  rw [State.foldl_elements, State.taken_sentAll]
  rw [show State.flt (s.taken r d) = s.flt from rfl]
  exact ⟨_, rfl⟩

theorem State.readDone_offFaults (s : State) (r : Nat) (d : Desc) (es : List Entry) :
    (s.readDone r d es).offFaults = (s.readOut r d es).offFaults := by
  unfold State.readDone
  split
  · exact (State.ackAll_frame es _).1
  · rfl

/-- Settles O37: the elements leave in order, the descriptor completes, and with ACK each one whose cause is gone is acknowledged. -/
theorem historyIsReadOldestFirst : Obligations.HistoryIsReadOldestFirst := by
  unfold Obligations.HistoryIsReadOldestFirst
  intro r d s h es
  obtain ⟨ws, he⟩ := s.takeHistory_eq r d
  have hoff := s.readDone_offFaults r d es
  have hring : (s.readDone r d es).offFaults.ring r = (s.readOut r d es).offFaults.ring r := by rw [hoff]
  have hout : (s.readDone r d es).offFaults.out = (s.readOut r d es).offFaults.out := by rw [hoff]
  refine ⟨_, (exec_readHistory_accepted h).trans (congrArg _ he), State.complete_doneWith (State.isOpen_of_ring (congrArg Ring.outst hring))
    (State.mkRecord_status ..), hout, fun hb => ?_, fun hb hn => ?_, ?_, List.length_take_le ..⟩
  · have hno : s.readDone r d es = s.readOut r d es := if_neg (by rw [hb]; decide)
    rw [show ((s.flt.from d.w2.toNat).take (fld d.w1 0 6)) = es from rfl, hno]
    exact ⟨rfl, rfl, rfl⟩
  · have hyes : s.readDone r d es = es.foldl (fun t e => t.ackRecord e.uid) (s.readOut r d es) := if_pos hb
    rw [show ((s.flt.from d.w2.toNat).take (fld d.w1 0 6)) = es from rfl, hyes]
    have hacks := State.acks_foldl (s := s.readOut r d es) hn es
    have hacked (e : Entry) : (s.readOut r d es).acked (es.map Entry.uid) e =
        if es.any (fun x => decide (x.uid = e.uid)) && s.mayAck e then { e with ack := true } else e := by
      unfold State.acked
      rw [State.readOut_mayAck, List.any_map]
      rfl
    refine ⟨?_, fun e hein hm => ?_⟩
    · rw [State.complete_flt, hacks.flt, funext hacked]
      rfl
    · have hfree : (s.readOut r d es).frees (es.map Entry.uid) e.uid :=
        ⟨List.mem_map_of_mem hein, e, (List.mem_filter.1 (List.mem_reverse.1 (List.mem_of_mem_take hein))).1, rfl, (s.readOut_mayAck r d es e).trans hm⟩
      exact ⟨fun a ha => (hacks.axis _ a ha).2 hfree, fun n hn => (hacks.tile _ n hn).2 hfree⟩
  · rw [show ((s.flt.from d.w2.toNat).take (fld d.w1 0 6)) = es from rfl, State.complete_flt]
    unfold State.readDone
    split
    · exact (State.ackAll_frame es _).2
    · rfl

end Sys2Proof.Machine
end

section
/-! SUPPORT. Followers, playbacks, bonds and solenoid descriptors at take-up. -/

namespace Sys2Proof.Machine

/-! ### Reads of host memory (R361) -/

/-- A waiting read keeps its purpose and its requests. -/
theorem issueReads_mem (now : Nat) (l : List ReadReq) : ∀ free : Nat, ∀ x ∈ l, ∃ y ∈ (issueReads now free l).1, y.src = x.src ∧ y.parts = x.parts := by
  induction l with
  | nil => intro _ _ hx; cases hx
  | cons z l ih =>
    intro free x hx
    unfold issueReads
    dsimp only
    rcases List.mem_cons.1 hx with rfl | hx
    · split
      · exact ⟨x, List.mem_cons_self, rfl, rfl⟩
      · split
        · exact ⟨_, List.mem_cons_self, rfl, rfl⟩
        · exact ⟨x, List.mem_cons_self, rfl, rfl⟩
    · split
      · obtain ⟨y, hy, h⟩ := ih free x hx
        exact ⟨y, List.mem_cons_of_mem _ hy, h⟩
      · split
        · obtain ⟨y, hy, h⟩ := ih _ x hx
          exact ⟨y, List.mem_cons_of_mem _ hy, h⟩
        · exact ⟨x, List.mem_cons_of_mem _ hx, rfl, rfl⟩

/-- A lone read is issued at once when its requests are within the tags. -/
theorem issueReads_alone (now free : Nat) {x : ReadReq} (hs : x.sent = none) (hf : x.parts.length ≤ free) :
    issueReads now free [x] = ([{ x with sent := some now }], x.parts) := by
  simp [issueReads, hs, hf]

/-- A read that the device may not make is not made. -/
theorem State.request_none {s : State} {src : ReadSrc} {o : Output} (h : (s.canIssue && s.reaches o) = false) : s.request src o = s := by
  unfold State.request
  rw [h]
  rfl

/-- A read of host memory waits for its tags, or has been issued. -/
theorem State.request_asked {s : State} {src : ReadSrc} {o : Output} (h : (s.canIssue && s.reaches o) = true) :
    (∃ x ∈ (s.request src o).host.asked, x.src = src ∧ x.parts = s.host.pieces o) ∧
    (s.host.asked = [] → (s.host.pieces o).length ≤ 32 → (s.request src o).out = s.out ++ s.host.pieces o) := by
  have hc : s.canIssue = true := by simp only [Bool.and_eq_true] at h; exact h.1
  unfold State.request State.issueAsked
  rw [h, if_pos rfl]
  rw [if_pos (show State.canIssue { s with host := { s.host with asked := s.host.asked ++ [ReadReq.mk src (s.host.pieces o) none] } } = true from hc)]
  refine ⟨?_, fun hn hl => ?_⟩
  · exact issueReads_mem _ _ _ (ReadReq.mk src (s.host.pieces o) none) (List.mem_append_right _ (List.mem_singleton.2 rfl))
  · have htags : HostB.tags { s.host with asked := s.host.asked ++ [ReadReq.mk src (s.host.pieces o) none] } = 0 := by
      simp [HostB.tags, hn]
    dsimp only
    rw [htags, hn, List.nil_append, issueReads_alone _ _ rfl (by exact hl)]

/-- A request touches nothing but the outstanding reads and what leaves. -/
theorem State.request_frame (s : State) (src : ReadSrc) (o : Output) :
    ∃ a out, s.request src o = { s with host := { s.host with asked := a }, out := out } := by
  unfold State.request State.issueAsked
  split
  · split
    · exact ⟨_, _, rfl⟩
    · exact ⟨_, _, rfl⟩
  · exact ⟨_, _, rfl⟩

/-- A read of at most 256 bytes is at most two requests of 128. -/
theorem HostB.pieces_read (h : HostB) (a : Nat) {n : Nat} (hn : n ≤ 256) (hm : 128 ≤ h.mrrs) : (h.pieces (.readRequest a n)).length ≤ 32 := by
  have hr : 128 ≤ h.readMax := by unfold HostB.readMax; omega
  unfold HostB.pieces
  simp only [List.length_map, List.length_range]
  have : (n + h.readMax - 1) / h.readMax < 3 := by
    rw [Nat.div_lt_iff_lt_mul (by omega)]
    omega
  omega

/-! ### FOLLOW_STEPS and PLAY_TABLE -/

section
variable {r n : Nat} {k : UnitKind} {d : Desc} {s : State}

/-- What waits on a unit behind a descriptor that joined it. -/
theorem State.enterLater_spec (l : Nat → Later) :
    (((s.taken r d).enterLater k n l).motion k n).later = (s.motion k n).later ++ [l (s.motion k n).taken] ∧
    (((s.taken r d).enterLater k n l).motion k n).ret = none := by
  unfold State.enterLater
  rw [State.motion_updMotion_self, State.taken_motion]
  exact ⟨rfl, rfl⟩

end

/-- FOLLOW_STEPS, as O38 states it. -/
theorem exec_followSteps_accepted {r n : Nat} {k : UnitKind} {d : Desc} {s : State} (ht : (s.ring r).target d = .unit k n)
    (h : s.accepts 0x29 r d) (hdef : (s.motion k n).deferred = []) : ∃ t f, exec (.followSteps r d) s = .next t ∧
      (t.motion k n).later = (s.motion k n).later ++ [.follow f] ∧ f.tag = s.headTag r ∧ f.ord = (s.motion k n).taken ∧ f.isEnc = bit d.w1 4 ∧
      f.src = fld d.w1 0 4 ∧ f.k = d.w2.toInt ∧ f.f = fld d.w1 8 3 ∧ f.gate = gateOf d ∧ f.from_ = s.nextTick ∧ (t.motion k n).ret = none := by
  have he := exec_unit (o := 0x29) rfl h ht (.inr ⟨hdef, .inl (by decide)⟩)
  rw [State.carryNow_follow h.opcode] at he
  obtain ⟨hl, hret⟩ := State.enterLater_spec (s := s) (r := r) (n := n) (k := k) (d := d) fun o => .follow
    { tag := s.headTag r, ord := o, word0 := d.w0, isEnc := bit d.w1 4, src := fld d.w1 0 4, k := d.w2.toInt, f := fld d.w1 8 3,
      slot := fld d.w1 16 4, gate := gateOf d, from_ := (s.taken r d).nextTick, armed := false, met := false, base := 0, total := 0, last := 0,
      hist := [], late := false, memberFault := none }
  exact ⟨_, _, he, hl, rfl, rfl, rfl, rfl, rfl, rfl, rfl, rfl, hret⟩

/-- The playback of a PLAY_TABLE at its take-up. -/
def State.newPlay (s : State) (g : Tag) (d : Desc) (o : Nat) (reading : Bool) : Play :=
  { tag := g, ord := o, word0 := d.w0, win := fld d.w3 0 4, offset := fld d.w1 0 30, count := fld d.w2 0 30, rcStart := startE d,
    q := fld d.w3 4 4, e := signed 5 (fld d.w3 8 5), slot := fld d.w3 16 4, from_ := s.nextTick, base := 0, fin := none,
    bufFirst := 0, buf := [], sumFirst := 0, nextReq := 0, reading := reading, retried := false, absentTo := 0, memberFault := none }

/-- A streamer that has read nothing asks for at most 256 bytes. -/
theorem Play.readSize_first {p : Play} (hr : p.reading = false) (hb : p.bufFirst = 0) (hn : p.nextReq = 0) : p.readSize = min 256 p.count := by
  unfold Play.readSize
  rw [hr, hb, hn, Nat.sub_zero]
  exact if_neg (by rw [Bool.false_or, decide_eq_true_iff]; omega)

/-- The streamer's first read: of a table with samples, at most 256 bytes. -/
theorem State.newPlay_ask (s : State) (g : Tag) (d : Desc) (o : Nat) (w : TWin) : (s.newPlay g d o false).ask w =
    (s.newPlay g d o (decide (fld d.w2 0 30 ≠ 0)),
     if fld d.w2 0 30 = 0 then none else some (.readRequest (w.base + fld d.w1 0 30) (min 256 (fld d.w2 0 30)))) := by
  have hsize : (s.newPlay g d o false).readSize = min 256 (fld d.w2 0 30) := Play.readSize_first rfl rfl rfl
  unfold Play.ask
  rw [hsize]
  by_cases hc : fld d.w2 0 30 = 0
  · rw [if_pos (by omega), if_pos hc, decide_eq_false (Decidable.not_not.2 hc)]
  · rw [if_neg (by omega), if_neg hc, decide_eq_true hc]
    simp only [State.newPlay, Nat.add_zero]

/-- The state in which a playback waits on its unit and its window is busy. -/
def State.playing (s : State) (r : Nat) (d : Desc) (k : UnitKind) (n : Nat) : State :=
  ((s.taken r d).setTwin (fld d.w3 0 4) { s.twin (fld d.w3 0 4) with busy := some (k, n) }).enterLater k n fun _ =>
    .play ((s.taken r d).newPlay (s.headTag r) d (s.motion k n).taken (decide (fld d.w2 0 30 ≠ 0)))

theorem State.takePlay_eq (s : State) (r : Nat) (d : Desc) (k : UnitKind) (n : Nat) : (s.taken r d).takePlay (s.headTag r) d k n =
    if fld d.w2 0 30 = 0 then s.playing r d k n
    else (s.playing r d k n).request (.table (fld d.w3 0 4))
      (.readRequest ((s.twin (fld d.w3 0 4)).base + fld d.w1 0 30) (min 256 (fld d.w2 0 30))) := by
  unfold State.takePlay
  dsimp only
  have hask := State.newPlay_ask (s.taken r d) (s.headTag r) d (s.motion k n).taken (s.twin (fld d.w3 0 4))
  unfold State.newPlay at hask
  rw [State.taken_motion, show (s.taken r d).twin (fld d.w3 0 4) = s.twin (fld d.w3 0 4) from rfl, hask]
  by_cases hc : fld d.w2 0 30 = 0
  · simp only [hc, if_true]
    unfold State.playing State.newPlay
    rw [hc]
  · simp only [hc, if_false]
    rfl

/-- What the device may read is not changed by a playback that waits. -/
theorem State.playing_host (s : State) (r : Nat) (d : Desc) (k : UnitKind) (n : Nat) :
    (s.playing r d k n).canIssue = s.canIssue ∧ (∀ o, (s.playing r d k n).reaches o = s.reaches o) ∧
    (s.playing r d k n).host.asked = s.host.asked ∧ (∀ o, (s.playing r d k n).host.pieces o = s.host.pieces o) ∧ (s.playing r d k n).out = [] := by
  have hh : (s.playing r d k n).host = { (s.taken r d).host with twins := (s.playing r d k n).host.twins } := by
    unfold State.playing State.enterLater
    rw [State.updMotion_host]
    rfl
  have hg : (s.playing r d k n).glb = s.glb := by
    unfold State.playing State.enterLater
    rw [State.updMotion_glb]
    rfl
  have ho : (s.playing r d k n).out = [] := by
    unfold State.playing State.enterLater
    rw [State.updMotion_out]
    rfl
  refine ⟨?_, fun o => ?_, ?_, fun o => ?_, ho⟩
  · unfold State.canIssue
    rw [hh]
    rfl
  · cases o with
    | memWrite a ws => simp only [State.reaches, State.onAnchor, hg]; rw [hh]; rfl
    | readRequest a m => simp only [State.reaches, State.onAnchor, hg]; rw [hh]; rfl
    | msix | frame | busWrite | readData | scan => rfl
  · rw [hh]
    rfl
  · rw [hh]
    cases o <;> rfl

/-- PLAY_TABLE, as O38 states it. -/
theorem exec_playTable_accepted {r n : Nat} {k : UnitKind} {d : Desc} {s : State} (ht : (s.ring r).target d = .unit k n)
    (h : s.accepts 0x28 r d) (hdef : (s.motion k n).deferred = []) : ∃ t p, exec (.playTable r d) s = .next t ∧
      (t.motion k n).later = (s.motion k n).later ++ [.play p] ∧ p.tag = s.headTag r ∧ p.win = fld d.w3 0 4 ∧ p.offset = fld d.w1 0 30 ∧
      p.count = fld d.w2 0 30 ∧ p.rcStart = startE d ∧ p.from_ = s.nextTick ∧ (t.twin (fld d.w3 0 4)).busy = some (k, n) ∧ p.reading = decide (p.count ≠ 0) ∧
      let o : Output := .readRequest ((s.twin (fld d.w3 0 4)).base + p.offset) (min 256 p.count)
      if s.canIssue = true ∧ s.reaches o = true ∧ p.count ≠ 0 then
        (∃ x ∈ t.host.asked, x.src = .table (fld d.w3 0 4) ∧ x.parts = s.host.pieces o) ∧
        (s.host.asked = [] → 128 ≤ s.host.mrrs → t.out = s.host.pieces o)
      else t.out = [] ∧ t.host.asked = s.host.asked := by
  have he := exec_unit (o := 0x28) rfl h ht (.inr ⟨hdef, .inl (by decide)⟩)
  rw [State.carryNow_play h.opcode, State.takePlay_eq] at he
  have hlater : ((s.playing r d k n).motion k n).later = (s.motion k n).later ++
      [.play ((s.taken r d).newPlay (s.headTag r) d (s.motion k n).taken (decide (fld d.w2 0 30 ≠ 0)))] := by
    unfold State.playing State.enterLater
    rw [State.motion_updMotion_self, State.motion_setTwin, State.taken_motion]
  have hbusy : ((s.playing r d k n).twin (fld d.w3 0 4)).busy = some (k, n) := by
    have htw : (s.playing r d k n).twin (fld d.w3 0 4) = { s.twin (fld d.w3 0 4) with busy := some (k, n) } := by
      unfold State.playing State.enterLater
      rw [State.twin_updMotion, State.twin_setTwin_self]
    rw [htw]
  obtain ⟨hcan, hreach, hasked, hpieces, hout⟩ := s.playing_host r d k n
  obtain ⟨a, out, hfr⟩ := (s.playing r d k n).request_frame (.table (fld d.w3 0 4))
    (.readRequest ((s.twin (fld d.w3 0 4)).base + fld d.w1 0 30) (min 256 (fld d.w2 0 30)))
  by_cases hc : fld d.w2 0 30 = 0
  · rw [if_pos hc] at he
    refine ⟨_, (s.taken r d).newPlay (s.headTag r) d (s.motion k n).taken (decide (fld d.w2 0 30 ≠ 0)), he, hlater, rfl, rfl, rfl, rfl, rfl, rfl, hbusy, rfl, ?_⟩
    intro o
    rw [if_neg fun hn => hn.2.2 hc]
    exact ⟨hout, hasked⟩
  · rw [if_neg hc] at he
    refine ⟨_, (s.taken r d).newPlay (s.headTag r) d (s.motion k n).taken (decide (fld d.w2 0 30 ≠ 0)), he, ?_, rfl, rfl, rfl, rfl, rfl, rfl, ?_, rfl, ?_⟩
    · rw [hfr]
      exact (congrArg Motion.later (by cases k <;> rfl)).trans hlater
    · rw [hfr]
      exact hbusy
    · intro o
      by_cases hgo : (s.canIssue && s.reaches o) = true
      · obtain ⟨hx, hsent⟩ := State.request_asked (s := s.playing r d k n) (src := .table (fld d.w3 0 4)) (o := o) (by rw [hcan, hreach]; exact hgo)
        rw [hpieces] at hx hsent
        rw [if_pos ⟨(Bool.and_eq_true _ _ ▸ hgo).1, (Bool.and_eq_true _ _ ▸ hgo).2, hc⟩]
        refine ⟨hx, fun hn hm => ?_⟩
        rw [hasked, hout] at hsent
        exact hsent hn (HostB.pieces_read _ _ (Nat.min_le_left ..) hm)
      · have hno := State.request_none (s := s.playing r d k n) (src := .table (fld d.w3 0 4)) (o := o) (by rw [hcan, hreach]; simpa using hgo)
        rw [if_neg fun hn => hgo (by rw [hn.1, hn.2.1]; rfl)]
        exact ⟨(congrArg State.out hno).trans hout, (congrArg (fun t : State => t.host.asked) hno).trans hasked⟩

/-! ### BIND_COURSE and UNBIND_COURSE -/

/-- A bond descriptor that waits, with what its member keeps. -/
theorem State.enterBind_spec (s : State) (b : BindReq) :
    (s.enterBind b).host.binds = s.host.binds ++ [{ b with ord := (s.motion b.kind b.index).taken }] ∧
    (s.enterBind b).motion b.kind b.index = { s.motion b.kind b.index with
      taken := (s.motion b.kind b.index).taken + 1, ret := if b.unbind then (s.motion b.kind b.index).ret else none } := by
  have hh (u : State) (h : HostB) (k : UnitKind) (n : Nat) : ({ u with host := h } : State).motion k n = u.motion k n := by cases k <;> rfl
  unfold State.enterBind
  dsimp only
  exact ⟨by rw [State.updMotion_host], (hh ..).trans (State.motion_updMotion_self ..)⟩

/-- Settles O38: each joins what waits on its unit, and the streamer of a playback asks for its first bytes. -/
theorem followersPlaysAndBondsWait : Obligations.FollowersPlaysAndBondsWait := by
  unfold Obligations.FollowersPlaysAndBondsWait
  intro r n k d s ht
  refine ⟨exec_followSteps_accepted ht, exec_playTable_accepted ht, fun h => ?_, fun h => ?_⟩
  · have he := exec_unit (o := 0x30) rfl h ht (.inl (by decide))
    rw [State.carryNow_bind h.opcode] at he
    refine ⟨_, _, he, (State.enterBind_spec _ _).1, rfl, rfl, rfl, rfl, rfl, rfl, rfl, rfl, ?_, ?_⟩
    · exact (congrArg Motion.ret (State.enterBind_spec _ _).2).trans rfl
    · exact (congrArg Motion.taken (State.enterBind_spec _ _).2).trans (by rw [State.taken_motion])
  · have he := exec_unit (o := 0x31) rfl h ht (.inl (by decide))
    rw [State.carryNow_unbind h.opcode] at he
    refine ⟨_, _, he, (State.enterBind_spec _ _).1, rfl, rfl, fun hb => ?_, rfl, rfl, ?_⟩
    · simp [hb]
    · exact (congrArg Motion.ret (State.enterBind_spec _ _).2).trans (by rw [State.taken_motion]; rfl)

/-- SOL_PULSE and SOL_HOLD: settles O39, the descriptor joins what waits at its leg, where all of it is evaluated. -/
theorem solenoidDescriptorsWaitAtTheirLeg : Obligations.SolenoidDescriptorsWaitAtTheirLeg := by
  unfold Obligations.SolenoidDescriptorsWaitAtTheirLeg
  intro o r n mask d c s ho hc h ht l x per hmode hpi hh hlatch v
  have hop : op d = 0x38 ∨ op d = 0x39 := by rw [h.opcode]; exact ho
  obtain ⟨p, hp⟩ := exec_unordered hc h (by rcases ho with rfl | rfl <;> decide)
  rw [hp, ht, State.carryNow_sol hop]
  unfold State.takeSol
  dsimp only
  have hx : (s.taken r d).leg n (fld d.w2 24 4) = x := rfl
  rw [hx, if_neg (by rcases hmode with hm | hm <;> simp [hm]), if_neg (by exact Nat.not_lt.2 hpi), if_neg (by exact Nat.not_lt.2 hh), if_neg (by rw [hlatch]; decide), h.opcode]

end Sys2Proof.Machine
end

section
/-! SUPPORT. Long operations at take-up, and the legs that an off-state diagnostic takes to Hi-Z. -/

namespace Sys2Proof.Machine

/-! ### An axis that goes to Hi-Z -/

theorem State.axis_of_unlisted {s : State} {a : Nat} (h : a ∉ s.listedAxes) : s.axis a = Axis.reset := by
  unfold State.axis Bank.get
  cases ha : s.axes.lookup a with
  | none => rfl
  | some x =>
    obtain ⟨before, after, he, -⟩ := List.lookup_eq_some_iff.mp ha
    exact absurd (List.mem_map.2 ⟨(a, x), by rw [he]; simp, rfl⟩) h

/-- An axis at Hi-Z: undriven, each of its legs at Hi-Z. -/
def State.AxisAtHiz (s : State) (a : Nat) : Prop := (s.axis a).driven = false ∧ ∀ l ∈ axisLegs a, (s.leg (axisTile a) l).AtHiz

/-- Legs taken to Hi-Z one after another. -/
theorem State.foldl_toHiz (t : Nat) (ls : List Nat) (s : State) : ∀ l ∈ ls, ((ls.foldl (fun v l => v.updLeg t l Leg.toHiz) s).leg t l).AtHiz := by
  induction ls generalizing s with
  | nil => intro l hl; cases hl
  | cons x ls ih =>
    intro l hl
    have hkeep : ((s.updLeg t x Leg.toHiz).leg t l).AtHiz → ((ls.foldl (fun v l => v.updLeg t l Leg.toHiz) (s.updLeg t x Leg.toHiz)).leg t l).AtHiz :=
      fun h => List.foldlRecOn ls _ (motive := fun (v : State) => (v.leg t l).AtHiz) h
        fun v hv j _ => State.updLeg_atHiz (fun _ => Leg.toHiz_atHiz _) hv
    rcases List.mem_cons.1 hl with rfl | hl
    · exact hkeep (by rw [State.leg_updLeg_self]; exact Leg.toHiz_atHiz _)
    · exact ih _ l hl

theorem State.foldl_updLeg_axis (t : Nat) (f : Leg → Leg) (ls : List Nat) (s : State) (b : Nat) :
    (ls.foldl (fun v l => v.updLeg t l f) s).axis b = s.axis b :=
  List.foldlRecOn ls _ (motive := fun (v : State) => v.axis b = s.axis b) rfl fun _ hv _ _ => hv

/-- The state but for axes and tiles. -/
def State.offUnits (s : State) : State := { s with axes := [], tiles := [] }

theorem State.diag_of_offUnits {s t : State} (h : t.offUnits = s.offUnits) : t.diag = s.diag := by
  have hd : t.offUnits.diag = s.offUnits.diag := by rw [h]
  exact hd

theorem State.updLeg_offUnits (s : State) (t l : Nat) (f : Leg → Leg) : (s.updLeg t l f).offUnits = s.offUnits := rfl
theorem State.updAxis_offUnits (s : State) (a : Nat) (f : Axis → Axis) : (s.updAxis a f).offUnits = s.offUnits := rfl

/-- What an axis taken to Hi-Z brings: the axis and its legs are there, other axes stand. -/
theorem State.axisHiz_spec (s : State) (a : Nat) (c : StopCause) :
    (s.axisHiz a c).AxisAtHiz a ∧ (∀ b, b ≠ a → (s.axisHiz a c).axis b = s.axis b) ∧
    (s.axisHiz a c).offUnits = s.offUnits := by
  have hframe : ((axisLegs a).foldl (fun t l => t.updLeg (axisTile a) l Leg.toHiz) s).offUnits = s.offUnits :=
    List.foldlRecOn (axisLegs a) _ (motive := fun (v : State) => v.offUnits = s.offUnits) rfl
      fun v hv l _ => (v.updLeg_offUnits ..).trans hv
  have hlegs := State.foldl_toHiz (axisTile a) (axisLegs a) s
  have haxes (b : Nat) := State.foldl_updLeg_axis (axisTile a) Leg.toHiz (axisLegs a) s b
  unfold State.axisHiz State.AxisAtHiz
  dsimp only
  split
  · refine ⟨⟨by rw [State.axis_updAxis, if_pos rfl]; rfl, hlegs⟩, fun b hb => ?_, (State.updAxis_offUnits ..).trans hframe⟩
    rw [State.axis_updAxis, if_neg hb, haxes]
  · refine ⟨⟨by rw [State.axis_updAxis, if_pos rfl]; rfl, hlegs⟩, fun b hb => ?_, (State.updAxis_offUnits ..).trans hframe⟩
    rw [State.axis_updAxis, if_neg hb, haxes]

/-- An axis at Hi-Z stays there as another goes. -/
theorem State.AxisAtHiz.axisHiz {s : State} {b : Nat} (h : s.AxisAtHiz b) (a : Nat) (c : StopCause) : (s.axisHiz a c).AxisAtHiz b := by
  obtain ⟨hself, hother, -⟩ := s.axisHiz_spec a c
  by_cases hb : b = a
  · exact hb ▸ hself
  · exact ⟨by rw [hother b hb]; exact h.1, fun l hl => State.axisHiz_atHiz a c (h.2 l hl)⟩

/-! ### The axes of a diagnostic -/

/-- A driven axis with a leg under test goes to Hi-Z. -/
def State.diagAxis (s : State) (a : Nat) : State := if s.underTest a && (s.axis a).driven then s.axisHiz a .hiz else s

theorem State.diagAxis_offUnits (s : State) (a : Nat) : (s.diagAxis a).offUnits = s.offUnits := by
  unfold State.diagAxis
  split
  · exact (s.axisHiz_spec a .hiz).2.2
  · rfl

theorem State.foldl_diagAxis_offUnits (l : List Nat) (s : State) : (l.foldl State.diagAxis s).offUnits = s.offUnits :=
  List.foldlRecOn l _ (motive := fun (v : State) => v.offUnits = s.offUnits) rfl fun v hv a _ => (v.diagAxis_offUnits a).trans hv

theorem State.underTest_of_diag {s t : State} (h : t.diag = s.diag) (a : Nat) : t.underTest a = s.underTest a := by
  unfold State.underTest
  rw [h]

theorem State.diagAxis_undriven {s : State} (h : ∀ a, (s.axis a).driven = false) (l : List Nat) : l.foldl State.diagAxis s = s := by
  induction l with
  | nil => rfl
  | cons a l ih =>
    have ha : s.diagAxis a = s := by
      unfold State.diagAxis
      rw [h a, Bool.and_false, if_neg (by decide)]
    rw [List.foldl_cons, ha, ih]

/-- An axis is driven still, or is at Hi-Z: so it stays as others are looked at. -/
theorem State.diagAxis_keeps {s : State} {a : Nat} (b : Nat) (h : (s.axis a).driven = true ∨ s.AxisAtHiz a) :
    ((s.diagAxis b).axis a).driven = true ∨ (s.diagAxis b).AxisAtHiz a := by
  unfold State.diagAxis
  split
  · by_cases hb : a = b
    · exact .inr (hb ▸ (s.axisHiz_spec b .hiz).1)
    · rcases h with h | h
      · exact .inl (by rw [(s.axisHiz_spec b .hiz).2.1 a hb]; exact h)
      · exact .inr (h.axisHiz b .hiz)
  · exact h

theorem State.AxisAtHiz.diagAxis {s : State} {a : Nat} (h : s.AxisAtHiz a) (b : Nat) : (s.diagAxis b).AxisAtHiz a := by
  unfold State.diagAxis
  split
  · exact h.axisHiz b .hiz
  · exact h

/-- An axis with a leg under test is at Hi-Z once it has been looked at. -/
theorem State.diagAxis_self {s : State} {a : Nat} (ht : s.underTest a = true) (h : (s.axis a).driven = true ∨ s.AxisAtHiz a) :
    (s.diagAxis a).AxisAtHiz a := by
  rcases h with h | h
  · unfold State.diagAxis
    rw [ht, h, Bool.and_true, if_pos rfl]
    exact (s.axisHiz_spec a .hiz).1
  · exact h.diagAxis a

/-- A driven axis with a leg under test is at Hi-Z at the end. -/
theorem State.foldl_diagAxis_atHiz {s : State} {a : Nat} (hd : (s.axis a).driven = true) (ht : s.underTest a = true) :
    (s.listedAxes.foldl State.diagAxis s).AxisAtHiz a := by
  have hm : a ∈ s.listedAxes := by
    refine Decidable.byContradiction fun hn => ?_
    rw [State.axis_of_unlisted hn] at hd
    cases hd
  obtain ⟨before, after, hs⟩ := List.append_of_mem hm
  rw [hs, List.foldl_append, List.foldl_cons]
  have hpre : ((before.foldl State.diagAxis s).axis a).driven = true ∨ (before.foldl State.diagAxis s).AxisAtHiz a :=
    List.foldlRecOn before _ (motive := fun (v : State) => (v.axis a).driven = true ∨ v.AxisAtHiz a) (.inl hd) fun v hv b _ => v.diagAxis_keeps b hv
  have hdiag : (before.foldl State.diagAxis s).diag = s.diag := State.diag_of_offUnits (State.foldl_diagAxis_offUnits before s)
  have hself : ((before.foldl State.diagAxis s).diagAxis a).AxisAtHiz a :=
    State.diagAxis_self (by rw [State.underTest_of_diag hdiag, ht]) hpre
  exact List.foldlRecOn after _ (motive := fun (v : State) => v.AxisAtHiz a) hself fun v hv b _ => hv.diagAxis b

/-! ### Operations accepted (R391, R392) -/

/-- An operation that is accepted: it is held, its descriptor is open, and its status block leaves. -/
theorem State.acceptLong_taken {s u : State} {r : Nat} {d : Desc} (x : LongOp) (hh : u.host = (s.taken r d).host) (ho : u.out = [])
    (hg : u.glb = s.glb) (htick : u.tickDt = s.tickDt) :
    (u.acceptLong x).host.longs = s.host.longs ++ [x] ∧ (u.acceptLong x).isOpen r (s.ring r).ti ∧
    (u.acceptLong x).out = s.sent (.memWrite x.osb (x.osbWords s.tickDt)) := by
  rw [State.acceptLong_eq, htick, ho, List.nil_append]
  refine ⟨by rw [hh]; rfl, State.isOpen_of_ring (r := r) (d := d) ?_, ?_⟩
  · show (Bank.get Ring.reset u.host.rings r).outst = _
    rw [hh]
    rfl
  dsimp only
  unfold State.sent State.canIssue State.reaches State.onAnchor
  rw [hh, hg]
  rfl

@[simp] theorem State.acceptLong_axis (s : State) (x : LongOp) (a : Nat) : (s.acceptLong x).axis a = s.axis a := by
  rw [State.acceptLong_eq]
  rfl

/-- The state in which a DIAG_OFFSTATE has been accepted and its tiles stand in line. -/
def State.diagAccepted (s : State) (r : Nat) (d : Desc) : State :=
  let u := (s.taken r d).acceptLong (newLong (s.headTag r) d 0)
  { u with diag := (maskBits u.variant.tiles (fld d.w1 0 12)).map fun t =>
      (t, u.diagNext t { mask := fld d.w1 16 16, legs := maskBits 16 (fld d.w1 16 16), phase := 0, cur := none, first := none, entries := [] }) }

theorem State.takeDiag_eq (s : State) (r : Nat) (d : Desc) : (s.taken r d).takeDiag (s.headTag r) d =
    (s.diagAccepted r d).listedAxes.foldl State.diagAxis (s.diagAccepted r d) := rfl

theorem State.diagAccepted_spec (s : State) (r : Nat) (d : Desc) :
    (s.diagAccepted r d).axes = s.axes ∧ (s.diagAccepted r d).tiles = s.tiles ∧
    (s.diagAccepted r d).diag.map Prod.fst = maskBits s.variant.tiles (fld d.w1 0 12) := by
  unfold State.diagAccepted
  dsimp only
  rw [State.acceptLong_eq]
  refine ⟨rfl, rfl, ?_⟩
  rw [List.map_map]
  exact List.map_id _

/-- The operation of a DIAG_OFFSTATE is held, whatever becomes of axes and tiles, and the rest of the state stands. -/
theorem State.diagAccepted_held (s : State) (r : Nat) (d : Desc) {t : State} (h : t.offUnits = (s.diagAccepted r d).offUnits) :
    (t.host.longs = s.host.longs ++ [newLong (s.headTag r) d 0] ∧ t.isOpen r (s.ring r).ti ∧
      t.out = s.sent (.memWrite (addr64 d.w2 d.w3) ((newLong (s.headTag r) d 0).osbWords s.tickDt))) ∧
    { t with host := s.host, out := s.out, diag := s.diag, axes := s.axes, tiles := s.tiles } = s := by
  obtain ⟨hl, ho, hs⟩ := State.acceptLong_taken (s := s) (u := s.taken r d) (r := r) (d := d) (newLong (s.headTag r) d 0) rfl rfl rfl rfl
  have hhost : t.offUnits.host = (s.diagAccepted r d).offUnits.host := by rw [h]
  have hout : t.offUnits.out = (s.diagAccepted r d).offUnits.out := by rw [h]
  have hrest : ({ t.offUnits with host := s.host, out := s.out, diag := s.diag, axes := s.axes, tiles := s.tiles } : State) =
      { (s.diagAccepted r d).offUnits with host := s.host, out := s.out, diag := s.diag, axes := s.axes, tiles := s.tiles } := by rw [h]
  refine ⟨⟨(congrArg HostB.longs hhost).trans hl, (State.isOpen_congr ?_).2 ho, hout.trans hs⟩, hrest.trans ?_⟩
  · exact congrArg (fun h : HostB => Bank.get Ring.reset h.rings r) hhost
  · unfold State.diagAccepted
    dsimp only
    rw [State.acceptLong_eq]
    rfl

/-- Settles O35: each operation is accepted, and what it waits on holds it. -/
theorem longOperationsAreAccepted : Obligations.LongOperationsAreAccepted := by
  unfold Obligations.LongOperationsAreAccepted
  intro r n k d s accepted
  refine ⟨fun h ht hdef => ?_, fun h ht hdef => ?_, fun h => ?_, fun h => ?_⟩
  · have he := exec_unit (o := 0x20) rfl h ht (.inr ⟨hdef, .inl (by decide)⟩)
    rw [State.carryNow_home h.opcode] at he
    unfold State.takeHome at he
    refine ⟨_, _, he, State.acceptLong_taken (newLong (s.headTag r) d n) rfl rfl rfl rfl,
      congrArg Axis.home ((State.acceptLong_axis ..).trans (State.axis_updAxis_self ..)), rfl, rfl, rfl, rfl, rfl, rfl, rfl, rfl, rfl, ?_⟩
    rw [State.acceptLong_axis, State.axis_updAxis_self]
  · have he := exec_unit (o := 0x21) rfl h ht (.inr ⟨hdef, .inl (by decide)⟩)
    rw [State.carryNow_char h.opcode] at he
    unfold State.takeChar at he
    refine ⟨_, _, he, State.acceptLong_taken (newLong (s.headTag r) d n) rfl rfl rfl rfl,
      congrArg Axis.char ((State.acceptLong_axis ..).trans (State.axis_updAxis_self ..)), rfl, rfl, rfl, rfl⟩
  · obtain ⟨p, hp⟩ := exec_unordered (o := 0x44) rfl h rfl
    rw [State.carryNow_selfTest h.opcode] at hp
    refine ⟨_, hp, State.acceptLong_taken (newLong (s.headTag r) d 0) rfl rfl rfl rfl, ?_⟩
    unfold State.takeSelfTest
    rw [State.acceptLong_eq]
    rfl
  · obtain ⟨p, hp⟩ := exec_unordered (o := 0x40) rfl h rfl
    rw [State.carryNow_diag h.opcode] at hp
    rw [State.takeDiag_eq] at hp
    obtain ⟨haxes, htiles, hdiag⟩ := s.diagAccepted_spec r d
    have hoff := State.foldl_diagAxis_offUnits (s.diagAccepted r d).listedAxes (s.diagAccepted r d)
    obtain ⟨hacc, hfr⟩ := s.diagAccepted_held r d hoff
    refine ⟨_, hp, hacc, (congrArg (List.map Prod.fst) (State.diag_of_offUnits hoff)).trans hdiag, hfr, fun hun => ?_, fun a hd ht => ?_⟩
    · have hall (a : Nat) : ((s.diagAccepted r d).axis a).driven = false := by
        unfold State.axis
        rw [haxes]
        exact hun a
      rw [State.diagAxis_undriven hall]
      exact ⟨haxes, htiles⟩
    · have hd' : ((s.diagAccepted r d).axis a).driven = true := by
        unfold State.axis
        rw [haxes]
        exact hd
      rw [State.underTest_of_diag (State.diag_of_offUnits hoff)] at ht
      obtain ⟨hun, hlegs⟩ := State.foldl_diagAxis_atHiz hd' ht
      exact ⟨hun, fun l hl => ⟨(hlegs l hl).1, (hlegs l hl).2.1, (hlegs l hl).2.2.2.1⟩⟩

end Sys2Proof.Machine
end

section
/-! SUPPORT. Mode requests, supplies, the EN pin and the ends of reaction windows. -/

namespace Sys2Proof.Machine

/-! ### Mode requests -/

/-- A state in Run, entered in the period that ends, in which Hold is asked for at the boundary that has come. -/
def holdAsked : State :=
  { State.reset with glb := { Glb.reset with mode := .run, freshRun := true, reqDue := true, modeReq := some 4, enIn := true } }

/-- On the way to Hold a freshly entered Run is over. -/
theorem holdAsked_taken : ∃ t, exec .modeRequestTaken holdAsked = .next t ∧ t.glb.freshRun = false := ⟨_, rfl, rfl⟩

/-- Refutes O29: Hold entered from a Run that is still fresh also ends that freshness, which the statement holds to be as it was. -/
theorem not_requestsAreJudgedAtTheBoundary : ¬ Obligations.RequestsAreJudgedAtTheBoundary := by
  unfold Obligations.RequestsAreJudgedAtTheBoundary
  intro h
  obtain ⟨-, -, hHold⟩ := h holdAsked rfl
  obtain ⟨t, ht, hglb, -⟩ := hHold rfl rfl rfl (by decide) rfl
  obtain ⟨u, hu, hfresh⟩ := holdAsked_taken
  obtain rfl : t = u := by simpa [ht] using hu
  rw [hglb] at hfresh
  exact absurd hfresh (by decide)

/-! ### What a leg keeps as it, or another, goes to Hi-Z -/

/-- A leg's latch, cause and mode stand, and a leg at Hi-Z is still there. -/
structure Leg.hizKeeps (x y : Leg) : Prop where
  latch : y.latch = x.latch
  cause : y.cause = x.cause
  mode : y.mode = x.mode
  hiz : x.hiz = true → y.hiz = true

theorem Leg.hizKeeps_refl (x : Leg) : x.hizKeeps x := ⟨rfl, rfl, rfl, fun h => h⟩

theorem Leg.hizKeeps.trans {x y z : Leg} (h : x.hizKeeps y) (h' : y.hizKeeps z) : x.hizKeeps z :=
  ⟨h'.latch.trans h.latch, h'.cause.trans h.cause, h'.mode.trans h.mode, fun hx => h'.hiz (h.hiz hx)⟩

theorem Leg.toHiz_keeps (x : Leg) : x.hizKeeps x.toHiz := ⟨rfl, rfl, rfl, fun _ => rfl⟩

theorem State.updLeg_keeps {s : State} {t l : Nat} {f : Leg → Leg} (hf : (s.leg t l).hizKeeps (f (s.leg t l))) (u j : Nat) :
    (s.leg u j).hizKeeps ((s.updLeg t l f).leg u j) := by
  rw [State.leg_updLeg]
  split
  · next h => rw [h.1, h.2]; exact hf
  · exact Leg.hizKeeps_refl _

theorem State.endSol_keeps (s : State) (t l u j : Nat) : (s.leg u j).hizKeeps ((s.endSol t l).leg u j) := by
  unfold State.endSol
  split
  · exact Leg.hizKeeps_refl _
  · dsimp only
    split
    · exact State.updLeg_keeps ⟨rfl, rfl, rfl, fun h => h⟩ u j
    · next d _ _ =>
      exact State.updLeg_keeps (s := { s with host := { s.host with owed := s.host.owed ++ [d] } }) ⟨rfl, rfl, rfl, fun h => h⟩ u j

theorem State.legHiz_keeps (s : State) (t l u j : Nat) : (s.leg u j).hizKeeps ((s.legHiz t l).leg u j) :=
  (State.updLeg_keeps (Leg.toHiz_keeps _) u j).trans (State.endSol_keeps ..)

theorem State.axisHiz_keeps (s : State) (a : Nat) (c : StopCause) (u j : Nat) : (s.leg u j).hizKeeps ((s.axisHiz a c).leg u j) := by
  have hlegs : (s.leg u j).hizKeeps (((axisLegs a).foldl (fun (t : State) l => t.updLeg (axisTile a) l Leg.toHiz) s).leg u j) :=
    List.foldlRecOn (axisLegs a) _ (motive := fun (v : State) => (s.leg u j).hizKeeps (v.leg u j)) (Leg.hizKeeps_refl _)
      fun v hv l _ => hv.trans (State.updLeg_keeps (Leg.toHiz_keeps _) u j)
  unfold State.axisHiz
  dsimp only
  split <;> exact hlegs

/-! ### What a tile keeps -/

@[simp] theorem State.updLeg_iso (s : State) (t l : Nat) (f : Leg → Leg) (n : Nat) : ((s.updLeg t l f).tile n).iso = (s.tile n).iso := by
  unfold State.updLeg State.setLeg
  rw [State.tile_setTile]
  split
  · next h => rw [h]
  · rfl

@[simp] theorem State.legHiz_iso (s : State) (t l n : Nat) : ((s.legHiz t l).tile n).iso = (s.tile n).iso := by
  unfold State.legHiz State.endSol
  split
  · exact State.updLeg_iso ..
  · dsimp only
    rw [State.updLeg_iso]
    split <;> exact State.updLeg_iso ..

@[simp] theorem State.axisHiz_iso (s : State) (a : Nat) (c : StopCause) (n : Nat) : ((s.axisHiz a c).tile n).iso = (s.tile n).iso := by
  have hlegs : (((axisLegs a).foldl (fun (t : State) l => t.updLeg (axisTile a) l Leg.toHiz) s).tile n).iso = (s.tile n).iso :=
    List.foldlRecOn (axisLegs a) _ (motive := fun (v : State) => (v.tile n).iso = (s.tile n).iso) rfl fun v hv l _ => (v.updLeg_iso ..).trans hv
  unfold State.axisHiz
  dsimp only
  split <;> exact hlegs

/-! ### A tile outside its gate supply's window (R295) -/

/-- A leg that latches VGATE and goes to Hi-Z. -/
def State.isoLeg (s : State) (t l : Nat) : State := if (s.leg t l).mode = 0 then s else (s.updLeg t l fun x => x.latchCause 0xB).legHiz t l

/-- An axis of an isolated tile goes to Hi-Z. -/
def State.isoAxisOf (s : State) (a : Nat) : State := if (s.axis a).m.en then s.axisHiz a .hiz else s

theorem State.isoTile_eq (s : State) (t : Nat) : s.isoTile t = (List.range 4).foldl (fun u i => u.isoAxisOf (4 * t + i))
    ((((s.updTile t fun x => { x with iso := true }).tile t).legs.map Prod.fst).foldl (fun u l => u.isoLeg t l) (s.updTile t fun x => { x with iso := true })) := rfl

@[simp] theorem State.isoLeg_iso (s : State) (t l n : Nat) : ((s.isoLeg t l).tile n).iso = (s.tile n).iso := by
  unfold State.isoLeg
  split
  · rfl
  · rw [State.legHiz_iso, State.updLeg_iso]

@[simp] theorem State.isoAxisOf_iso (s : State) (a n : Nat) : ((s.isoAxisOf a).tile n).iso = (s.tile n).iso := by
  unfold State.isoAxisOf
  split
  · exact State.axisHiz_iso ..
  · rfl

theorem State.isoTile_iso (s : State) (t : Nat) : ((s.isoTile t).tile t).iso = true := by
  rw [State.isoTile_eq]
  refine List.foldlRecOn _ _ (motive := fun (v : State) => (v.tile t).iso = true) ?_ fun v hv a _ => (v.isoAxisOf_iso ..).trans hv
  refine List.foldlRecOn _ _ (motive := fun (v : State) => (v.tile t).iso = true) ?_ fun v hv l _ => (v.isoLeg_iso ..).trans hv
  rw [State.tile_updTile, if_pos rfl]

/-- A leg that VGATE has caught: at Hi-Z and latched, with its own cause where it held a latch before. -/
def Leg.caught (x y : Leg) : Prop := y.hiz = true ∧ y.latch = true ∧ y.cause = if x.latch then x.cause else 11

theorem Leg.caught.keeps {x y z : Leg} (h : x.caught y) (h' : y.hizKeeps z) : x.caught z :=
  ⟨h'.hiz h.1, h'.latch.trans h.2.1, h'.cause.trans h.2.2⟩

theorem Leg.latchCause_spec (x : Leg) (c : Nat) :
    (x.latchCause c).latch = true ∧ (x.latchCause c).cause = (if x.latch then x.cause else c) ∧ (x.latchCause c).mode = x.mode := by
  unfold Leg.latchCause
  split
  · next h => exact ⟨h, rfl, rfl⟩
  · exact ⟨rfl, rfl, rfl⟩

theorem State.isoLeg_ne (s : State) {t l j : Nat} (h : j ≠ l) : (s.leg t j).hizKeeps ((s.isoLeg t l).leg t j) := by
  unfold State.isoLeg
  split
  · exact Leg.hizKeeps_refl _
  · refine Leg.hizKeeps.trans ?_ (State.legHiz_keeps _ t l t j)
    rw [State.leg_updLeg, if_neg fun hj => h hj.2]
    exact Leg.hizKeeps_refl _

/-- A leg in use is caught, and what it held before is what counts. -/
theorem State.isoLeg_self {s : State} {t l : Nat} {x : Leg} (hm : (s.leg t l).mode ≠ 0) (h : x.hizKeeps (s.leg t l) ∨ x.caught (s.leg t l)) :
    x.caught ((s.isoLeg t l).leg t l) := by
  unfold State.isoLeg
  rw [if_neg hm]
  obtain ⟨hl, hc, -⟩ := Leg.latchCause_spec (s.leg t l) 11
  have hk := State.legHiz_keeps (s.updLeg t l fun x => x.latchCause 0xB) t l t l
  rw [State.leg_updLeg_self] at hk
  refine ⟨(State.legHiz_atHiz_self _ t l).1, hk.latch.trans hl, ?_⟩
  rw [hk.cause, hc]
  rcases h with h | ⟨-, hlat, hcause⟩
  · rw [h.latch, h.cause]
  · rw [if_pos hlat, hcause]

/-- A leg of a tile stands or is caught, step by step. -/
theorem State.isoLeg_step {s : State} {t j : Nat} {x : Leg} (l : Nat) (hm : (s.leg t j).mode = x.mode)
    (h : x.hizKeeps (s.leg t j) ∨ x.caught (s.leg t j)) :
    ((s.isoLeg t l).leg t j).mode = x.mode ∧ (x.hizKeeps ((s.isoLeg t l).leg t j) ∨ x.caught ((s.isoLeg t l).leg t j)) := by
  by_cases hj : j = l
  · subst hj
    by_cases h0 : (s.leg t j).mode = 0
    · have hid : s.isoLeg t j = s := if_pos h0
      rw [hid]
      exact ⟨hm, h⟩
    · refine ⟨?_, .inr (State.isoLeg_self h0 h)⟩
      unfold State.isoLeg
      rw [if_neg h0, (State.legHiz_keeps _ t j t j).mode, State.leg_updLeg_self, (Leg.latchCause_spec _ 11).2.2, hm]
  · have hk := s.isoLeg_ne (t := t) hj
    exact ⟨hk.mode.trans hm, h.imp (fun h => h.trans hk) fun h => h.keeps hk⟩

theorem State.leg_mem_of_mode {s : State} {t l : Nat} (h : (s.leg t l).mode ≠ 0) : l ∈ (s.tile t).legs.map Prod.fst := by
  unfold State.leg Bank.get at h
  cases hl : (s.tile t).legs.lookup l with
  | none => rw [hl] at h; exact absurd rfl h
  | some y =>
    obtain ⟨before, after, he, -⟩ := List.lookup_eq_some_iff.mp hl
    exact List.mem_map.2 ⟨(l, y), by rw [he]; simp, rfl⟩

/-- Each leg in use of a tile that VGATE takes down is caught. -/
theorem State.isoTile_caught {s : State} {t l : Nat} (hm : (s.leg t l).mode ≠ 0) : (s.leg t l).caught ((s.isoTile t).leg t l) := by
  have hleg : (s.updTile t fun x => { x with iso := true }).leg t l = s.leg t l := by
    unfold State.leg
    rw [State.tile_updTile, if_pos rfl]
  have hmem := State.leg_mem_of_mode (s := s.updTile t fun x => { x with iso := true }) (hleg.symm ▸ hm)
  rw [State.isoTile_eq]
  generalize (s.updTile t fun x => { x with iso := true }) = u at hleg hmem ⊢
  obtain ⟨before, after, hs⟩ := List.append_of_mem hmem
  rw [hs, List.foldl_append, List.foldl_cons]
  have hpre := List.foldlRecOn before (fun (v : State) l => v.isoLeg t l)
    (motive := fun (v : State) => (v.leg t l).mode = (s.leg t l).mode ∧ ((s.leg t l).hizKeeps (v.leg t l) ∨ (s.leg t l).caught (v.leg t l)))
    (b := u) ⟨by rw [hleg], .inl (hleg.symm ▸ Leg.hizKeeps_refl _)⟩ fun v hv j _ => State.isoLeg_step j hv.1 hv.2
  have hself := State.isoLeg_self (hpre.1.symm ▸ hm) hpre.2
  refine List.foldlRecOn _ _ (motive := fun (v : State) => (s.leg t l).caught (v.leg t l)) ?_ fun v hv i _ => ?_
  · refine List.foldlRecOn after _ (motive := fun (v : State) => (s.leg t l).caught (v.leg t l)) hself fun v hv j _ => ?_
    by_cases hj : l = j
    · subst hj
      by_cases h0 : (v.leg t l).mode = 0
      · have hid : v.isoLeg t l = v := if_pos h0
        rw [hid]
        exact hv
      · exact State.isoLeg_self h0 (.inr hv)
    · exact hv.keeps (v.isoLeg_ne hj)
  · unfold State.isoAxisOf
    split
    · exact hv.keeps (State.axisHiz_keeps ..)
    · exact hv

/-- Settles O50: a supply outside its window acts once, and its return clears the flags. -/
theorem suppliesActOnTheirTile : Obligations.SuppliesActOnTheirTile := by
  unfold Obligations.SuppliesActOnTheirTile
  intro t s hr ht x isolated
  have hh : s.quiet.hasTile t = true := decide_eq_true ht
  have hx : s.quiet.tile t = x := rfl
  rw [exec_vgateUv, exec_vgateOv, exec_vgateGood, exec_vmUv, exec_vmOv, exec_vmGood]
  simp only [State.command_quiet _ hr]
  unfold State.vgateLow State.vgateHigh State.vgateBack State.vmLow State.vmHigh State.vmBack
  simp only [hh, hx, Bool.true_and, if_true]
  refine ⟨fun h => ?_, fun h => ?_, fun h => ?_, fun h => ?_, rfl, ⟨s.isoTile_iso t, fun l hl => State.isoTile_caught hl⟩,
    fun h => ?_, fun h => ?_, fun h => ?_, fun h => ?_, rfl⟩
  all_goals rw [h]
  all_goals rfl

/-! ### What everything at Hi-Z leaves -/

@[simp] theorem State.endSol_glb (s : State) (t l : Nat) : (s.endSol t l).glb = s.glb := by
  unfold State.endSol
  split
  · rfl
  · dsimp only
    split <;> rfl

@[simp] theorem State.legHiz_glb (s : State) (t l : Nat) : (s.legHiz t l).glb = s.glb := State.endSol_glb ..

@[simp] theorem State.axisHiz_glb (s : State) (a : Nat) (c : StopCause) : (s.axisHiz a c).glb = s.glb := by
  have h : (s.axisHiz a c).offUnits.glb = s.offUnits.glb := by rw [(s.axisHiz_spec a c).2.2]
  exact h

@[simp] theorem State.allHiz_glb (s : State) (c : StopCause) : (s.allHiz c).glb = s.glb := by
  unfold State.allHiz
  refine List.foldlRecOn _ _ (motive := fun (v : State) => v.glb = s.glb) ?_ fun v hv n _ => ?_
  · refine List.foldlRecOn _ _ (motive := fun (v : State) => v.glb = s.glb) ?_ fun v hv a _ => (v.axisHiz_glb a c).trans hv
    exact List.foldlRecOn _ _ (motive := fun (v : State) => v.glb = s.glb) rfl fun v hv p _ => (v.legHiz_glb ..).trans hv
  · split
    · exact (v.updMotion_glb ..).trans hv
    · exact hv

/-- An event that takes the device to a mode, and what it leaves. -/
theorem State.eventMode_spec (s : State) (m : DevMode) (cause : Nat) :
    (s.eventMode m cause).glb.mode = m ∧ (s.eventMode m cause).glb.enIn = s.glb.enIn ∧ (s.eventMode m cause).dt = s.dt ∧
    (s.eventMode m cause).tiles = s.tiles ∧
    (s.glb.mode ≠ m → (s.eventMode m cause).glb.prev = s.glb.mode ∧ (s.eventMode m cause).glb.cause = cause) := by
  have hover : s.overtake.glb.mode = s.glb.mode ∧ s.overtake.glb.enIn = s.glb.enIn ∧ s.overtake.dt = s.dt ∧ s.overtake.tiles = s.tiles := by
    unfold State.overtake
    split
    · exact ⟨rfl, rfl, rfl, rfl⟩
    · split
      · exact ⟨rfl, rfl, rfl, rfl⟩
      · exact ⟨rfl, rfl, rfl, rfl⟩
  obtain ⟨hmode, hen, hdt, htiles⟩ := hover
  unfold State.eventMode
  split
  · next h => exact ⟨h, rfl, rfl, rfl, fun hn => absurd h hn⟩
  · exact ⟨rfl, hen, hdt, htiles, fun _ => ⟨hmode, rfl⟩⟩

/-! ### EN (R54, R512) -/

/-- EN has fallen and every leg is at Hi-Z. -/
def State.enGone (s : State) : State := ({ s.quiet with glb := { s.glb with enIn := false } }).allHiz .hiz

/-- From a mode that drives, the device enters Safe. -/
def State.enSafe (s : State) : State :=
  if s.glb.mode = .diagnose ∨ s.glb.mode = .run ∨ s.glb.mode = .hold then s.enGone.eventMode .safe 3 else s.enGone

theorem State.enGone_glb (s : State) : s.enGone.glb = { s.glb with enIn := false } := State.allHiz_glb ..

theorem State.enGone_dt (s : State) : s.enGone.dt = s.dt := by
  have h : s.enGone.clock = s.clock := by
    unfold State.enGone
    rw [State.allHiz_clock]
    rfl
  exact congrArg Prod.fst h

theorem exec_enLow_falls {s : State} (hr : s.inReset = false) (he : s.glb.enIn = true) : exec .enLow s = .next (s.enSafe.fault srcEnLow 0 .none) := by
  rw [exec_enLow, State.command_quiet _ hr]
  unfold State.enFalls
  rw [if_pos (show s.quiet.glb.enIn = true from he)]
  have hm : (({ s.quiet with glb := { s.quiet.glb with enIn := false } } : State).allHiz .hiz).glb.mode = s.glb.mode := by
    rw [State.allHiz_glb]
    rfl
  dsimp only
  rw [hm]
  rfl

/-- Where EN has fallen: the pin, the clock, the legs and the mode. -/
theorem State.enSafe_spec (s : State) : s.enSafe.glb.enIn = false ∧ s.enSafe.dt = s.dt ∧ (∀ t l, (s.enSafe.leg t l).AtHiz) ∧
    s.enSafe.glb.mode = (if s.glb.mode = .diagnose ∨ s.glb.mode = .run ∨ s.glb.mode = .hold then .safe else s.glb.mode) ∧
    (s.glb.mode = .run → s.enSafe.glb.prev = .run ∧ s.enSafe.glb.cause = 3) := by
  have hhiz (t l : Nat) : (s.enGone.leg t l).AtHiz := State.allHiz_atHiz _ _ t l
  have hmode : s.enGone.glb.mode = s.glb.mode := by rw [State.enGone_glb]
  unfold State.enSafe
  split
  · obtain ⟨hm, hen, hdt, htiles, hprev⟩ := s.enGone.eventMode_spec .safe 3
    refine ⟨hen.trans (by rw [State.enGone_glb]), hdt.trans s.enGone_dt, fun t l => ?_, hm, fun hrun => ?_⟩
    · unfold State.leg State.tile
      rw [htiles]
      exact hhiz t l
    · obtain ⟨hp, hc⟩ := hprev (by rw [hmode, hrun]; decide)
      exact ⟨by rw [hp, hmode, hrun], hc⟩
  · next h => exact ⟨by rw [State.enGone_glb], s.enGone_dt, hhiz, hmode, fun hrun => absurd (.inr (.inl hrun)) h⟩

/-! ### Reaction windows and the nFAULT pulse (R516, R521) -/

/-- A record at the end of its reaction window. -/
def Entry.windowOver (e : Entry) (n now : Nat) : Entry := if e.num = n ∧ e.dt + 400 ≤ now then { e with window := false } else e

/-- Settles O51: what the EN pin, the end of a window and the end of a pulse bring. -/
theorem pinsAndWindowsEnd : Obligations.PinsAndWindowsEnd := by
  unfold Obligations.PinsAndWindowsEnd
  intro s hr
  refine ⟨fun he => ?_, fun he => ?_, ?_, fun n => ?_, fun p hp hle => ?_, fun hp => ?_, fun p hp hlt => ?_⟩
  · obtain ⟨hen, hdt, hhiz, hmode, hrun⟩ := s.enSafe_spec
    exact ⟨s.enSafe, exec_enLow_falls hr he, hen, hdt, fun t l => ⟨(hhiz t l).1, (hhiz t l).2.2.1, (hhiz t l).2.2.2.2⟩, hmode, hrun⟩
  · rw [exec_enLow, State.command_quiet _ hr]
    unfold State.enFalls
    rw [if_neg (by rw [State.quiet_glb, he]; decide)]
  · rw [exec_enHigh, State.command_quiet _ hr]
    rfl
  · rw [exec_reactionWindowEnd, State.command_quiet _ hr]
    have hw : (s.quiet.windowEnd n).flt.hist = s.flt.hist.map fun e => e.windowOver n s.dt := rfl
    refine ⟨_, rfl, rfl, by rw [hw, List.length_map], fun e he hn hd => ?_, fun i => ?_⟩
    · rw [hw] at he
      obtain ⟨x, -, rfl⟩ := List.mem_map.1 he
      unfold Entry.windowOver at hn hd ⊢
      split
      · rfl
      · next h => rw [if_neg h] at hn hd; exact absurd ⟨hn, hd⟩ h
    · rw [hw, List.getElem?_map, Option.map_map]
      refine congrArg (fun f => Option.map f (s.flt.hist[i]?)) (funext fun e => ?_)
      show ({ e.windowOver n s.dt with window := true } : Entry) = { e with window := true }
      unfold Entry.windowOver
      split <;> rfl
  · rw [exec_nfaultPulseEnd, State.command_quiet _ hr]
    unfold State.pulseOver
    rw [State.quiet_flt, hp]
    exact congrArg _ (if_pos hle)
  · rw [exec_nfaultPulseEnd, State.command_quiet _ hr]
    unfold State.pulseOver
    rw [State.quiet_flt, hp]
  · rw [exec_nfaultPulseEnd, State.command_quiet _ hr]
    unfold State.pulseOver
    rw [State.quiet_flt, hp]
    exact congrArg _ (if_neg (Nat.not_le.2 hlt))

end Sys2Proof.Machine
end

section
/-! SUPPORT. The host link and the MSI-X structures. -/

namespace Sys2Proof.Machine

/-! ### The link goes down and comes up (R364, R397) -/

/-- The host block behind a loss of the link, before anything is raised. -/
def HostB.down (h : HostB) (cause : Nat) : HostB :=
  match cause with
  | 1 => { h.resetEndpoint with linkUp := false, width := 0, speed := 0 }
  | 2 => { h with bme := false }
  | _ => { h with d3 := true }

/-- A loss of the link: a doorbell read that was outstanding is given up. -/
def State.dropped (s : State) (cause : Nat) : State :=
  { s with host := { s.host.down cause with dbOut := s.host.dbOut && !s.canIssue } }

/-- The loss of a link that could carry requests is noted. -/
def State.droppedNoted (s : State) (cause : Nat) : State :=
  { s.dropped cause with host := { (s.dropped cause).host with flags := (s.dropped cause).host.flags ||| bw true 1 } }

/-- Every ring that is not OFF enters ERROR. -/
def State.failRings (s : State) : State :=
  s.allRings.foldl (fun t r => if (t.ring r).state = .off then t else t.ringError r errLink) s

theorem HostB.down_keeps (h : HostB) (cause : Nat) : (h.down cause).flags = h.flags ∧ (h.down cause).rings = h.rings := by
  unfold HostB.down
  split <;> exact ⟨rfl, rfl⟩

theorem HostB.down_dead (h : HostB) (cause : Nat) : (h.down cause).linkUp = false ∨ (h.down cause).bme = false ∨ (h.down cause).d3 = true := by
  unfold HostB.down
  split
  · exact .inl rfl
  · exact .inr (.inl rfl)
  · exact .inr (.inr rfl)

/-- Behind its loss the link carries no request. -/
theorem State.dropped_canIssue (s : State) (cause : Nat) : (s.dropped cause).canIssue = false := by
  unfold State.canIssue State.dropped
  rcases s.host.down_dead cause with h | h | h <;> simp [h]

theorem State.linkDown_eq (s : State) (cause : Nat) : s.linkDown cause =
    if s.canIssue then ((s.droppedNoted cause).fault srcHostLinkDown (wd cause) .none).failRings else s.dropped cause := by
  rcases cause with _ | _ | _ | n <;> rfl

theorem exec_hostLinkDown_cause {s : State} {cause : Nat} (hr : s.inReset = false) (h1 : 1 ≤ cause) (h3 : cause ≤ 3) :
    exec (.hostLinkDown cause) s = .next (s.quiet.linkDown cause) := by
  rw [exec_hostLinkDown, State.command_quiet _ hr]
  exact congrArg _ (if_pos ⟨h1, h3⟩)

/-- The loss of the link, as O59 states it. -/
theorem exec_hostLinkDown_loss {s : State} {cause : Nat} (hr : s.inReset = false) (h1 : 1 ≤ cause) (h3 : cause ≤ 3) : ∃ u : State,
      u.canIssue = false ∧ { u with host := s.host } = s.quiet ∧ u.host.rings = s.host.rings ∧
      (s.canIssue = false → u.host.flags = s.host.flags ∧ exec (.hostLinkDown cause) s = .next u) ∧
      (s.canIssue = true → u.host.flags = s.host.flags ||| 2 ∧
        let v := u.fault srcHostLinkDown (wd cause) .none
        exec (.hostLinkDown cause) s = .next (v.allRings.foldl (fun t r =>
          if (t.ring r).state = .off then t else t.ringError r errLink) v)) ∧
      (cause = 1 → u.host.msixTab = [] ∧ u.host.msixPend = 0) := by
  obtain ⟨hflags, hrings⟩ := s.host.down_keeps cause
  have he := exec_hostLinkDown_cause hr h1 h3
  rw [State.linkDown_eq] at he
  cases hc : s.canIssue with
  | false =>
    rw [show s.quiet.canIssue = false from hc, if_neg (by decide)] at he
    exact ⟨s.quiet.dropped cause, State.dropped_canIssue .., rfl, hrings, fun _ => ⟨hflags, he⟩, fun h => by (cases h), fun h => by subst h; exact ⟨rfl, rfl⟩⟩
  | true =>
    rw [show s.quiet.canIssue = true from hc, if_pos rfl] at he
    exact ⟨s.quiet.droppedNoted cause, State.dropped_canIssue s.quiet cause, rfl, hrings, fun h => by (cases h),
      fun _ => ⟨congrArg (· ||| (2 : Word)) hflags, he⟩, fun h => by subst h; exact ⟨rfl, rfl⟩⟩

/-! ### The MSI-X table (R365) -/

/-- A word of the table behind a write of one of them. -/
theorem HostB.msixWord_set (h : HostB) (i j : Nat) (w : Word) :
    ({ h with msixTab := Bank.set h.msixTab i w } : HostB).msixWord j = if j = i then w else h.msixWord j := Bank.get_set ..

/-- Where no vector pends, a write of a table word is that alone. -/
theorem State.msixWrite_table {s : State} {off : Nat} (v : Word) (hlt : off < 0x3F000) (hp : s.host.msixPend = 0) : s.msixWrite off v =
    { s with host := { s.host with msixTab := Bank.set s.host.msixTab ((off - 0x3E000) / 4) (v &&& msixBits ((off - 0x3E000) / 4)) } } := by
  unfold State.msixWrite
  rw [if_pos hlt]
  dsimp only
  rw [if_neg]
  simp [hp]

theorem msixOff_table {off : Nat} (h1 : 0x3E000 ≤ off) (h2 : off < 0x3E100) : msixOff off = true := by
  simp [msixOff, h1, h2]

/-- Settles O59: the link's loss and return, and the table that holds what is written there. -/
theorem linkLossStopsTheRings : Obligations.LinkLossStopsTheRings := by
  unfold Obligations.LinkLossStopsTheRings
  intro s hr
  refine ⟨fun cause h1 h3 => exec_hostLinkDown_loss hr h1 h3, fun cause h => ?_, ?_, ?_, fun off v h1 h2 hp => ?_⟩
  · rw [exec_hostLinkDown, State.command_quiet _ hr]
    exact congrArg _ (if_neg (by omega))
  · rw [exec_hotReset, State.command_quiet _ hr]
    refine ⟨_, rfl, ?_, rfl, rfl, rfl⟩
    unfold State.canIssue HostB.resetEndpoint
    simp
  · rw [exec_hostLinkUp, State.command_quiet _ hr]
    refine ⟨_, rfl, ?_⟩
    unfold State.linkUpNow State.issueAsked
    rw [if_pos (by rfl)]
    refine ⟨rfl, rfl, rfl, fun ha => ?_⟩
    dsimp only [State.spend]
    rw [show s.quiet.host.asked = [] from ha]
    rfl
  · have hoff := msixOff_table h1 h2
    have hlt : off < 0x3F000 := by omega
    rw [exec_registerWrite, State.command_quiet _ hr]
    have hw : s.quiet.fullWrite off v = { s.quiet with host := { s.host with
        msixTab := Bank.set s.host.msixTab ((off - 0x3E000) / 4) (v &&& msixBits ((off - 0x3E000) / 4)) } } := by
      unfold State.fullWrite
      rw [hoff, if_pos rfl, State.msixWrite_table (s := s.quiet) v hlt hp]
      rfl
    rw [hw]
    refine ⟨_, rfl, rfl, ?_, fun o ho hne => ?_⟩
    · refine exists_next (exec_rocRead off _) hr ⟨?_, ?_⟩
      · unfold State.fullRead
        rw [hoff, if_pos rfl]
        refine Eq.trans (if_pos hlt) ?_
        exact (HostB.msixWord_set ..).trans (if_pos rfl)
      · unfold State.fullRead
        rw [hoff, if_pos rfl]
        rfl
    · unfold HostB.msixRead
      split
      · exact (HostB.msixWord_set ..).trans (if_neg (by omega))
      · rfl

end Sys2Proof.Machine
end

section
/-! SUPPORT. What the reaction to a fault leaves of the rings. -/

namespace Sys2Proof.Machine
/-! ### What a stop, a record and a reaction leave of the rings -/

/-- A ring without the descriptors that it has given up. -/
def Ring.front (x : Ring) : Ring := { x with outst := [] }

/-- What no record of a fault, no reaction and no stop of a unit changes of the host block: the rings but for their completions, and the
doorbell. -/
def HostB.front (h : HostB) : (Nat → Ring) × Bool × Nat := (fun r => (Bank.get Ring.reset h.rings r).front, h.dbOut, h.dbStale)

def State.front (s : State) : (Nat → Ring) × Bool × Nat := s.host.front

@[simp] theorem State.front_host (s : State) : s.host.front = s.front := rfl

@[simp] theorem State.front_mk (variant_ : Variant) (dt_ : Nat) (lastPeriod_ : Option Nat) (lastTick_ : Option Nat) (inReset_ : Bool) (bootDone_ : Bool) (bootPassed_ : Bool) (tap_ : TapPort) (glb_ : Glb) (ref_ : Ref) (str_ : Strait) (host_ : HostB) (flt_ : Flt) (thm_ : Thm) (spr_ : Spr) (inp_ : Inp) (axes_ : Bank Axis) (courses_ : Bank Course) (camAddr_ : Nat) (cam_ : List Host.Cell) (camBad_ : List Nat) (tiles_ : Bank Tile) (tbl_ : Bank Word) (cfg_ : CfgB) (diag_ : Bank DiagTile) (shadows_ : Bank Word) (rdata_ : Word) (out_ : List Output) (fresh_ : Nat) (pending_ : List Instr) :
    (State.mk variant_ dt_ lastPeriod_ lastTick_ inReset_ bootDone_ bootPassed_ tap_ glb_ ref_ str_ host_ flt_ thm_ spr_ inp_ axes_ courses_ camAddr_ cam_ camBad_ tiles_ tbl_ cfg_ diag_ shadows_ rdata_ out_ fresh_ pending_).front = host_.front := rfl

@[simp] theorem HostB.front_mk (ctrl_ : Word) (irqCfg_ : Word) (winLo_ : Word) (winHi_ : Word) (winSize_ : Word) (linkUp_ : Bool) (width_ : Nat) (speed_ : Nat) (bme_ : Bool) (d3_ : Bool) (mps_ : Nat) (mrrs_ : Nat) (asked_ : List ReadReq) (flags_ : Word) (dbMiss_ : Nat) (budget_ : Bank Nat) (inForce_ : Bank Nat) (used_ : Bank Nat) (twins_ : Bank TWin) (rings_ : Bank Ring) (dbOut_ : Bool) (dbStale_ : Nat) (v15Due_ : Bool) (v15Sent_ : Bool) (tickNo_ : Nat) (planned_ : Bool) (refill_ : Bool) (pauseS_ : Bool) (longs_ : List LongOp) (binds_ : List BindReq) (owed_ : List SolDesc) (msixTab_ : Bank Word) (msixPend_ : BitVec 16) :
    (HostB.mk ctrl_ irqCfg_ winLo_ winHi_ winSize_ linkUp_ width_ speed_ bme_ d3_ mps_ mrrs_ asked_ flags_ dbMiss_ budget_ inForce_ used_ twins_ rings_ dbOut_ dbStale_ v15Due_ v15Sent_ tickNo_ planned_ refill_ pauseS_ longs_ binds_ owed_ msixTab_ msixPend_).front =
      (fun r => (Bank.get Ring.reset rings_ r).front, dbOut_, dbStale_) := rfl

@[simp] theorem HostB.front_eta (h : HostB) : (fun r => (Bank.get Ring.reset h.rings r).front, h.dbOut, h.dbStale) = h.front := rfl

@[simp] theorem ite_front (c : Prop) [Decidable c] (s t : State) : (if c then s else t).front = if c then s.front else t.front := by
  split <;> rfl

/-- A fold keeps what each of its steps keeps. -/
theorem foldl_front (f : State → α → State) (h : ∀ s a, (f s a).front = s.front) (l : List α) (s : State) :
    (l.foldl f s).front = s.front :=
  List.foldlRecOn l f (motive := fun t => t.front = s.front) rfl fun t ht a _ => (h t a).trans ht

/-- An update of a ring that leaves its front. -/
theorem State.updRing_front (s : State) (r : Nat) {f : Ring → Ring} (h : (f (s.ring r)).front = (s.ring r).front) : (s.updRing r f).front = s.front := by
  refine Prod.ext (funext fun j => ?_) rfl
  show ((s.updRing r f).ring j).front = (s.ring j).front
  rw [State.ring_updRing]
  split
  · next hj => rw [h, hj]
  · rfl

@[simp] theorem State.complete_front (s : State) (g : Tag) (r : List Word) : (s.complete g r).front = s.front :=
  State.updRing_front s g.ring rfl

@[simp] theorem State.setAxis_front (s : State) (a : Nat) (x : Axis) : (s.setAxis a x).front = s.front := by
  unfold State.setAxis
  simp

@[simp] theorem State.setCourse_front (s : State) (c : Nat) (x : Course) : (s.setCourse c x).front = s.front := by
  unfold State.setCourse
  simp

@[simp] theorem State.setTile_front (s : State) (t : Nat) (x : Tile) : (s.setTile t x).front = s.front := by
  unfold State.setTile
  simp

@[simp] theorem State.setLeg_front (s : State) (t l : Nat) (x : Leg) : (s.setLeg t l x).front = s.front := by
  unfold State.setLeg
  simp

@[simp] theorem State.setMotion_front (s : State) (k : UnitKind) (n : Nat) (m : Motion) : (s.setMotion k n m).front = s.front := by
  unfold State.setMotion
  split <;> simp

@[simp] theorem State.updAxis_front (s : State) (a : Nat) (f : Axis → Axis) : (s.updAxis a f).front = s.front := by
  unfold State.updAxis
  simp

@[simp] theorem State.updCourse_front (s : State) (c : Nat) (f : Course → Course) : (s.updCourse c f).front = s.front := by
  unfold State.updCourse
  simp

@[simp] theorem State.updTile_front (s : State) (t : Nat) (f : Tile → Tile) : (s.updTile t f).front = s.front := by
  unfold State.updTile
  simp

@[simp] theorem State.updLeg_front (s : State) (t l : Nat) (f : Leg → Leg) : (s.updLeg t l f).front = s.front := by
  unfold State.updLeg
  simp

@[simp] theorem State.updMotion_front (s : State) (k : UnitKind) (n : Nat) (f : Motion → Motion) : (s.updMotion k n f).front = s.front := by
  unfold State.updMotion
  simp

@[simp] theorem State.emit_front (s : State) (o : Output) : (s.emit o).front = s.front := by
  unfold State.emit
  simp

@[simp] theorem State.sendFault_front (s : State) (c : FClass) : (s.sendFault c).front = s.front := by
  unfold State.sendFault
  simp [foldl_front]

@[simp] theorem HostB.hint_front (h : HostB) (c : FClass) : (h.hint c).front = h.front := by
  unfold HostB.hint
  split <;> rfl

@[simp] theorem State.announce_front (s : State) (c : FClass) : (s.announce c).front = s.front := by
  unfold State.announce
  simp

@[simp] theorem State.rehold_front (s : State) (u v : Nat) : (s.rehold u v).front = s.front := by
  unfold State.rehold
  simp

@[simp] theorem State.fifth_front (s : State) (e x : Entry) (l older : List Entry) : (s.fifth e x l older).1.front = s.front := by
  unfold State.fifth
  split <;> simp

@[simp] theorem State.record_front (s : State) (src : Nat) (c : FClass) (detail : Word) (inj : Bool) : (s.record src c detail inj).1.front = s.front := by
  unfold State.record
  dsimp only
  (repeat' split) <;> simp

@[simp] theorem State.postStop_front (s : State) (k : UnitKind) (n : Nat) (c : StopCause) : (s.postStop k n c).front = s.front := by
  unfold State.postStop
  simp

@[simp] theorem State.endSol_front (s : State) (t l : Nat) : (s.endSol t l).front = s.front := by
  unfold State.endSol
  split <;> simp

@[simp] theorem State.payOwed_front (s : State) : (s.payOwed).front = s.front := by
  unfold State.payOwed
  simp [foldl_front]

@[simp] theorem State.legHiz_front (s : State) (t l : Nat) : (s.legHiz t l).front = s.front := by
  unfold State.legHiz
  simp

@[simp] theorem State.axisHiz_front (s : State) (a : Nat) (c : StopCause) : (s.axisHiz a c).front = s.front := by
  unfold State.axisHiz
  simp [foldl_front]

@[simp] theorem State.allHiz_front (s : State) (c : StopCause) : (s.allHiz c).front = s.front := by
  unfold State.allHiz
  simp [foldl_front]

@[simp] theorem State.answerMode_front (s : State) (g : Tag) (status : Nat) : (s.answerMode g status).front = s.front := by
  unfold State.answerMode
  simp

@[simp] theorem State.overtake_front (s : State) : (s.overtake).front = s.front := by
  unfold State.overtake
  (repeat' split) <;> simp

@[simp] theorem State.answerOvertaken_front (s : State) : (s.answerOvertaken).front = s.front := by
  unfold State.answerOvertaken
  simp [foldl_front]

@[simp] theorem State.eventMode_front (s : State) (m : DevMode) (cause : Nat) : (s.eventMode m cause).front = s.front := by
  unfold State.eventMode
  simp

@[simp] theorem State.holdAxis_front (s : State) (uid a : Nat) : (s.holdAxis uid a).front = s.front := by
  unfold State.holdAxis
  simp

@[simp] theorem State.isoAxis_front (s : State) (a uid : Nat) : (s.isoAxis a uid).front = s.front := by
  unfold State.isoAxis
  simp

@[simp] theorem State.holdTile_front (s : State) (uid t : Nat) : (s.holdTile uid t).front = s.front := by
  unfold State.holdTile
  simp [foldl_front]

@[simp] theorem State.isoTile_front (s : State) (t : Nat) : (s.isoTile t).front = s.front := by
  unfold State.isoTile
  simp [foldl_front]

@[simp] theorem State.legsFollow_front (s : State) (t l : Nat) : (s.legsFollow t l).front = s.front := by
  unfold State.legsFollow
  simp [foldl_front]

@[simp] theorem State.isolateLeg_front (s : State) (t l uid : Nat) : (s.isolateLeg t l uid).front = s.front := by
  unfold State.isolateLeg
  simp

@[simp] theorem State.isolate_front (s : State) (u : FUnit) (uid : Nat) : (s.isolate u uid).front = s.front := by
  unfold State.isolate
  split <;> simp (disch := (intros; simp)) [foldl_front]

@[simp] theorem State.haltAll_front (s : State) (starved : Bool) (except : Option (UnitKind × Nat)) : (s.haltAll starved except).front = s.front := by
  unfold State.haltAll
  simp [foldl_front]

@[simp] theorem State.react_front (s : State) (c : FClass) (u : FUnit) (uid : Nat) (starved : Bool) (except : Option (UnitKind × Nat)) : (s.react c u uid starved except).front = s.front := by
  unfold State.react
  (repeat' split) <;> simp

@[simp] theorem State.raiseAs_front (s : State) (src : Nat) (c : FClass) (detail : Word) (inj : Bool) (u : FUnit) : (s.raiseAs src c detail inj u).front = s.front := by
  unfold State.raiseAs
  simp

@[simp] theorem State.raise_front (s : State) (src : Nat) (detail : Word) (u : FUnit) : (s.raise src detail u).front = s.front := by
  unfold State.raise
  simp

@[simp] theorem State.entryEnded_front (s : State) (k : UnitKind) (n status : Nat) : (s.entryEnded k n status).front = s.front := by
  unfold State.entryEnded
  split <;> simp

@[simp] theorem State.silentEnd_front (s : State) (k : UnitKind) (n : Nat) (a : Move) (status : Nat) : (s.silentEnd k n a status).front = s.front := by
  unfold State.silentEnd
  simp

@[simp] theorem State.completeMove_front (s : State) (k : UnitKind) (n : Nat) (a : Move) (status : Nat) : (s.completeMove k n a status).front = s.front := by
  unfold State.completeMove
  simp

@[simp] theorem State.completeMoveBy_front (s : State) (k : UnitKind) (n : Nat) (a : Move) (status : Nat) (mem : Option (Nat × Nat)) : (s.completeMoveBy k n a status mem).front = s.front := by
  unfold State.completeMoveBy
  simp

@[simp] theorem State.entryCaught_front (s : State) (k : UnitKind) (n : Nat) (c : StopCause) : (s.entryCaught k n c).front = s.front := by
  unfold State.entryCaught
  simp

@[simp] theorem State.cancelLook_front (s : State) (k : UnitKind) (n : Nat) : (s.cancelLook k n).front = s.front := by
  unfold State.cancelLook
  simp [foldl_front]

@[simp] theorem State.cancelDwell_front (s : State) (k : UnitKind) (n : Nat) : (s.cancelDwell k n).front = s.front := by
  unfold State.cancelDwell
  split <;> simp

@[simp] theorem State.completeStops_front (s : State) (k : UnitKind) (n : Nat) : (s.completeStops k n).front = s.front := by
  unfold State.completeStops
  simp [foldl_front]

@[simp] theorem State.freeWindow_front (s : State) (k : UnitKind) (n : Nat) : (s.freeWindow k n).front = s.front := by
  unfold State.freeWindow
  simp

@[simp] theorem State.cancelLater_front (s : State) (k : UnitKind) (n : Nat) : (s.cancelLater k n).front = s.front := by
  unfold State.cancelLater
  simp (disch := (intros; split <;> simp)) [foldl_front]

@[simp] theorem State.endFollowed_front (s : State) (k : UnitKind) (n status : Nat) (mem : Option (Nat × Nat)) : (s.endFollowed k n status mem).front = s.front := by
  unfold State.endFollowed
  dsimp only
  (repeat' split) <;> simp

@[simp] theorem State.finishStop_front (s : State) (k : UnitKind) (n : Nat) : (s.finishStop k n).front = s.front := by
  unfold State.finishStop
  dsimp only
  (repeat' split) <;> simp

@[simp] theorem State.beginStop_front (s : State) (k : UnitKind) (n : Nat) : (s.beginStop k n).front = s.front := by
  unfold State.beginStop
  split <;> simp

@[simp] theorem State.setMember_front (s : State) (c slot : Nat) (m : Member) : (s.setMember c slot m).front = s.front := by
  unfold State.setMember
  simp

@[simp] theorem State.setParent_front (s : State) (k : UnitKind) (n : Nat) (p : Option (Nat × Nat)) : (s.setParent k n p).front = s.front := by
  unfold State.setParent
  split <;> simp

@[simp] theorem State.detach_front (s : State) (c slot : Nat) : (s.detach c slot).front = s.front := by
  unfold State.detach
  simp

@[simp] theorem State.markMember_front (s : State) (c slot a : Nat) : (s.markMember c slot a).front = s.front := by
  unfold State.markMember
  simp

@[simp] theorem State.memberReport_front (s : State) (a : Nat) : (s.memberReport a).front = s.front := by
  unfold State.memberReport
  simp [foldl_front]

@[simp] theorem State.memberEvent_front (s : State) (a : Nat) (cause : Option StopCause) : (s.memberEvent a cause).front = s.front := by
  unfold State.memberEvent
  dsimp only
  (repeat' split) <;> simp (disch := (intros; (repeat' split) <;> (try simp))) [foldl_front]

@[simp] theorem State.settleAxis_front (s : State) (c : FClass) (a : Nat) : (s.settleAxis c a).front = s.front := by
  unfold State.settleAxis
  (repeat' split) <;> simp

@[simp] theorem State.settle_front (s : State) (c : optParam FClass FClass.log) : (s.settle c).front = s.front := by
  unfold State.settle
  simp [foldl_front]

@[simp] theorem State.fault_front (s : State) (src : Nat) (detail : Word) (u : FUnit) : (s.fault src detail u).front = s.front := by
  unfold State.fault
  simp


/-! ### Rings behind an error, a request and a prefetch -/

theorem State.front_ring {s t : State} (h : t.front = s.front) (r : Nat) : (t.ring r).front = (s.ring r).front :=
  congrFun (congrArg Prod.fst h) r

theorem State.front_doorbell {s t : State} (h : t.front = s.front) : t.host.dbOut = s.host.dbOut ∧ t.host.dbStale = s.host.dbStale :=
  Prod.mk.inj (congrArg Prod.snd h)

/-- A ring that enters ERROR, and the others. -/
theorem State.ringError_spec (s : State) (r code : Nat) :
    ((s.ringError r code).ring r).front = ((s.ring r).fail code).front ∧ (∀ j, j ≠ r → ((s.ringError r code).ring j).front = (s.ring j).front) ∧
    (s.ringError r code).host.dbOut = s.host.dbOut ∧ (s.ringError r code).host.dbStale = s.host.dbStale := by
  have hf : (s.ringError r code).front = (s.updRing r fun x => x.fail code).front := by
    unfold State.ringError
    rw [State.fault_front]
    rfl
  have hr (j : Nat) : ((s.ringError r code).ring j).front = (if j = r then (s.ring r).fail code else s.ring j).front := by
    rw [State.front_ring hf, State.ring_updRing]
  refine ⟨by rw [hr, if_pos rfl], fun j hj => by rw [hr, if_neg hj], State.front_doorbell (s := s.updRing r fun x => x.fail code) hf⟩

/-- A read of host memory leaves the rings and the doorbell. -/
theorem State.request_host (s : State) (src : ReadSrc) (o : Output) :
    (s.request src o).host = { s.host with asked := (s.request src o).host.asked } := by
  obtain ⟨a, out, h⟩ := s.request_frame src o
  rw [h]

theorem State.foldl_request_host (src : ReadSrc) (os : List Output) (s : State) :
    (os.foldl (fun t o => t.request src o) s).host = { s.host with asked := (os.foldl (fun t o => t.request src o) s).host.asked } := by
  induction os generalizing s with
  | nil => rfl
  | cons o os ih => rw [List.foldl_cons, ih, State.request_host]

/-- What a doorbell read leaves of a ring. -/
def State.door (s : State) (j : Nat) : Nat × RingState × Nat × Bool × Nat :=
  ((s.ring j).pi, (s.ring j).state, (s.ring j).err, s.host.dbOut, s.host.dbStale)

theorem State.setRing_door (s : State) (r j : Nat) {x : Ring} (h : x.pi = (s.ring r).pi ∧ x.state = (s.ring r).state ∧ x.err = (s.ring r).err) :
    (s.setRing r x).door j = s.door j := by
  obtain ⟨h1, h2, h3⟩ := h
  unfold State.door
  rw [State.ring_setRing]
  split
  · next hj => rw [h1, h2, h3, hj]; rfl
  · rfl

theorem State.foldl_request_door (src : ReadSrc) (os : List Output) (s : State) (j : Nat) :
    (os.foldl (fun t o => t.request src o) s).door j = s.door j := by
  unfold State.door State.ring
  rw [State.foldl_request_host]

/-- A prefetch leaves a ring's producer index, state and error. -/
theorem State.prefetch_door (s : State) (r j : Nat) : (s.prefetch r).door j = s.door j := by
  have hq : (s.ring r).quotaStall.pi = (s.ring r).pi ∧ (s.ring r).quotaStall.state = (s.ring r).state ∧ (s.ring r).quotaStall.err = (s.ring r).err := by
    unfold Ring.quotaStall
    split <;> exact ⟨rfl, rfl, rfl⟩
  unfold State.prefetch
  dsimp only
  split
  · rfl
  · split
    · split
      · exact State.setRing_door s r j ⟨rfl, rfl, rfl⟩
      · exact State.setRing_door s r j hq
    · exact (State.foldl_request_door ..).trans (State.setRing_door s r j ⟨rfl, rfl, rfl⟩)

theorem State.foldl_prefetch_door (l : List Nat) (s : State) (j : Nat) : (l.foldl State.prefetch s).door j = s.door j :=
  List.foldlRecOn l _ (motive := fun (v : State) => v.door j = s.door j) rfl fun v hv r _ => (v.prefetch_door r j).trans hv

/-! ### The doorbell (R378) -/

/-- One ring takes its producer index, or enters ERROR. -/
def State.doorOne (pis : List Word) (t : State) (r : Nat) : State :=
  match pis[r]? with
  | none => t
  | some w =>
    if (t.ring r).state ≠ .run then t
    else match (t.ring r).judge w.toNat with
      | some c => t.ringError r c
      | none => t.setRing r { t.ring r with pi := w.toNat }

/-- The doorbell, and every other ring, as one takes its index. -/
theorem State.doorOne_other (pis : List Word) (t : State) (r : Nat) :
    (∀ j, j ≠ r → ((State.doorOne pis t r).ring j).front = (t.ring j).front) ∧
    (State.doorOne pis t r).host.dbOut = t.host.dbOut ∧ (State.doorOne pis t r).host.dbStale = t.host.dbStale := by
  unfold State.doorOne
  split
  · exact ⟨fun _ _ => rfl, rfl, rfl⟩
  · split
    · exact ⟨fun _ _ => rfl, rfl, rfl⟩
    · split
      · exact (t.ringError_spec r _).2
      · exact ⟨fun j hj => by rw [State.ring_setRing, if_neg hj], rfl, rfl⟩

/-- A ring in RUN takes a producer index within its range, or enters ERROR. -/
theorem State.doorOne_self {pis : List Word} {t : State} {r : Nat} {w : Word} (hw : pis[r]? = some w) (hrun : (t.ring r).state = .run) :
    ((t.ring r).judge w.toNat = none → ((State.doorOne pis t r).ring r).front = { t.ring r with pi := w.toNat }.front) ∧
    (∀ c, (t.ring r).judge w.toNat = some c → ((State.doorOne pis t r).ring r).front = ((t.ring r).fail c).front) := by
  have hne : ¬ (t.ring r).state ≠ .run := fun h => h hrun
  refine ⟨fun hj => ?_, fun c hj => ?_⟩
  · have hone : State.doorOne pis t r = t.setRing r { t.ring r with pi := w.toNat } := by simp only [State.doorOne, hw, hne, if_false, hj]
    rw [hone, State.ring_setRing_self]
  · have hone : State.doorOne pis t r = t.ringError r c := by simp only [State.doorOne, hw, hne, if_false, hj]
    rw [hone]
    exact (t.ringError_spec r c).1

theorem State.foldl_doorOne_other (pis : List Word) (l : List Nat) (s : State) {r : Nat} (h : r ∉ l) :
    ((l.foldl (State.doorOne pis) s).ring r).front = (s.ring r).front :=
  List.foldlRecOn l _ (motive := fun (v : State) => (v.ring r).front = (s.ring r).front) rfl
    fun v hv j hj => ((v.doorOne_other pis j).1 r fun he => h (he ▸ hj)).trans hv

theorem State.foldl_doorOne_host (pis : List Word) (l : List Nat) (s : State) :
    (l.foldl (State.doorOne pis) s).host.dbOut = s.host.dbOut ∧ (l.foldl (State.doorOne pis) s).host.dbStale = s.host.dbStale :=
  List.foldlRecOn l _ (motive := fun (v : State) => v.host.dbOut = s.host.dbOut ∧ v.host.dbStale = s.host.dbStale) ⟨rfl, rfl⟩
    fun v hv j _ => ⟨(v.doorOne_other pis j).2.1.trans hv.1, (v.doorOne_other pis j).2.2.trans hv.2⟩

/-- A ring's verdict on an index does not look at what it has given up. -/
theorem Ring.judge_front {x y : Ring} (h : x.front = y.front) (n : Nat) : x.judge n = y.judge n := by
  have hf : x.front.judge n = y.front.judge n := by rw [h]
  exact hf

theorem Ring.front_fields {x y : Ring} (h : x.front = y.front) : x.pi = y.pi ∧ x.state = y.state ∧ x.err = y.err := by
  refine ⟨?_, ?_, ?_⟩
  · have h := congrArg Ring.pi h; exact h
  · have h := congrArg Ring.state h; exact h
  · have h := congrArg Ring.err h; exact h

/-- What all rings together make of a doorbell read, for one of them. -/
theorem State.doorAll_spec {pis : List Word} {s : State} {r : Nat} {w : Word} (hr : r < s.variant.rings) (hw : pis[r]? = some w)
    (hrun : (s.ring r).state = .run) :
    ((s.ring r).judge w.toNat = none → ((s.allRings.foldl (State.doorOne pis) s).ring r).front = { s.ring r with pi := w.toNat }.front) ∧
    (∀ c, (s.ring r).judge w.toNat = some c → ((s.allRings.foldl (State.doorOne pis) s).ring r).front = ((s.ring r).fail c).front) := by
  have hmem : r ∈ s.allRings := List.mem_range.2 hr
  obtain ⟨before, after, hs⟩ := List.append_of_mem hmem
  have hnd : (before ++ r :: after).Nodup := hs ▸ List.nodup_range
  rw [List.nodup_append] at hnd
  obtain ⟨-, hafter, hdis⟩ := hnd
  have hb : r ∉ before := fun h => hdis r h r List.mem_cons_self rfl
  have ha : r ∉ after := (List.nodup_cons.1 hafter).1
  rw [hs, List.foldl_append, List.foldl_cons, State.foldl_doorOne_other pis after _ ha]
  have hpre := State.foldl_doorOne_other pis before s hb
  obtain ⟨hnone, hsome⟩ := State.doorOne_self (t := before.foldl (State.doorOne pis) s) hw ((Ring.front_fields hpre).2.1.trans hrun)
  rw [Ring.judge_front hpre] at hnone hsome
  refine ⟨fun hj => (hnone hj).trans ?_, fun c hj => (hsome c hj).trans ?_⟩
  · have hx := congrArg (fun x : Ring => { x with pi := w.toNat }) hpre
    exact hx
  · have hx := congrArg (fun x : Ring => x.fail c) hpre
    exact hx

/-! ### Reads that are answered -/

/-- An answered read frees its tags, and what waited may leave. -/
theorem State.answered_eq (s : State) (src : ReadSrc) :
    s.answered src = { s with host := { s.host with asked := (s.answered src).host.asked }, out := (s.answered src).out } := by
  unfold State.answered State.issueAsked
  split
  · rfl
  · rfl

section
variable (s : State) (src : ReadSrc)

@[simp] theorem State.answered_ring (r : Nat) : (s.answered src).ring r = s.ring r := by rw [State.answered_eq]; rfl
@[simp] theorem State.answered_twin (w : Nat) : (s.answered src).twin w = s.twin w := by rw [State.answered_eq]; rfl
@[simp] theorem State.answered_motion (k : UnitKind) (n : Nat) : (s.answered src).motion k n = s.motion k n := by
  rw [State.answered_eq]
  cases k <;> rfl
@[simp] theorem State.answered_dt : (s.answered src).dt = s.dt := by rw [State.answered_eq]
@[simp] theorem State.answered_dbOut : (s.answered src).host.dbOut = s.host.dbOut := by rw [State.answered_eq]
@[simp] theorem State.answered_variant : (s.answered src).variant = s.variant := by rw [State.answered_eq]
@[simp] theorem State.answered_paramRead (d : Desc) : (s.answered src).paramRead d = s.paramRead d := by
  rw [State.answered_eq]
  rfl

end

/-! ### One completion after another -/

/-- A completion answers the oldest read for its purpose; its result is wanted while no read was discarded. -/
theorem State.quiet_answer (s : State) (src : ReadSrc) :
    s.quiet.answer src = (!s.host.discarded src (s.wanted src), s.quiet.answered src) := by
  cases src <;> rfl

/-- The doorbell read of a doorbell that is out: each ring takes its index, then prefetches. -/
theorem State.doorbell_out {s : State} {pis : List Word} (hl : s.host.discarded .doorbell (s.wanted .doorbell) = false) (hout : s.host.dbOut = true)
    {t : State} (ht : t = { s.quiet.answered .doorbell with host := { (s.quiet.answered .doorbell).host with dbOut := false, dbStale := 0 } }) :
    s.quiet.doorbell pis = (t.allRings.foldl (State.doorOne pis) t).allRings.foldl State.prefetch (t.allRings.foldl (State.doorOne pis) t) := by
  unfold State.doorbell
  have hd : (s.quiet.answered .doorbell).host.dbOut = true := (State.answered_dbOut ..).trans hout
  rw [State.quiet_answer, hl]
  have hcond : (!false && (s.quiet.answered .doorbell).host.dbOut) = true := hd
  simp only [hcond, if_true, ← ht]
  refine congrArg (fun f : State → Nat → State => (t.allRings.foldl f t).allRings.foldl State.prefetch (t.allRings.foldl f t)) ?_
  funext u r
  unfold State.doorOne
  cases pis[r]? with
  | none => rfl
  | some w =>
    cases hj : (u.ring r).judge w.toNat <;> simp only [hj]

theorem State.doorbell_in {s : State} {pis : List Word}
    (h : s.host.discarded .doorbell (s.wanted .doorbell) ≠ false ∨ s.host.dbOut = false) : s.quiet.doorbell pis = s.quiet.answered .doorbell := by
  have hd : (s.quiet.answered .doorbell).host.dbOut = s.host.dbOut := State.answered_dbOut ..
  have hno : (!s.host.discarded .doorbell (s.wanted .doorbell) && (s.quiet.answered .doorbell).host.dbOut) = false := by
    rcases h with h | h
    · replace h := eq_true_of_ne_false h
      rw [h]
      rfl
    · rw [hd, h, Bool.and_false]
  unfold State.doorbell
  rw [State.quiet_answer]
  dsimp only
  rw [hno]
  exact if_neg (by decide)

/-- Descriptors enter the prefetch buffer of their ring. -/
theorem State.takeIn_ring (s : State) (r : Nat) (ds : List Desc) (rest : List Nat) :
    ((s.takeIn r ds rest).ring r).reads = rest ∧
    ((s.takeIn r ds rest).ring r).pref = (s.ring r).pref ++ ds.map fun d => { d := d, ready := (s.paramRead d).isNone, dt := s.dt } := by
  let x := s.ring r
  let y : Ring := { x with reads := rest, pref := x.pref ++ ds.map fun d => { d := d, ready := (s.paramRead d).isNone, dt := s.dt } }
  let u := s.setRing r y.quotaStall
  have hfold : (s.takeIn r ds rest).ring r = u.ring r :=
    List.foldlRecOn ds _ (motive := fun (v : State) => v.ring r = u.ring r) rfl fun v hv d _ => by
      split
      · next o _ =>
        unfold State.ring at hv ⊢
        rw [State.request_host]
        exact hv
      · exact hv
  have hq (x : Ring) : x.quotaStall.reads = x.reads ∧ x.quotaStall.pref = x.pref := by
    unfold Ring.quotaStall
    split <;> exact ⟨rfl, rfl⟩
  rw [hfold, State.ring_setRing_self]
  exact ⟨(hq _).1, (hq _).2⟩

/-- A prefetch of a ring in RUN. -/
theorem State.prefetched_run {s : State} {r n : Nat} {ok : Bool} {ds : List Desc} {rest : List Nat}
    (hl : s.host.discarded (.ring r) (s.wanted (.ring r)) = false) (hrun : (s.ring r).state = .run) (hreads : (s.ring r).reads = n :: rest) :
    s.quiet.prefetched r ok ds =
      if ok then (s.quiet.answered (.ring r)).takeIn r ((ds.take n).map fun (d : Desc) => { d with param := [] }) rest
      else (s.quiet.answered (.ring r)).ringError r errFetch := by
  have hr : (s.quiet.answered (.ring r)).ring r = s.ring r := State.answered_ring ..
  unfold State.prefetched
  rw [State.quiet_answer, hl]
  dsimp only
  rw [hr, hrun, hreads]
  rfl

/-- A prefetch whose result nobody wants. -/
theorem State.prefetched_idle {s : State} {r : Nat} {ok : Bool} {ds : List Desc}
    (h : s.host.discarded (.ring r) (s.wanted (.ring r)) ≠ false ∨ (s.ring r).state ≠ .run ∨ (s.ring r).reads = []) :
    s.quiet.prefetched r ok ds = s.quiet.answered (.ring r) := by
  have hr : (s.quiet.answered (.ring r)).ring r = s.ring r := State.answered_ring ..
  unfold State.prefetched
  rw [State.quiet_answer]
  dsimp only
  rw [hr]
  split
  · next n rest hrun hreads =>
    rcases h with h | h | h
    · replace h := eq_true_of_ne_false h
      rw [h] at hreads
      exact absurd hreads (by simp)
    · exact absurd hrun h
    · rw [h, ite_self] at hreads
      exact absurd hreads (by simp)
  · rfl

theorem State.paramDone_live {s : State} {r : Nat} {ok : Bool} {ps : List Word}
    (hl : s.host.discarded (.param r) (s.wanted (.param r)) = false) (hw : ((s.ring r).pref.any fun f => !f.ready) = true) :
    s.quiet.paramDone r ok ps =
      if ok then (s.quiet.answered (.param r)).setRing r { s.ring r with pref := takeParam ps s.dt (s.ring r).pref }
      else (s.quiet.answered (.param r)).ringError r errFetch := by
  have hr : (s.quiet.answered (.param r)).ring r = s.ring r := State.answered_ring ..
  have hdt : (s.quiet.answered (.param r)).dt = s.dt := State.answered_dt ..
  unfold State.paramDone
  rw [State.quiet_answer, hl]
  dsimp only
  rw [hr, hw, hdt]
  exact if_pos rfl

theorem State.streamed_live {s : State} {w : Nat} {k : UnitKind} {n : Nat} {p : Play} {ok : Bool} {bytes : List Byte}
    (hl : s.host.discarded (.table w) (s.wanted (.table w)) = false) (hb : (s.twin w).busy = some (k, n)) (hp : (s.motion k n).playOf w = some p)
    (hread : p.reading = true) (habs : p.absentTo = 0) :
    s.quiet.streamed w ok bytes =
      if ok then ((s.quiet.answered (.table w)).updMotion k n fun m => m.updPlay w fun p => p.load bytes).streamAsk w
      else (s.quiet.answered (.table w)).updMotion k n fun m => m.updPlay w Play.loadFail := by
  have ht : (s.quiet.answered (.table w)).twin w = s.twin w := State.answered_twin ..
  have hm : (s.quiet.answered (.table w)).motion k n = s.motion k n := (State.answered_motion ..).trans (by cases k <;> rfl)
  unfold State.streamed
  rw [State.quiet_answer, hl]
  dsimp only
  rw [ht, hb]
  dsimp only
  rw [hm, hp]
  dsimp only
  rw [hread, habs]
  exact if_neg (by decide)

/-- The completion of a parameter or table read whose result is no longer wanted. -/
theorem State.paramDone_stale {s : State} {r : Nat} {ok : Bool} {ps : List Word} (h : s.host.discarded (.param r) (s.wanted (.param r)) ≠ false) :
    s.quiet.paramDone r ok ps = s.quiet.answered (.param r) := by
  replace h := eq_true_of_ne_false h
  unfold State.paramDone
  rw [State.quiet_answer, h]
  exact if_neg (by simp)

theorem State.streamed_stale {s : State} {w : Nat} {ok : Bool} {bytes : List Byte} (h : s.host.discarded (.table w) (s.wanted (.table w)) ≠ false) :
    s.quiet.streamed w ok bytes = s.quiet.answered (.table w) := by
  replace h := eq_true_of_ne_false h
  unfold State.streamed
  rw [State.quiet_answer, h]
  dsimp only
  (repeat' split) <;> first | rfl | simp_all

theorem Play.load_spec (p : Play) (bytes : List Byte) :
    (p.load bytes).nextReq = p.nextReq + min 256 (p.count - p.nextReq) ∧
    (p.load bytes).buf.length = p.buf.length + min 256 (p.count - p.nextReq) := by
  refine ⟨rfl, ?_⟩
  simp only [Play.load, List.length_append, List.length_take, List.length_replicate]
  omega

/-- The producer indices of a doorbell read. -/
theorem State.doorbell_takes {s : State} {pis : List Word} {w : Word} {r : Nat} (hl : s.host.discarded .doorbell (s.wanted .doorbell) = false)
    (hout : s.host.dbOut = true) (hr : r < s.variant.rings) (hw : pis[r]? = some w) (hrun : (s.ring r).state = .run) :
    (s.quiet.doorbell pis).host.dbOut = false ∧ (s.quiet.doorbell pis).host.dbStale = 0 ∧
    ((s.ring r).judge w.toNat = none → ((s.quiet.doorbell pis).ring r).pi = w.toNat ∧ ((s.quiet.doorbell pis).ring r).state = .run) ∧
    ∀ c, (s.ring r).judge w.toNat = some c →
      ((s.quiet.doorbell pis).ring r).state = .error ∧ ((s.quiet.doorbell pis).ring r).err = c ∧ ((s.quiet.doorbell pis).ring r).pi = (s.ring r).pi := by
  obtain ⟨t, ht⟩ : ∃ t, t = { s.quiet.answered .doorbell with host := { (s.quiet.answered .doorbell).host with dbOut := false, dbStale := 0 } } := ⟨_, rfl⟩
  have htr : t.ring r = s.ring r := by
    rw [ht]
    exact State.answered_ring s.quiet .doorbell r
  have htv : t.variant = s.variant := by
    rw [ht]
    exact State.answered_variant s.quiet .doorbell
  have hdoor := State.foldl_prefetch_door (t.allRings.foldl (State.doorOne pis) t).allRings (t.allRings.foldl (State.doorOne pis) t) r
  rw [← State.doorbell_out hl hout ht] at hdoor
  obtain ⟨hpi, hstate, herr, hdb, hst⟩ : _ ∧ _ ∧ _ ∧ _ ∧ _ := by
    simpa only [State.door, Prod.mk.injEq] using hdoor
  obtain ⟨hdb', hst'⟩ := State.foldl_doorOne_host pis t.allRings t
  obtain ⟨hnone, hsome⟩ := State.doorAll_spec (s := t) (htv ▸ hr) hw (htr ▸ hrun)
  rw [htr] at hnone hsome
  refine ⟨hdb.trans (hdb'.trans (by rw [ht])), hst.trans (hst'.trans (by rw [ht])), fun hj => ?_, fun c hj => ?_⟩
  · obtain ⟨h1, h2, -⟩ := Ring.front_fields (hnone hj)
    exact ⟨hpi.trans h1, hstate.trans (h2.trans hrun)⟩
  · obtain ⟨h1, h2, h3⟩ := Ring.front_fields (hsome c hj)
    exact ⟨hstate.trans h2, herr.trans h3, hpi.trans h1⟩

/-- Settles O43: each completion frees its tags, and by its purpose and what is wanted of it goes to the doorbell, a ring or a streamer. -/
theorem readsOfHostMemoryComplete : Obligations.ReadsOfHostMemoryComplete := by
  unfold Obligations.ReadsOfHostMemoryComplete
  intro r s hr live
  refine ⟨fun src hsrc => ⟨?_, ?_, ?_, ?_⟩, fun src => ?_, fun pis hout => ?_, fun pis w hl hout hlt hw hrun => ?_,
    fun ds n rest hl hrun hreads => ⟨?_, ?_⟩, fun ok ds h => ?_, fun ps hl hw => ⟨?_, ?_⟩, fun w k n p bytes hl hb hp hread habs => ⟨?_, ?_⟩⟩
  · rintro pis rfl
    rw [exec_doorbellReadComplete, State.command_quiet _ hr, State.doorbell_in (.inl hsrc)]
  · rintro ok ds rfl
    rw [exec_prefetchComplete, State.command_quiet _ hr, State.prefetched_idle (.inl hsrc)]
  · rintro ok ps rfl
    rw [exec_parameterReadComplete, State.command_quiet _ hr, State.paramDone_stale hsrc]
  · rintro ok bytes rfl
    rw [exec_streamReadComplete, State.command_quiet _ hr, State.streamed_stale hsrc]
  · rw [State.answered_eq]
  · rw [exec_doorbellReadComplete, State.command_quiet _ hr, State.doorbell_in (.inr hout)]
  · exact exists_next (exec_doorbellReadComplete pis s) hr (State.doorbell_takes hl hout hlt hw hrun)
  · refine exists_next (exec_prefetchComplete ..) hr ?_
    rw [State.prefetched_run hl hrun hreads, if_pos rfl]
    obtain ⟨h1, h2⟩ := (s.quiet.answered (.ring r)).takeIn_ring r ((ds.take n).map fun (d : Desc) => { d with param := [] }) rest
    refine ⟨h1, h2.trans ?_⟩
    rw [List.map_map]
    simp only [State.answered_ring, State.answered_paramRead, State.answered_dt]
    rfl
  · rw [exec_prefetchComplete, State.command_quiet _ hr, State.prefetched_run hl hrun hreads]
    exact congrArg _ (if_neg (by decide))
  · rw [exec_prefetchComplete, State.command_quiet _ hr, State.prefetched_idle (.inr h)]
  · rw [exec_parameterReadComplete, State.command_quiet _ hr, State.paramDone_live hl hw]
    exact congrArg _ (if_pos rfl)
  · rw [exec_parameterReadComplete, State.command_quiet _ hr, State.paramDone_live hl hw]
    exact congrArg _ (if_neg (by decide))
  · rw [exec_streamReadComplete, State.command_quiet _ hr, State.streamed_live hl hb hp hread habs]
    exact congrArg _ (if_pos rfl)
  · refine ⟨(p.load_spec bytes).1, (p.load_spec bytes).2, ?_⟩
    rw [exec_streamReadComplete, State.command_quiet _ hr, State.streamed_live hl hb hp hread habs]
    exact congrArg _ (if_neg (by decide))

end Sys2Proof.Machine
end


section
/-! SUPPORT. The interlock of a leg: a switch confirms its handshake, its dead time ends, and the other turns on (R278 to R281; O47). -/

namespace Sys2Proof.Machine

theorem State.hasLeg_of_lt {s : State} {t l : Nat} (ht : t < s.variant.tiles) (hl : l < 16) : s.hasLeg t l = true := by
  simp [State.hasLeg, ht, hl]

@[simp] theorem Leg.sw_setSw_self (x : Leg) (w : Switch) (g : GateSw) : (x.setSw w g).sw w = g := by cases w <;> rfl

@[simp] theorem Leg.sw_setSw_other (x : Leg) (w : Switch) (g : GateSw) : (x.setSw w g).sw (otherSw w) = x.sw (otherSw w) := by cases w <;> rfl

@[simp] theorem Leg.setSw_mode (x : Leg) (w : Switch) (g : GateSw) : (x.setSw w g).mode = x.mode := by cases w <;> rfl

@[simp] theorem Leg.cmdOn_mode (x : Leg) (w : Switch) : (x.cmdOn w).mode = x.mode := by
  unfold Leg.cmdOn
  split <;> simp

@[simp] theorem Leg.retry_mode (x : Leg) : x.retry.mode = x.mode := by
  unfold Leg.retry
  dsimp only
  (repeat' split) <;> simp

/-- A switch that may turn on, and is asked to. -/
theorem Leg.cmdOn_of_mayTurnOn {x : Leg} {w : Switch} (h : x.mayTurnOn w = true) :
    x.cmdOn w = x.setSw w { x.sw w with cmd := true, waiting := false, on := true, hs := false, dead := false } := if_pos h

/-- The switch that waits turns on, where it may and the other does not wait. -/
theorem Leg.retry_waiting {x : Leg} {w : Switch} (hw : (x.sw w).waiting = true) (ho : (x.sw (otherSw w)).waiting = false)
    (h : x.mayTurnOn w = true) : x.retry = x.cmdOn w := by
  unfold Leg.retry
  cases w with
  | low =>
    have hon : (x.cmdOn .low).hi.waiting = false := by
      rw [Leg.cmdOn_of_mayTurnOn h]
      exact ho
    have hlo : (x.lo.waiting && x.mayTurnOn .low) = true := by
      rw [h, Bool.and_true]
      exact hw
    rw [if_pos hlo]
    dsimp only
    rw [hon, Bool.false_and]
    exact if_neg (by decide)
  | high =>
    have hlo : ¬ (x.lo.waiting && x.mayTurnOn .low) = true := by
      have hno : x.lo.waiting = false := ho
      simp [hno]
    have hhi : (x.hi.waiting && x.mayTurnOn .high) = true := by
      rw [h, Bool.and_true]
      exact hw
    rw [if_neg hlo]
    exact if_pos hhi

/-- Where the dead time of a switch ends that is off and confirmed, the other may turn on: the high one with its bootstrap good. -/
theorem Leg.mayTurnOn_behind {x : Leg} {w : Switch} (hcmd : (x.sw w).cmd = false) (hhs : (x.sw w).hs = true) (hz : x.hiz = false)
    (hb : w = .low → x.bstOk = true) : (x.setSw w { x.sw w with dead := false }).mayTurnOn (otherSw w) = true := by
  cases w with
  | low =>
    have hb := hb rfl
    have hcmd : x.lo.cmd = false := hcmd
    have hhs : x.lo.hs = true := hhs
    simp [Leg.mayTurnOn, Leg.setSw, Leg.sw, otherSw, hcmd, hhs, hz, hb]
  | high =>
    have hcmd : x.hi.cmd = false := hcmd
    have hhs : x.hi.hs = true := hhs
    simp [Leg.mayTurnOn, Leg.setSw, Leg.sw, otherSw, hcmd, hhs, hz]

theorem State.legSettle_otherMode {s : State} {t l : Nat} (h : (s.leg t l).mode ≠ 1) : s.legSettle t l = s :=
  if_neg fun hc => h hc.1

@[simp] theorem otherSw_otherSw (w : Switch) : otherSw (otherSw w) = w := by cases w <;> rfl

/-- The other switch of a leg turns on at the end of the dead time. -/
theorem Leg.retry_behind {x : Leg} {w : Switch} (hcmd : (x.sw w).cmd = false) (hwait : (x.sw w).waiting = false) (hhs : (x.sw w).hs = true)
    (hz : x.hiz = false) (ho : (x.sw (otherSw w)).waiting = true) (hb : w = .low → x.bstOk = true) :
    ((x.setSw w { x.sw w with dead := false }).retry.sw (otherSw w)).on = true ∧
    ((x.setSw w { x.sw w with dead := false }).retry.sw (otherSw w)).waiting = false ∧
    (x.setSw w { x.sw w with dead := false }).retry.sw w = { x.sw w with dead := false } := by
  have hmay := Leg.mayTurnOn_behind hcmd hhs hz hb
  rw [Leg.retry_waiting (by rw [Leg.sw_setSw_other]; exact ho) (by rw [otherSw_otherSw, Leg.sw_setSw_self]; exact hwait) hmay,
    Leg.cmdOn_of_mayTurnOn hmay]
  refine ⟨by rw [Leg.sw_setSw_self], by rw [Leg.sw_setSw_self], ?_⟩
  have h := Leg.sw_setSw_other (x.setSw w { x.sw w with dead := false }) (otherSw w)
  rw [otherSw_otherSw] at h
  rw [h, Leg.sw_setSw_self]

/-- Settles O47: each command looks at its own switch, and the switch that waits is let on where the other is off, confirmed and out of its
dead time. -/
theorem handshakesLetTheOtherSwitchOn : Obligations.HandshakesLetTheOtherSwitchOn := by
  unfold Obligations.HandshakesLetTheOtherSwitchOn
  intro t l w s hr ht hl x
  have hleg : s.quiet.hasLeg t l = true := State.hasLeg_of_lt ht hl
  have hx : s.quiet.leg t l = x := rfl
  refine ⟨fun hon hhs => ⟨?_, ?_⟩, fun h => ⟨?_, ?_⟩, fun hd => ?_, fun hd => ?_, fun hm hd hcmd hwait hhs hz ho hb => ?_⟩
  · rw [exec_handshakeConfirm, State.command_quiet _ hr]
    unfold State.handshake
    refine congrArg _ (if_pos ?_)
    rw [hleg, hx, hon, hhs]
    rfl
  · rw [exec_gateHsTimeout, State.command_quiet _ hr]
    unfold State.hsTimeout
    dsimp only
    rw [hleg, hx, hon, hhs]
    exact congrArg _ (if_pos rfl)
  · rw [exec_handshakeConfirm, State.command_quiet _ hr]
    unfold State.handshake
    dsimp only
    rw [hleg, hx]
    refine congrArg _ (if_neg ?_)
    rcases h with h | h <;> simp [h]
  · rw [exec_gateHsTimeout, State.command_quiet _ hr]
    unfold State.hsTimeout
    dsimp only
    rw [hleg, hx]
    refine congrArg _ (if_neg ?_)
    rcases h with h | h <;> simp [h]
  · rw [exec_deadTimeEnd, State.command_quiet _ hr]
    unfold State.deadEnd
    dsimp only
    rw [hleg, hx, hd]
    exact congrArg _ (if_pos rfl)
  · rw [exec_deadTimeEnd, State.command_quiet _ hr]
    unfold State.deadEnd
    dsimp only
    rw [hx, hd, Bool.and_false]
    exact congrArg _ (if_neg (by decide))
  · have hend : s.quiet.deadEnd t l w = s.quiet.updLeg t l fun x => (x.setSw w { x.sw w with dead := false }).retry := by
      unfold State.deadEnd
      dsimp only
      rw [hleg, hx, hd]
      refine (if_pos rfl).trans (State.legSettle_otherMode ?_)
      rw [State.leg_updLeg_self, hx, Leg.retry_mode, Leg.setSw_mode]
      exact hm
    refine exists_next (exec_deadTimeEnd ..) hr ?_
    rw [hend, State.leg_updLeg_self, hx]
    obtain ⟨h1, h2, h3⟩ := Leg.retry_behind hcmd hwait hhs hz ho hb
    refine ⟨h1, h2, h3, fun m j hne => ?_⟩
    rw [State.leg_updLeg]
    exact if_neg fun he => hne (Prod.ext he.1 he.2)

end Sys2Proof.Machine
end


section
/-! SUPPORT. The energizing of an axis, and the commands that end dwells and release starts (O44). -/

namespace Sys2Proof.Machine

/-! ### An axis is energized (R308) -/

/-- What an update brings about in every leg holds of each leg of a list that it went through. -/
theorem State.foldl_updLeg_all {P : Leg → Prop} {f : Leg → Leg} (hf : ∀ x, P (f x)) (t l : Nat) (ls : List Nat) (s : State)
    (h : P (s.leg t l) ∨ l ∈ ls) : P ((ls.foldl (fun v j => v.updLeg t j f) s).leg t l) := by
  induction ls generalizing s with
  | nil => exact h.resolve_right List.not_mem_nil
  | cons j ls ih =>
    refine ih _ ?_
    rw [State.leg_updLeg]
    split
    · exact .inl (hf _)
    · next hj =>
      rcases h with h | h
      · exact .inl h
      · exact .inr ((List.mem_cons.1 h).resolve_left fun he => hj ⟨rfl, he⟩)

@[simp] theorem Leg.cmdOn_hiz (x : Leg) (w : Switch) : (x.cmdOn w).hiz = x.hiz := Leg.hiz_of_bare (Leg.cmdOn_bare ..)

theorem Leg.leaveHiz_hiz (x : Leg) : x.leaveHiz.hiz = false := by
  unfold Leg.leaveHiz
  dsimp only
  split <;> simp

/-- An axis that drives, that no longer counts as taken to Hi-Z, with its legs out of Hi-Z and its position uncertain or not. -/
def State.Energized (t : State) (a : Nat) (unc : Bool) : Prop :=
  (t.axis a).driven = true ∧ (t.axis a).powerDue = false ∧ (t.axis a).hizzed = false ∧
  (∀ l ∈ axisLegs a, (t.leg (axisTile a) l).hiz = false) ∧ (t.axis a).m.posUnc = unc

theorem State.energize_energized (s : State) (a : Nat) : (s.energize a).Energized a ((s.axis a).m.posUnc || (s.axis a).hizzed) := by
  have haxis := State.foldl_updLeg_axis (axisTile a) Leg.leaveHiz (axisLegs a) s a
  unfold State.energize State.Energized
  dsimp only
  rw [State.axis_updAxis_self, haxis]
  exact ⟨rfl, rfl, rfl, fun l hl => State.foldl_updLeg_all (P := fun x => x.hiz = false) Leg.leaveHiz_hiz _ _ _ _ (.inr hl), rfl⟩

theorem State.deliver_energized {s : State} {a : Nat} {unc : Bool} (h : s.Energized a unc) : (s.deliver a).Energized a unc := by
  obtain ⟨h1, h2, h3, h4, h5⟩ := h
  unfold State.deliver State.Energized
  dsimp only
  rw [State.axis_setAxis_self]
  exact ⟨h1, h2, h3, h4, h5⟩

theorem State.likens.energized {s t : State} (hl : s.likens t) {a : Nat} {unc : Bool} (h : s.Energized a unc) : t.Energized a unc := by
  obtain ⟨h1, h2, h3, h4, h5⟩ := h
  have ha := hl.axis a
  exact ⟨(Axis.driven_of_bare ha).trans h1, (Axis.powerDue_of_bare ha).trans h2, (Axis.hizzed_of_bare ha).trans h3,
    fun l hl' => (Leg.hiz_of_bare (hl.leg _ _)).trans (h4 l hl'), (congrArg Motion.posUnc (Axis.m_of_bare ha)).trans h5⟩

/-- What the energizing brings, the set-points and the chopper cycle keep. -/
theorem State.power_energized {s : State} {a : Nat} (h : s.mayEnergize a = true) :
    (s.power a).Energized a ((s.axis a).m.posUnc || (s.axis a).hizzed) := by
  have hp : s.power a = ((s.energize a).deliver a).beginCoils a := if_pos h
  rw [hp]
  exact (State.likens_beginCoils _ a).energized (State.deliver_energized (s.energize_energized a))

/-! ### Dwells and starts -/

/-- A reversal dwell whose end something holds back. -/
theorem State.revEnd_held {s : State} {k : UnitKind} {n : Nat}
    (h : (∃ p, (s.motion k n).stopping = some p ∧ p.begun = true) ∨ (k = .course ∧ s.binding n = true) ∨ (s.motion k n).dwell = none) :
    s.revEnd k n = s := by
  unfold State.revEnd
  dsimp only
  refine if_neg ?_
  rcases h with ⟨p, hp, hb⟩ | ⟨rfl, hb⟩ | h
  · simp [hp, hb]
  · simp [hb]
  · simp [h]

/-- A reversal dwell that ends. -/
theorem State.revEnd_free {s : State} {k : UnitKind} {n : Nat} (hd : (s.motion k n).dwell = some 0) (hen : (s.motion k n).en = true)
    (hf : s.spr.freeze = false) (hb : k = .course → s.binding n = false) (hs : ∀ p, (s.motion k n).stopping = some p → p.begun = false) :
    s.revEnd k n =
      if (s.motion k n).act.isSome then (s.updMotion k n fun m => { m with dwell := none }).go k n
      else s.updMotion k n fun m => { m with dwell := none } := by
  have hstop : (s.motion k n).stopping.elim false Stopping.begun = false := by
    cases hp : (s.motion k n).stopping with
    | none => rfl
    | some p => exact hs p hp
  unfold State.revEnd
  dsimp only
  refine if_pos ?_
  cases k with
  | axis => simp [hd, hen, hf, hstop]
  | course => simp [hd, hen, hf, hstop, hb rfl]

theorem State.powerAtBoundary_idle {s : State} {a : Nat} (h : (s.axis a).powerDue = false) : s.powerAtBoundary a = s :=
  if_neg (by rw [h]; decide)

/-- The release of a unit's start where no axis is to be energized first. -/
theorem State.releaseUnit_eq {s : State} {k : UnitKind} {n : Nat} (h : k = .axis → (s.axis n).powerDue = false) :
    s.releaseUnit k n = s.beginDue (.unit k n) := by
  cases k with
  | axis =>
    unfold State.releaseUnit
    dsimp only
    rw [State.powerAtBoundary_idle (h rfl)]
  | course => rfl

/-- A start that its boundary has released. -/
theorem State.beginDue_due {s : State} {k : UnitKind} {n since : Nat} (h : (s.motion k n).start = .due since) :
    s.beginDue (.unit k n) =
      if decide (s.glb.mode = .run ∨ s.glb.mode = .diagnose) && !s.spr.freeze && s.placed k n && !(s.motion k n).disDue && !(s.motion k n).disPend
      then s.beginUnit k n since else s.updMotion k n fun m => { m with start := .ready since } := by
  unfold State.beginDue
  dsimp only
  rw [h]

theorem State.beginDue_other {s : State} {k : UnitKind} {n : Nat} (h : ∀ since, (s.motion k n).start ≠ .due since) : s.beginDue (.unit k n) = s := by
  unfold State.beginDue
  dsimp only
  split
  · next since hs => exact absurd hs (h since)
  all_goals rfl

/-- The throttle dwell of a start has run out: the start waits in its place. -/
theorem State.dwellOver_zero {s : State} {k : UnitKind} {n since : Nat} (h : (s.motion k n).start = .dwell since 0) :
    s.dwellOver k n = s.updMotion k n fun m => { m with start := .ready since } := by
  refine congrArg (s.setMotion k n) ?_
  dsimp only
  rw [h]
  rfl

/-- Settles O44: the guards of each command, and what it does where they let it. -/
theorem dwellsAndStartsEnd : Obligations.DwellsAndStartsEnd := by
  unfold Obligations.DwellsAndStartsEnd
  intro k n s hr
  have hm : s.quiet.motion k n = s.motion k n := by cases k <;> rfl
  have hpl : s.quiet.placed k n = s.placed k n := by cases k <;> rfl
  refine ⟨?_, fun p hp hb => ?_, fun hk hb => ?_, fun hd => ?_, fun since hs => ?_,
    fun since hs hpow => ⟨fun hmode hf hp hdd hdp => ?_, fun h => ?_⟩, fun hs hpow => ?_, fun a hp hmay => ?_, fun a hp => ?_,
    fun a hw => ?_, fun a hw => ?_⟩
  · intro hd hen hf hb hs u
    have hfree := State.revEnd_free (s := s.quiet) (by rw [hm]; exact hd) (by rw [hm]; exact hen) hf hb (by rw [hm]; exact hs)
    rw [hm] at hfree
    rw [exec_revDwellEnd, State.command_quiet _ hr, hfree]
    exact ⟨fun ha => congrArg _ (if_pos ha), fun ha => congrArg _ (if_neg (by rw [ha]; decide))⟩
  · rw [exec_revDwellEnd, State.command_quiet _ hr, State.revEnd_held (s := s.quiet) (.inl ⟨p, by rw [hm]; exact hp, hb⟩)]
  · rw [exec_revDwellEnd, State.command_quiet _ hr, State.revEnd_held (s := s.quiet) (.inr (.inl ⟨hk, hb⟩))]
  · rw [exec_revDwellEnd, State.command_quiet _ hr, State.revEnd_held (s := s.quiet) (.inr (.inr (by rw [hm]; exact hd)))]
  · rw [exec_throttleDwellEnd, State.command_quiet _ hr, State.dwellOver_zero (s := s.quiet) (by rw [hm]; exact hs)]
  · rw [exec_startRelease, State.command_quiet _ hr, State.releaseUnit_eq (s := s.quiet) hpow, State.beginDue_due (s := s.quiet) (by rw [hm]; exact hs)]
    refine congrArg _ (if_pos ?_)
    rw [hm, hpl, hp, hdd, hdp]
    simp [hmode, hf]
  · rw [exec_startRelease, State.command_quiet _ hr, State.releaseUnit_eq (s := s.quiet) hpow, State.beginDue_due (s := s.quiet) (by rw [hm]; exact hs)]
    refine congrArg _ (if_neg ?_)
    rw [hm, hpl]
    rcases h with ⟨h1, h2⟩ | h | h | h | h
    · simp [h1, h2]
    · simp [h]
    · simp [h]
    · simp [h]
    · simp [h]
  · rw [exec_startRelease, State.command_quiet _ hr, State.releaseUnit_eq (s := s.quiet) hpow, State.beginDue_other (s := s.quiet) (by rw [hm]; exact hs)]
  · have hb : s.quiet.powerAtBoundary a = s.quiet.power a := if_pos hp
    refine exists_next (exec_axisEnergize ..) hr ?_
    rw [hb]
    exact State.power_energized (s := s.quiet) hmay
  · rw [exec_axisEnergize, State.command_quiet _ hr, State.powerAtBoundary_idle (s := s.quiet) hp]
  · rw [exec_displacementWatchStart, State.command_quiet _ hr]
    exact congrArg _ (if_pos hw)
  · rw [exec_displacementWatchStart, State.command_quiet _ hr]
    exact congrArg _ (if_neg (by rw [← Bool.not_eq_true] at hw; exact hw))

end Sys2Proof.Machine
end


section
/-! SUPPORT. The off-state diagnostic of a leg, and the steps of an NV write (O46). -/

namespace Sys2Proof.Machine

/-! ### Results of a leg and of a coil (R315) -/

/-- What a class says of the reading. -/
theorem DiagLeg.classOf_iff (x : DiagLeg) (o : Bool) (v : Nat) :
    (x.classOf o v = .low ↔ v < 25) ∧ (x.classOf o v = .high ↔ 25 ≤ v ∧ x.vm < v + 50) ∧
    (x.classOf o v = .open_ ↔ o = true ∧ 25 ≤ v ∧ v + 50 ≤ x.vm ∧ x.vg ≤ 4 * v + 400 ∧ 4 * v + 100 ≤ x.vg) := by
  unfold DiagLeg.classOf
  split
  · simp only [true_iff, reduceCtorEq, false_iff]
    omega
  · split
    · simp only [reduceCtorEq, false_iff, true_iff]
      omega
    · split
      · next h =>
        simp only [Bool.and_eq_true, decide_eq_true_eq] at h
        obtain ⟨⟨ho, h1⟩, h2⟩ := h
        simp only [reduceCtorEq, false_iff, true_iff]
        exact ⟨by omega, by omega, ho, by omega, by omega, h1, h2⟩
      · next h =>
        simp only [Bool.and_eq_true, decide_eq_true_eq] at h
        simp only [reduceCtorEq, false_iff]
        exact ⟨by omega, by omega, fun hc => h ⟨⟨hc.1, hc.2.2.2.1⟩, hc.2.2.2.2⟩⟩

/-- The table answers LEAK for every pair of classes but its three. -/
theorem diagResult_leak {mode : Nat} {a b : ReadClass} (hm : mode ≠ 4) (h1 : ¬ (a = .low ∧ b = .open_)) (h2 : ¬ (a = .high ∧ b = .high))
    (h3 : ¬ (a = .low ∧ b = .low)) : diagResult mode a b = 4 := by
  unfold diagResult
  rw [if_neg hm]
  split
  · exact absurd ⟨rfl, rfl⟩ h1
  · exact absurd ⟨rfl, rfl⟩ h2
  · exact absurd ⟨rfl, rfl⟩ h3
  · rfl

theorem DiagLeg.result_tested {x : DiagLeg} (h : x.skip = none) (mode : Nat) :
    x.result mode = diagResult mode (x.classOf false x.v1) (x.classOf true x.v2) := by
  unfold DiagLeg.result
  rw [h]

theorem diagResult_measured (a b : ReadClass) : diagResult 4 a b = 5 := if_pos rfl

theorem diagResult_of_ne {mode : Nat} (hm : mode ≠ 4) :
    diagResult mode .low .open_ = (if mode = 2 ∨ mode = 3 then 1 else 0) ∧ diagResult mode .high .high = (if mode = 2 then 0 else 2) ∧
    diagResult mode .low .low = (if mode = 3 then 0 else 3) := by
  refine ⟨?_, ?_, ?_⟩ <;> exact if_neg hm

/-- The result of a coil by the class of its first reading. -/
theorem DiagLeg.coilResult_eq (x : DiagLeg) (vf vs : Nat) :
    x.coilResult vf vs =
      if 25 ≤ vf ∧ vf + 50 ≤ x.vm ∧ x.vg ≤ 4 * vf + 400 ∧ 4 * vf + 100 ≤ x.vg then 1
      else if 25 ≤ vf ∧ x.vm < vf + 50 then 4 else if vf < vs + 25 then 0 else 4 := by
  obtain ⟨-, hhigh, hopen⟩ := x.classOf_iff true vf
  unfold DiagLeg.coilResult
  cases hc : x.classOf true vf with
  | open_ => rw [if_pos (hopen.1 hc).2]; rfl
  | high =>
    obtain ⟨h1, h2⟩ := hhigh.1 hc
    exact ((if_neg fun h => absurd h.2.1 (by omega)).trans (if_pos ⟨h1, h2⟩)).symm
  | low =>
    rw [hc] at hhigh hopen
    exact ((if_neg fun h => absurd (hopen.2 ⟨rfl, h⟩) (by decide)).trans (if_neg fun h => absurd (hhigh.2 h) (by decide))).symm
  | mid =>
    rw [hc] at hhigh hopen
    exact ((if_neg fun h => absurd (hopen.2 ⟨rfl, h⟩) (by decide)).trans (if_neg fun h => absurd (hhigh.2 h) (by decide))).symm

/-! ### The phases of a leg (R314, R316) -/

/-- A reading that a phase delivers: of a leg that is not tested a free one, which the stream of free readings yields. -/
def State.diagRead (s : State) (x : DiagLeg) (v : BitVec 12) : Nat :=
  if x.skip.isSome then (Config.openDetail s.fresh).toNat % 4096 else v.toNat

theorem State.diagRead_lt (s : State) (x : DiagLeg) (v : BitVec 12) : s.diagRead x v < 4096 := by
  unfold State.diagRead
  split
  · omega
  · exact v.isLt

theorem State.diagRead_tested {s : State} {x : DiagLeg} (h : x.skip = none) (v : BitVec 12) : s.diagRead x v = v.toNat :=
  if_neg (by rw [h]; decide)

/-- What is left of the stream of free readings after a phase of a leg. -/
def State.diagFresh (s : State) (x : DiagLeg) : Nat := if x.skip.isSome then s.fresh + 1 else s.fresh

theorem State.diagFresh_tested {s : State} {x : DiagLeg} (h : x.skip = none) : s.diagFresh x = s.fresh := if_neg (by rw [h]; decide)

/-- The test of a tile as a phase of its leg leaves it. -/
def State.diagMade (s : State) (t : Nat) (d : DiagTile) (x : DiagLeg) (first second : BitVec 12) : DiagTile :=
  match d.phase with
  | 0 => { d with phase := 1, cur := some { x with v1 := s.diagRead x first } }
  | 1 =>
    let y := { x with v2 := s.diagRead x first }
    if s.diagPaired t d.mask x.leg && decide (x.leg % 2 = 0) then s.diagNext t { d with first := some y }
    else if x.leg % 2 = 1 ∧ d.first.isSome then { d with phase := 2, cur := some y }
    else s.diagNext t { d with entries := d.entries ++ [s.diagEntry t y (y.result (s.leg t y.leg).mode) 0 0] }
  | _ =>
    match d.first with
    | some a => s.diagNext t (s.diagCoil t d a x first.toNat second.toNat)
    | none => s.diagNext t d

section
variable {s : State} {t : Nat} {d : DiagTile} {x : DiagLeg} {v1 v2 : BitVec 12}

theorem State.diagMade_first (hp : d.phase = 0) :
    s.diagMade t d x v1 v2 = { d with phase := 1, cur := some { x with v1 := s.diagRead x v1 } } := by
  obtain ⟨mask, legs, phase, cur, begun, entries⟩ := d
  cases hp
  rfl

/-- The pair of a leg in the mask of an enabled axis. -/
theorem State.diagPaired_iff (mask l : Nat) : s.diagPaired t mask l = true ↔ mask / 2 ^ (l / 2 * 2) % 4 = 3 ∧ (s.axis (legAxis t l)).m.en = true := by
  simp [State.diagPaired]

theorem State.diagMade_second (hp : d.phase = 1) : s.diagMade t d x v1 v2 =
    if s.diagPaired t d.mask x.leg && decide (x.leg % 2 = 0) then s.diagNext t { d with first := some { x with v2 := s.diagRead x v1 } }
    else if x.leg % 2 = 1 ∧ d.first.isSome then { d with phase := 2, cur := some { x with v2 := s.diagRead x v1 } }
    else s.diagNext t { d with
      entries := d.entries ++ [s.diagEntry t { x with v2 := s.diagRead x v1 } (({ x with v2 := s.diagRead x v1 } : DiagLeg).result (s.leg t x.leg).mode) 0 0] } := by
  obtain ⟨mask, legs, phase, cur, begun, entries⟩ := d
  cases hp
  rfl

theorem State.diagMade_last {a : DiagLeg} (hp : d.phase = 2) (hf : d.first = some a) :
    s.diagMade t d x v1 v2 = s.diagNext t (s.diagCoil t d a x v1.toNat v2.toNat) := by
  obtain ⟨mask, legs, phase, cur, begun, entries⟩ := d
  cases hp
  cases hf
  rfl

end

/-- A phase of a leg changes the test of its tile and the stream of free readings alone. -/
theorem State.diagPhase_eq {s : State} {t : Nat} {d : DiagTile} {x : DiagLeg} (hd : s.diag.lookup t = some d) (hx : d.cur = some x)
    (first second : BitVec 12) :
    s.diagPhase t first second = { s with diag := Bank.set s.diag t (s.diagMade t d x first second), fresh := s.diagFresh x } := by
  obtain ⟨mask, legs, phase, cur, begun, entries⟩ := d
  have hspend : (if x.skip.isSome then s.spend else s) = { s with fresh := s.diagFresh x } := by
    unfold State.diagFresh
    split <;> rfl
  have hput {d d' : DiagTile} (h : d = d') : ({ s with diag := Bank.set s.diag t d, fresh := s.diagFresh x } : State) =
      { s with diag := Bank.set s.diag t d', fresh := s.diagFresh x } := by rw [h]
  unfold State.diagPhase
  rw [hd]
  dsimp only at hx ⊢
  rw [hx]
  dsimp only
  rw [hspend]
  match phase, begun with
  | 0, _ => rfl
  | 1, _ =>
    rw [State.diagMade_second rfl]
    dsimp only
    by_cases h : (s.diagPaired t mask x.leg && decide (x.leg % 2 = 0)) = true
    · rw [if_pos h]
      exact if_pos h
    · rw [if_neg h]
      refine (if_neg h).trans ?_
      split <;> rfl
  | _ + 2, none => rfl
  | _ + 2, some _ => rfl

/-- DIAG_LEG_PHASE_END in Diagnose. -/
theorem exec_diagPhase {s : State} {t : Nat} {d : DiagTile} {x : DiagLeg} (hr : s.inReset = false) (hm : s.glb.mode = .diagnose)
    (hd : s.diag.lookup t = some d) (hx : d.cur = some x) (v1 v2 : BitVec 12) :
    exec (.diagLegPhaseEnd t v1 v2) s = .next { s.quiet with diag := Bank.set s.diag t (s.diagMade t d x v1 v2), fresh := s.diagFresh x } := by
  rw [exec_diagLegPhaseEnd, State.command_quiet _ hr]
  exact congrArg _ ((if_pos hm).trans (State.diagPhase_eq (s := s.quiet) hd hx v1 v2))

/-- The coil entries of two legs: the coil's own result where both were tested and the leg was OK. -/
theorem State.diagCoil_spec (s : State) (t : Nat) (d : DiagTile) (a b : DiagLeg) (v1 v2 : Nat) :
    ∃ ra rb vf vs, s.diagCoil t d a b v1 v2 = { d with first := none, entries := d.entries ++ [s.diagEntry t a ra vs vf, s.diagEntry t b rb vs vf] } ∧
      (a.skip = none → b.skip = none → vf = v1 ∧ vs = v2 ∧
        ra = (if a.result (s.leg t a.leg).mode = diagOk then a.coilResult vf vs else a.result (s.leg t a.leg).mode) ∧
        rb = (if b.result (s.leg t b.leg).mode = diagOk then a.coilResult vf vs else b.result (s.leg t b.leg).mode)) ∧
      (a.skip.isSome = true ∨ b.skip.isSome = true → vf = 0 ∧ vs = 0 ∧ ra = a.result (s.leg t a.leg).mode ∧ rb = b.result (s.leg t b.leg).mode) := by
  refine ⟨_, _, _, _, rfl, fun ha hb => ?_, fun h => ?_⟩
  · simp [ha, hb]
  · have hran : (a.skip.isNone && b.skip.isNone) = false := by
      rcases h with h | h
      · simp [Option.isNone_eq_false_iff.2 h]
      · simp [Option.isNone_eq_false_iff.2 h]
    simp [hran]

/-- What begins with the next leg of a tile. -/
theorem State.diagSkip_spec (s : State) (t l : Nat) :
    let out := (s.tile t).vmUv = true ∨ (s.tile t).vmOv = true ∨ (s.tile t).vgUv = true ∨ (s.tile t).vgOv = true ∨
      4 * (s.tile t).vmCode < (s.tile t).vgCode + 600
    (out → s.diagSkip t l = some 6) ∧ (¬ out → (s.leg t l).latch = true → s.diagSkip t l = some 7) ∧
    (¬ out → (s.leg t l).latch = false → s.diagSkip t l = none) := by
  intro out
  have hout : ((s.tile t).vmUv || (s.tile t).vmOv || (s.tile t).vgUv || (s.tile t).vgOv ||
      decide (4 * (s.tile t).vmCode < (s.tile t).vgCode + 600)) = true ↔ out := by
    simp only [Bool.or_eq_true, decide_eq_true_eq, or_assoc, out]
  unfold State.diagSkip
  dsimp only
  refine ⟨fun h => if_pos (hout.2 h), fun h hl => (if_neg (mt hout.1 h)).trans (if_pos hl), fun h hl => (if_neg (mt hout.1 h)).trans (if_neg ?_)⟩
  rw [hl]
  decide

/-! ### The steps of an NV write (R456, R429, R354, R355) -/

theorem State.cfg_of_aside {s t : State} (h : s.aside = t.aside) : s.cfg = t.cfg := congrArg (fun x => x.2.2.2.2.2.1) h

@[simp] theorem State.updLong_aside (s : State) (g : Tag) (f : LongOp → LongOp) : (s.updLong g f).aside = s.aside := rfl

@[simp] theorem State.endLong_aside (s : State) (g : Tag) (st : Nat) : (s.endLong g st).aside = s.aside := by
  unfold State.endLong
  split
  · rfl
  · dsimp only
    rw [State.complete_aside, State.updLong_aside]

@[simp] theorem State.nvEnd_cfg (s : State) (st : Nat) : (s.nvEnd st).cfg = s.cfg := by
  unfold State.nvEnd
  split
  · exact State.cfg_of_aside (State.endLong_aside ..)
  · rfl

theorem State.nvAbort_cfg {s : State} {w : NvWrite} (h : s.cfg.nvWrite = some w) : s.nvAbort.cfg = s.cfg.abandon := by
  unfold State.nvAbort
  rw [h]
  exact State.nvEnd_cfg ..

/-- A write that is given up leaves its slot invalid, and the other as it is. -/
theorem CfgB.abandon_spec {c : CfgB} {w : NvWrite} (h : c.nvWrite = some w) :
    (c.abandon.slot w.slotB).image = [] ∧ c.abandon.nvWrite = none ∧ c.abandon.slot (!w.slotB) = c.slot (!w.slotB) := by
  have he : c.abandon = { c.setSlot w.slotB { c.slot w.slotB with image := [] } with nvWrite := none } := by
    unfold CfgB.abandon
    rw [h]
  obtain ⟨b, done, image⟩ := w
  rw [he]
  cases b <;> exact ⟨rfl, rfl, rfl⟩

/-- What has been done does not matter to a write that is given up. -/
theorem CfgB.abandon_counted {c : CfgB} {w : NvWrite} (h : c.nvWrite = some w) (n : Nat) :
    ({ c with nvWrite := some { w with done := n } } : CfgB).abandon = c.abandon := by
  obtain ⟨b, done, image⟩ := w
  unfold CfgB.abandon
  rw [h]
  cases b <;> rfl

/-- An image that stands in its slot, the write over. -/
theorem CfgB.stored_spec (c : CfgB) (w : NvWrite) (v : Option NvWrite) :
    let t : CfgB := { ({ c with nvWrite := v } : CfgB).setSlot w.slotB { ({ c with nvWrite := v } : CfgB).slot w.slotB with image := w.image } with
      nvWrite := none }
    (t.slot w.slotB).image = w.image ∧ t.nvWrite = none ∧ t.slot (!w.slotB) = c.slot (!w.slotB) := by
  obtain ⟨b, done, image⟩ := w
  cases b <;> exact ⟨rfl, rfl, rfl⟩

/-- A write of a page at least erases, programs and verifies. -/
theorem NvWrite.steps_pages {w : NvWrite} (h : 0 < w.image.length) : 3 ≤ w.steps := by
  unfold NvWrite.steps ceilDiv
  omega

theorem State.nvBlock_quiet (s : State) : s.quiet.nvBlock = s.nvBlock := rfl

/-- A step of an NV write is counted, and its operation shows the progress. -/
def State.nvCounted (s : State) (w : NvWrite) (n : Nat) (c : CfgB) : State :=
  let u := { s with cfg := { c with nvWrite := some { w with done := n } } }
  match u.longOf 0x43 0 with
  | some y => u.updLong y.tag fun z => z.advance (65535 * n / w.steps)
  | none => u

theorem State.nvCounted_cfg (s : State) (w : NvWrite) (n : Nat) (c : CfgB) :
    (s.nvCounted w n c).cfg = { c with nvWrite := some { w with done := n } } := by
  unfold State.nvCounted
  dsimp only
  split <;> rfl

theorem State.nvCounted_nvBlock (s : State) (w : NvWrite) (n : Nat) (c : CfgB) : (s.nvCounted w n c).nvBlock = s.nvBlock := by
  unfold State.nvCounted
  dsimp only
  split <;> rfl

theorem State.nvCounted_host {s : State} {w : NvWrite} {n : Nat} {c : CfgB} {y : LongOp} (h : s.longOf 0x43 0 = some y) :
    (s.nvCounted w n c).host = (s.updLong y.tag fun z => z.advance (65535 * n / w.steps)).host := by
  unfold State.nvCounted
  have hl : State.longOf { s with cfg := { c with nvWrite := some { w with done := n } } } 0x43 0 = some y := h
  dsimp only
  rw [hl]
  rfl

/-- The erase of the slot. -/
def CfgB.erased (c : CfgB) (w : NvWrite) : CfgB := c.setSlot w.slotB { image := [], erases := satAdd 65535 (c.slot w.slotB).erases 1 }

/-- The image stands in its slot, and the operation ends. -/
def State.nvGood (s : State) (w : NvWrite) : State :=
  let u := { s with cfg := { s.cfg.setSlot w.slotB { s.cfg.slot w.slotB with image := w.image } with nvWrite := none } }
  match u.longOf 0x43 0 with
  | some y => (u.updLong y.tag fun z => { z.append w.entry with summary := wd (b2n w.slotB) }).endLong y.tag Status.ok
  | none => u

theorem State.nvGood_cfg (s : State) (w : NvWrite) :
    (s.nvGood w).cfg = { s.cfg.setSlot w.slotB { s.cfg.slot w.slotB with image := w.image } with nvWrite := none } := by
  unfold State.nvGood
  dsimp only
  split
  · exact State.cfg_of_aside (State.endLong_aside ..)
  · rfl

section
variable {s : State} {w : NvWrite} {ok : Bool}

theorem State.nvStep_idle (h : s.cfg.nvWrite = none) : s.nvStep ok = s := by
  unfold State.nvStep
  rw [h]

theorem State.nvStep_shut (h : s.cfg.nvWrite = some w) (hs : s.thm.shut = true) : s.nvStep ok = s.nvAbort := by
  unfold State.nvStep
  rw [h]
  exact if_pos hs

/-- A step that is not the last. -/
theorem State.nvStep_page (h : s.cfg.nvWrite = some w) (hs : s.thm.shut = false) (hn : w.done + 1 < w.steps) {c : CfgB}
    (hc : c = if w.done + 1 = 1 then s.cfg.erased w else s.cfg) :
    s.nvStep ok = if decide (w.done + 1 + 1 < w.steps) && s.nvBlock then (s.nvCounted w (w.done + 1) c).nvAbort else s.nvCounted w (w.done + 1) c := by
  have hb := s.nvCounted_nvBlock w (w.done + 1) c
  subst hc
  rw [← hb]
  unfold State.nvStep
  rw [h]
  exact (if_neg (by rw [hs]; decide)).trans (if_pos hn)

/-- The verification that passes, and the one that fails. -/
theorem State.nvStep_last (h : s.cfg.nvWrite = some w) (hs : s.thm.shut = false) (h0 : 0 < w.done) (hn : w.done + 1 = w.steps) :
    (s.nvStep true).cfg = { (s.nvCounted w (w.done + 1) s.cfg).cfg.setSlot w.slotB
      { (s.nvCounted w (w.done + 1) s.cfg).cfg.slot w.slotB with image := w.image } with nvWrite := none } ∧
    (s.nvStep false).cfg = (s.nvCounted w (w.done + 1) s.cfg).cfg.abandon := by
  have hc : (if w.done + 1 = 1 then s.cfg.setSlot w.slotB { image := [], erases := satAdd 65535 (s.cfg.slot w.slotB).erases 1 } else s.cfg) = s.cfg :=
    if_neg (by omega)
  have hlast : ¬ w.done + 1 < w.steps := by omega
  have hshut : ¬ s.thm.shut = true := by rw [hs]; decide
  unfold State.nvStep
  rw [h]
  dsimp only
  rw [if_neg hshut, if_neg hshut, hc]
  refine ⟨(congrArg State.cfg ((if_neg hlast).trans (if_pos rfl))).trans ?_, (congrArg State.cfg ((if_neg hlast).trans (if_neg (by decide)))).trans ?_⟩
  · show (State.nvGood _ w).cfg = _
    exact State.nvGood_cfg ..
  · exact State.nvEnd_cfg ..

end

/-- Settles O46: the phase of the leg or the step of the write is read off the state, and each does its own part. -/
theorem diagAndNvStepsFollowInOrder : Obligations.DiagAndNvStepsFollowInOrder := by
  unfold Obligations.DiagAndNvStepsFollowInOrder
  refine ⟨fun s t d x v1 v2 hr hm hd hx => ⟨fun hp => ⟨fun hs => ?_, fun hs => ?_⟩, fun hp => ?_, fun a hp hf => ?_⟩,
    fun s t v1 v2 hr hm => ?_, fun s t l d rest hl => ?_, fun x mode => ⟨fun r hr => ?_, fun hs hm => ?_, ?_⟩, fun s hr => ?_⟩
  · rw [exec_diagPhase hr hm hd hx, State.diagMade_first hp, State.diagRead_tested hs, State.diagFresh_tested hs]
    rfl
  · exact ⟨_, s.diagRead x v1, exec_diagPhase hr hm hd hx v1 v2, s.diagRead_lt x v1, congrArg (Bank.set s.diag t) (State.diagMade_first hp), rfl⟩
  · refine ⟨_, s.diagRead x v1, exec_diagPhase hr hm hd hx v1 v2, s.diagRead_lt x v1,
      fun hs => ⟨State.diagRead_tested hs v1, State.diagFresh_tested hs⟩, rfl, ?_⟩
    intro y pair
    have hpair : s.diagPaired t d.mask x.leg = true ↔ pair := State.diagPaired_iff ..
    have hmade := State.diagMade_second (s := s) (t := t) (x := x) (v1 := v1) (v2 := v2) hp
    refine ⟨fun h he => congrArg (Bank.set s.diag t) (hmade.trans (if_pos (by simp [hpair.2 h, he]))),
      fun ho hf => congrArg (Bank.set s.diag t) (hmade.trans ((if_neg (by simp [ho])).trans (if_pos ⟨ho, hf⟩))),
      fun h => congrArg (Bank.set s.diag t) (hmade.trans ?_)⟩
    rcases h with ⟨he, hno⟩ | ⟨ho, hf⟩
    · exact (if_neg (by simp [mt hpair.1 hno])).trans (if_neg (by omega))
    · exact (if_neg (by simp [ho])).trans (if_neg (by simp [hf]))
  · obtain ⟨ra, rb, vf, vs, he, htested, huntested⟩ := s.diagCoil_spec t d a x v1.toNat v2.toNat
    refine ⟨_, ra, rb, vf, vs, exec_diagPhase hr hm hd hx v1 v2, rfl, ?_, htested, huntested⟩
    exact congrArg (Bank.set s.diag t) ((State.diagMade_last hp hf).trans (congrArg (s.diagNext t) he))
  · rw [exec_diagLegPhaseEnd, State.command_quiet _ hr]
    exact congrArg _ (if_neg hm)
  · refine ⟨{ leg := l, v1 := 0, v2 := 0, vm := (s.tile t).vmCode, vg := (s.tile t).vgCode, skip := s.diagSkip t l }, ?_, rfl, rfl, rfl,
      s.diagSkip_spec t l⟩
    unfold State.diagNext
    rw [hl]
  · unfold DiagLeg.result
    rw [hr]
  · rw [DiagLeg.result_tested hs, hm, diagResult_measured]
  · intro hs hm lo hi op_
    obtain ⟨h1, h2, h3⟩ := diagResult_of_ne hm
    obtain ⟨l1, i1, o1⟩ := x.classOf_iff false x.v1
    obtain ⟨l2, i2, o2⟩ := x.classOf_iff true x.v2
    rw [DiagLeg.result_tested hs]
    refine ⟨fun hl ho => ?_, fun ha hb => ?_, fun ha hb => ?_, fun n1 n2 n3 => ?_, fun vf vs => x.coilResult_eq vf vs⟩
    · rw [l1.2 hl, o2.2 ⟨rfl, ho⟩, h1]
    · rw [i1.2 ha, i2.2 hb, h2]
    · rw [l1.2 ha, l2.2 hb, h3]
    · exact diagResult_leak hm (fun h => n1 ⟨l1.1 h.1, (o2.1 h.2).2⟩) (fun h => n2 ⟨i1.1 h.1, i2.1 h.2⟩) (fun h => n3 ⟨l1.1 h.1, l2.1 h.2⟩)
  · refine ⟨fun ok hw => ?_, fun w ok hw hs => ?_, fun w ok hw hs h0 hi hb => ?_, fun w ok hw hs h0 hn => ?_, fun w hw hs h0 hn => ?_,
      fun w hw hs h0 hn => ?_, fun w hw => CfgB.abandon_spec hw⟩
    · rw [exec_nvStepComplete, State.command_quiet _ hr]
      exact congrArg _ (State.nvStep_idle (s := s.quiet) hw)
    · refine exists_next (exec_nvStepComplete ok s) hr ?_
      rw [State.nvStep_shut (s := s.quiet) hw hs]
      exact State.nvAbort_cfg (s := s.quiet) hw
    · have hsteps : w.done + 1 < w.steps := by
        have hlen : 0 < w.image.length := List.length_pos_iff.2 hi
        have hpages := NvWrite.steps_pages hlen
        omega
      refine exists_next (exec_nvStepComplete ok s) hr ?_
      rw [State.nvStep_page (s := s.quiet) hw hs hsteps rfl, if_neg (by rw [State.nvBlock_quiet, hb, Bool.and_false]; decide), State.nvCounted_cfg, h0]
      rfl
    · have hc : s.quiet.cfg = if w.done + 1 = 1 then s.quiet.cfg.erased w else s.quiet.cfg := (if_neg (by omega)).symm
      have hpage := State.nvStep_page (s := s.quiet) (ok := ok) hw hs hn hc
      refine exists_next (exec_nvStepComplete ok s) hr ⟨fun h => ?_, fun hb h2 => ?_⟩
      · have hno : ¬ (decide (w.done + 1 + 1 < w.steps) && s.quiet.nvBlock) = true := by
          rcases h with h | h
          · rw [State.nvBlock_quiet, h, Bool.and_false]
            decide
          · simp [← h]
        rw [hpage, if_neg hno]
        exact ⟨State.nvCounted_cfg .., fun y hy => State.nvCounted_host (s := s.quiet) hy⟩
      · have hyes : (decide (w.done + 1 + 1 < w.steps) && s.quiet.nvBlock) = true := by
          rw [State.nvBlock_quiet, hb, Bool.and_true]
          exact decide_eq_true h2
        rw [hpage, if_pos hyes, State.nvAbort_cfg (w := { w with done := w.done + 1 }) (by rw [State.nvCounted_cfg]), State.nvCounted_cfg]
        exact CfgB.abandon_counted hw _
    · refine exists_next (exec_nvStepComplete true s) hr ?_
      rw [(State.nvStep_last (s := s.quiet) hw hs h0 hn).1, State.nvCounted_cfg]
      exact CfgB.stored_spec ..
    · refine exists_next (exec_nvStepComplete false s) hr ?_
      rw [(State.nvStep_last (s := s.quiet) hw hs h0 hn).2, State.nvCounted_cfg,
        CfgB.abandon_counted (c := s.quiet.cfg) hw]
      exact CfgB.abandon_spec hw

end Sys2Proof.Machine
end


section
/-! SUPPORT. Passes of the configuration CRC, the scrub of the cores and the SRAM scrub (O42). -/

namespace Sys2Proof.Machine

/-! ### Passes of the configuration CRC (R448 to R450) -/

/-- The next boundary of a row that may come where the device stands lies less than a row on. -/
theorem State.untilNext_none_lt (s : State) {p : Nat} (hp : 0 < p) : s.untilNext p none < p := by
  unfold State.untilNext
  dsimp only
  rw [if_neg fun h => by cases h.2]
  exact Nat.mod_lt _ hp

theorem State.passEnd_none {s : State} (h : s.cfg.pass = none) : s.passEnd = s := by
  unfold State.passEnd
  rw [h]

theorem State.passBegin_none {s : State} (h : s.cfg.pass = none) :
    s.passBegin = { s.pass (s.untilNext 200000 none) with
      cfg := { s.cfg with committed := s.cfg.committed || s.cfg.commitPend, commitPend := false,
                          pass := some { compared := s.cfg.committed || s.cfg.commitPend, seen := [] } } } := by
  unfold State.passBegin
  rw [State.passEnd_none h]
  rfl

/-- The end of a pass of an unchanged set. -/
theorem State.passEnd_unchanged {s : State} {c : Bool} (h : s.cfg.pass = some { compared := c, seen := [] }) :
    s.passEnd =
      if c then State.comparePass { s with cfg := { s.cfg with run := s.cfgCrc, flags := s.cfg.flags ||| bw true 3, pass := none } } s.cfgCrc
      else { s with cfg := { s.cfg with run := s.cfgCrc, flags := s.cfg.flags ||| bw true 3, pass := none } } := by
  unfold State.passEnd
  rw [h]
  rfl

/-- The end of a pass that is not compared, of a set that was written meanwhile. -/
theorem State.passEnd_written {s : State} {p : Pass} (h : s.cfg.pass = some p) (hs : p.seen ≠ []) (hc : p.compared = false) :
    s.passEnd.cfg.run = crc32c (s.passWords p) ∧ s.passEnd.cfg.pass = none := by
  have hne : p.seen.isEmpty = false := by simpa using hs
  unfold State.passEnd State.passResult
  rw [h]
  dsimp only
  rw [hne, hc]
  exact ⟨rfl, rfl⟩

/-- Within a list the default is not taken. -/
theorem getD_of_lt {ws : List Word} {i : Nat} {w : Word} (hi : i < ws.length) : ws.getD i w = ws[i] := by
  rw [List.getD_eq_getElem?_getD, List.getElem?_eq_getElem hi, Option.getD_some]

/-- Each word of a set that was written once during the pass is one of the two that it was. -/
theorem State.passWords_once (s : State) {p : Pass} {ws : List Word} (h : p.seen = [ws]) :
    (s.passWords p).length = s.setWords.length ∧
    ∀ i, i < (s.passWords p).length → (s.passWords p).getD i 0 = s.setWords.getD i 0 ∨ (s.passWords p).getD i 0 = ws.getD i 0 := by
  have hlen : (s.passWords p).length = s.setWords.length := by simp [State.passWords]
  refine ⟨hlen, fun i hi => ?_⟩
  have hi' : i < s.setWords.length := hlen ▸ hi
  have hread : Config.passRead s.fresh i % 2 < 2 := Nat.mod_lt _ (by decide)
  have hword : (s.passWords p).getD i 0 = [s.setWords[i], ws.getD i 0].getD (Config.passRead s.fresh i % 2) s.setWords[i] := by
    rw [getD_of_lt hi]
    simp [State.passWords, h]
  rw [hword, getD_of_lt hi']
  obtain hz | ho : Config.passRead s.fresh i % 2 = 0 ∨ Config.passRead s.fresh i % 2 = 1 := by omega
  · rw [hz]
    exact .inl rfl
  · rw [ho]
    exact .inr rfl

@[simp] theorem bw_false (i : Nat) : bw false i = 0 := by simp [bw, b2n, wd]

/-- A compared pass that matches, nothing being injected. -/
theorem State.comparePass_good {s : State} {run : Word} (hi : s.flt.injCrc = false) (h : run = s.cfg.ref) :
    s.comparePass run = { s with cfg := { s.cfg with crcOk := true, crcErr := false, episode := false } } := by
  unfold State.comparePass
  simp [hi, h]

/-- A compared pass that does not match, the first of its episode. -/
theorem State.comparePass_bad {s : State} {run : Word} (hi : s.flt.injCrc = false) (h : run ≠ s.cfg.ref) (he : s.cfg.episode = false) :
    s.comparePass run =
      State.fault { s with cfg := { s.cfg with crcOk := false, crcErr := true, episode := true, flags := s.cfg.flags ||| bw true 4 } } srcCfgCrc run .none := by
  unfold State.comparePass
  simp [hi, h, he]

/-! ### The scrub of the cores (R483) -/

/-- Signatures that all agree leave nothing to report. -/
theorem State.scrubCompare_agree {s : State} {sigs : List Word} {w : Word} (h : ∀ n ∈ s.voting, sigs.getD n 0 = w) : s.scrubCompare sigs = s := by
  have hall : ∀ p ∈ s.voting.map (fun n => (n, sigs.getD n 0)), p.2 = w := by
    intro p hp
    obtain ⟨n, hn, rfl⟩ := List.mem_map.1 hp
    exact h n hn
  unfold State.scrubCompare
  dsimp only
  split
  · next hnone =>
    split
    · rfl
    · next hlen =>
      cases hv : s.voting.map (fun n => (n, sigs.getD n 0)) with
      | nil => exact absurd (by rw [hv]; decide) hlen
      | cons p v =>
        rw [hv] at hnone hall
        have hsame : (p :: v).filter (fun q => decide (q.2 = p.2)) = p :: v :=
          List.filter_eq_self.2 fun q hq => decide_eq_true ((hall q hq).trans (hall p List.mem_cons_self).symm)
        have hno := List.find?_eq_none.1 hnone p List.mem_cons_self
        rw [hsame] at hno
        exact absurd (decide_eq_true (by rw [List.length_cons]; omega)) hno
  · next m hm =>
    split
    · rfl
    · next p hp =>
      have hne := List.find?_some hp
      rw [hall p (List.mem_of_find?_eq_some hp), hall m (List.mem_of_find?_eq_some hm)] at hne
      exact absurd hne (by simp)

/-! ### The SRAM scrub (R485, R486) -/

/-- What the scrubber leaves of a row as it reaches a word: the marks of the words that it has passed are gone. -/
theorem State.scrubTo_row (s : State) (w r : Nat) :
    (s.scrubTo w).row r = { s.row r with
      words := (s.row r).words.filter fun y => !decide ((y + 131072 * s.variant.mibs - s.spr.scrubAt) % (131072 * s.variant.mibs) <
        (w + 131072 * s.variant.mibs - s.spr.scrubAt) % (131072 * s.variant.mibs)) } :=
  Bank.get_map_fixed SramRow.reset s.spr.rows (fun x => { x with
    words := x.words.filter fun y => !decide ((y + 131072 * s.variant.mibs - s.spr.scrubAt) % (131072 * s.variant.mibs) <
      (w + 131072 * s.variant.mibs - s.spr.scrubAt) % (131072 * s.variant.mibs)) }) r rfl

/-- In ascending order: a word whose turn is past reads good. -/
theorem scrub_passed {n a w y : Nat} (ha : a ≤ w) (hw : w < n) (hy : y < n) : (y + n - a) % n < (w + n - a) % n ↔ a ≤ y ∧ y < w := by
  have hw' : (w + n - a) % n = w - a := by
    rw [show w + n - a = w - a + n by omega, Nat.add_mod_right, Nat.mod_eq_of_lt (by omega)]
  rw [hw']
  obtain h | h : a ≤ y ∨ y < a := by omega
  · rw [show y + n - a = y - a + n by omega, Nat.add_mod_right, Nat.mod_eq_of_lt (by omega)]
    omega
  · rw [Nat.mod_eq_of_lt (by omega)]
    omega

theorem State.sramRead_good {s : State} {w : Nat} (h : w / 256 / 512 < s.variant.mibs) :
    s.sramRead w .good = (s.scrubTo w).setRow (w / 256)
      { (s.scrubTo w).row (w / 256) with words := ((s.scrubTo w).row (w / 256)).words.filter fun y => decide (y ≠ w) } :=
  if_neg (Nat.not_le.2 h)

/-- A word that is corrected for the first time, in a row with fewer than eight findings. -/
theorem State.sramRead_corrected {s : State} {w : Nat} (h : w / 256 / 512 < s.variant.mibs) {x : SramRow} (hx : x = (s.scrubTo w).row (w / 256))
    (hw : w ∉ x.words) (he : x.errs < 7) :
    s.sramRead w .corrected =
      (((((s.scrubTo w).setRow (w / 256) { x with errs := x.errs + 1, words := x.words ++ [w] }).sprFlag 1).wear (8 + w / 256 / 512)).fault
        (srcSramCe + w / 256 / 512) (wd (8 * w)) .none) := by
  subst hx
  refine (if_neg (Nat.not_le.2 h)).trans ((if_neg ?_).trans ?_)
  · simp only [hw, decide_false, Bool.false_eq_true, false_or]
    omega
  · simp only [hw, decide_false, Bool.false_eq_true, if_false]
    rfl

/-- Settles O42: each check at its own command. -/
theorem checksRunOnTheirPasses : Obligations.ChecksRunOnTheirPasses := by
  unfold Obligations.ChecksRunOnTheirPasses
  intro s hr
  refine ⟨fun hp => ?_, fun hp => ?_, fun hp => ?_, fun hp hi hm => ?_, fun hp hi hm he => ?_, fun sigs w h => ?_, fun p ws hp hs hc => ?_,
    ?_, fun r hc => ?_, fun r hc => ?_⟩
  · have hlt := s.quiet.untilNext_none_lt (p := 200000) (by decide)
    have hphase := (s.quiet.untilNext_spec (p := 200000) (by decide) none).2
    refine exists_next (exec_crcPassStart s) hr ?_
    rw [State.passBegin_none (s := s.quiet) hp]
    exact ⟨Nat.le_add_right .., Nat.add_lt_add_left hlt _, hphase, rfl⟩
  · rw [exec_crcPassEnd, State.command_quiet _ hr, State.passEnd_none (s := s.quiet) hp]
  · rw [exec_crcPassEnd, State.command_quiet _ hr, State.passEnd_unchanged (s := s.quiet) hp]
    rfl
  · rw [exec_crcPassEnd, State.command_quiet _ hr, State.passEnd_unchanged (s := s.quiet) hp, if_pos rfl]
    exact congrArg _ (State.comparePass_good hi hm)
  · rw [exec_crcPassEnd, State.command_quiet _ hr, State.passEnd_unchanged (s := s.quiet) hp, if_pos rfl]
    exact congrArg _ (State.comparePass_bad hi hm he)
  · rw [exec_coreScrub, State.command_quiet _ hr]
    refine congrArg _ (ite_eq_left_iff.2 fun _ => State.scrubCompare_agree (w := w) h)
  · obtain ⟨hrun, hnone⟩ := State.passEnd_written (s := s.quiet) hp (by simp [hs]) hc
    obtain ⟨hlen, hword⟩ := s.quiet.passWords_once hs
    exact ⟨_, s.quiet.passWords p, by rw [exec_crcPassEnd, State.command_quiet _ hr], hrun, hnone, hlen, hword⟩
  · intro w hw u x
    have hx : x = { s.row (w / 256) with
        words := (s.row (w / 256)).words.filter fun y => !decide ((y + 131072 * s.variant.mibs - s.spr.scrubAt) % (131072 * s.variant.mibs) <
          (w + 131072 * s.variant.mibs - s.spr.scrubAt) % (131072 * s.variant.mibs)) } := s.quiet.scrubTo_row w (w / 256)
    refine ⟨rfl, by rw [hx], fun ha y hy => ?_, ?_, fun hn he => ?_⟩
    · have hwn : w < 131072 * s.variant.mibs := by omega
      rw [hx]
      simp only [List.mem_filter, Bool.not_eq_true', decide_eq_false_iff_not, scrub_passed ha hwn hy]
      exact and_congr_right fun _ => by omega
    · rw [exec_sramScrubRead, State.command_quiet _ hr, State.sramRead_good (s := s.quiet) hw]
    · rw [exec_sramScrubRead, State.command_quiet _ hr, State.sramRead_corrected (s := s.quiet) hw rfl hn he]
  · rw [exec_rowSpareCopyComplete, State.command_quiet _ hr]
    exact congrArg _ (if_pos hc)
  · rw [exec_rowSpareCopyComplete, State.command_quiet _ hr]
    exact congrArg _ (if_neg (by rw [← Bool.not_eq_true] at hc; exact hc))

end Sys2Proof.Machine
end


section
/-! SUPPORT. The chopper cycle of one coil: what it leaves as it is, and the end of its phases (O52). -/

namespace Sys2Proof.Machine

/-! ### What the cycle of a coil leaves as it is -/

/-- Two states that differ in one axis and in tiles alone. -/
structure State.besides (a : Nat) (s t : State) : Prop where
  others : ∀ b, b ≠ a → t.axis b = s.axis b
  rest : t.offUnits = s.offUnits

theorem State.besides_refl (a : Nat) (s : State) : State.besides a s s := ⟨fun _ _ => rfl, rfl⟩

theorem State.besides.trans {a : Nat} {s t u : State} (h : State.besides a s t) (h' : State.besides a t u) : State.besides a s u :=
  ⟨fun b hb => (h'.others b hb).trans (h.others b hb), h'.rest.trans h.rest⟩

theorem State.besides_setAxis (a : Nat) (s : State) (x : Axis) : State.besides a s (s.setAxis a x) :=
  ⟨fun b hb => by rw [State.axis_setAxis, if_neg hb], rfl⟩

theorem State.besides_updCoil (a : Nat) (s : State) (c : Coil) (f : CoilSt → CoilSt) : State.besides a s (s.updCoil a c f) :=
  State.besides_setAxis a s _

theorem State.besides_updLeg (a : Nat) (s : State) (t l : Nat) (f : Leg → Leg) : State.besides a s (s.updLeg t l f) := ⟨fun _ _ => rfl, rfl⟩

theorem State.besides_updTile (a : Nat) (s : State) (t : Nat) (f : Tile → Tile) : State.besides a s (s.updTile t f) := ⟨fun _ _ => rfl, rfl⟩

/-- What a step of the cycle leaves of its coil. -/
def CoilSt.still (k : CoilSt) : CoilSt := { k with phase := .idle, onDt := 0, fastTicks := 0 }

/-- A step of the cycle of a coil: its axis alone among axes, and of its coil the phase and its times alone. -/
structure State.cycles (a : Nat) (c : Coil) (s t : State) : Prop where
  beside : State.besides a s t
  coil : ((t.axis a).coil c).still = ((s.axis a).coil c).still

theorem State.cycles_refl (a : Nat) (c : Coil) (s : State) : State.cycles a c s s := ⟨State.besides_refl a s, rfl⟩

theorem State.cycles.trans {a : Nat} {c : Coil} {s t u : State} (h : State.cycles a c s t) (h' : State.cycles a c t u) : State.cycles a c s u :=
  ⟨h.beside.trans h'.beside, h'.coil.trans h.coil⟩

@[simp] theorem State.coil_updCoil (s : State) (a : Nat) (c : Coil) (f : CoilSt → CoilSt) :
    ((s.updCoil a c f).axis a).coil c = f ((s.axis a).coil c) := by
  unfold State.updCoil
  rw [State.axis_updAxis_self]
  cases c <;> rfl

theorem State.cycles_updCoil (a : Nat) (c : Coil) (s : State) {f : CoilSt → CoilSt} (h : ∀ k, (f k).still = k.still) :
    State.cycles a c s (s.updCoil a c f) :=
  ⟨State.besides_updCoil a s c f, by rw [State.coil_updCoil, h]⟩

theorem State.cycles_updLeg (a : Nat) (c : Coil) (s : State) (t l : Nat) (f : Leg → Leg) : State.cycles a c s (s.updLeg t l f) :=
  ⟨State.besides_updLeg a s t l f, rfl⟩

theorem State.cycles_towardSlow (a : Nat) (c : Coil) (s : State) : State.cycles a c s (s.towardSlow a c) := by
  unfold State.towardSlow
  exact (State.cycles_updLeg a c s ..).trans (State.cycles_updLeg a c _ ..)

theorem State.cycles_towardOn (a : Nat) (c : Coil) (s : State) : State.cycles a c s (s.towardOn a c) := by
  unfold State.towardOn
  exact (State.cycles_updLeg a c s ..).trans (State.cycles_updLeg a c _ ..)

theorem State.cycles_coilStep (a : Nat) (c : Coil) (s : State) : State.cycles a c s (s.coilStep a c) := by
  have hset (t : State) (p : ChopPhase) : State.cycles a c t (t.updCoil a c fun k => { k with phase := p }) := State.cycles_updCoil a c t fun _ => rfl
  unfold State.coilStep
  dsimp only
  split
  case h_1 =>
    split
    · exact State.cycles_refl a c s
    · split
      · exact (State.cycles_updLeg a c s ..).trans (State.cycles_updCoil a c _ fun _ => rfl)
      · exact State.cycles_updLeg a c s ..
  case h_2 => repeat' split
              all_goals first | exact State.cycles_refl a c s | exact hset ..
  case h_3 =>
    split
    · exact (State.cycles_towardSlow a c s).trans (State.cycles_updCoil (f := fun k => { k with phase := .toSlow, fastTicks := 0 }) a c _ fun _ => rfl)
    · exact State.cycles_refl a c s
  case h_4 =>
    split
    · exact hset ..
    · exact State.cycles_refl a c s
  all_goals exact State.cycles_refl a c s

theorem State.cycles_coilSettle (a : Nat) (c : Coil) (s : State) : State.cycles a c s (s.coilSettle a c) :=
  ((State.cycles_coilStep a c s).trans (State.cycles_coilStep a c _)).trans (State.cycles_coilStep a c _)

theorem CoilSt.dither_of_still {k k' : CoilSt} (h : k.still = k'.still) : k.dither = k'.dither ∧ k.code = k'.code ∧ k.mask = k'.mask := by
  have h1 := congrArg CoilSt.dither h
  have h2 := congrArg CoilSt.code h
  have h3 := congrArg CoilSt.mask h
  exact ⟨h1, h2, h3⟩

/-! ### The turn-on (R215) -/

@[simp] theorem Axis.coil_setCoil_self (x : Axis) (c : Coil) (k : CoilSt) : (x.setCoil c k).coil c = k := by cases c <;> rfl

/-- The next turn-on takes the next dithered code and, unless it is 0, the mask of the sign delivered; the cycle goes on from there. -/
theorem State.turnOn_takes (s : State) (a : Nat) (c : Coil) :
    let k := (s.axis a).coil c
    ∃ v, State.besides a s v ∧ State.cycles a c v (s.turnOn a c) ∧ ((v.axis a).coil c).dither = (k.dither + 1) % 16 ∧
      ((v.axis a).coil c).code = ditherCode k.i12 k.dither ∧ (ditherCode k.i12 k.dither ≠ 0 → ((v.axis a).coil c).mask = k.neg) := by
  intro k
  have hset (t : State) (x : CoilSt) : ((t.setAxis a ((s.axis a).setCoil c x)).axis a).coil c = x := by
    rw [State.axis_setAxis_self, Axis.coil_setCoil_self]
  unfold State.turnOn
  dsimp only
  split
  · next h =>
    refine ⟨_, State.besides_setAxis a s _, (State.cycles_towardSlow a c _).trans (State.cycles_coilSettle a c _), ?_⟩
    rw [hset]
    exact ⟨rfl, rfl, fun hne => absurd h hne⟩
  · refine ⟨_, (State.besides_updTile a s ..).trans (State.besides_setAxis a _ _), (State.cycles_towardOn a c _).trans (State.cycles_coilSettle a c _), ?_⟩
    rw [hset]
    exact ⟨rfl, rfl, fun _ => rfl⟩

theorem State.turnOn_spec (s : State) (a : Nat) (c : Coil) :
    let k := (s.axis a).coil c
    let y := ((s.turnOn a c).axis a).coil c
    State.besides a s (s.turnOn a c) ∧ y.dither = (k.dither + 1) % 16 ∧ y.code = ditherCode k.i12 k.dither ∧
      (ditherCode k.i12 k.dither ≠ 0 → y.mask = k.neg) := by
  obtain ⟨v, hb, hc, h1, h2, h3⟩ := s.turnOn_takes a c
  obtain ⟨e1, e2, e3⟩ := CoilSt.dither_of_still hc.coil
  exact ⟨hb.trans hc.beside, e1.trans h1, e2.trans h2, fun h => e3.trans (h3 h)⟩

theorem State.besides.frame {a : Nat} {s t : State} (h : State.besides a s t) : { t with axes := s.axes, tiles := s.tiles } = s := by
  have hf : ({ t.offUnits with axes := s.axes, tiles := s.tiles } : State) = { s.offUnits with axes := s.axes, tiles := s.tiles } := by rw [h.rest]
  exact hf

/-! ### The fast portion (R212, R216) -/

/-- A leg that is driven towards a switch commands it alone. -/
theorem Leg.drive_low (x : Leg) : (x.drive .low).lo.cmd = true ∧ (x.drive .low).hi.cmd = false := by
  have hon (y : Leg) : (y.cmdOn .low).lo.cmd = true ∧ (y.cmdOn .low).hi.cmd = y.hi.cmd := by
    unfold Leg.cmdOn
    split <;> exact ⟨rfl, rfl⟩
  unfold Leg.drive
  dsimp only
  by_cases hhi : x.hi.cmd = true
  · rw [show (if (x.sw (otherSw .low)).cmd = true then x.cmdOff (otherSw .low) else x) = x.cmdOff .high from if_pos hhi]
    split
    · next h => exact ⟨h, rfl⟩
    · exact hon _
  · rw [show (if (x.sw (otherSw .low)).cmd = true then x.cmdOff (otherSw .low) else x) = x from if_neg hhi]
    split
    · next h => exact ⟨h, Bool.eq_false_iff.2 hhi⟩
    · exact ⟨(hon x).1, (hon x).2.trans (Bool.eq_false_iff.2 hhi)⟩

/-- Both legs of a coil are commanded low. -/
theorem State.towardSlow_legs (s : State) (a : Nat) (c : Coil) {l : Nat} (h : l = (coilLegs a c).1 ∨ l = (coilLegs a c).2) :
    ((s.towardSlow a c).leg (axisTile a) l).lo.cmd = true ∧ ((s.towardSlow a c).leg (axisTile a) l).hi.cmd = false := by
  unfold State.towardSlow
  dsimp only
  rw [State.leg_updLeg]
  split
  · exact Leg.drive_low _
  · next hne =>
    rw [State.leg_updLeg, if_pos ⟨rfl, h.resolve_right fun he => hne ⟨rfl, he⟩⟩]
    exact Leg.drive_low _

/-- A step of a coil on its way to slow decay changes its phase alone. -/
theorem State.coilStep_slowing {s : State} {a : Nat} {c : Coil} (h : ((s.axis a).coil c).phase ∈ [ChopPhase.toSlow, ChopPhase.slow]) :
    ((((s.coilStep a c).axis a).coil c).phase ∈ [ChopPhase.toSlow, ChopPhase.slow]) ∧
    (((s.coilStep a c).axis a).coil c).fastTicks = ((s.axis a).coil c).fastTicks ∧ ∀ t l, (s.coilStep a c).leg t l = s.leg t l := by
  obtain hp | hp : ((s.axis a).coil c).phase = .toSlow ∨ ((s.axis a).coil c).phase = .slow := by simpa using h
  · unfold State.coilStep
    simp only [hp]
    split
    · rw [State.coil_updCoil]
      exact ⟨by simp, rfl, fun _ _ => rfl⟩
    · exact ⟨h, rfl, fun _ _ => rfl⟩
  · unfold State.coilStep
    simp only [hp]
    simp

theorem State.coilSettle_slowing {s : State} {a : Nat} {c : Coil} (h : ((s.axis a).coil c).phase ∈ [ChopPhase.toSlow, ChopPhase.slow]) :
    ((((s.coilSettle a c).axis a).coil c).phase ∈ [ChopPhase.toSlow, ChopPhase.slow]) ∧
    (((s.coilSettle a c).axis a).coil c).fastTicks = ((s.axis a).coil c).fastTicks ∧ ∀ t l, (s.coilSettle a c).leg t l = s.leg t l := by
  obtain ⟨p1, f1, l1⟩ := State.coilStep_slowing h
  obtain ⟨p2, f2, l2⟩ := State.coilStep_slowing p1
  obtain ⟨p3, f3, l3⟩ := State.coilStep_slowing p2
  exact ⟨p3, f3.trans (f2.trans f1), fun t l => (l3 t l).trans ((l2 t l).trans (l1 t l))⟩

/-- Settles O52: the phase of the coil decides which command acts, and each starts the next phase. -/
theorem chopperCyclesFollowTheirPhases : Obligations.ChopperCyclesFollowTheirPhases := by
  unfold Obligations.ChopperCyclesFollowTheirPhases
  intro a c s hr hd k
  have hin (p : ChopPhase) : s.quiet.inPhase a c p = decide (k.phase = p) := by
    have hd' : (s.quiet.axis a).driven = true := hd
    unfold State.inPhase
    rw [hd', Bool.true_and]
    rfl
  refine ⟨fun ticks sp hp => ?_, fun ticks sp hp => ?_, fun sp hp hf => ⟨?_, ?_⟩, fun above sp hp => ?_, fun b hp hf => ?_, fun hp ha hf => ?_,
    fun h => ?_, fun hp hf => ?_⟩
  · rw [exec_coilComparatorTrip, State.command_quiet _ hr]
    exact congrArg _ (if_pos (by rw [hin, hp]; rfl))
  · rw [exec_coilComparatorTrip, State.command_quiet _ hr]
    exact congrArg _ (if_neg (by rw [hin, decide_eq_false hp]; decide))
  · have hcond : (s.quiet.inPhase a c .blanking && !s.quiet.spr.freeze) = true := by rw [hin, hp, State.quiet_spr, hf]; rfl
    refine exists_next (exec_blankingEnd ..) hr ?_
    have hend : s.quiet.blankEnd a c false sp = s.quiet.updCoil a c fun k => { k with phase := .onCompare } := (if_pos hcond).trans (if_neg (by decide))
    rw [hend]
    exact ⟨State.coil_updCoil .., rfl, fun b hb => (State.besides_updCoil a s.quiet c _).others b hb⟩
  · have hcond : (s.quiet.inPhase a c .blanking && !s.quiet.spr.freeze) = true := by rw [hin, hp, State.quiet_spr, hf]; rfl
    have hregs : ((s.quiet.updCoil a c fun k => { k with phase := .onCompare }).axis a).regs = (s.axis a).regs := by
      unfold State.updCoil
      rw [State.axis_updAxis_self]
      exact Axis.regs_of_bare (Axis.setCoil_bare ..)
    rw [exec_blankingEnd, State.command_quiet _ hr, ← hregs]
    exact congrArg _ ((if_pos hcond).trans (if_pos rfl))
  · rw [exec_blankingEnd, State.command_quiet _ hr]
    exact congrArg _ (if_neg (by simp [hin, hp]))
  · rw [exec_onTimeSaturation, State.command_quiet _ hr]
    exact congrArg _ (if_pos (by rw [hin, hp, State.quiet_spr, hf]; rfl))
  · have hcond : ((s.quiet.inPhase a c .fast || (s.quiet.inPhase a c .toDecay && decide (0 < k.fastTicks))) && !k.allFast && !s.quiet.spr.freeze) = true := by
      rw [hin, hin, ha, State.quiet_spr, hf]
      simpa using hp
    have hslow := State.coilSettle_slowing (s := (s.quiet.towardSlow a c).updCoil a c fun k => { k with phase := .toSlow, fastTicks := 0 }) (a := a)
      (c := c) (by rw [State.coil_updCoil]; simp)
    rw [State.coil_updCoil] at hslow
    obtain ⟨h1, h2, h3⟩ := hslow
    refine exists_next (exec_fastPortionEnd ..) hr ?_
    rw [show s.quiet.fastEnd a c = _ from if_pos hcond]
    refine ⟨h1, h2, fun l hl => ?_⟩
    rw [h3]
    exact s.quiet.towardSlow_legs a c hl
  · rw [exec_fastPortionEnd, State.command_quiet _ hr]
    refine congrArg _ (if_neg ?_)
    have hk : (s.quiet.axis a).coil c = k := rfl
    rw [hin, hin, hk, State.quiet_spr]
    rcases h with ⟨h1, h2⟩ | h | h
    · rcases h2 with h2 | h2 <;> simp [h1, h2]
    · simp [h]
    · simp [h]
  · have hcond : ((s.quiet.inPhase a c .toDecay || s.quiet.inPhase a c .fast || s.quiet.inPhase a c .toSlow || s.quiet.inPhase a c .slow) &&
        !s.quiet.spr.freeze) = true := by
      rw [hin, hin, hin, hin, State.quiet_spr, hf]
      simpa [or_assoc] using hp
    obtain ⟨hb, h1, h2, h3⟩ := s.quiet.turnOn_spec a c
    refine exists_next (exec_offTimeEnd ..) hr ?_
    rw [show s.quiet.offEnd a c = _ from if_pos hcond]
    exact ⟨h1, h2, h3, hb.others, hb.frame⟩

end Sys2Proof.Machine
end


section
/-! SUPPORT. The spare comparator, the shadow check, a freeze and the core hold (O53). -/

namespace Sys2Proof.Machine

/-! ### The spare comparator and the shadow check (R329, R332) -/

/-- The spare comparator is steered to a coil. -/
theorem State.steer_spec (s : State) (t k : Nat) :
    (s.steer t k).tile t = { s.tile t with steered := true, steerK := k, takeover := none, cmpPend := false, confirming := false } ∧
    ((s.steer t k).axis (4 * t + k / 2)).stall.skip = true ∧ bit (s.steer t k).spr.flags 2 = true ∧ ∀ j, j ≠ t → (s.steer t k).tile j = s.tile j := by
  have htile (j : Nat) : (s.steer t k).tile j = (s.updTile t fun x =>
      { x with steered := true, steerK := k, takeover := none, cmpPend := false, confirming := false }).tile j := rfl
  have haxis : (s.steer t k).axis (4 * t + k / 2) = (s.updAxis (4 * t + k / 2) fun x =>
      { x with stall := { x.stall with skip := true }, watch := x.watch.fresh }).axis (4 * t + k / 2) := rfl
  refine ⟨(htile t).trans (State.tile_updTile_self ..), ?_, ?_, fun j hj => (htile j).trans ((State.tile_updTile ..).trans (if_neg hj))⟩
  · rw [haxis, State.axis_updAxis_self]
  · show bit (s.spr.flags ||| bw true 2) 2 = true
    simp [bit, bw, b2n, wd]

/-- The check goes on to the next coil that may be checked. -/
theorem State.checkMove_eq (s : State) (t : Nat) :
    s.checkMove t = s.updTile t fun x => x.checkOn ((s.nextCheck t (s.tile t).shadowK).getD (s.tile t).shadowK) := by
  unfold State.checkMove
  split
  · next k h =>
    rw [h]
    rfl
  · next h =>
    rw [h]
    rfl

/-! ### A freeze (R228 to R231) -/

/-- What a freeze, and its end, leave of the state. -/
theorem State.shelf_of_offUnits {s t : State} (h : t.offUnits = s.offUnits) : t.spr = s.spr ∧ t.glb = s.glb ∧ t.host = s.host := by
  have h1 : t.offUnits.spr = s.offUnits.spr := by rw [h]
  have h2 : t.offUnits.glb = s.offUnits.glb := by rw [h]
  have h3 : t.offUnits.host = s.offUnits.host := by rw [h]
  exact ⟨h1, h2, h3⟩

theorem State.freezeCoil_offUnits (s : State) (a : Nat) (c : Coil) : (s.freezeCoil a c).offUnits = s.offUnits := by
  unfold State.freezeCoil
  dsimp only
  split
  case h_4 => exact (State.cycles_coilSettle a c s).beside.rest
  all_goals rfl

theorem State.foldl_freezeCoil_offUnits (l : List Nat) (s : State) :
    (l.foldl (fun t a => (t.freezeCoil a .A).freezeCoil a .B) s).offUnits = s.offUnits :=
  List.foldlRecOn l _ (motive := fun (v : State) => v.offUnits = s.offUnits) rfl fun v hv a _ =>
    ((State.freezeCoil_offUnits _ a .B).trans (State.freezeCoil_offUnits v a .A)).trans hv

theorem State.beginCoils_offUnits (s : State) (a : Nat) : (s.beginCoils a).offUnits = s.offUnits := by
  unfold State.beginCoils State.startCoils
  split
  · exact ((State.turnOn_spec _ a .B).1.rest).trans (s.turnOn_spec a .A).1.rest
  · rfl

theorem State.updAxis_motion_offUnits (s : State) (a : Nat) (f : Motion → Motion) : (s.updMotion .axis a f).offUnits = s.offUnits := rfl

theorem State.thawAxis_offUnits (s : State) (a : Nat) : (s.thawAxis a).offUnits = s.offUnits := by
  have hidle (t : State) : (t.thawIdle a).offUnits = t.offUnits := by
    unfold State.thawIdle
    split
    · exact t.beginCoils_offUnits a
    · rfl
  unfold State.thawAxis
  dsimp only
  rw [State.updAxis_motion_offUnits, hidle, (State.cycles_coilSettle a .B _).beside.rest, (State.cycles_coilSettle a .A _).beside.rest,
    (State.besides_updCoil a _ .B _).rest, (State.besides_updCoil a _ .A _).rest]

theorem State.foldl_thawAxis_offUnits (l : List Nat) (s : State) : (l.foldl State.thawAxis s).offUnits = s.offUnits :=
  List.foldlRecOn l _ (motive := fun (v : State) => v.offUnits = s.offUnits) rfl fun v hv a _ => (v.thawAxis_offUnits a).trans hv

/-- Motions and legs that an end of a freeze updates leave cores and mode. -/
theorem State.foldl_updMotion_shelf (f : Motion → Motion) (l : List Nat) (s : State) :
    (l.foldl (fun t n => t.updMotion .course n f) s).spr = s.spr ∧ (l.foldl (fun t n => t.updMotion .course n f) s).glb = s.glb :=
  List.foldlRecOn l _ (motive := fun (v : State) => v.spr = s.spr ∧ v.glb = s.glb) ⟨rfl, rfl⟩ fun _ hv _ _ => hv

theorem State.foldl_updLeg_offUnits (f : Leg → Leg) (l : List (Nat × Nat)) (s : State) :
    (l.foldl (fun t p => t.updLeg p.1 p.2 f) s).offUnits = s.offUnits :=
  List.foldlRecOn l _ (motive := fun (v : State) => v.offUnits = s.offUnits) rfl fun _ hv _ _ => hv

/-- The state at the end of a freeze, before its record. -/
def State.thawed (s : State) : State :=
  let t := s.listedAxes.foldl State.thawAxis { s with spr := { s.spr with freeze := false } }
  let u := (t.courses.map Prod.fst).foldl (fun v n => v.updMotion .course n Motion.disarm) t
  u.listedLegs.foldl (fun v p => v.updLeg p.1 p.2 fun x => { x with solWait := x.solWait.map (SolDesc.rearm u.ref.c408) }) u

theorem State.freezeOff_eq {s : State} (h : s.spr.freeze = true) : s.freezeOff = s.thawed.raiseDev srcDbgFreeze 0 := by
  unfold State.freezeOff State.thawed
  rw [if_pos h]
  rfl

theorem State.thawed_shelf (s : State) : s.thawed.spr = { s.spr with freeze := false } ∧ s.thawed.glb = s.glb := by
  obtain ⟨h1, h2, -⟩ := State.shelf_of_offUnits (State.foldl_thawAxis_offUnits s.listedAxes { s with spr := { s.spr with freeze := false } })
  unfold State.thawed
  dsimp only
  generalize s.listedAxes.foldl State.thawAxis { s with spr := { s.spr with freeze := false } } = t at h1 h2
  obtain ⟨h3, h4⟩ := State.foldl_updMotion_shelf Motion.disarm (t.courses.map Prod.fst) t
  generalize (t.courses.map Prod.fst).foldl (fun v n => v.updMotion .course n Motion.disarm) t = u at h3 h4
  obtain ⟨h5, h6, -⟩ := State.shelf_of_offUnits
    (State.foldl_updLeg_offUnits (fun x => { x with solWait := x.solWait.map (SolDesc.rearm u.ref.c408) }) u.listedLegs u)
  exact ⟨h5.trans (h3.trans h1), h6.trans (h4.trans h2)⟩

/-- Settles O53: each command looks at its own mark, and the freeze and its end go over the coils without touching cores, mode or host. -/
theorem comparatorsAndHoldsFollowTheirCommands : Obligations.ComparatorsAndHoldsFollowTheirCommands := by
  unfold Obligations.ComparatorsAndHoldsFollowTheirCommands
  intro s hr
  refine ⟨fun t k ht hok => ?_, fun t ht => ?_, fun t hc hconf hcyc => ?_, fun t h => ?_, fun hf => ?_, fun hf => ⟨?_, ?_⟩, fun hf => ?_, ?_, ?_⟩
  · have hsteer : s.quiet.takeOver t = s.quiet.steer t k := by
      unfold State.takeOver
      rw [show (s.quiet.tile t).takeover = some k from ht]
      exact if_pos hok
    refine exists_next (exec_spareTakeover t s) hr ?_
    rw [hsteer]
    exact s.quiet.steer_spec t k
  · rw [exec_spareTakeover, State.command_quiet _ hr]
    unfold State.takeOver
    rw [show (s.quiet.tile t).takeover = none from ht]
  · have hmove : s.quiet.checkTimeout t = s.quiet.checkMove t := by
      refine if_pos ?_
      rw [show s.quiet.checking t = true from hc, show (s.quiet.tile t).confirming = false from hconf]
      exact decide_eq_true (p := (s.tile t).cycles < 64) hcyc
    refine exists_next (exec_shadowCheckTimeout t s) hr ?_
    rw [hmove, State.checkMove_eq]
    exact ⟨State.tile_updTile_self .., fun j hj => (State.tile_updTile ..).trans (if_neg hj)⟩
  · rw [exec_shadowCheckTimeout, State.command_quiet _ hr]
    refine congrArg _ (if_neg ?_)
    rcases h with h | h
    · rw [show s.quiet.checking t = false from h]
      simp
    · rw [show (s.quiet.tile t).confirming = true from h]
      simp
  · obtain ⟨h1, h2, h3⟩ := State.shelf_of_offUnits (State.foldl_freezeCoil_offUnits s.quiet.listedAxes
      { s.quiet.pausePlan with spr := { s.spr with freeze := true, freezeDt := s.dt } })
    refine ⟨_, ?_, h1, h2, h3⟩
    rw [exec_dbgFreeze, State.command_quiet _ hr]
    exact congrArg _ (if_neg (by rw [State.quiet_spr, hf]; decide))
  · rw [exec_dbgFreeze, State.command_quiet _ hr]
    exact congrArg _ (if_pos hf)
  · obtain ⟨h1, h2⟩ := s.quiet.thawed_shelf
    exact ⟨s.quiet.thawed, by rw [exec_freezeRelease, State.command_quiet _ hr, State.freezeOff_eq (s := s.quiet) hf], h1, h2⟩
  · rw [exec_freezeRelease, State.command_quiet _ hr]
    exact congrArg _ (if_neg (by rw [State.quiet_spr, hf]; decide))
  · refine ⟨s.quiet.holdCores, by rw [exec_coreHold, State.command_quiet _ hr], ?_, rfl⟩
    simp [State.paused, State.holdCores]
  · rw [exec_coreHoldRelease, State.command_quiet _ hr]
    refine congrArg _ ?_
    unfold State.releaseCores
    split
    · rfl
    · next h =>
      have hh : false = s.spr.coreHold := (Bool.eq_false_iff.2 h).symm
      rw [hh]
      rfl

end Sys2Proof.Machine
end


section
/-! SUPPORT. Tile and die temperatures (O57). -/

namespace Sys2Proof.Machine

/-- A device shut down for its temperature, in which an NV write still stands in progress. -/
def shutWriting : State :=
  { State.reset with inReset := false, thm := { Thm.reset with shut := true }, cfg := { CfgB.reset with nvWrite := some { slotB := false, done := 0, image := [] } } }

/-- A sample of an absent tile gives the write up (R355). -/
theorem shutWriting_sampled : ∃ t, exec (.thermalSample 16 0 0) shutWriting = .next t ∧ t.cfg.nvWrite = none := ⟨_, rfl, rfl⟩

/-- Refutes O57: the sample of an absent tile in a device that is shut down ends an NV write in progress, where the statement holds every state
to be as it was. -/
theorem not_temperaturesFollowTheirSensors : ¬ Obligations.TemperaturesFollowTheirSensors := by
  unfold Obligations.TemperaturesFollowTheirSensors
  intro h
  obtain ⟨-, habsent, -⟩ := h shutWriting rfl
  obtain ⟨t, ht, hnone⟩ := shutWriting_sampled
  have hsame : t = shutWriting.quiet := Host.Outcome.next.inj (ht.symm.trans (habsent 16 0 0 (by decide)))
  rw [hsame] at hnone
  exact absurd hnone (by decide)

end Sys2Proof.Machine
end


section
/-! SUPPORT. Frames of the strait and training (O58). -/

namespace Sys2Proof.Machine

section
variable {s : State} {p : Nat} {f : List Byte}

/-- A port that the role of the island does not use. -/
theorem State.portUsed_not (h : fld s.str.ctrl 0 2 = 0 ∨ s.variant.ports ≤ p ∨ (fld s.str.ctrl 0 2 = 1 ∧ p ≠ 1)) : s.portUsed p = false := by
  unfold State.portUsed
  rcases h with h | h | ⟨h, hp⟩
  · simp [h]
  · simp [Nat.not_lt.2 h]
  · simp [h, hp]

theorem State.portUsed_yes (h0 : fld s.str.ctrl 0 2 ≠ 0) (hp : p < s.variant.ports) (h1 : fld s.str.ctrl 0 2 = 1 → p = 1) :
    s.portUsed p = true := by
  unfold State.portUsed
  by_cases h : fld s.str.ctrl 0 2 = 1
  · simp [h, h1 h, h1 h ▸ hp]
  · simp [h0, hp, h]

theorem State.frameTaken_quiet (s : State) (p t : Nat) (f : List Byte) : s.quiet.frameTaken p t f = s.frameTaken p t f := rfl

/-- A frame that leaves. -/
theorem State.sendFrame_live (h : s.portOn p = true) (hl : s.straitLive = true) (f : List Byte) : s.sendFrame p f = s.emit (.frame p f) :=
  if_pos (by rw [h, hl]; rfl)

theorem State.sendFrame_str (s : State) (p : Nat) (f : List Byte) : (s.sendFrame p f).str = s.str := by
  unfold State.sendFrame
  split <;> rfl

/-- A frame expected that is missing, but for the fourth in a row. -/
theorem State.missSync_counts (h : s.str.missRun ≠ 3 ∨ s.str.extrap = true) :
    s.missSync = s.updStr fun t => { t with missCnt := satAdd 65535 t.missCnt 1, missRun := t.missRun + 1, goodRun := 0 } := by
  refine if_neg ?_
  rintro ⟨h4, he⟩
  have h4 : s.str.missRun + 1 = 4 := h4
  have he : (!s.str.extrap) = true := he
  rcases h with h | h
  · omega
  · rw [h] at he
    exact absurd he (by decide)

/-! ### Frames that a port takes or discards -/

theorem State.faultFrame_taken (hu : s.portUsed p = true) (h : s.frameTaken p frameFault f = true) :
    s.faultFrame p f = (if p = 1 then (s.repeatFault p f true).updStr fun t => t.noteBelow (frameByte f 19) else s.repeatFault p f true).receiveFlt
      (frameByte f 19) := by
  unfold State.faultFrame
  rw [if_pos hu, h]
  exact if_pos rfl

theorem State.faultFrame_discarded (hu : s.portUsed p = true) (h : s.frameTaken p frameFault f = false) :
    s.faultFrame p f = (s.repeatFault p f false).discardFrame p (frameGood f) := by
  unfold State.faultFrame
  rw [if_pos hu, h]
  exact if_neg (by decide)

theorem State.reqReceive_echo (hu : s.portUsed p = true) (h : s.frameTaken p frameTrainReq f = true) (hp : s.portOn p = true)
    (hl : s.straitLive = true) (w : Nat) :
    s.reqReceive p f w = s.emit (.frame p (mkFrame (leBytes 1 frameTrainEcho ++ leBytes 1 s.str.island ++ leBytes 1 (frameByte f 3) ++ leBytes 2 w ++
      List.replicate 18 0))) := by
  unfold State.reqReceive
  rw [if_pos hu, if_pos h]
  exact State.sendFrame_live hp hl _

/-! ### Alignment -/

theorem State.alignGained_used (hu : s.portUsed p = true) : s.alignGained p = if p = 0 then s.retrain else s.updStr fun t => t.setLink p 2 := if_pos hu

theorem State.alignLost_used (hu : s.portUsed p = true) (h : p = 0 → s.str.long = false) :
    s.alignLost p = s.updStr fun t => { (t.setLink p 3) with training := t.training && decide (p ≠ 0) } := by
  refine if_pos ?_
  rw [hu]
  by_cases hp : p = 0
  · simp [h hp]
  · simp [hp]

theorem State.alignLost_long (hp : p = 0) (h : s.str.long = true) : s.alignLost p = s := if_neg (by simp [hp, h])

theorem State.retrain_long (h : s.str.long = true) : s.retrain = s := if_neg (by simp [h])

theorem State.retrain_follower (hf : s.str.isFollower = true) (h : s.str.long = false) : s.retrain = s.updStr Strait.train := if_pos (by simp [hf, h])

/-- A port that is not used takes no frame and has no link. -/
theorem State.unused_port (h : s.portUsed p = false) (w : Nat) :
    s.faultFrame p f = s ∧ s.reqReceive p f w = s ∧ s.alignGained p = s ∧ s.alignLost p = s := by
  have hno : ¬ s.portUsed p = true := by rw [h]; decide
  exact ⟨if_neg hno, if_neg hno, if_neg hno, if_neg (by simp [h])⟩

end

/-- Settles O58: role, port and check decide whether a frame is taken, and each kind does its own part. -/
theorem straitFramesAreTakenAndSent : Obligations.StraitFramesAreTakenAndSent := by
  unfold Obligations.StraitFramesAreTakenAndSent
  intro f s hr
  refine ⟨fun hi hrun hp hl => ?_, fun h => ?_, fun hf hlong => ⟨fun h => ?_, fun h => ?_, fun h => ?_⟩, fun hf => ⟨?_, ?_⟩, fun hlong => ?_,
    fun p h w => ?_, fun p h0 hp h1 => ⟨fun h => ?_, fun h => ?_, fun w h hon hl => ?_, ?_, ?_, ?_⟩, fun h0 hp h => ?_,
    fun hf ht => ⟨fun hn => ?_, fun hn => ?_, fun rtt h => ⟨fun hlen => ?_, fun hlen => ?_⟩⟩⟩
  · rw [exec_syncSend, State.command_quiet _ hr]
    have hsend : s.quiet.sendFrame 1 s.quiet.syncFrame = s.quiet.emit (.frame 1 s.quiet.syncFrame) := State.sendFrame_live (s := s.quiet) hp hl _
    exact congrArg _ ((if_pos (by simp [hi, hrun])).trans hsend)
  · rw [exec_syncSend, State.command_quiet _ hr]
    refine congrArg _ (if_neg ?_)
    rcases h with h | h <;> simp [h]
  · rw [exec_syncReceive, State.command_quiet _ hr]
    refine congrArg _ ((if_pos (by simp [hf, hlong])).trans ?_)
    rw [State.frameTaken_quiet, h]
    exact if_pos rfl
  · rw [exec_syncReceive, State.command_quiet _ hr]
    refine congrArg _ ((if_pos (by simp [hf, hlong])).trans ?_)
    rw [State.frameTaken_quiet, h]
    exact if_neg (by decide)
  · rw [exec_syncMissing, State.command_quiet _ hr]
    exact congrArg _ ((if_pos hf).trans (State.missSync_counts h))
  · rw [exec_syncReceive, State.command_quiet _ hr]
    exact congrArg _ (if_neg (by simp [hf]))
  · rw [exec_syncMissing, State.command_quiet _ hr]
    exact congrArg _ (if_neg (by simp [hf]))
  · rw [exec_syncReceive, State.command_quiet _ hr]
    exact congrArg _ (if_neg (by simp [hlong]))
  · obtain ⟨e1, e2, e3, e4⟩ := State.unused_port (s := s.quiet) (f := f) (State.portUsed_not (s := s.quiet) h) w
    rw [exec_faultFrameReceive, exec_trainReqReceive, exec_linkAlignmentGained, exec_straitAlignmentLost, State.command_quiet _ hr,
      State.command_quiet _ hr, State.command_quiet _ hr, State.command_quiet _ hr, e1, e2, e3, e4]
    exact ⟨rfl, rfl, rfl, rfl⟩
  · rw [exec_faultFrameReceive, State.command_quiet _ hr, State.faultFrame_taken (State.portUsed_yes (s := s.quiet) h0 hp h1) h]
  · rw [exec_faultFrameReceive, State.command_quiet _ hr, State.faultFrame_discarded (State.portUsed_yes (s := s.quiet) h0 hp h1) h]
  · rw [exec_trainReqReceive, State.command_quiet _ hr, State.reqReceive_echo (State.portUsed_yes (s := s.quiet) h0 hp h1) h hon hl]
    rfl
  · rintro rfl
    rw [exec_linkAlignmentGained, exec_straitAlignmentLost, State.command_quiet _ hr, State.command_quiet _ hr,
      State.alignGained_used (State.portUsed_yes (s := s.quiet) h0 hp h1), State.alignLost_used (State.portUsed_yes (s := s.quiet) h0 hp h1) (fun h => by cases h)]
    refine ⟨rfl, congrArg _ ?_⟩
    simp [State.updStr, Strait.setLink]
  · rintro rfl hlong
    rw [exec_linkAlignmentGained, exec_straitAlignmentLost, State.command_quiet _ hr, State.command_quiet _ hr,
      State.alignGained_used (State.portUsed_yes (s := s.quiet) h0 hp h1), State.alignLost_long (s := s.quiet) rfl hlong, if_pos rfl,
      State.retrain_long (s := s.quiet) hlong]
    exact ⟨rfl, rfl⟩
  · rintro rfl hlong
    rw [exec_linkAlignmentGained, exec_straitAlignmentLost, State.command_quiet _ hr, State.command_quiet _ hr,
      State.alignGained_used (State.portUsed_yes (s := s.quiet) h0 hp h1), State.alignLost_used (State.portUsed_yes (s := s.quiet) h0 hp h1) (fun _ => hlong)]
    refine ⟨congrArg _ ?_, fun hf => ?_⟩
    · simp [State.updStr, Strait.setLink]
    · rw [if_pos rfl, State.retrain_follower (s := s.quiet) hf hlong]
      rfl
  · have hu : s.quiet.portUsed 1 = true := State.portUsed_yes (s := s.quiet) h0 hp fun _ => rfl
    rw [exec_upstatusReceive, State.command_quiet _ hr]
    exact congrArg _ ((if_pos hu).trans (if_pos h))
  · have hsend : s.quiet.reqSend = _ := if_pos (by simp [hf, ht, hn])
    refine exists_next (exec_trainReqSend s) hr ?_
    rw [hsend]
    exact congrArg (fun t : Strait => { t with reqNo := t.reqNo + 1 }) (State.sendFrame_str ..)
  · rw [exec_trainReqSend, State.command_quiet _ hr]
    exact congrArg _ (if_neg (by simp [Nat.not_lt.2 hn]))
  · rw [exec_trainEchoReceive, State.command_quiet _ hr]
    exact congrArg _ ((if_pos (by simp [hf, ht])).trans ((if_pos h).trans (if_pos (by rw [List.length_append]; exact Nat.succ_lt_succ hlen))))
  · rw [exec_trainEchoReceive, State.command_quiet _ hr]
    refine congrArg _ ((if_pos (by simp [hf, ht])).trans ((if_pos h).trans (if_neg ?_)))
    rw [List.length_append]
    exact Nat.not_lt.2 (Nat.succ_le_succ hlen)

end Sys2Proof.Machine
end


section
/-! SUPPORT. Trips of a leg: short circuits and cross-commands (O48). -/

namespace Sys2Proof.Machine

/-! ### The legs of an axis, updated one by one -/

/-- An update of each leg of a list without repetition. -/
theorem State.leg_foldl_updLeg (t : Nat) (f : Leg → Leg) {ls : List Nat} (hn : ls.Nodup) (s : State) (m j : Nat) :
    (ls.foldl (fun v i => v.updLeg t i f) s).leg m j = if m = t ∧ j ∈ ls then f (s.leg t j) else s.leg m j := by
  induction ls generalizing s with
  | nil => simp
  | cons i ls ih =>
    obtain ⟨hi, hn⟩ := List.nodup_cons.1 hn
    rw [List.foldl_cons, ih hn, State.leg_updLeg, State.leg_updLeg]
    by_cases hji : j = i
    · subst hji
      by_cases hm : m = t <;> simp [hi, hm]
    · simp [hji]

theorem axisLegs_nodup (a : Nat) : (axisLegs a).Nodup := by
  simp only [axisLegs, List.nodup_cons, List.mem_cons, List.not_mem_nil, or_false, not_false_eq_true, List.nodup_nil, and_true]
  omega

theorem axisTile_legAxis {t l : Nat} (h : l < 16) : axisTile (legAxis t l) = t := by
  unfold axisTile legAxis
  omega

/-- The legs of the axis of a leg. -/
theorem mem_axisLegs_legAxis {t l j : Nat} (h : l < 16) : j ∈ axisLegs (legAxis t l) ↔ j / 4 = l / 4 := by
  simp only [axisLegs, legAxis, List.mem_cons, List.not_mem_nil, or_false]
  omega

theorem State.leg_axisHiz (s : State) (a : Nat) (c : StopCause) (m j : Nat) :
    (s.axisHiz a c).leg m j = if m = axisTile a ∧ j ∈ axisLegs a then (s.leg m j).toHiz else s.leg m j := by
  have hfold := State.leg_foldl_updLeg (axisTile a) Leg.toHiz (axisLegs_nodup a) s m j
  have hleg : (s.axisHiz a c).leg m j = ((axisLegs a).foldl (fun t l => t.updLeg (axisTile a) l Leg.toHiz) s).leg m j := by
    unfold State.axisHiz
    dsimp only
    split <;> rfl
  rw [hleg, hfold]
  split
  · next h => rw [h.1]
  · rfl

/-! ### A trip (R301, R304) -/

/-- A leg that a protection has taken to Hi-Z: its latch with the cause that came first. -/
structure Leg.Tripped (x y : Leg) (cause : Nat) : Prop where
  latch : y.latch = true
  cause : y.cause = if x.latch then x.cause else cause
  hiz : y.AtHiz

theorem Leg.tripped_toHiz (x : Leg) (c : Nat) : x.Tripped (x.latchCause c).toHiz c := by
  obtain ⟨h1, h2, -⟩ := x.latchCause_spec c
  obtain ⟨k1, k2, -, -⟩ := Leg.toHiz_keeps (x.latchCause c)
  exact ⟨k1.trans h1, k2.trans h2, Leg.toHiz_atHiz _⟩

theorem Leg.latchCause_latchCause (x : Leg) (c d : Nat) : (x.latchCause c).latchCause d = x.latchCause c :=
  if_pos (x.latchCause_spec c).1

/-- A trip of a leg in axis mode: its own leg with its cause, the other three of the axis with 0xC, and no other. -/
theorem State.tripLeg_axis {s : State} {t l : Nat} (hl : l < 16) (hm : (s.leg t l).mode = 1) (cause : Nat) :
    (s.leg t l).Tripped ((s.tripLeg t l cause).leg t l) cause ∧
    (∀ j, j ≠ l → j / 4 = l / 4 → (s.leg t j).Tripped ((s.tripLeg t l cause).leg t j) 12) ∧
    ∀ m j, m ≠ t ∨ j / 4 ≠ l / 4 → (s.tripLeg t l cause).leg m j = s.leg m j := by
  have hmode : ((s.updLeg t l fun x => x.latchCause cause).leg t l).mode = 1 := by
    rw [State.leg_updLeg_self]
    exact ((s.leg t l).latchCause_spec cause).2.2.trans hm
  have hleg (m j : Nat) : (s.tripLeg t l cause).leg m j =
      if m = t ∧ j / 4 = l / 4 then (((s.updLeg t l fun x => x.latchCause cause).leg m j).latchCause 12).toHiz
      else (s.updLeg t l fun x => x.latchCause cause).leg m j := by
    have htrip : s.tripLeg t l cause = _ := if_pos hmode
    rw [htrip, State.leg_axisHiz, axisTile_legAxis hl, State.leg_foldl_updLeg t _ (axisLegs_nodup _)]
    simp only [mem_axisLegs_legAxis hl]
    split
    · next h => rw [h.1]
    · rfl
  refine ⟨?_, fun j hj hq => ?_, fun m j h => ?_⟩
  · rw [hleg, if_pos ⟨rfl, rfl⟩, State.leg_updLeg_self, Leg.latchCause_latchCause]
    exact Leg.tripped_toHiz ..
  · rw [hleg, if_pos ⟨rfl, hq⟩, State.leg_updLeg, if_neg fun h => hj h.2]
    exact Leg.tripped_toHiz ..
  · rw [hleg, if_neg (by omega), State.leg_updLeg, if_neg (by rintro ⟨rfl, rfl⟩; simp at h)]

/-- A trip of a leg in another mode: that leg alone. -/
theorem State.tripLeg_alone {s : State} {t l : Nat} (hm : (s.leg t l).mode ≠ 1) (cause : Nat) :
    (s.leg t l).Tripped ((s.tripLeg t l cause).leg t l) cause ∧
    ∀ m j, m ≠ t ∨ j ≠ l → (s.tripLeg t l cause).leg m j = s.leg m j := by
  have hmode : ¬ ((s.updLeg t l fun x => x.latchCause cause).leg t l).mode = 1 := by
    rw [State.leg_updLeg_self]
    exact fun h => hm (((s.leg t l).latchCause_spec cause).2.2.symm.trans h)
  have htrip : s.tripLeg t l cause = (s.updLeg t l fun x => x.latchCause cause).legHiz t l := if_neg hmode
  obtain ⟨h1, h2, -⟩ := (s.leg t l).latchCause_spec cause
  have hkeep := State.legHiz_keeps (s.updLeg t l fun x => x.latchCause cause) t l t l
  rw [State.leg_updLeg_self] at hkeep
  rw [htrip]
  refine ⟨⟨hkeep.latch.trans h1, hkeep.cause.trans h2, State.legHiz_atHiz_self ..⟩, fun m j h => ?_⟩
  have hend (u : State) : (u.endSol t l).leg m j = u.leg m j := by
    unfold State.endSol
    split
    · rfl
    · refine (State.leg_updLeg ..).trans ((if_neg (by omega)).trans ?_)
      split <;> rfl
  unfold State.legHiz
  rw [hend, State.leg_updLeg, if_neg (by omega), State.leg_updLeg, if_neg (by omega)]

/-! ### Short circuits (R297 to R303) -/

/-- A switch that conducts is set to the segments of the soft turn-off. -/
theorem Leg.soften_on {x : Leg} {w : Switch} (h : (x.sw w).on = true) : x.soften w = x.setSw w { x.sw w with nOff := fld x.prot 16 4 } := if_pos h

/-- What the report to the courses leaves: tiles and axes. -/
theorem State.memberReport_units (s : State) (a : Nat) : (s.memberReport a).tiles = s.tiles ∧ (s.memberReport a).axes = s.axes :=
  List.foldlRecOn (s.path 8 .axis a) _ (motive := fun (v : State) => v.tiles = s.tiles ∧ v.axes = s.axes) ⟨rfl, rfl⟩ fun _ hv _ _ => hv

/-- Settles O48: the guards of each command, and the legs that a trip reaches. -/
theorem tripsTakeTheLegToHiZ : Obligations.TripsTakeTheLegToHiZ := by
  unfold Obligations.TripsTakeTheLegToHiZ
  intro t l w s hr ht hl x
  have hleg : s.quiet.hasLeg t l = true := State.hasLeg_of_lt ht hl
  have hx : s.quiet.leg t l = x := rfl
  have hwatch : s.quiet.watched t l w = (decide (x.mode ≠ 0) && (x.sw w).on) := by
    unfold State.watched
    rw [hleg, hx, Bool.true_and]
  refine ⟨?_, fun hm hon => ⟨?_, ?_⟩, fun h => ⟨?_, ?_⟩, fun h0 hb hm => ?_, fun hb => ?_, fun cause src high hon => ?_, fun cause => ?_⟩
  · rw [exec_crossCmd, State.command_quiet _ hr]
    exact congrArg _ (if_pos hleg)
  · rw [exec_desaturation, State.command_quiet _ hr]
    exact congrArg _ (if_pos (by rw [hwatch]; simp [hm, hon]))
  · rw [exec_grossDesaturation, State.command_quiet _ hr]
    exact congrArg _ (if_pos (by rw [hwatch]; simp [hm, hon]))
  · rw [exec_desaturation, State.command_quiet _ hr]
    exact congrArg _ (if_neg (by rw [hwatch]; rcases h with h | h <;> simp [h]))
  · rw [exec_grossDesaturation, State.command_quiet _ hr]
    exact congrArg _ (if_neg (by rw [hwatch]; rcases h with h | h <;> simp [h]))
  · rw [exec_shuntTrip, State.command_quiet _ hr]
    refine congrArg _ (if_pos ?_)
    unfold State.shuntOn
    rw [hleg, hx, hb]
    simp [h0, hm]
  · rw [exec_shuntTrip, State.command_quiet _ hr]
    refine congrArg _ (if_neg ?_)
    unfold State.shuntOn
    rw [hx, hb]
    simp
  · intro soft
    have hsoft : (s.updLeg t l fun y => [w].foldl Leg.soften y) = soft := congrArg (s.setLeg t l) (Leg.soften_on hon)
    have hmode : (soft.leg t l).mode = x.mode := by
      rw [State.leg_setLeg_self, Leg.setSw_mode]
    have hshort : s.shortAs t l cause src high [w] =
        (if (soft.leg t l).mode = 1 then soft.memberReport (legAxis t l) else soft).tripAs t l cause src high := by
      rw [← hsoft]
      rfl
    rw [hshort, hmode]
    refine ⟨fun hm => by rw [if_neg hm], fun hm => ⟨by rw [if_pos hm], soft.memberReport_units _⟩⟩
  · intro u
    by_cases hm : x.mode = 1
    · obtain ⟨⟨h1, h2, h3⟩, h4, h5⟩ := State.tripLeg_axis hl hm cause
      refine ⟨h1, h2, fun j hj => ?_, fun _ j hj hq => ⟨(h4 j hj hq).latch, (h4 j hj hq).cause⟩, fun m j h => h5 m j ?_⟩
      · by_cases hjl : j = l
        · rw [hjl]
          exact h3
        · exact (h4 j hjl (hj.resolve_left hjl).2).hiz
      · rwa [if_pos hm] at h
    · obtain ⟨⟨h1, h2, h3⟩, h4⟩ := State.tripLeg_alone hm cause
      refine ⟨h1, h2, fun j hj => ?_, fun h => absurd h hm, fun m j h => h4 m j ?_⟩
      · rw [hj.resolve_right fun h => hm h.1]
        exact h3
      · rwa [if_neg hm] at h

end Sys2Proof.Machine
end


section
/-! SUPPORT. Measured edges, segments and bootstraps (O49). -/

namespace Sys2Proof.Machine

/-! ### A measured edge (R284 to R287) -/

/-- The edge run counts of a driver stay below their 256th edge, and the segment compared does not deviate: the driver alone is written. -/
theorem State.edgeMeasured_plain {s : State} {t l : Nat} {w : Switch} {on : Bool} {ticks seg : Nat}
    (hs : (if on then ((s.leg t l).sw w).slowOn else ((s.leg t l).sw w).slowOff) < 255)
    (hf : (if on then ((s.leg t l).sw w).fastOn else ((s.leg t l).sw w).fastOff) < 255) :
    ∃ (y : GateSw) (fl : Word), s.edgeMeasured t l w on ticks seg false = s.updLeg t l (fun x => { (x.setSw w y) with flags := fl }) ∧
      y.nOn = (if on then nextCount ((s.leg t l).sw w).nOn ticks (s.leg t l).tSw (min (fld (s.leg t l).gd 24 4) ((s.leg t l).sw w).capacity)
        else ((s.leg t l).sw w).nOn) ∧
      y.nOff = (if on ∨ (s.leg t l).hiz then ((s.leg t l).sw w).nOff
        else nextCount ((s.leg t l).sw w).nOff ticks (s.leg t l).tSw (min (fld (s.leg t l).gd 24 4) ((s.leg t l).sw w).capacity)) ∧
      (on = true → y.tswOn = min 255 ticks) ∧ (on = false → y.tswOff = min 255 ticks) ∧ y.active = ((s.leg t l).sw w).active ∧
      Bank.get 0 y.dev seg = 0 := by
  have hrun {n : Nat} (h : n < 255) (c : Bool) : decide (256 ≤ if c then n + 1 else 0) = false := by
    cases c
    · rfl
    · exact decide_eq_false (by simp only [if_true]; omega)
  cases on with
  | true =>
    unfold State.edgeMeasured
    simp only [if_true] at hs hf ⊢
    simp only [hrun hs, hrun hf, Bool.false_eq_true, if_false, bw_false, true_or, if_true]
    exact ⟨_, _, rfl, rfl, rfl, fun _ => rfl, fun h => (by cases h), rfl, Bank.get_set_self ..⟩
  | false =>
    unfold State.edgeMeasured
    simp only [Bool.false_eq_true, if_false] at hs hf ⊢
    simp only [hrun hs, hrun hf, Bool.false_eq_true, if_false, bw_false, false_or]
    refine ⟨_, _, rfl, rfl, ?_, fun h => (by cases h), fun _ => rfl, rfl, Bank.get_set_self ..⟩
    by_cases hz : (s.leg t l).hiz = true <;> simp only [GateSw.compare, hz, if_true, if_false, Bool.false_eq_true]

/-- The command for a leg and an edge that count. -/
theorem exec_edge {s : State} {t l seg ticks : Nat} {w : Switch} {on dev : Bool} (hr : s.inReset = false) (h : s.hasLeg t l = true)
    (hc : (s.leg t l).edgeCounts w on = true) (hi : ((s.leg t l).sw w).inTurn seg = true) :
    exec (.gateEdgeMeasured t l w on ticks seg dev) s = .next (s.quiet.edgeMeasured t l w on ticks seg dev) := by
  have h' : s.quiet.hasLeg t l = true := h
  have hc' : (s.quiet.leg t l).edgeCounts w on = true := hc
  have hi' : ((s.quiet.leg t l).sw w).inTurn seg = true := hi
  rw [exec_gateEdgeMeasured, State.command_quiet _ hr]
  exact congrArg _ (if_pos (by rw [h', hc', hi']; rfl))

/-- A leg whose driver is written. -/
theorem State.leg_setSw (s : State) (t l : Nat) (w : Switch) (y : GateSw) (fl : Word) :
    ((s.updLeg t l fun x => { (x.setSw w y) with flags := fl }).leg t l).sw w = y ∧
    ∀ m j, (m, j) ≠ (t, l) → (s.updLeg t l fun x => { (x.setSw w y) with flags := fl }).leg m j = s.leg m j := by
  refine ⟨?_, fun m j h => ?_⟩
  · rw [State.leg_updLeg_self]
    cases w <;> rfl
  · rw [State.leg_updLeg]
    exact if_neg fun he => h (Prod.ext he.1 he.2)

/-! ### Bootstraps (R292 to R294) -/

theorem State.bootGood_alone {s : State} {t l : Nat} (h : s.hasLeg t l = true) (hb : (s.leg t l).bstOk = false) (hp : (s.leg t l).precharge = false)
    (hm : (s.leg t l).mode ≠ 1) : s.bootGood t l = s.setLeg t l { s.leg t l with bstOk := true }.retry := by
  have hx : ({ s.leg t l with bstOk := true, precharge := false } : Leg) = { s.leg t l with bstOk := true } := by rw [← hp]
  have hgood : s.bootGood t l = ((s.updLeg t l fun x => { x with bstOk := true, precharge := false }).updLeg t l Leg.retry).legSettle t l :=
    (if_neg (by rw [h, hb]; decide)).trans (if_neg (by rw [hp]; decide))
  have hupd : (s.updLeg t l fun x => { x with bstOk := true, precharge := false }).updLeg t l Leg.retry =
      s.setLeg t l { s.leg t l with bstOk := true }.retry := by
    rw [← hx]
    unfold State.updLeg
    rw [State.leg_setLeg_self, State.setLeg_setLeg]
  rw [hgood, hupd]
  refine State.legSettle_otherMode ?_
  rw [State.leg_setLeg_self, Leg.retry_mode]
  exact hm

theorem State.bootGood_precharged {s : State} {t l : Nat} (h : s.hasLeg t l = true) (hb : (s.leg t l).bstOk = false)
    (hp : (s.leg t l).precharge = true) :
    s.bootGood t l = (s.setLeg t l { s.leg t l with bstOk := true, precharge := false }).prechargeDone t l :=
  (if_neg (by rw [h, hb]; decide)).trans (if_pos hp)

/-- Settles O49: an edge in turn writes its driver, and a bootstrap its leg. -/
theorem edgesAndBootstrapsAreWatched : Obligations.EdgesAndBootstrapsAreWatched := by
  unfold Obligations.EdgesAndBootstrapsAreWatched
  intro t l w s hr ht hl x g T tol next
  have hleg : s.hasLeg t l = true := State.hasLeg_of_lt ht hl
  have hx : s.quiet.leg t l = x := rfl
  refine ⟨fun ticks seg hz hi hs hf => ?_, fun ticks seg hz hi hs hf => ?_, fun ticks seg hz hc hi hs hf => ?_, fun on ticks seg dev h => ?_,
    fun seg h => ?_, fun seg h => ?_, fun seg h => ?_, fun h => ?_, fun h => ?_, fun hp hz => ?_, fun hp hz => ?_, fun hp => ?_,
    fun hb hp hm => ?_, fun hb hp => ?_, fun hb => ?_⟩
  · obtain ⟨y, fl, heq, hon, hoff, htsw, -, hact, hdev⟩ := State.edgeMeasured_plain (s := s.quiet) (t := t) (l := l) (w := w) (on := true)
      (ticks := ticks) (seg := seg) hs hf
    obtain ⟨hy, hother⟩ := s.quiet.leg_setSw t l w y fl
    refine ⟨_, exec_edge hr hleg (by unfold Leg.edgeCounts; rw [hz]; rfl) hi, ?_⟩
    rw [heq, hy]
    exact ⟨hon, htsw rfl, hoff, hact, hdev, hother⟩
  · obtain ⟨y, fl, heq, hon, hoff, -, htsw, hact, hdev⟩ := State.edgeMeasured_plain (s := s.quiet) (t := t) (l := l) (w := w) (on := false)
      (ticks := ticks) (seg := seg) hs hf
    obtain ⟨hy, hother⟩ := s.quiet.leg_setSw t l w y fl
    have hno : ¬ (false = true ∨ x.hiz = true) := by rw [hz]; decide
    refine ⟨_, exec_edge hr hleg (by unfold Leg.edgeCounts; rw [hz]; rfl) hi, ?_⟩
    rw [heq, hy]
    exact ⟨hoff.trans (if_neg hno), htsw rfl, hon, hact, hdev, hother⟩
  · obtain ⟨y, fl, heq, hon, hoff, -, htsw, hact, hdev⟩ := State.edgeMeasured_plain (s := s.quiet) (t := t) (l := l) (w := w) (on := false)
      (ticks := ticks) (seg := seg) hs hf
    obtain ⟨hy, hother⟩ := s.quiet.leg_setSw t l w y fl
    refine ⟨_, exec_edge hr hleg ?_ hi, ?_⟩
    · have hcmd : ((s.leg t l).sw w).cmd = false := hc
      unfold Leg.edgeCounts
      rw [hcmd]
      simp
    · rw [heq, hy]
      exact ⟨hoff.trans (if_pos (.inr hz)), hon, htsw rfl, hact, hdev, hother⟩
  · rw [exec_gateEdgeMeasured, State.command_quiet _ hr]
    refine congrArg _ (if_neg ?_)
    rw [hx]
    rcases h with ⟨hz, h⟩ | h
    · have hno : x.edgeCounts w on = false := by
        unfold Leg.edgeCounts
        rw [hz]
        rcases h with h | h
        · simp [h]
        · have hcmd : (x.sw w).cmd = true := h
          simp [hcmd]
      rw [hno]
      simp
    · have hturn : (x.sw w).inTurn seg = false := h
      rw [hturn]
      simp
  · rw [exec_segmentConductsOff, State.command_quiet _ hr]
    exact congrArg _ (if_pos (by rw [show s.quiet.hasLeg t l = true from hleg]; exact h))
  · rw [exec_segmentConductsOff, State.command_quiet _ hr]
    have hno : ((s.quiet.leg t l).sw w).segOff seg = false := h
    exact congrArg _ (if_neg (by rw [hno, Bool.and_false]; decide))
  · unfold GateSw.segOff
    rcases h with h | h <;> simp [h]
  · rw [exec_bstUv, State.command_quiet _ hr]
    exact congrArg _ (if_pos (by rw [show s.quiet.hasLeg t l = true from hleg]; exact h))
  · rw [exec_bstUv, State.command_quiet _ hr]
    exact congrArg _ (if_neg (by rw [hx, h, Bool.and_false]; decide))
  · rw [exec_prechargeTimeout, State.command_quiet _ hr]
    exact congrArg _ ((if_pos (by rw [show s.quiet.hasLeg t l = true from hleg]; exact hp)).trans (if_pos hz))
  · rw [exec_prechargeTimeout, State.command_quiet _ hr]
    exact congrArg _ ((if_pos (by rw [show s.quiet.hasLeg t l = true from hleg]; exact hp)).trans (if_neg (by rw [hz]; decide)))
  · rw [exec_prechargeTimeout, State.command_quiet _ hr]
    exact congrArg _ (if_neg (by rw [hx, hp, Bool.and_false]; decide))
  · rw [exec_bootstrapGood, State.command_quiet _ hr, State.bootGood_alone (s := s.quiet) hleg hb hp hm]
    rfl
  · rw [exec_bootstrapGood, State.command_quiet _ hr, State.bootGood_precharged (s := s.quiet) hleg hb hp]
    rfl
  · rw [exec_bootstrapGood, State.command_quiet _ hr]
    exact congrArg _ (if_pos (by rw [hx, hb, Bool.or_true]))

end Sys2Proof.Machine
end


section
/-! SUPPORT. The fixed-frequency generator and the tile ADC (O54). -/

namespace Sys2Proof.Machine

/-! ### The generator (R220 to R223) -/

/-- A leg whose generator runs: no phase of a pulse has run out. -/
theorem State.phases_go_on {s : State} {t l : Nat}
    (h : (s.leg t l).solCur = none ∨ 0 < (s.leg t l).solLeft) : (s.pullInEnd t l).holdEnd t l = s := by
  have hdone (p : SolPhase) (hl : 0 < (s.leg t l).solLeft) : (s.leg t l).phaseDone p = false := by
    simp [Leg.phaseDone, Nat.pos_iff_ne_zero.1 hl]
  have hpull : s.pullInEnd t l = s := by
    unfold State.pullInEnd
    split
    · rfl
    · next d hd =>
      rcases h with h | h
      · rw [h] at hd
        cases hd
      · rw [hdone _ h]
        exact if_neg (by simp)
  rw [hpull]
  unfold State.holdEnd
  split
  · rfl
  · next d hd =>
    rcases h with h | h
    · rw [h] at hd
      cases hd
    · rw [hdone _ h]
      exact if_neg (by simp)

/-- The legs of O54 whose generator runs. -/
structure State.generates (s : State) (t l : Nat) : Prop where
  phases : (s.pullInEnd t l).holdEnd t l = s
  runs : s.pwmRuns t l = true

theorem State.generates_of {s : State} {t l : Nat} (hleg : s.hasLeg t l = true)
    (h : ((s.leg t l).mode = 4 ∧ (s.glb.mode = .run ∨ s.glb.mode = .hold) ∧ (s.leg t l).solCur = none) ∨
      (((s.leg t l).mode = 2 ∨ (s.leg t l).mode = 3) ∧ ((s.leg t l).solPhase = .pullIn ∨ (s.leg t l).solPhase = .hold) ∧ 0 < (s.leg t l).solLeft))
    (hfree : s.legFree t l = true) (hf : s.spr.freeze = false) : s.generates t l := by
  rcases h with ⟨h1, h2, h3⟩ | ⟨h1, h2, h3⟩
  · exact ⟨State.phases_go_on (.inl h3), by simp [State.pwmRuns, hleg, hfree, hf, h1, h2]⟩
  · exact ⟨State.phases_go_on (.inr h3), by simp [State.pwmRuns, hleg, hfree, hf, h1, h2]⟩

/-- The transfer of a set whose duty needs no clamp. -/
theorem Leg.transfer_whole {x : Leg} (h : x.armedSet = true → x.shadow.duty ≤ 16 * (x.shadow.per - x.tMinOff)) :
    x.transfer = ({ x with armedSet := false, act := if x.armedSet then { x.shadow with ph := x.shadow.ph % max 1 x.shadow.per } else x.act }, false) := by
  unfold Leg.transfer
  cases ha : x.armedSet with
  | true =>
    have hle := h ha
    have hpast : decide (16 * (x.shadow.per - x.tMinOff) < x.shadow.duty) = false := decide_eq_false (by omega)
    simp only [if_true, hpast, Bool.or_false, Nat.min_eq_right hle]
  | false =>
    rw [if_neg (by decide), if_neg (by decide), ← ha]

section
variable {s : State} {t l : Nat}

theorem State.pwmBoundary_of_transfer (hg : s.generates t l) {y : Leg} (ht : (s.leg t l).transfer = (y, false))
    (hr : (s.leg t l).runs = true) (hyr : y.runs = true) (hyz : y.hiz = false) :
    s.pwmBoundary t l = s.setLeg t l { y with dither := (y.dither + 1) % 16, solLeft := y.solLeft - 1 } := by
  unfold State.pwmBoundary
  rw [hg.phases, if_pos hg.runs]
  extract_lets x r z x1 x2 driven x3 u
  have hrun : r = (y, false) := ht
  have hz : z = y := congrArg Prod.fst hrun
  have h1 : x1 = { y with dither := (y.dither + 1) % 16 } := hz ▸ if_pos hr
  have h2 : x2 = x1 := if_neg (by rw [h1]; exact Bool.eq_false_iff.1 hyz)
  have h3 : x3 = x1 := (if_pos (by rw [h2, h1]; exact hyr)).trans h2
  rw [hrun]
  show s.setLeg t l { x3 with solLeft := x3.solLeft - 1 } = _
  rw [h3, h1]

theorem State.pwmBoundary_runs (hg : s.generates t l) (hz : (s.leg t l).hiz = false) (hr : (s.leg t l).runs = true)
    (h : (s.leg t l).armedSet = true → (s.leg t l).shadow.duty ≤ 16 * ((s.leg t l).shadow.per - (s.leg t l).tMinOff)) :
    s.pwmBoundary t l = s.setLeg t l { s.leg t l with
      dither := ((s.leg t l).dither + 1) % 16, solLeft := (s.leg t l).solLeft - 1, armedSet := false
      act := if (s.leg t l).armedSet then { (s.leg t l).shadow with ph := (s.leg t l).shadow.ph % max 1 (s.leg t l).shadow.per } else (s.leg t l).act } :=
  State.pwmBoundary_of_transfer hg (Leg.transfer_whole h) hr hr hz

theorem State.driveOn_runs (hg : s.generates t l) (hr : (s.leg t l).runs = true) (hp : (s.leg t l).precharge = false)
    (hd : (s.leg t l).driveOn = false) (h0 : 0 < (s.leg t l).dTicks) :
    s.driveOn t l = if (s.leg t l).dTicks < hsTicks t l + (s.leg t l).tDt + (s.leg t l).tSw then
        s.setLeg t l { (s.leg t l).cmdOff (otherSw (driveSwitch (s.leg t l).mode)) with skipCnt := satAdd 65535 (s.leg t l).skipCnt 1 }
      else s.setLeg t l { (s.leg t l).drive (driveSwitch (s.leg t l).mode) with driveOn := true } := by
  unfold State.driveOn
  dsimp only
  rw [hg.phases, hg.runs, hr, hd, decide_eq_true h0, hp]
  rfl

theorem State.driveOn_idle (hg : s.generates t l) (h : (s.leg t l).driveOn = true ∨ (s.leg t l).dTicks = 0) : s.driveOn t l = s := by
  unfold State.driveOn
  dsimp only
  rw [hg.phases]
  refine if_neg ?_
  rcases h with h | h <;> simp [h]

theorem State.driveOff_runs (hg : s.generates t l) (hr : (s.leg t l).runs = true) (hp : (s.leg t l).precharge = false) {y z : Leg}
    (hy : y = (s.leg t l).cmdOff (driveSwitch (s.leg t l).mode))
    (hz : z = if (s.leg t l).driveOn = false ∧ ((s.leg t l).sw (otherSw (driveSwitch (s.leg t l).mode))).cmd = false then
      y.setSw (driveSwitch (s.leg t l).mode) { y.sw (driveSwitch (s.leg t l).mode) with dead := true } else y) :
    s.driveOff t l =
      if (s.leg t l).act.per - (s.leg t l).dTicks < (if (s.leg t l).driveOn then hsTicks t l else 0) + (s.leg t l).tDt + (s.leg t l).tSw then
        s.setLeg t l { z with driveOn := false, skipCnt := satAdd 65535 (s.leg t l).skipCnt 1 }
      else s.setLeg t l { z.drive (otherSw (driveSwitch (s.leg t l).mode)) with driveOn := false } := by
  unfold State.driveOff
  dsimp only
  rw [hg.phases, hg.runs, hr, hp, hz, hy]
  simp only [Bool.and_self, if_true, Bool.false_eq_true, if_false, Bool.and_eq_true, Bool.not_eq_true']

end

/-- A leg that is driven towards a switch commands it alone. -/
theorem Leg.drive_cmd (x : Leg) (w : Switch) : ((x.drive w).sw w).cmd = true ∧ ((x.drive w).sw (otherSw w)).cmd = false := by
  have hon (y : Leg) : ((y.cmdOn w).sw w).cmd = true ∧ (y.cmdOn w).sw (otherSw w) = y.sw (otherSw w) := by
    unfold Leg.cmdOn
    dsimp only
    split <;> exact ⟨congrArg GateSw.cmd (Leg.sw_setSw_self ..), Leg.sw_setSw_other ..⟩
  have hoff : ((x.cmdOff (otherSw w)).sw (otherSw w)).cmd = false := congrArg GateSw.cmd (Leg.sw_setSw_self ..)
  unfold Leg.drive
  dsimp only
  split
  · split
    · next h => exact ⟨h, hoff⟩
    · exact ⟨(hon _).1, (congrArg GateSw.cmd (hon _).2).trans hoff⟩
  · next hno =>
    replace hno := Bool.eq_false_iff.2 hno
    split
    · next h => exact ⟨h, hno⟩
    · exact ⟨(hon _).1, (congrArg GateSw.cmd (hon _).2).trans hno⟩

/-! ### The queue of the ADC (R226, R227) -/

section
variable {l : Nat} {which : Bool} {ch dt : Nat}

theorem AdcReq.before_other {e : AdcReq} (h : ∀ d, e.rank = some d → d.1 ≠ dt) : (AdcReq.leg l which ch dt).before e = false := by
  unfold AdcReq.before
  cases he : e.rank with
  | none => rfl
  | some b => simp [AdcReq.rank, (h b he).symm]

/-- A request that goes before none of the queue joins it last. -/
theorem AdcReq.join_last {r : AdcReq} {q : List AdcReq} (h : ∀ e ∈ q, r.before e = false) : r.join q = q ++ [r] := by
  induction q with
  | nil => rfl
  | cons x q ih =>
    unfold AdcReq.join
    rw [h x List.mem_cons_self, ih fun e he => h e (List.mem_cons_of_mem _ he)]
    rfl

/-- A request joins the queue before the first that it goes before. -/
theorem AdcReq.join_before {r x : AdcReq} {pre : List AdcReq} (h : ∀ e ∈ pre, r.before e = false) (hx : r.before x = true) (l : List AdcReq) :
    r.join (pre ++ x :: l) = pre ++ r :: x :: l := by
  induction pre with
  | nil => exact if_pos hx
  | cons y pre ih =>
    rw [List.cons_append, AdcReq.join, h y List.mem_cons_self, ih fun e he => h e (List.mem_cons_of_mem _ he)]
    rfl

/-- The last element that qualifies is dropped. -/
theorem dropLast?_none {α : Type} {p : α → Bool} {b : List α} (h : ∀ e ∈ b, p e = false) : dropLast? b p = none := by
  induction b with
  | nil => rfl
  | cons y b ih =>
    rw [dropLast?, ih fun e he => h e (List.mem_cons_of_mem _ he)]
    exact if_neg (by rw [h y List.mem_cons_self]; decide)

theorem dropLast?_append {α : Type} {p : α → Bool} {x : α} {b : List α} (hx : p x = true) (h : ∀ e ∈ b, p e = false) (a : List α) :
    dropLast? (a ++ x :: b) p = some (a ++ b) := by
  induction a with
  | nil =>
    rw [List.nil_append, dropLast?, dropLast?_none h]
    exact if_pos hx
  | cons y a ih =>
    rw [List.cons_append, dropLast?, ih]
    rfl

theorem getLast?_filter_append {α : Type} {p : α → Bool} {x : α} {b : List α} (hx : p x = true) (h : ∀ e ∈ b, p e = false) (a : List α) :
    ((a ++ x :: b).filter p).getLast? = some x := by
  have hb : b.filter p = [] := List.filter_eq_nil_iff.2 fun e he => by rw [h e he]; decide
  rw [List.filter_append, List.filter_cons_of_pos hx, hb]
  simp

/-- A request of a leg within the queue, as one more waits. -/
theorem adcWaiting_insert {pre : List AdcReq} {r x : AdcReq} (hr : r.ofSupply = false) (hx : x.ofSupply = false) :
    adcWaiting (pre ++ [r, x]) = adcWaiting (pre ++ [x]) + 1 := by
  cases pre with
  | nil => simp [adcWaiting, hr, hx]
  | cons y pre =>
    cases hy : y.ofSupply <;> simp [adcWaiting, hr, hx, hy]

end

section
variable {s : State} {t : Nat} {r : AdcReq}

/-- A request for which there is room. -/
theorem State.adcRequest_room (h : adcWaiting (s.adcJoined t r) ≤ 4) : s.adcRequest t r = s.setTile t { s.tile t with adcQ := s.adcJoined t r } := if_pos h

/-- A request for which there is none: the last request of a leg is dropped and counted. -/
theorem State.adcRequest_full {a b : List AdcReq} {l : Nat} {which : Bool} {ch dt : Nat} (h : 4 < adcWaiting (s.adcJoined t r))
    (hq : s.adcJoined t r = a ++ .leg l which ch dt :: b) (hb : ∀ e ∈ b, e.ofSupply = true) :
    ((s.adcRequest t r).tile t).adcQ = a ++ b ∧ ((s.adcRequest t r).tile t).drop = satAdd 65535 (s.tile t).drop 1 ∧
    (s.adcRequest t r).leg t l = { s.leg t l with adcDrop := true } ∧ ∀ i, i ≠ l → (s.adcRequest t r).leg t i = s.leg t i := by
  have hsup : (fun e : AdcReq => !e.ofSupply) (.leg l which ch dt) = true := rfl
  have hbn : ∀ e ∈ b, (fun e : AdcReq => !e.ofSupply) e = false := fun e he => by simp [hb e he]
  have hfull : s.adcRequest t r = ((s.updTile t fun x => { x with adcQ := a ++ b }).updTile t fun y => { y with drop := satAdd 65535 y.drop 1 }).updLeg t l
      fun y => { y with adcDrop := true } := by
    refine (if_neg (Nat.not_le.2 h)).trans ?_
    rw [hq, dropLast?_append (p := fun e : AdcReq => !e.ofSupply) hsup hbn, getLast?_filter_append (p := fun e : AdcReq => !e.ofSupply) hsup hbn]
    rfl
  have hleg (i : Nat) : ((s.updTile t fun x => { x with adcQ := a ++ b }).updTile t fun y => { y with drop := satAdd 65535 y.drop 1 }).leg t i =
      s.leg t i := by
    unfold State.leg
    rw [State.tile_updTile_self, State.tile_updTile_self]
  have htile : (((s.updTile t fun x => { x with adcQ := a ++ b }).updTile t fun y => { y with drop := satAdd 65535 y.drop 1 }).tile t) =
      { s.tile t with adcQ := a ++ b, drop := satAdd 65535 (s.tile t).drop 1 } := by
    rw [State.tile_updTile_self, State.tile_updTile_self]
  rw [hfull]
  generalize (s.updTile t fun x => { x with adcQ := a ++ b }).updTile t (fun y => { y with drop := satAdd 65535 y.drop 1 }) = u at hleg htile ⊢
  have hkeep : (u.updLeg t l fun y => { y with adcDrop := true }).tile t =
      { u.tile t with legs := Bank.set (u.tile t).legs l { u.leg t l with adcDrop := true } } := State.tile_setTile_self ..
  refine ⟨?_, ?_, ?_, fun i hi => ?_⟩
  · rw [hkeep, htile]
  · rw [hkeep, htile]
  · rw [State.leg_updLeg_self, hleg]
  · rw [State.leg_updLeg, if_neg fun h => hi h.2, hleg]

end

/-- A trigger that asks for a conversion. -/
theorem exec_trigger {s : State} {t l : Nat} {which : Bool} (hr : s.inReset = false) (hleg : s.hasLeg t l = true) (hm : (s.leg t l).pwmMode = true)
    (hrun : (s.leg t l).runs = true) (hf : s.spr.freeze = false) (hb : bit (s.leg t l).ctl (if which then 9 else 8) = true) :
    exec (.converterTrigger t l which) s =
      .next (s.quiet.adcRequest t (.leg l which (fld (s.leg t l).ctl (if which then 28 else 24) 4) s.dt)) := by
  have h1 : s.quiet.hasLeg t l = true := hleg
  have h2 : (s.quiet.leg t l).pwmMode = true := hm
  have h3 : (s.quiet.leg t l).runs = true := hrun
  have h4 : bit (s.quiet.leg t l).ctl (if which then 9 else 8) = true := hb
  rw [exec_converterTrigger, State.command_quiet _ hr]
  exact congrArg _ (if_pos (by rw [h1, h2, h3, h4, State.quiet_spr, hf]; rfl))

/-- A request that goes before none of the queue: last before the time of the supplies, before them else. -/
theorem State.adcJoined_last {s : State} {t : Nat} {r : AdcReq} (h : ∀ e ∈ (s.tile t).adcQ, r.before e = false) :
    s.adcJoined t r = if s.supplyTime then (s.tile t).adcQ ++ [r]
      else (s.tile t).adcQ.filter (fun e => !e.ofSupply) ++ r :: (s.tile t).adcQ.filter AdcReq.ofSupply := by
  unfold State.adcJoined
  dsimp only
  split
  · exact AdcReq.join_last h
  · rw [AdcReq.join_last fun e he => h e (List.mem_filter.1 he).1, List.append_assoc]
    rfl

theorem AdcReq.mem_supplies {q : List AdcReq} : ∀ e ∈ q.filter AdcReq.ofSupply, e.ofSupply = true := fun _ he => (List.mem_filter.1 he).2

/-- A conversion that is done: the oldest request. -/
theorem State.adcDone_leg {s : State} {t l : Nat} {which : Bool} {ch dt : Nat} {rest : List AdcReq} (h : (s.tile t).adcQ = .leg l which ch dt :: rest)
    (code : BitVec 12) :
    s.adcDone t code = (s.updTile t fun x => { x with adcQ := rest }).updLeg t l fun x => { x with res := adcResult x.res which code } := by
  unfold State.adcDone
  rw [h]
  rfl

theorem State.adcDone_vm {s : State} {t : Nat} {rest : List AdcReq} (h : (s.tile t).adcQ = .vm :: rest) (code : BitVec 12) :
    s.adcDone t code = if s.supplyTime then s.setTile t { s.tile t with adcQ := rest, vmCode := code.toNat } else s := by
  have hset : ((s.updTile t fun x => { x with adcQ := rest }).updTile t fun x => { x with vmCode := code.toNat }) =
      s.setTile t { s.tile t with adcQ := rest, vmCode := code.toNat } := by
    unfold State.updTile
    rw [State.tile_setTile_self, State.setTile_setTile]
  unfold State.adcDone
  rw [h]
  dsimp only
  cases s.supplyTime
  · rfl
  · exact hset

/-- A tile and one of its legs, updated. -/
theorem State.updLeg_updTile_spec {s : State} {t : Nat} {f : Tile → Tile} (hf : ∀ y, (f y).legs = y.legs) (j : Nat) (g : Leg → Leg) :
    (((s.updTile t f).updLeg t j g).tile t).adcQ = (f (s.tile t)).adcQ ∧ ((s.updTile t f).updLeg t j g).leg t j = g (s.leg t j) ∧
    ∀ i, i ≠ j → ((s.updTile t f).updLeg t j g).leg t i = s.leg t i := by
  have hleg (i : Nat) : (s.updTile t f).leg t i = s.leg t i := by
    unfold State.leg
    rw [State.tile_updTile_self, hf]
  refine ⟨?_, ?_, fun i hi => ?_⟩
  · have hkeep : ((s.updTile t f).updLeg t j g).tile t = { (s.updTile t f).tile t with
        legs := Bank.set ((s.updTile t f).tile t).legs j (g ((s.updTile t f).leg t j)) } := State.tile_setTile_self ..
    rw [hkeep, State.tile_updTile_self]
  · rw [State.leg_updLeg_self, hleg]
  · rw [State.leg_updLeg, if_neg fun h => hi h.2, hleg]

/-- Settles O54: generator and queue at their own commands. -/
theorem generatorsAndConvertersRun : Obligations.GeneratorsAndConvertersRun := by
  unfold Obligations.GeneratorsAndConvertersRun
  intro t l s hr hleg x w
  refine ⟨rfl, fun hmode hfree hf hz hrun hp => ?_, x.drive_cmd, fun which hm hrun hf hb => ?_, fun which hb => ?_, fun code hq => ?_,
    fun code rest j which ch at_ hq => ?_, fun code rest hq hs => ?_, fun code rest hq hs => ?_⟩
  · have hg : s.quiet.generates t l := State.generates_of (s := s.quiet) hleg hmode hfree hf
    refine ⟨fun p hpsh hduty => ?_, fun hd hlong h0 => ?_, fun hd hshort h0 => ?_, fun hd => ?_, fun y z hy hz' => ⟨fun hlong => ?_, fun hshort => ?_⟩⟩
    · subst hpsh
      rw [exec_pwmPeriodBoundary, State.command_quiet _ hr, State.pwmBoundary_runs hg hz hrun hduty]
      rfl
    · rw [exec_pwmDriveOn, State.command_quiet _ hr, State.driveOn_runs hg hrun hp hd h0]
      exact congrArg _ (if_neg (Nat.not_lt.2 hlong))
    · rw [exec_pwmDriveOn, State.command_quiet _ hr, State.driveOn_runs hg hrun hp hd h0]
      exact congrArg _ (if_pos hshort)
    · rw [exec_pwmDriveOn, State.command_quiet _ hr, State.driveOn_idle hg hd]
    · rw [exec_pwmDriveOff, State.command_quiet _ hr, State.driveOff_runs hg hrun hp hy hz']
      exact congrArg _ (if_neg (Nat.not_lt.2 hlong))
    · rw [exec_pwmDriveOff, State.command_quiet _ hr, State.driveOff_runs hg hrun hp hy hz']
      exact congrArg _ (if_pos hshort)
  · intro q r
    refine ⟨?_, fun pre j v ch hq hlj hpre hsup => ?_⟩
    · intro hother joined
      have hjoin : s.quiet.adcJoined t r = joined := State.adcJoined_last (s := s.quiet) fun e he => AdcReq.before_other (hother e he)
      refine ⟨fun hroom => ?_, fun hfull => ?_⟩
      · rw [exec_trigger hr hleg hm hrun hf hb, State.adcRequest_room (s := s.quiet) (by rw [hjoin]; exact hroom), hjoin]
        rfl
      · have hjoined : joined = (if s.supplyTime then q else q.filter fun e => !e.ofSupply) ++ r :: (if s.supplyTime then [] else q.filter AdcReq.ofSupply) := by
          cases hs : s.supplyTime <;> simp [joined, hs]
        obtain ⟨h1, h2, h3, -⟩ := State.adcRequest_full (s := s.quiet) (t := t) (r := r) (b := if s.supplyTime then [] else q.filter AdcReq.ofSupply)
          (by rw [hjoin]; exact hfull) (hjoin.trans hjoined) (fun e he => by
            split at he
            · cases he
            · exact AdcReq.mem_supplies e he)
        refine ⟨_, exec_trigger hr hleg hm hrun hf hb, h1.trans ?_, h2, h3⟩
        cases s.supplyTime <;> simp
    · have hjoin : s.quiet.adcJoined t r = pre ++ [r, .leg j v ch s.dt] := by
        have hlt : (r.before (.leg j v ch s.dt)) = true := by simp [r, AdcReq.before, AdcReq.rank, hlj]
        have hall : ∀ e ∈ pre, r.before e = false := fun e he => AdcReq.before_other (hpre e he)
        have hq' : (s.quiet.tile t).adcQ = pre ++ [.leg j v ch s.dt] := hq
        exact (if_pos hsup).trans ((congrArg r.join hq').trans (AdcReq.join_before hall hlt []))
      have hwait : adcWaiting (pre ++ [r, .leg j v ch s.dt]) = adcWaiting q + 1 := (adcWaiting_insert rfl rfl).trans (by rw [hq])
      refine ⟨fun hroom => ?_, fun hfull => ?_⟩
      · rw [exec_trigger hr hleg hm hrun hf hb, State.adcRequest_room (s := s.quiet) (by rw [hjoin, hwait]; exact hroom), hjoin]
        rfl
      · obtain ⟨h1, h2, h3, h4⟩ := State.adcRequest_full (s := s.quiet) (t := t) (r := r) (a := pre ++ [r]) (b := []) (l := j) (which := v) (ch := ch)
          (dt := s.dt) (by rw [hjoin, hwait]; exact Nat.lt_succ_of_le hfull) (by rw [hjoin, List.append_assoc]; rfl) (fun e he => by cases he)
        exact ⟨_, exec_trigger hr hleg hm hrun hf hb, h1.trans (List.append_nil _), h2, h3, h4⟩
  · have hno : bit (s.quiet.leg t l).ctl (if which then 9 else 8) = false := hb
    rw [exec_converterTrigger, State.command_quiet _ hr]
    exact congrArg _ (if_neg (by rw [hno, Bool.and_false]; decide))
  · have hno : (s.quiet.tile t).adcQ = [] := hq
    rw [exec_adcConversionDone, State.command_quiet _ hr]
    unfold State.adcDone
    rw [hno]
  · refine exists_next (exec_adcConversionDone t code s) hr ?_
    rw [State.adcDone_leg (s := s.quiet) hq]
    exact State.updLeg_updTile_spec (s := s.quiet) (f := fun y => { y with adcQ := rest }) (fun _ => rfl) j _
  · rw [exec_adcConversionDone, State.command_quiet _ hr, State.adcDone_vm (s := s.quiet) hq]
    exact congrArg _ (if_pos hs)
  · rw [exec_adcConversionDone, State.command_quiet _ hr, State.adcDone_vm (s := s.quiet) hq]
    exact congrArg _ (if_neg (by rw [show s.quiet.supplyTime = s.supplyTime from rfl, hs]; decide))

end Sys2Proof.Machine
end


section
/-! SUPPORT. The line PLL, the oscillators and the reference outputs (O56). -/

namespace Sys2Proof.Machine

/-! ### The line PLL -/

/-- The limits of the PLL lie within a tenth of the nominal rate. -/
theorem Ref.pllLimits_bounds (r : Ref) (gap : Nat) (e : Int) :
    r.lineRateNom * 9 / 10 ≤ (r.pllLimits gap e).1 ∧ (r.pllLimits gap e).1 ≤ (r.pllLimits gap e).2 ∧
      (r.pllLimits gap e).2 ≤ r.lineRateNom * 11 / 10 := by
  unfold Ref.pllLimits
  generalize r.lineRateNom = nom
  generalize 4096 * 2 ^ 40 / max 1 gap = line
  dsimp only
  split <;> split <;> omega

theorem Ref.pllRate_bounds (r : Ref) (n gap : Nat) (e : Int) :
    r.lineRateNom * 9 / 10 ≤ r.pllRate n gap e ∧ r.pllRate n gap e ≤ r.lineRateNom * 11 / 10 := by
  obtain ⟨hlo, hle, hhi⟩ := r.pllLimits_bounds gap e
  unfold Ref.pllRate
  dsimp only
  generalize (Config.linePllRate n (fld r.lineCfg 4 2) e).toNat = x
  have hx : x % ((r.pllLimits gap e).2 - (r.pllLimits gap e).1 + 1) < (r.pllLimits gap e).2 - (r.pllLimits gap e).1 + 1 := Nat.mod_lt x (Nat.zero_lt_succ ((r.pllLimits gap e).2 - (r.pllLimits gap e).1))
  omega

/-- What an edge does to the lock leaves the rates and their register as they are. -/
theorem Ref.lineLock_rates (r : Ref) (e : Int) : (r.lineLock e).1.lineRate = r.lineRate ∧ (r.lineLock e).1.lineNom = r.lineNom := by
  unfold Ref.lineLock
  dsimp only
  split <;> repeat' split
  all_goals exact ⟨rfl, rfl⟩

theorem Ref.lineLock_rateNom (r : Ref) (e : Int) : (r.lineLock e).1.lineRateNom = r.lineRateNom :=
  congrArg (fun w : Word => 4096 * 2 ^ 40 / max 1 (fld w 0 24 * 200)) (r.lineLock_rates e).2

/-- The line side after an edge at `at_` with phase error `e` that loses no lock, `k` the free value of its rate. -/
def Ref.edgeTaken (r : Ref) (k at_ : Nat) (e : Int) : Ref :=
  let x := (r.lineLock e).1
  { x with
    linePeriod := at_ - r.lineDt, lineDt := at_, flags := x.flags ||| bw (r.lineLock e).2 3
    lineRate := if x.lock = LockState.lost then x.lineRate
      else if x.lock = LockState.acquiring ∧ r.lock ≠ LockState.acquiring then x.lineRateNom
      else x.pllRate k (at_ - r.lineDt) e }

/-- At an edge of the line source that loses no lock the line side alone changes. -/
theorem State.lineEdgeAt_taken {s : State} {n : Nat} {e : Int} (hn : s.ref.isLine n = true) (hr : s.ref.run = true)
    (hc : bit (s.inp.lineCfgOf n) 0 = true)
    (he : e = phaseError (rcBefore s.ref s.str (s.dt - (s.dt - 200 * (fld (s.inp.lineCfgOf n) 8 8 - 1))) / 2 ^ 40))
    (hl : (s.ref.lineLock e).2 = false) :
    s.lineEdgeAt n = { s with ref := s.ref.edgeTaken s.fresh (s.dt - 200 * (fld (s.inp.lineCfgOf n) 8 8 - 1)) e, fresh := s.fresh + 1 } := by
  unfold State.lineEdgeAt Ref.edgeTaken
  rw [if_pos (by simp [hn, hr, hc])]
  dsimp only
  rw [← he, hl, if_neg Bool.false_ne_true]
  rfl

section
variable (r : Ref) (k at_ : Nat) (e : Int)

theorem Ref.edgeTaken_lost (h : (r.lineLock e).1.lock = .lost) : (r.edgeTaken k at_ e).lineRate = r.lineRate :=
  (if_pos h).trans (r.lineLock_rates e).1

theorem Ref.edgeTaken_acquires (h : (r.lineLock e).1.lock = .acquiring) (h0 : r.lock ≠ .acquiring) :
    (r.edgeTaken k at_ e).lineRate = r.lineRateNom :=
  (if_neg (by rw [h]; decide)).trans ((if_pos ⟨h, h0⟩).trans (r.lineLock_rateNom e))

theorem Ref.edgeTaken_bounds (h : (r.lineLock e).1.lock ≠ .lost) :
    r.lineRateNom * 9 / 10 ≤ (r.edgeTaken k at_ e).lineRate ∧ (r.edgeTaken k at_ e).lineRate ≤ r.lineRateNom * 11 / 10 := by
  by_cases ha : (r.lineLock e).1.lock = .acquiring ∧ r.lock ≠ .acquiring
  · rw [r.edgeTaken_acquires k at_ e ha.1 ha.2]
    omega
  · have hrate : (r.edgeTaken k at_ e).lineRate = (r.lineLock e).1.pllRate k (at_ - r.lineDt) e := (if_neg h).trans (if_neg ha)
    rw [hrate, ← r.lineLock_rateNom e]
    exact Ref.pllRate_bounds ..

end

/-! ### The oscillators -/

theorem State.primaryFails_used {s : State} (h : s.glb.bkpActive = false) : s.primaryFails = (s.wear 6).oscSwitch :=
  if_pos (by rw [h]; rfl)

theorem State.oscSwitch_backup {s : State} (h : s.glb.bkpActive = false) :
    s.oscSwitch = State.fault (({ s with
        glb := { s.glb with bkpActive := true, bkpOk := true, priOk := false, clkDev := Config.backupDeviation s.fresh }
        ref := { s.ref with tcC := 0, tcAct := false, tcNext := none }, fresh := s.fresh + 1 } : State).spareIn) srcOscSwitch
      (wd (Config.backupDeviation s.fresh).toNat) .none := by
  unfold State.oscSwitch
  exact if_neg (by rw [h]; decide)

theorem State.primaryFails_spare {s : State} (h : s.glb.bkpActive = true) :
    s.primaryFails = if s.glb.priOk then ({ s with glb := { s.glb with priOk := false } } : State).wear 6 else s :=
  if_neg (by rw [h]; decide)

/-- A device's output whose RC has passed a multiple of DIV begins a pulse. -/
theorem State.outMark_crossed {s : State} {n : Nat} (hn : n < 2) (hlive : s.outputsLive = true) (hrun : s.ref.run = true)
    (hm : fld (s.ref.outCfgOf n) 0 3 = 1) (hx : crosses s.ref.markFrom (s.ref.rc / 2 ^ 40) (fld (s.ref.outDivOf n) 0 24) = true) :
    s.outMark n = s.outPulse n :=
  if_pos (by rw [hlive, hrun, hx, decide_eq_true hn, decide_eq_true hm]; decide)

/-- Settles O56: the line source, the oscillators and the reference outputs. -/
theorem clocksFollowTheirSources : Obligations.ClocksFollowTheirSources := by
  unfold Obligations.ClocksFollowTheirSources
  intro n s hr
  refine ⟨fun e level hn hrun hc hq hlev he hl => ?_, fun level hq => ?_, fun level h hq => ?_, fun h => ⟨?_, ?_⟩, fun hn hrun hlock _ h => ?_,
    fun hn hrun hlock h => ?_, fun hb => ⟨?_, ?_⟩, fun hb => ?_, fun hb => ⟨fun hp => ?_, fun hp => ⟨?_, ?_⟩, fun hret hp => ?_⟩, ?_, ?_,
    fun hn hlive hrun hm hx => ⟨fun hp => ?_, fun hp => ?_⟩, fun hx => ?_, fun hp => ?_, fun hp => ?_⟩
  · refine exists_next (exec_lineEdge _ s) hr ?_
    have hedge : s.quiet.lineEdge n level = ({ s.quiet with inp := { s.inp with lineLast := Bank.set s.inp.lineLast n (some (s.dt, level)) } } : State).lineEdgeAt n :=
      (if_pos hq).trans (if_neg (by rw [hlev]; exact fun h => (Bool.not_eq_self _).1 h))
    rw [hedge, State.lineEdgeAt_taken (s := { s.quiet with inp := { s.inp with lineLast := Bank.set s.inp.lineLast n (some (s.dt, level)) } }) hn hrun hc he hl]
    exact ⟨rfl, rfl, rfl, fun h => s.ref.edgeTaken_lost _ _ e h, fun h h0 => s.ref.edgeTaken_acquires _ _ e h h0,
      fun h => s.ref.edgeTaken_bounds _ _ e h, rfl, rfl⟩
  · rw [exec_lineEdge, State.command_quiet _ hr]
    exact congrArg _ (if_neg (by rw [show s.quiet.lineQualifies n level = s.lineQualifies n level from rfl, hq]; decide))
  · rw [exec_lineEdge, State.command_quiet _ hr]
    refine congrArg _ ((if_pos hq).trans ?_)
    by_cases hlev : level = bit s.ref.lineCfg 0
    · exact if_pos hlev
    · refine (if_neg hlev).trans (if_neg ?_)
      rcases h with h | h | h
      · exact absurd h hlev
      · simp [h]
      · simp [h]
  · rw [exec_lineHoldover, State.command_quiet _ hr]
    refine congrArg _ (if_neg ?_)
    rcases h with h | h <;> simp [h]
  · rw [exec_lineLost, State.command_quiet _ hr]
    refine congrArg _ (if_neg ?_)
    rcases h with h | h <;> simp [h]
  · rw [exec_lineHoldover, State.command_quiet _ hr]
    exact congrArg _ (if_pos (by simp [hn, hrun, hlock, h]))
  · rw [exec_lineLost, State.command_quiet _ hr]
    exact congrArg _ (if_pos (by simp [hn, hrun, hlock, h]))
  · refine ⟨Config.backupDeviation s.fresh, ?_⟩
    rw [exec_oscSwitch, State.command_quiet _ hr, State.primaryFails_used (s := s.quiet) hb, State.oscSwitch_backup (s := s.quiet.wear 6) hb]
    rfl
  · rw [exec_returnToPrimary, State.command_quiet _ hr]
    exact congrArg _ (if_neg (by simp [hb]))
  · rw [exec_oscBkpFail, State.command_quiet _ hr]
    exact congrArg _ (if_neg (by rcases hb with hb | hb <;> simp [hb]))
  · rw [exec_oscSwitch, State.command_quiet _ hr, State.primaryFails_spare (s := s.quiet) hb]
    exact congrArg _ (if_pos hp)
  · rw [exec_oscSwitch, State.command_quiet _ hr, State.primaryFails_spare (s := s.quiet) hb]
    exact congrArg _ (if_neg (by rw [State.quiet_glb, hp]; decide))
  · rw [exec_oscBkpFail, State.command_quiet _ hr]
    exact congrArg _ (if_pos (by simp [hb, hp]))
  · rw [exec_returnToPrimary, State.command_quiet _ hr]
    exact congrArg _ (if_pos (by simp [hb, hp, hret]))
  · rw [exec_primaryOscGood, State.command_quiet _ hr]
    exact ⟨_, rfl⟩
  · rw [exec_clkLost, State.command_quiet _ hr]
    refine ⟨_, rfl, State.allHiz_glb .., ?_, by cases s.variant <;> decide, fun t l => ?_⟩
    · exact congrArg Prod.fst (State.allHiz_clock ..)
    · have h := State.allHiz_atHiz ({ s.quiet with glb := { s.glb with priOk := false, bkpOk := false } } : State) .hiz t l
      exact ⟨h.1, h.2.2.1, h.2.2.2.2⟩
  · refine exists_next (exec_refoutMark n s) hr ?_
    have hmark : s.quiet.outMark n = s.quiet.outPulse n := State.outMark_crossed (s := s.quiet) hn hlive hrun hm hx
    have hpulse : s.quiet.outPulse n = _ := if_neg (by rw [show s.quiet.pulsing n = false from hp]; decide)
    rw [hmark, hpulse]
    exact ⟨rfl, Bank.get_set_self ..⟩
  · rw [exec_refoutMark, State.command_quiet _ hr]
    exact congrArg _ ((State.outMark_crossed (s := s.quiet) hn hlive hrun hm hx).trans (if_pos hp))
  · rw [exec_refoutMark, State.command_quiet _ hr]
    exact congrArg _ (if_neg (by rw [State.quiet_ref, hx, Bool.and_false]; decide))
  · refine exists_next (exec_refoutPulseEnd n s) hr ?_
    have hend : s.quiet.outEnd n = _ := if_neg (by rw [show s.quiet.pulsing n = false from hp]; decide)
    rw [hend]
    exact ⟨rfl, Bank.get_set_self ..⟩
  · rw [exec_refoutPulseEnd, State.command_quiet _ hr]
    exact congrArg _ (if_pos hp)

end Sys2Proof.Machine
end


section
/-! SUPPORT. Sense inputs, step pairs and encoders (O55). -/

namespace Sys2Proof.Machine

/-! ### The filter of a sense input -/

/-- What the filter holds after the first `i + 1` samples, of which the held ones came before. -/
def samplesUpTo (held samples : List Bool) (i : Nat) : List Bool := ((samples.take (i + 1)).reverse ++ held).take 7

/-- The first sample shifts into the filter, and the others follow. -/
theorem samplesUpTo_succ (held r : List Bool) (x : Bool) (i : Nat) :
    samplesUpTo held (x :: r) (i + 1) = samplesUpTo ((x :: held).take 7) r i := by
  unfold samplesUpTo
  rw [List.take_succ_cons, List.reverse_cons, List.append_assoc, List.singleton_append, List.take_append, List.take_append, List.take_take]
  exact congrArg _ (congrArg (List.take · _) (Nat.min_eq_left (Nat.sub_le ..)).symm)

/-- The filter passes samples at none of which it takes a level, and then holds them. -/
theorem Inp.feed_eq_some (i : Inp) (n : Nat) (r last l : List Bool) (x : Bool) :
    (∃ m, i.feed n last r = some m ∧ (x :: m).take 7 = l) ↔
      (∀ j, j < r.length → i.takes n (samplesUpTo last r j) = none) ∧ samplesUpTo last (r ++ [x]) r.length = l := by
  induction r generalizing last with
  | nil => simp [Inp.feed, samplesUpTo]
  | cons y r ih =>
    rw [Inp.feed, List.cons_append, List.length_cons, samplesUpTo_succ]
    have hall : (∀ j, j < r.length + 1 → i.takes n (samplesUpTo last (y :: r) j) = none) ↔
        i.takes n ((y :: last).take 7) = none ∧ ∀ j, j < r.length → i.takes n (samplesUpTo ((y :: last).take 7) r j) = none := by
      refine ⟨fun h => ⟨h 0 (Nat.zero_lt_succ _), fun j hj => ?_⟩, fun ⟨h0, h⟩ j hj => ?_⟩
      · rw [← samplesUpTo_succ]
        exact h (j + 1) (Nat.succ_lt_succ hj)
      · cases j with
        | zero => exact h0
        | succ j => rw [samplesUpTo_succ]; exact h j (Nat.lt_of_succ_lt_succ hj)
    rw [hall, and_assoc, ← ih]
    cases i.takes n ((y :: last).take 7) with
    | none => simp
    | some v => simp

/-- The samples that follow those held are an event where the filter takes a level at the last of them and at none before. -/
theorem Inp.event_of_following {i : Inp} {n now : Nat} {earlier : List Bool} {x : Bool} (ht : now % 200 = 0)
    (hk : now / 200 + 1 = (i.hist n).count + (earlier ++ [x]).length) (v : Bool) (h : SenseHist) :
    i.event n now (earlier ++ [x]) = some (v, h) ↔
      i.takes n (samplesUpTo (i.hist n).last (earlier ++ [x]) earlier.length) = some v ∧
      (∀ j, j < earlier.length → i.takes n (samplesUpTo (i.hist n).last earlier j) = none) ∧
      h = { count := now / 200 + 1, last := samplesUpTo (i.hist n).last (earlier ++ [x]) earlier.length } := by
  have hgap : now / 200 + 1 - (i.hist n).count - (earlier ++ [x]).length = 0 := by omega
  unfold Inp.event
  rw [List.getLast?_append, List.getLast?_singleton, Option.some_or]
  dsimp only
  rw [if_neg (by omega), hgap, show (i.hist n).gap 0 = [] from rfl, ite_self, List.nil_append, List.dropLast_concat, Option.bind_eq_some_iff]
  have hfeed := i.feed_eq_some n earlier (i.hist n).last
  constructor
  · rintro ⟨m, hm, hv⟩
    obtain ⟨y, hy, he⟩ := Option.map_eq_some_iff.1 hv
    obtain ⟨hnone, hl⟩ := (hfeed ((x :: m).take 7) x).1 ⟨m, hm, rfl⟩
    cases he
    rw [hl]
    exact ⟨hy, hnone, rfl⟩
  · rintro ⟨hv, hnone, rfl⟩
    obtain ⟨m, hm, hl⟩ := (hfeed _ x).2 ⟨hnone, rfl⟩
    refine ⟨m, hm, Option.map_eq_some_iff.2 ⟨v, ?_, ?_⟩⟩
    · rw [hl]; exact hv
    · rw [hl]

theorem Inp.event_none {i : Inp} {n now : Nat} {samples : List Bool}
    (h : now % 200 ≠ 0 ∨ samples = [] ∨ now / 200 + 1 < (i.hist n).count + samples.length) : i.event n now samples = none := by
  unfold Inp.event
  split
  · rfl
  · next hx =>
    refine if_pos ?_
    rcases h with h | rfl | h
    · exact .inl h
    · cases hx
    · exact .inr h

/-- A known input takes the other level alone, at M of its last N samples. -/
theorem Inp.takes_known {i : Inp} {n : Nat} (hk : i.isKnown n = true) (w : List Bool) (v : Bool) :
    i.takes n w = some v ↔ v ≠ i.level n ∧ i.filtM n ≤ ((w.take (i.filtN n)).filter fun x => decide (x ≠ i.level n)).length := by
  have hdec : (fun x => decide (x ≠ i.level n)) = fun x => x != i.level n := funext fun x => by cases x <;> cases i.level n <;> rfl
  unfold Inp.takes Inp.window
  rw [if_pos hk, hdec]
  split
  · next h => simp only [Option.some.injEq, h, and_true]; cases v <;> cases i.level n <;> simp
  · next h => simp [h]

/-- An unknown input takes the level at which all of its last N samples lie. -/
theorem Inp.takes_unknown {i : Inp} {n : Nat} (hk : i.isKnown n = false) (w : List Bool) (v : Bool) :
    i.takes n w = some v ↔ (w.take (i.filtN n)).length = i.filtN n ∧ ∀ y ∈ w.take (i.filtN n), y = v := by
  have hN : i.filtN n ≠ 0 := by unfold Inp.filtN; split <;> decide
  unfold Inp.takes Inp.window
  rw [if_neg (by rw [hk]; decide)]
  generalize w.take (i.filtN n) = u
  cases u with
  | nil => simp [hN.symm]
  | cons x r =>
    show (if (x :: r).length = i.filtN n ∧ (x :: r).all (fun y => y == x) then some x else none) = some v ↔ _
    constructor
    · intro h
      split at h
      · next hx =>
        cases h
        exact ⟨hx.1, fun y hy => eq_of_beq (List.all_eq_true.1 hx.2 y hy)⟩
      · cases h
    · rintro ⟨hlen, hall⟩
      have hx : x = v := hall x (.head _)
      rw [if_pos ⟨hlen, List.all_eq_true.2 fun y hy => beq_iff_eq.2 ((hall y hy).trans hx.symm)⟩, hx]

/-- Induction on a list from its end. -/
theorem append_singleton_induction {motive : List Bool → Prop} (w : List Bool) (nil : motive [])
    (append_singleton : ∀ w y, motive w → motive (w ++ [y])) : motive w := by
  have hrev (v : List Bool) : motive v.reverse := by
    induction v with
    | nil => exact nil
    | cons y v ih =>
      rw [List.reverse_cons]
      exact append_singleton _ y ih
  simpa only [List.reverse_reverse] using hrev w.reverse

/-- The last place of a list at which a value stands. -/
theorem getLast?_zipIdx_filter (level : Bool) (w : List Bool) (h : level ∈ w) :
    ∃ k, ((w.zipIdx.filter fun p => p.1 == level).getLast?.map Prod.snd) = some k ∧ w[k]? = some level ∧ ∀ j, k < j → w[j]? ≠ some level := by
  induction w using append_singleton_induction with
  | nil => cases h
  | append_singleton w y ih =>
    rw [List.zipIdx_append, List.filter_append, List.getLast?_append, List.zipIdx_singleton, Nat.zero_add]
    by_cases hy : y = level
    · refine ⟨w.length, by simp [hy], by simp [hy], fun j hj => ?_⟩
      rw [List.getElem?_eq_none (by rw [List.length_append]; exact hj)]
      exact nofun
    · have hfilt : [(y, w.length)].filter (fun p => p.1 == level) = [] := by simp [hy]
      obtain ⟨k, hk, hlev, hpast⟩ := ih ((List.mem_append.1 h).resolve_right fun h => hy (List.mem_singleton.1 h).symm)
      refine ⟨k, by rw [hfilt]; exact hk, ?_, fun j hj => ?_⟩
      · rw [List.getElem?_append_left (List.getElem?_eq_some_iff.1 hlev).1]
        exact hlev
      · rcases Nat.lt_or_ge j w.length with hlt | hge
        · rw [List.getElem?_append_left hlt]
          exact hpast j hj
        · rw [List.getElem?_append_right hge]
          cases hx : j - w.length with
          | zero => simpa using hy
          | succ m => simp

/-- Sample S is the earliest of the last N samples that lies at the level. -/
theorem Inp.sBehind_spec {i : Inp} {n : Nat} {level : Bool} {h : SenseHist} (hl : level ∈ h.last.take (i.filtN n)) :
    (h.last.take (i.filtN n))[i.sBehind n level h]? = some level ∧
      ∀ j, i.sBehind n level h < j → (h.last.take (i.filtN n))[j]? ≠ some level := by
  obtain ⟨k, hk, hlev, hpast⟩ := getLast?_zipIdx_filter level _ hl
  have hbehind : i.sBehind n level h = k := congrArg (Option.getD · 0) hk
  rw [hbehind]
  exact ⟨hlev, hpast⟩

/-! ### Encoders -/

theorem stableSince_iff (last : Option Nat) (now filt : Nat) : stableSince last now filt = true ↔ ∀ t, last = some t → t + filt ≤ now := by
  cases last with
  | none => simp [stableSince]
  | some t => simp [stableSince]

theorem EncSeen.edge_both (e : EncSeen) (up : Bool) (now f : Nat) :
    (e.edge up true now f).1 = true ↔ (∀ t, e.atA = some t → t + f ≤ now) ∧ ∀ t, e.atB = some t → t + f ≤ now := by
  rw [← stableSince_iff, ← stableSince_iff]
  exact Bool.and_eq_true_iff

theorem EncSeen.edge_one (e : EncSeen) (up : Bool) (now f : Nat) : (e.edge up false now f).1 = true ↔
    ∀ t, (if (e.edge up false now f).2.chanB then e.atB else e.atA) = some t → t + f ≤ now := by
  rw [← stableSince_iff]
  exact Iff.rfl

section
variable {s : State} {n : Nat} {up both : Bool}

theorem State.encEdge_refused (h : s.variant.encoders ≤ n ∨ ((s.inp.encSeenOf n).edge up both s.dt (s.inp.encFilt n)).1 = false) :
    s.encEdge n up both = s := by
  refine if_neg ?_
  rcases h with h | h
  · simp [Nat.not_lt.2 h]
  · simp [h]

theorem State.encEdge_accepted (hn : n < s.variant.encoders) (h : ((s.inp.encSeenOf n).edge up both s.dt (s.inp.encFilt n)).1 = true) :
    s.encEdge n up both = ({ s with inp := { s.inp with
      encSeen := Bank.set s.inp.encSeen n ((s.inp.encSeenOf n).edge up both s.dt (s.inp.encFilt n)).2 } } : State).encCount n up both :=
  if_pos (by rw [h, decide_eq_true hn]; rfl)

theorem State.encCount_off (h : bit (s.inp.encCfgOf n) 0 = false) : s.encCount n up both = s :=
  if_neg (by rw [h]; decide)

theorem State.encCount_both (h : bit (s.inp.encCfgOf n) 0 = true) : s.encCount n up true =
    ({ s with ref := { s.ref with flags := s.ref.flags ||| bw true 4 } } : State).fault srcEncErr (wd n) .none :=
  (if_pos h).trans (if_pos rfl)

end

/-- A step of a count. -/
theorem countStep_eq (w : Word) (up : Bool) : countStep w up = w + if up then 1 else -1 := by
  unfold countStep
  cases up with
  | true => rfl
  | false => exact BitVec.sub_eq_add_neg ..

/-- The state after a counted edge: the count, and the RC of the encoder that is its source. -/
theorem State.encCount_counts {s : State} {n : Nat} {up rises : Bool} (h : bit (s.inp.encCfgOf n) 0 = true) (hr : rises = (up != bit s.ref.encCfg 4)) :
    s.encCount n up false =
      let u := { s with inp := { s.inp with encCnt := Bank.set s.inp.encCnt n (Bank.get 0 s.inp.encCnt n + if rises then 1 else -1) } }
      if s.ref.isEnc n then
        if s.ref.run then ({ u with ref := s.ref.encEdge s.dt rises } : State).loadCount (s.ref.encEdge s.dt rises).rc
        else { u with ref := s.ref.encEdge s.dt rises }
      else u := by
  subst hr
  rw [← countStep_eq]
  exact (if_pos h).trans (if_neg Bool.false_ne_true)

/-- The RC of the encoder source moves by one whole step. -/
theorem Ref.encEdge_rc {r : Ref} (dt : Nat) (up : Bool) (h : r.run = true) : (r.encEdge dt up).rc =
    if up then (r.rc / 2 ^ 40 + 1) % 2 ^ 40 * 2 ^ 40 else (r.rc / 2 ^ 40 + 2 ^ 40 - 1) % 2 ^ 40 * 2 ^ 40 + 0xFF0000 * 2 ^ 16 :=
  if_pos h

/-- The count of the encoder that is the source is loaded. -/
theorem State.loadCount_enc {s : State} {n : Nat} (h : s.ref.isEnc n = true) (v : Nat) :
    s.loadCount v = { s with inp := { s.inp with encCnt := Bank.set s.inp.encCnt n (wd (v / 2 ^ 40)) } } := by
  obtain ⟨hsrc, hidx⟩ := Bool.and_eq_true_iff.1 h
  rw [← of_decide_eq_true hidx]
  exact if_pos (of_decide_eq_true hsrc)

/-- What an accepted edge of one channel of an enabled encoder changes: its count, and the RC whose source it is. -/
theorem State.encCount_spec {s : State} {n : Nat} {up rises : Bool} (h : bit (s.inp.encCfgOf n) 0 = true) (hr : rises = (up != bit s.ref.encCfg 4)) :
    let u := s.encCount n up false
    { u with inp := s.inp, ref := s.ref } = s ∧
    (s.ref.isEnc n = false ∨ s.ref.run = false →
      u.inp = { s.inp with encCnt := Bank.set s.inp.encCnt n (Bank.get 0 s.inp.encCnt n + if rises then 1 else -1) }) ∧
    (s.ref.isEnc n = false → u.ref = s.ref) ∧
    (s.ref.isEnc n = true → s.ref.run = true → Bank.get 0 u.inp.encCnt n = wd (u.ref.rc / 2 ^ 40)) ∧
    (s.ref.isEnc n = true → u.ref = s.ref.encEdge s.dt rises) := by
  intro u
  have hu : u = _ := State.encCount_counts (n := n) (up := up) h hr
  generalize u = t at hu
  dsimp only at hu
  cases he : s.ref.isEnc n with
  | false =>
    rw [if_neg (by rw [he]; decide)] at hu
    subst hu
    exact ⟨rfl, fun _ => rfl, fun _ => rfl, nofun, nofun⟩
  | true =>
    rw [if_pos he] at hu
    cases hrun : s.ref.run with
    | false =>
      rw [if_neg (by rw [hrun]; decide)] at hu
      subst hu
      exact ⟨rfl, fun _ => rfl, nofun, nofun, fun _ => rfl⟩
    | true =>
      rw [if_pos hrun] at hu
      have hu := hu.trans (State.loadCount_enc (n := n) (by exact he) _)
      subst hu
      exact ⟨rfl, fun h => h.elim nofun nofun, nofun, fun _ _ => Bank.get_set_self .., fun _ => rfl⟩

/-! ### The commands -/

section
variable {s : State} {n : Nat} {samples : List Bool} {level : Bool} {h : SenseHist}

theorem State.senseEdge_event (hn : n < s.variant.senses) (hk : s.inp.isKnown n = true) (ht : s.inp.taken n = false)
    (he : s.inp.event n s.dt samples = some (level, h)) :
    s.senseEdge n samples =
      let u := ({ s with inp := { s.inp with lvl := mapSet s.inp.lvl n level, edge := mapSet s.inp.edge n true
                                             samp := Bank.set s.inp.samp n h } } : State).safetyInput n
      u.listedAxes.foldl (fun t a => (t.limitInput a n true).homeEdge a n level (s.dt - 200 * s.inp.sBehind n level h)) u := by
  unfold State.senseEdge
  rw [if_pos (by rw [hk, ht, decide_eq_true hn]; rfl), he]

theorem State.senseEdge_idle (hi : s.inp.isKnown n = false ∨ s.inp.taken n = true ∨ s.inp.event n s.dt samples = none) :
    s.senseEdge n samples = s := by
  unfold State.senseEdge
  rcases hi with hi | hi | hi
  · exact if_neg (by simp [hi])
  · exact if_neg (by simp [hi])
  · rw [hi]; exact ite_self s

theorem State.senseKnown_event (hn : n < s.variant.senses) (hk : s.inp.isKnown n = false) (ht : s.inp.taken n = false)
    (he : s.inp.event n s.dt samples = some (level, h)) :
    s.senseKnown n samples =
      let u := ({ s with inp := { s.inp with lvl := mapSet s.inp.lvl n level, known := mapSet s.inp.known n true
                                             samp := Bank.set s.inp.samp n h } } : State).safetyInput n
      u.listedAxes.foldl (fun t a => t.limitInput a n false) u := by
  unfold State.senseKnown
  rw [if_pos (by rw [hk, ht, decide_eq_true hn]; rfl), he]

theorem State.senseKnown_idle (hi : s.inp.isKnown n = true ∨ s.inp.taken n = true ∨ s.inp.event n s.dt samples = none) :
    s.senseKnown n samples = s := by
  unfold State.senseKnown
  rcases hi with hi | hi | hi
  · exact if_neg (by simp [hi])
  · exact if_neg (by simp [hi])
  · rw [hi]; exact ite_self s

end

/-- Settles O55: the filters of the sense inputs, step pairs and encoders. -/
theorem inputsCountAndLatch : Obligations.InputsCountAndLatch := by
  unfold Obligations.InputsCountAndLatch
  intro n s hr held count upTo
  refine ⟨fun samples h => Inp.event_none h, fun samples hne ht hk v h => ?_, fun w v hk => Inp.takes_known hk w v,
    fun w v hk => Inp.takes_unknown hk w v, fun earlier sample level h hn hk ht he => ?_, fun level h => Inp.sBehind_spec, fun earlier sample h => ?_,
    fun samples level h hn hk ht he => ?_, fun samples h => ?_, fun dir hn hon => ?_, fun dir hoff => ?_, ?_, fun hn ht => ?_, fun h => ?_,
    by cases s.variant <;> decide⟩
  · obtain ⟨earlier, x, rfl⟩ : ∃ earlier x, samples = earlier ++ [x] := ⟨_, _, (List.dropLast_concat_getLast hne).symm⟩
    have hup (j : Nat) (hj : j < earlier.length) : upTo (earlier ++ [x]) j = samplesUpTo held earlier j := by
      show samplesUpTo held (earlier ++ [x]) j = _
      unfold samplesUpTo
      rw [List.take_append_of_le_length hj]
    rw [Inp.event_of_following ht hk]
    simp only [List.length_append, List.length_singleton, Nat.add_sub_cancel, Nat.add_lt_add_iff_right]
    refine and_congr_right fun _ => and_congr_left fun _ => forall₂_congr fun j hj => ?_
    rw [hup j hj]
  · intro u
    rw [exec_senseQualifiedEdge, State.command_quiet _ hr, State.senseEdge_event (s := s.quiet) hn hk ht he]
    rfl
  · rw [exec_senseQualifiedEdge, State.command_quiet _ hr, State.senseEdge_idle (s := s.quiet) h]
  · intro u
    rw [exec_inputKnown, State.command_quiet _ hr, State.senseKnown_event (s := s.quiet) hn hk ht he]
    rfl
  · rw [exec_inputKnown, State.command_quiet _ hr, State.senseKnown_idle (s := s.quiet) h]
  · rw [exec_stpEdge, State.command_quiet _ hr]
    refine congrArg _ ((if_pos (by simp [hn, hon])).trans ?_)
    rw [countStep_eq]
    cases dir <;> cases hinv : bit (s.inp.stepCfgOf n) 2 <;> simp [hinv, BitVec.sub_eq_add_neg]
  · rw [exec_stpEdge, State.command_quiet _ hr]
    exact congrArg _ (if_neg (by simp [hoff]))
  · refine ⟨rfl, fun up => EncSeen.edge_both .., fun up => EncSeen.edge_one .., fun up => rfl, fun up both h => ?_,
      fun up both hn h => ⟨fun hoff => ?_, fun hon hb => ?_, fun hon hb => ?_⟩, fun h => ?_, fun hn h => ?_⟩
    · rw [exec_encoderEdge, State.command_quiet _ hr, State.encEdge_refused (s := s.quiet) h]
    · rw [exec_encoderEdge, State.command_quiet _ hr, State.encEdge_accepted (s := s.quiet) hn h]
      exact congrArg _ (State.encCount_off hoff)
    · subst hb
      rw [exec_encoderEdge, State.command_quiet _ hr, State.encEdge_accepted (s := s.quiet) hn h]
      exact congrArg _ (State.encCount_both hon)
    · subst hb
      refine exists_next (exec_encoderEdge n up false s) hr ?_
      rw [State.encEdge_accepted (s := s.quiet) hn h]
      intro rises
      have hspec := State.encCount_spec (n := n) (up := up) (rises := rises)
        (s := { s.quiet with inp := { s.inp with encSeen := Bank.set s.inp.encSeen n ((s.inp.encSeenOf n).edge up false s.dt (s.inp.encFilt n)).2 } }) hon rfl
      obtain ⟨hframe, hcnt, href, hload, hrc⟩ := hspec
      refine ⟨?_, hcnt, href, hload, fun he hrun => ⟨fun hup => ?_, fun hup => ?_⟩, fun he hrun => ?_⟩
      · exact congrArg (fun t : State => { t with inp := s.inp }) hframe
      · exact (congrArg Ref.rc (hrc he)).trans ((Ref.encEdge_rc _ rises hrun).trans (if_pos hup))
      · exact (congrArg Ref.rc (hrc he)).trans ((Ref.encEdge_rc _ rises hrun).trans (if_neg (by rw [hup]; decide)))
      · exact (congrArg Ref.rc (hrc he)).trans (if_neg (Bool.eq_false_iff.1 hrun))
    · rw [exec_encoderIndexEdge, State.command_quiet _ hr]
      refine congrArg _ (if_neg ?_)
      rw [Bool.and_eq_true_iff, decide_eq_true_iff, stableSince_iff]
      rintro ⟨hn, ha⟩
      exact h.elim (Nat.not_le.2 hn) fun h => h ha
    · rw [exec_encoderIndexEdge, State.command_quiet _ hr]
      exact congrArg _ (if_pos (by rw [Bool.and_eq_true_iff, decide_eq_true_iff, stableSince_iff]; exact ⟨hn, h⟩))
  · rw [exec_encoderRateTimeout, State.command_quiet _ hr]
    exact congrArg _ (if_pos (by rw [Bool.and_eq_true_iff, decide_eq_true_iff]; exact ⟨hn, Nat.le_sub_of_add_le' ht⟩))
  · rw [exec_encoderRateTimeout, State.command_quiet _ hr]
    refine congrArg _ (if_neg ?_)
    rw [Bool.and_eq_true_iff, decide_eq_true_iff]
    rintro ⟨hn, ht⟩
    rcases h with h | h
    · exact absurd (hn.symm.trans h) nofun
    · exact absurd (Nat.add_le_of_le_sub' (Nat.le_of_lt (Nat.lt_of_sub_pos (Nat.lt_of_lt_of_le (by decide) ht))) ht) (Nat.not_le.2 h)

end Sys2Proof.Machine
end


section
/-! SUPPORT. Votes, resynchronizations, unresolved episodes and spares (O60). -/

namespace Sys2Proof.Machine

/-! ### The ballot -/

/-- The slots of three cores that write, with their copies. -/
def threeCopies (c0 c1 c2 : BusCopy) : List (Nat × BusCopy) := [(0, c0), (1, c1), (2, c2)]

theorem ballot_agrees (x : BusCopy) : ballot (threeCopies x x x) = some (x, none) := by
  simp [ballot, threeCopies]

/-- The slot whose copy differs is in the minority. -/
theorem ballot_differs {x y : BusCopy} (hy : y ≠ x) {i : Nat} (hi : i < 3) :
    ballot (threeCopies (if 0 = i then y else x) (if 1 = i then y else x) (if 2 = i then y else x)) = some (x, some i) := by
  have hx : x ≠ y := hy.symm
  match i with
  | 0 => simp [ballot, threeCopies, hy, hx]
  | 1 => simp [ballot, threeCopies, hy]
  | 2 => simp [ballot, threeCopies, hy]

/-- Copies that differ pairwise have no majority, however many cores take part. -/
theorem ballot_unresolved {copies : List (Nat × BusCopy)} (h : (copies.map Prod.snd).Nodup) : ballot copies = none := by
  have hone (p : Nat × BusCopy) : (copies.filter fun q => decide (q.2 = p.2)).length ≤ 1 := by
    have hcount := List.nodup_iff_count.1 h p.2
    rwa [List.count_eq_countP, List.countP_map, List.countP_eq_length_filter] at hcount
  unfold ballot
  split
  · rfl
  · rfl
  · refine Option.map_eq_none_iff.2 (List.find?_eq_none.2 fun p _ h2 => ?_)
    have := hone p
    have := of_decide_eq_true h2
    omega

theorem State.copies_three {s : State} (h : ∀ j, j < 3 → (s.coreAt j).isSome = true) (x y z : BusCopy) :
    s.copies (some x) (some y) (some z) = threeCopies x y z := by
  obtain ⟨a, h0⟩ := Option.isSome_iff_exists.1 (h 0 (by decide))
  obtain ⟨b, h1⟩ := Option.isSome_iff_exists.1 (h 1 (by decide))
  obtain ⟨c, h2⟩ := Option.isSome_iff_exists.1 (h 2 (by decide))
  simp [State.copies, h0, h1, h2, threeCopies]

/-- The copies of a write stand in the order of their slots, without those of slots in which no core votes. -/
theorem State.copies_sublist (s : State) (x y z : BusCopy) : ((s.copies (some x) (some y) (some z)).map Prod.snd).Sublist [x, y, z] := by
  unfold State.copies
  cases h0 : s.coreAt 0 <;> cases h1 : s.coreAt 1 <;> cases h2 : s.coreAt 2 <;> simp [h0, h1, h2]

/-! ### The vote -/

section
variable {s : State} {c0 c1 c2 : Option BusCopy} {agree : Bool}

theorem State.voteInjected_off (h : s.flt.injArmed = false) (copies : List (Nat × BusCopy)) : s.voteInjected copies = false := by
  simp [State.voteInjected, h]

/-- A write while nothing is injected: the vote, unless copies of the voter that disagree forbid it. -/
theorem State.busVote_plain (hl : s.spr.lost = false) (hv : s.spr.aIn = true ∨ s.spr.bIn = true) (hi : s.flt.injArmed = false) :
    s.busVote c0 c1 c2 agree =
      let r := if agree then (true, s) else s.votersDiffer
      if r.1 then r.2.vote (s.copies c0 c1 c2) else r.2 := by
  have hin : ¬ (s.spr.lost || !(s.spr.aIn || s.spr.bIn)) = true := by rcases hv with h | h <;> simp [hl, h]
  unfold State.busVote
  rw [if_neg hin]
  simp only [State.voteInjected_off hi, Bool.false_and, Bool.false_eq_true, if_false]

theorem State.busVote_vote (hl : s.spr.lost = false) (hv : s.spr.aIn = true ∨ s.spr.bIn = true) (hi : s.flt.injArmed = false) :
    s.busVote c0 c1 c2 true = s.vote (s.copies c0 c1 c2) :=
  (State.busVote_plain hl hv hi).trans (if_pos rfl)

/-- An armed voter compare of a slot that takes part, where the true copies agree: the write is carried out, and the core of the slot loses. -/
theorem State.busVote_injected (hl : s.spr.lost = false) (hv : s.spr.aIn = true ∨ s.spr.bIn = true) {x : BusCopy}
    (hb : ballot (s.copies c0 c1 c2) = some (x, none)) (hh : s.voteInjected (s.copies c0 c1 c2) = true) :
    s.busVote c0 c1 c2 true =
      (({ s with flt := { s.flt with injArmed := false } } : State).emit (.busWrite x)).lostVote (s.flt.injUnit % 4) true := by
  have hin : ¬ (s.spr.lost || !(s.spr.aIn || s.spr.bIn)) = true := by rcases hv with h | h <;> simp [hl, h]
  unfold State.busVote
  rw [if_neg hin]
  simp only [hh, if_true, hb, State.vote]
  exact if_pos rfl

theorem State.lostVote_core {i n : Nat} (h : s.coreAt i = some n) (inj : Bool) :
    s.lostVote i inj = s.minority n srcCoreMinority (s.countField n inj) inj := by
  unfold State.lostVote
  rw [h]

end

/-! ### Resynchronizations and cores -/

section
variable {s : State}

/-- Where no resynchronization waits, none begins. -/
theorem State.resyncNext_none (h : s.spr.resyncWait = []) : s.resyncNext = s := by
  unfold State.resyncNext
  rw [h]
  exact ite_self s

theorem State.fault_spr (s : State) (src : Nat) (detail : Word) (u : FUnit) : (s.fault src detail u).spr = s.spr :=
  congrArg (fun x => x.2.2.2.1) (s.fault_aside src detail u)

theorem State.core_setCore_self (s : State) (n : Nat) (x : CoreU) : (s.setCore n x).core n = x := Bank.get_set_self ..

theorem State.core_setCore (s : State) {n m : Nat} (x : CoreU) (h : m ≠ n) : (s.setCore n x).core m = s.core m := Bank.get_set_ne _ _ _ _ _ h

/-- A resynchronization that ends well: the core votes in its slot. -/
theorem State.resyncDone_good {r : Resync} (hr : s.spr.resync = some r) (hu : s.spr.unres = none) (hw : s.spr.resyncWait = []) :
    (s.resyncDone true).spr.resync = none ∧
      (s.resyncDone true).core r.target = { s.core r.target with st := .voting, slot := r.slot } ∧
      ∀ n, n ≠ r.target → (s.resyncDone true).core n = s.core n := by
  let u := (s.updSpr fun p => { p with resync := none }).setCore r.target { s.core r.target with st := .voting, slot := r.slot }
  let v := u.updSpr fun p => { p with pair := decide (u.voting.length = 2) }
  have hdone : s.resyncDone true = if r.inPlace then v else v.spareIn := by
    unfold State.resyncDone
    rw [hr]
    dsimp only
    rw [hu, if_neg (by decide), if_pos rfl]
    refine State.resyncNext_none ?_
    split <;> exact hw
  rw [hdone]
  have hcore (w : State) (hw : w.spr.cores = v.spr.cores) (n : Nat) : w.core n = u.core n := congrArg (Bank.get (CoreU.reset n) · n) hw
  have hself : u.core r.target = { s.core r.target with st := .voting, slot := r.slot } := State.core_setCore_self ..
  have hother (n : Nat) (hn : n ≠ r.target) : u.core n = s.core n := State.core_setCore _ _ hn
  split
  · exact ⟨rfl, (hcore _ rfl _).trans hself, fun n hn => (hcore _ rfl n).trans (hother n hn)⟩
  · exact ⟨rfl, (hcore _ rfl _).trans hself, fun n hn => (hcore _ rfl n).trans (hother n hn)⟩

/-! ### The test of an unresolved episode -/

/-- A core that stops is retired, and the others stay as they are. -/
theorem State.coreStop_spr (s : State) (n slot : Nat) (spare : Bool) :
    (s.coreStop n slot spare).spr = ((s.setCore n { s.core n with st := .retired, slot := 0 }).sprFlag 3).spr :=
  State.fault_spr ..

theorem State.core_coreStop (s : State) (n slot : Nat) (spare : Bool) (m : Nat) :
    (s.coreStop n slot spare).core m = if m = n then { s.core n with st := .retired, slot := 0 } else s.core m := by
  have hcore : (s.coreStop n slot spare).core m = (s.setCore n { s.core n with st := .retired, slot := 0 }).core m := by
    have h := congrArg (fun p : Spr => Bank.get (CoreU.reset m) p.cores m) (s.coreStop_spr n slot spare)
    exact h
  rw [hcore]
  split
  · next h => rw [h]; exact State.core_setCore_self ..
  · next h => exact State.core_setCore _ _ h

/-- A core that is no spare stops: the spare stays at hand. -/
theorem State.spareCore_coreStop (s : State) {n k : Nat} (slot : Nat) (spare : Bool) (hk : s.spareCore = some k) (hn : n ≠ k) :
    (s.coreStop n slot spare).spareCore = some k := by
  unfold State.spareCore at hk ⊢
  rw [List.find?_eq_some_iff_append] at hk ⊢
  obtain ⟨hst, as, bs, hl, has⟩ := hk
  refine ⟨?_, as, bs, hl, fun a ha => ?_⟩
  · rw [State.core_coreStop, if_neg hn.symm]
    exact hst
  · rw [State.core_coreStop]
    split
    · rfl
    · exact has a ha

theorem State.spareCore_none (h : ∀ n, n < 4 → (s.core n).st ≠ .spare) : s.spareCore = none :=
  List.find?_eq_none.2 fun n hn hst => h n (List.mem_range.1 hn) (of_decide_eq_true hst)

/-- Without a spare the test ends planning. -/
theorem State.katEnd_lost {u : Unres} {passed : List Nat} (hu : s.spr.unres = some u) (ht : u.testing = true) (hs : s.spareCore = none) :
    ∃ v : State, s.katEnd passed = v.coreLoss := by
  generalize hkat : s.katEnd passed = t
  unfold State.katEnd at hkat
  rw [hu] at hkat
  dsimp -zeta only at hkat
  rw [if_neg (by rw [ht]; decide)] at hkat
  extract_lets ok f r lost back slot v w at hkat
  have hback : back = none := if_neg fun h => absurd h.2.2 (by rw [show r.spareCore = none from hs]; decide)
  rw [hback] at hkat
  refine ⟨w, hkat.symm.trans ?_⟩
  split
  · next h => cases h
  · rfl

/-- With a spare, and one of two cores that fails, the spare is resynchronized into its slot. -/
theorem State.katEnd_spare {u : Unres} {passed : List Nat} {k : Nat} (hu : s.spr.unres = some u) (ht : u.testing = true)
    (hk : s.spareCore = some k) (hnk : k ∉ u.cores) (hr : s.spr.resync = none) (ha : s.autoSpares = true) (h2 : u.cores.length = 2)
    (h1 : (u.cores.filter fun n => decide (n ∈ passed)).length = 1) :
    ∃ (v : State) (slot : Nat), s.katEnd passed = v.resyncStart k slot false ∧ v.spr.unres = none := by
  have hlen : (u.cores.filter fun n => decide (n ∉ passed)).length = 1 := by
    have hsum := List.length_eq_countP_add_countP (l := u.cores) fun n => decide (n ∈ passed)
    simp only [List.countP_eq_length_filter, decide_eq_true_eq] at hsum
    omega
  obtain ⟨m, hm⟩ := List.length_eq_one_iff.1 hlen
  have hmk : m ≠ k := by
    rintro rfl
    exact hnk (List.mem_filter.1 (hm ▸ List.mem_singleton_self m)).1
  generalize hkat : s.katEnd passed = t
  unfold State.katEnd at hkat
  rw [hu] at hkat
  dsimp -zeta only at hkat
  rw [if_neg (by rw [ht]; decide)] at hkat
  extract_lets ok f r lost back slot v w at hkat
  have hlost : lost = [m] := by
    show _ ++ s.spr.resync.elim [] _ = _
    rw [hr, hm]
    rfl
  have hspare : r.spareCore = some k := hk
  have hback : back = some m := by
    refine (if_pos ⟨h1, ha, by rw [hspare]; rfl⟩).trans ?_
    rw [hlost]
    rfl
  have hw : w.spareCore = some k := by
    show v.spareCore = some k
    rw [show v = lost.foldl _ r from rfl, hlost]
    exact State.spareCore_coreStop r _ _ hspare hmk
  rw [hw, hback] at hkat
  exact ⟨w, slot, hkat.symm, rfl⟩

end

/-! ### Spares that await -/

/-- What the approval of the other spares leaves to the spare core. -/
def State.coreSide (s : State) : Bool × Option Resync := (s.spr.corePend, s.spr.resync)

theorem State.coreSide_of_aside {s t : State} (h : t.aside = s.aside) : t.coreSide = s.coreSide :=
  congrArg (fun x => (x.2.2.2.1.corePend, x.2.2.2.1.resync)) h

theorem State.approveRunner_coreSide (s : State) (a : Nat) : (s.approveRunner a).coreSide = s.coreSide := by
  unfold State.approveRunner
  split
  · split <;> rfl
  · rfl

theorem State.approveCmp_coreSide (s : State) (t : Nat) : (s.approveCmp t).coreSide = s.coreSide := by
  unfold State.approveCmp
  split
  · refine Eq.trans (b := State.coreSide ((s.updTile t _).updAxis _ _)) rfl (State.coreSide_of_aside ?_)
    rw [State.updAxis_aside, State.updTile_aside]
  · rfl

theorem State.approveSeg_coreSide (s : State) (t l : Nat) (w : Switch) : (s.approveSeg t l w).coreSide = s.coreSide := by
  unfold State.approveSeg
  dsimp only
  split
  · exact Eq.trans (b := State.coreSide (s.updLeg t l _)) rfl (State.coreSide_of_aside (State.updLeg_aside ..))
  · exact State.coreSide_of_aside (State.updLeg_aside ..)

theorem State.approveRows_coreSide (s : State) : s.approveRows.coreSide = s.coreSide :=
  List.foldlRecOn _ _ (motive := fun (v : State) => v.coreSide = s.coreSide) rfl fun _ hv _ _ => hv

/-- A step that leaves the spare core alone, over a list. -/
theorem State.foldl_coreSide {α : Type} {f : State → α → State} (hf : ∀ u x, (f u x).coreSide = u.coreSide) (l : List α) (s : State) :
    (l.foldl f s).coreSide = s.coreSide :=
  List.foldlRecOn _ _ (motive := fun (v : State) => v.coreSide = s.coreSide) rfl fun v hv x _ => (hf v x).trans hv

/-- Under the automatic policy the spare core goes first, and the other spares leave it alone. -/
theorem State.policyAuto_coreSide {s : State} (h : s.autoSpares = true) : s.policyAuto.coreSide = s.approveCore.coreSide := by
  unfold State.policyAuto
  rw [if_pos h]
  dsimp only
  rw [State.approveRows_coreSide, State.foldl_coreSide (fun u p => u.approveSeg_coreSide ..), State.foldl_coreSide State.approveCmp_coreSide,
    State.foldl_coreSide State.approveRunner_coreSide]

/-- Settles O60: the vote, the delay lines, resynchronizations, unresolved episodes and the policy of the spares. -/
theorem votesAndSparesFollowTheirRules : Obligations.VotesAndSparesFollowTheirRules := by
  unfold Obligations.VotesAndSparesFollowTheirRules
  intro s hr hlost
  refine ⟨fun x y i n hi hy hinj hv hall hn => ?_, fun x i n hi harm htgt hunit hv hall hn => ?_, fun x y z hxy hyz hxz hinj hv => ?_,
    fun c0 c1 c2 hinj ha hb hp => ?_, fun slot c h => ?_, fun slot side n h hinj => ⟨?_, ?_⟩, fun good h => ?_, fun r h hu hw => ?_,
    fun u hu => ⟨fun ht => ⟨?_, fun hw => ?_⟩, fun ht => ?_, fun ht hd => ?_, fun ht hd => ?_, fun passed ht => ?_, fun passed ht hs => ?_,
      fun passed k ht hk hnk hres ha h2 h1 => ?_⟩, fun hu => ⟨?_, ?_⟩, fun ha => ?_, fun k ha hk hpend hres hu => ?_⟩
  · intro copy done
    have hthree (a b c : BusCopy) : s.quiet.copies (some a) (some b) (some c) = threeCopies a b c := State.copies_three (s := s.quiet) hall a b c
    rw [exec_busWriteVote, exec_busWriteVote, State.command_quiet _ hr, State.command_quiet _ hr]
    refine ⟨congrArg _ ?_, congrArg _ ?_⟩
    · rw [State.busVote_vote (s := s.quiet) hlost hv hinj, hthree]
      unfold State.vote
      rw [ballot_agrees]
      rfl
    · rw [State.busVote_vote (s := s.quiet) hlost hv hinj, hthree]
      unfold State.vote
      rw [ballot_differs hy hi]
      exact State.lostVote_core (s := done) hn false
  · intro done
    have hthree : s.quiet.copies (some x) (some x) (some x) = threeCopies x x x := State.copies_three (s := s.quiet) hall x x x
    rw [exec_busWriteVote, State.command_quiet _ hr]
    refine congrArg _ ?_
    rw [State.busVote_injected (s := s.quiet) hlost hv (by rw [hthree]; exact ballot_agrees x) ?_]
    · rw [State.quiet_flt, hunit]
      exact State.lostVote_core (s := done) hn true
    · rw [hthree]
      have hslot : 0 = s.flt.injUnit % 4 ∨ 1 = s.flt.injUnit % 4 ∨ 2 = s.flt.injUnit % 4 := by omega
      simp only [State.voteInjected, threeCopies, State.quiet_flt, harm, htgt, List.any_cons, List.any_nil, Bool.or_false, decide_true, Bool.true_and,
        Bool.or_eq_true]
      exact hslot.imp decide_eq_true (Or.imp decide_eq_true decide_eq_true)
  · rw [exec_busWriteVote, State.command_quiet _ hr]
    refine congrArg _ ?_
    rw [State.busVote_vote (s := s.quiet) hlost hv hinj]
    unfold State.vote
    rw [ballot_unresolved ((s.quiet.copies_sublist x y z).nodup (by simp [hxy, hyz, hxz]))]
  · rw [exec_busWriteVote, State.command_quiet _ hr]
    have hdiffer : s.quiet.votersDiffer = (false, s.quiet.fault srcVoterConflict 0 .none) := by
      simp [State.votersDiffer, ha, hb, hp]
    rw [State.busVote_plain (s := s.quiet) hlost (.inl ha) hinj, hdiffer]
    rfl
  · rw [exec_delayParity, State.command_quiet _ hr]
    refine congrArg _ ((if_neg (by rw [State.quiet_spr, hlost]; decide)).trans ?_)
    rw [show s.quiet.coreAt slot = none from h]
  · rw [exec_delayParity, State.command_quiet _ hr]
    refine congrArg _ ((if_neg (by rw [State.quiet_spr, hlost]; decide)).trans ?_)
    rw [show s.quiet.coreAt slot = some n from h]
    simp [hinj]
  · rw [exec_delayParity, State.command_quiet _ hr]
    refine congrArg _ ((if_neg (by rw [State.quiet_spr, hlost]; decide)).trans ?_)
    rw [show s.quiet.coreAt slot = some n from h]
    simp [hinj]
  · rw [exec_resyncComplete, State.command_quiet _ hr]
    unfold State.resyncDone
    rw [State.quiet_spr, h]
  · exact exists_next (exec_resyncComplete true s) hr (State.resyncDone_good (s := s.quiet) h hu hw)
  · rw [exec_repetitionPassed, State.command_quiet _ hr]
    unfold State.repeated
    rw [State.quiet_spr, hu]
    exact congrArg _ (if_neg (by rw [ht]; decide))
  · rw [exec_repetitionPassed, State.command_quiet _ hr]
    unfold State.repeated
    rw [State.quiet_spr, hu]
    exact congrArg _ ((if_neg (by rw [ht]; decide)).trans (State.resyncNext_none hw))
  · rw [exec_repetitionPassed, State.command_quiet _ hr]
    unfold State.repeated
    rw [State.quiet_spr, hu]
    exact congrArg _ (if_pos ht)
  · rw [exec_pairDisagree, State.command_quiet _ hr]
    unfold State.pairFails
    rw [State.quiet_spr, hu]
    exact congrArg _ (if_pos (by rw [Bool.or_eq_true, decide_eq_true_iff]; exact .inr hd))
  · have hfails : ∃ (v : State) (i : Nat), s.quiet.pairFails = v.updSpr fun p => { p with unres := some { u with testing := true, uid := i } } := by
      unfold State.pairFails
      rw [State.quiet_spr, hu]
      exact ⟨_, _, if_neg (by rw [ht, Bool.false_or, decide_eq_true_iff]; exact Nat.not_lt.2 hd)⟩
    obtain ⟨v, i, hv⟩ := hfails
    exact ⟨_, i, (exec_pairDisagree s).trans ((State.command_quiet _ hr).trans (congrArg _ hv)), rfl⟩
  · rw [exec_knownAnswerTestEnd, State.command_quiet _ hr]
    unfold State.katEnd
    rw [State.quiet_spr, hu]
    exact congrArg _ (if_pos (by rw [ht]; rfl))
  · obtain ⟨v, hv⟩ := State.katEnd_lost (s := s.quiet) (passed := passed) hu ht (State.spareCore_none (s := s.quiet) hs)
    refine ⟨v.updSpr fun p => { p with lost := true, unres := none, resync := none, resyncWait := [] }, ?_, rfl, rfl, rfl⟩
    rw [exec_knownAnswerTestEnd, State.command_quiet _ hr, hv]
    rfl
  · obtain ⟨v, slot, hv, hun⟩ := State.katEnd_spare (s := s.quiet) hu ht hk hnk hres ha h2 h1
    refine ⟨_, slot, (exec_knownAnswerTestEnd passed s).trans ((State.command_quiet _ hr).trans (congrArg _ hv)), hun, rfl, ?_⟩
    exact congrArg CoreU.st (State.core_setCore_self v.pausePlan k _)
  · rw [exec_repetitionPassed, State.command_quiet _ hr]
    unfold State.repeated
    rw [State.quiet_spr, hu]
  · rw [exec_pairDisagree, State.command_quiet _ hr]
    unfold State.pairFails
    rw [State.quiet_spr, hu]
  · rw [exec_policyAutomatic, State.command_quiet _ hr]
    exact congrArg _ (if_neg (by rw [show s.quiet.autoSpares = false from ha]; decide))
  · refine exists_next (exec_policyAutomatic s) hr ?_
    have hcore : s.quiet.approveCore = (s.quiet.updSpr fun p => { p with corePend := false }).resyncStart k s.vacantSlot false := by
      unfold State.approveCore
      rw [show s.quiet.spareCore = some k from hk]
      exact if_pos (by simp [hpend, hres, hu])
    have hside := (State.policyAuto_coreSide (s := s.quiet) ha).trans (congrArg State.coreSide hcore)
    exact Prod.mk.inj hside

end Sys2Proof.Machine
end


section
/-! SUPPORT. Solenoid starts (O45). -/

namespace Sys2Proof.Machine

/-- A pulse without a condition. -/
def plainPulse : SolDesc :=
  { tag := { ring := 0, index := 0 }, word0 := 0, isHold := false, per := 4000, tPi := 1, dutyPi := 16, dutyH := 0, tH := 0, gate := none, armed := false
    heldSince := none, dwellLeft := none, held := false, due := false, late := false, startDt := 0 }

/-- A tile with good supplies, whose first leg waits to begin its pulse and whose second has 10 mA booked. -/
def bookedTile : Tile :=
  { Tile.reset with
    vgUv := false, vmUv := false
    legs := [(0, { Leg.reset with mode := 2, solWait := [plainPulse] }), (1, { Leg.reset with mode := 2, booked := 10 })] }

/-- A device in Run whose tile bank holds tile 0 behind tile 1: a store puts tile 0 in front, and the bank then lists its legs twice. -/
def outOfOrder : State :=
  { State.reset with
    glb := { Glb.reset with mode := .run }, host := { HostB.reset with inForce := [(0, 1)] }
    tiles := [(1, Tile.reset), (0, bookedTile)] }

/-- The start is admitted. -/
theorem outOfOrder_admits : outOfOrder.tooBig (.leg 0 0) = false ∧ outOfOrder.throttled (.leg 0 0) = false ∧ outOfOrder.admits (.leg 0 0) = true ∧
    outOfOrder.waiters = [] := by
  decide

/-- The start that the tile admits is held, as the booking of the other leg counts twice once the descriptor has been armed. -/
theorem outOfOrder_holds : ∃ u, exec (.solPulseStart 0 0) outOfOrder = .next u ∧ (u.leg 0 0).solPhase = .idle := ⟨_, rfl, by decide⟩

/-- Refutes O45: in a device whose tile bank is out of order a start that is free to begin is held. -/
theorem not_solenoidPhasesFollowInOrder : ¬ Obligations.SolenoidPhasesFollowInOrder := by
  unfold Obligations.SolenoidPhasesFollowInOrder
  intro h
  obtain ⟨hstart, -⟩ := h 0 0 plainPulse outOfOrder rfl rfl
  obtain ⟨hbig, hthrottled, hadmits, hwaiters⟩ := outOfOrder_admits
  obtain ⟨u, hu, -, hphase, -⟩ := hstart [] (by decide) (by decide) (by decide) (by decide) (by decide) (by decide) rfl (by decide) (.inl (by decide))
    (by decide) hbig hthrottled hadmits hwaiters
  obtain ⟨v, hv, hidle⟩ := outOfOrder_holds
  have hsame : u = v := Host.Outcome.next.inj (hu.symm.trans hv)
  rw [hsame, hidle] at hphase
  cases hphase

end Sys2Proof.Machine
end


section
/-! SUPPORT. Period boundaries (O41). -/

namespace Sys2Proof.Machine

/-- A device 1,500 DT counts behind its last boundary, whose alignment has just placed the next one 1,200 behind it. -/
def alignedEarly : State := { State.reset with dt := 1500, lastPeriod := some 0, ref := { Ref.reset with phase := 1200 } }

/-- The period that runs ends where it would have ended (R104). -/
theorem alignedEarly_boundary : alignedEarly.toBoundary.dt = 2000 := by decide

/-- Refutes O41: the boundary behind an alignment that comes too early for the period that runs lies 2,000 DT counts behind the last one, which
need not be congruent to PHASE. -/
theorem not_boundariesFollowThePhase : ¬ Obligations.BoundariesFollowThePhase := by
  unfold Obligations.BoundariesFollowThePhase
  intro h
  obtain ⟨-, -, hdevice⟩ := h
  obtain ⟨-, -, -, hphase, -⟩ := hdevice alignedEarly rfl
  rw [alignedEarly_boundary] at hphase
  exact absurd hphase (by decide)

end Sys2Proof.Machine
end


section
/-! SUPPORT. What the stop of a unit leaves to the operations of an axis, and how an operation that has failed ends (O25). -/

namespace Sys2Proof.Machine

/-! ### The operations of an axis -/

/-- The HOME and the CHARACTERIZE of an axis. -/
def State.ops (s : State) (a : Nat) : Option Home × Option Char := ((s.axis a).home, (s.axis a).char)

section
variable (s : State) (a : Nat)

@[simp] theorem ite_ops (c : Prop) [Decidable c] (s t : State) : (if c then s else t).ops a = if c then s.ops a else t.ops a := by
  split <;> rfl

theorem foldl_ops (f : State → α → State) (h : ∀ s x, (f s x).ops a = s.ops a) (l : List α) (s : State) : (l.foldl f s).ops a = s.ops a :=
  List.foldlRecOn _ _ (motive := fun (v : State) => v.ops a = s.ops a) rfl fun v hv x _ => (h v x).trans hv

@[simp] theorem State.complete_ops (g : Tag) (r : List Word) : (s.complete g r).ops a = s.ops a := rfl

@[simp] theorem State.updCourse_ops (c : Nat) (f : Course → Course) : (s.updCourse c f).ops a = s.ops a := rfl

@[simp] theorem State.freeWindow_ops (k : UnitKind) (n : Nat) : (s.freeWindow k n).ops a = s.ops a := rfl

@[simp] theorem State.updMotion_ops (k : UnitKind) (n : Nat) (f : Motion → Motion) : (s.updMotion k n f).ops a = s.ops a := by
  cases k with
  | course => rfl
  | axis =>
    unfold State.ops State.updMotion State.setMotion
    rw [State.axis_setAxis]
    split
    · next h => rw [h]
    · rfl

@[simp] theorem State.entryEnded_ops (k : UnitKind) (n status : Nat) : (s.entryEnded k n status).ops a = s.ops a := by
  unfold State.entryEnded
  split <;> simp

@[simp] theorem State.silentEnd_ops (k : UnitKind) (n : Nat) (v : Move) (status : Nat) : (s.silentEnd k n v status).ops a = s.ops a := by
  unfold State.silentEnd
  simp

@[simp] theorem State.completeMove_ops (k : UnitKind) (n : Nat) (v : Move) (status : Nat) : (s.completeMove k n v status).ops a = s.ops a := by
  unfold State.completeMove
  simp

@[simp] theorem State.completeMoveBy_ops (k : UnitKind) (n : Nat) (v : Move) (status : Nat) (mem : Option (Nat × Nat)) :
    (s.completeMoveBy k n v status mem).ops a = s.ops a := by
  unfold State.completeMoveBy
  simp

@[simp] theorem State.entryCaught_ops (k : UnitKind) (n : Nat) (c : StopCause) : (s.entryCaught k n c).ops a = s.ops a := by
  unfold State.entryCaught
  simp

@[simp] theorem State.cancelLook_ops (k : UnitKind) (n : Nat) : (s.cancelLook k n).ops a = s.ops a := by
  unfold State.cancelLook
  refine (State.updMotion_ops ..).trans ?_
  rw [foldl_ops a _ fun t q => t.complete_ops .., foldl_ops a _ fun t v => t.completeMove_ops ..]

@[simp] theorem State.cancelDwell_ops (k : UnitKind) (n : Nat) : (s.cancelDwell k n).ops a = s.ops a := by
  unfold State.cancelDwell
  split <;> simp

@[simp] theorem State.completeStops_ops (k : UnitKind) (n : Nat) : (s.completeStops k n).ops a = s.ops a := by
  unfold State.completeStops
  refine (State.updMotion_ops ..).trans ?_
  rw [foldl_ops a _ fun t d => t.complete_ops ..]

@[simp] theorem State.cancelLater_ops (k : UnitKind) (n : Nat) : (s.cancelLater k n).ops a = s.ops a := by
  unfold State.cancelLater
  simp (disch := (intros; split <;> simp)) [foldl_ops]

@[simp] theorem State.endFollowed_ops (k : UnitKind) (n status : Nat) (mem : Option (Nat × Nat)) : (s.endFollowed k n status mem).ops a = s.ops a := by
  unfold State.endFollowed
  dsimp only
  (repeat' split) <;> simp

@[simp] theorem State.finishStop_ops (k : UnitKind) (n : Nat) : (s.finishStop k n).ops a = s.ops a := by
  unfold State.finishStop
  dsimp only
  (repeat' split) <;> simp

@[simp] theorem State.beginStop_ops (k : UnitKind) (n : Nat) : (s.beginStop k n).ops a = s.ops a := by
  unfold State.beginStop
  split <;> simp

end

/-- What an axis waits for or runs has been given up. -/
structure State.GivenUp (s : State) (a : Nat) : Prop where
  home : ∀ h, (s.axis a).home = some h → h.failing.isSome = true
  char : ∀ h, (s.axis a).char = some h → h.part = 9

theorem State.GivenUp.of_ops {s t : State} {a : Nat} (h : s.GivenUp a) (ht : t.ops a = s.ops a) : t.GivenUp a := by
  obtain ⟨hhome, hchar⟩ := Prod.mk.inj ht
  exact ⟨by rw [hhome]; exact h.home, by rw [hchar]; exact h.char⟩

/-- The two halves of `endLongs`: an operation that runs sees the stop, one that waits is given up. -/
def State.endHome (s : State) (a : Nat) : State :=
  match (s.axis a).home with
  | some h => if h.started then s.homeWatch a else s.updHome a fun h => { h with failing := some (Status.stopped, StopCause.disabled.homeReason) }
  | none => s

def State.endChar (s : State) (a : Nat) : State :=
  match (s.axis a).char with
  | some h => if h.begun then s.charWatch a else s.updChar a fun h => { h with part := 9, timer := Status.stopped }
  | none => s

theorem State.endLongs_eq (s : State) (a : Nat) : s.endLongs a = (s.endHome a).endChar a := rfl

section
variable {s : State} {a : Nat}

theorem State.homeFail_ops (st reason : Nat) :
    (s.homeFail a st reason).ops a = ((s.axis a).home.map fun h => { h with failing := some (st, reason) }, (s.axis a).char) := by
  unfold State.homeFail
  rw [State.updMotion_ops]
  unfold State.ops State.updHome
  rw [State.axis_updAxis_self]

theorem State.homeFail_stopping (st reason : Nat) (hs : (s.axis a).m.stopping.isSome = true) :
    ((s.homeFail a st reason).axis a).m.stopping.isSome = true := by
  have hm : (s.updHome a fun h => { h with failing := some (st, reason) }).motion .axis a = (s.axis a).m := by
    show ((s.updHome a _).axis a).m = _
    unfold State.updHome
    rw [State.axis_updAxis_self]
  have hfail : ((s.homeFail a st reason).motion .axis a) = { (s.axis a).m with act := none, own := none } := by
    unfold State.homeFail
    rw [State.motion_updMotion_self, hm, if_pos hs]
  exact (congrArg (fun m : Motion => m.stopping.isSome) hfail).trans hs

theorem State.charFail_ops (st : Nat) :
    (s.charFail a st).ops a = ((s.axis a).home, (s.axis a).char.map fun h => { h with part := 9, timer := st }) := by
  unfold State.charFail
  rw [State.updMotion_ops]
  unfold State.ops State.updChar
  rw [State.axis_updAxis_self]

/-- A HOME has failed once the stop of its unit has ended it. -/
theorem State.endHome_failed (hs : (s.axis a).m.stopping.isSome = true) :
    (∀ h, ((s.endHome a).axis a).home = some h → h.failing.isSome = true) ∧ ((s.endHome a).axis a).m.stopping.isSome = true := by
  unfold State.endHome
  cases hh : (s.axis a).home with
  | none => exact ⟨by simp [hh], hs⟩
  | some h =>
    dsimp only
    split
    · unfold State.homeWatch
      rw [hh]
      dsimp only
      split
      · next hf => exact ⟨fun x hx => Option.some.inj (hh.symm.trans hx) ▸ hf, hs⟩
      · obtain ⟨st, hst'⟩ := Option.isSome_iff_exists.1 hs
        rw [hst']
        dsimp only
        refine ⟨fun x hx => ?_, State.homeFail_stopping _ _ hs⟩
        have hops := (congrArg Prod.fst (State.homeFail_ops (s := s) (a := a) st.cause.status st.cause.homeReason)).symm.trans hx
        obtain ⟨y, -, rfl⟩ := Option.map_eq_some_iff.1 hops
        rfl
    · unfold State.updHome
      rw [State.axis_updAxis_self, hh]
      exact ⟨fun x hx => by cases hx; rfl, hs⟩

/-- A CHARACTERIZE has failed likewise, and what has become of a HOME stays. -/
theorem State.endChar_failed (hs : (s.axis a).m.stopping.isSome = true) :
    (∀ h, ((s.endChar a).axis a).char = some h → h.part = 9) ∧ ((s.endChar a).axis a).home = (s.axis a).home := by
  unfold State.endChar
  cases hh : (s.axis a).char with
  | none => exact ⟨by simp [hh], rfl⟩
  | some h =>
    dsimp only
    split
    · unfold State.charWatch
      rw [hh]
      dsimp only
      split
      · next hf => exact ⟨fun x hx => Option.some.inj (hh.symm.trans hx) ▸ hf, rfl⟩
      · obtain ⟨st, hst'⟩ := Option.isSome_iff_exists.1 hs
        rw [hst']
        dsimp only
        obtain ⟨hhome, hchar⟩ := Prod.mk.inj (State.charFail_ops (s := s) (a := a) st.cause.status)
        refine ⟨fun x hx => ?_, hhome⟩
        obtain ⟨y, -, rfl⟩ := Option.map_eq_some_iff.1 (hchar.symm.trans hx)
        rfl
    · unfold State.updChar
      rw [State.axis_updAxis_self, hh]
      exact ⟨fun x hx => by cases hx; rfl, rfl⟩

theorem State.endLongs_givenUp (hs : (s.axis a).m.stopping.isSome = true) : (s.endLongs a).GivenUp a := by
  obtain ⟨hhome, hs'⟩ := State.endHome_failed hs
  obtain ⟨hchar, hkeep⟩ := State.endChar_failed hs'
  rw [State.endLongs_eq]
  exact ⟨fun h hh => hhome h (hkeep ▸ hh), hchar⟩

end

/-! ### The end of an operation that has been given up -/

/-- What the end of an operation leaves alone: the motion and the drive of the axis, and the tiles. -/
def State.works (s : State) (a : Nat) : Motion × Bool × Bank Tile := ((s.axis a).m, (s.axis a).driven, s.tiles)

section
variable (s : State) (a : Nat)

@[simp] theorem State.complete_works (g : Tag) (r : List Word) : (s.complete g r).works a = s.works a := rfl

@[simp] theorem State.updLong_works (g : Tag) (f : LongOp → LongOp) : (s.updLong g f).works a = s.works a := rfl

@[simp] theorem State.endLong_works (g : Tag) (status : Nat) : (s.endLong g status).works a = s.works a := by
  unfold State.endLong
  split <;> rfl

@[simp] theorem State.axisLong_works (o b : Nat) (f : LongOp → LongOp) : (s.axisLong o b f).works a = s.works a := by
  unfold State.axisLong
  split <;> rfl

/-- A change of the operations alone. -/
theorem State.updAxis_works {f : Axis → Axis} (h : (f (s.axis a)).m = (s.axis a).m ∧ (f (s.axis a)).driven = (s.axis a).driven) :
    (s.updAxis a f).works a = s.works a := by
  unfold State.works
  rw [State.axis_updAxis_self, h.1, h.2]
  rfl

@[simp] theorem State.homeLatched_works (b : Nat) (h : Home) : (s.homeLatched b h).works a = s.works a := State.axisLong_works ..

@[simp] theorem State.homeEntry_works (b : Nat) (e : List Word) : (s.homeEntry b e).works a = s.works a := State.axisLong_works ..

@[simp] theorem State.homeOver_works (st reason : Nat) (h : Home) : (s.homeOver a st reason h).works a = s.works a := by
  have hclear (u : State) : (u.updAxis a fun y => { y with home := none }).works a = u.works a := State.updAxis_works u a ⟨rfl, rfl⟩
  unfold State.homeOver
  dsimp only
  split
  · rw [State.endLong_works, hclear, State.axisLong_works]
  · rw [hclear, State.axisLong_works]

theorem State.axisLong_axis (o b : Nat) (f : LongOp → LongOp) : (s.axisLong o b f).axis a = s.axis a := by
  unfold State.axisLong
  split <;> rfl

theorem State.endLong_axis (g : Tag) (status : Nat) : (s.endLong g status).axis a = s.axis a := by
  unfold State.endLong
  split <;> rfl

theorem State.homeOver_char (st reason : Nat) (h : Home) : ((s.homeOver a st reason h).axis a).char = (s.axis a).char := by
  have hclear (u : State) : ((u.updAxis a fun y => { y with home := none }).axis a).char = (u.axis a).char := by rw [State.axis_updAxis_self]
  unfold State.homeOver
  dsimp only
  split
  · rw [State.endLong_axis, hclear, State.axisLong_axis]
  · rw [hclear, State.axisLong_axis]

theorem State.homeSeen_works : (s.homeSeen a).works a = s.works a := State.updAxis_works s a ⟨rfl, rfl⟩

end

/-- A boundary sees the position of a HOME, which stays given up. -/
theorem State.GivenUp.homeSeen {s : State} {a : Nat} (h : s.GivenUp a) : (s.homeSeen a).GivenUp a := by
  unfold State.homeSeen
  refine ⟨fun x hx => ?_, fun x hx => ?_⟩
  · rw [State.axis_updAxis_self] at hx
    obtain ⟨y, hy, rfl⟩ := Option.map_eq_some_iff.1 hx
    split <;> exact h.home y hy
  · rw [State.axis_updAxis_self] at hx
    exact h.char x hx

/-- A HOME that has been given up ends, and its axis is left as it is. -/
theorem State.GivenUp.homeStep {s : State} {a : Nat} (h : s.GivenUp a) :
    (s.homeStep a).works a = s.works a ∧ ∀ x, ((s.homeStep a).axis a).char = some x → x.part = 9 := by
  have hseen := h.homeSeen
  unfold State.homeStep
  rw [← State.homeSeen_works s a]
  generalize s.homeSeen a = u at hseen
  dsimp only
  split
  · exact ⟨rfl, hseen.char⟩
  · next hm hh =>
    obtain ⟨⟨st, reason⟩, hf⟩ := Option.isSome_iff_exists.1 (hseen.home _ hh)
    rw [hf]
    dsimp only
    split
    · refine ⟨?_, fun x hx => hseen.char x ?_⟩
      · rw [State.homeOver_works, State.homeEntry_works]
        split
        · exact State.homeLatched_works ..
        · rfl
      · rw [← hx, State.homeOver_char]
        refine congrArg Axis.char (Eq.trans ?_ (State.axisLong_axis _ a _ _ _).symm)
        split
        · exact (State.axisLong_axis _ a _ _ _).symm
        · rfl
    · exact ⟨rfl, hseen.char⟩

/-- A CHARACTERIZE that has been given up ends, and its axis, which does not drive, is left as it is. -/
theorem State.charStep_works {s : State} {a : Nat} (h : ∀ x, (s.axis a).char = some x → x.part = 9) (hd : (s.axis a).driven = false) :
    (s.charStep a).works a = s.works a := by
  have hclear (u : State) : (u.updAxis a fun y => { y with char := none }).works a = u.works a := State.updAxis_works u a ⟨rfl, rfl⟩
  unfold State.charStep
  split
  · rfl
  · next x hx =>
    rw [if_pos (h x hx)]
    split
    · unfold State.charOver
      dsimp only
      have hun (u : State) (hu : (u.axis a).driven = false) : u.unpower a = u := if_neg fun h => absurd (h.2.symm.trans hu) nofun
      rw [hun _ (by rw [State.axis_updAxis_self, State.axisLong_axis]; exact hd)]
      split
      · rw [State.endLong_works, hclear, State.axisLong_works]
      · rw [hclear, State.axisLong_works]
    · rfl

end Sys2Proof.Machine
end


section
/-! SUPPORT. Units disabled and enabled (O25). -/

namespace Sys2Proof.Machine

/-! ### Disabling -/

/-- A unit that is off and stands. -/
def Motion.halt (m : Motion) : Motion :=
  { m with en := false, disPend := false, disDue := false, mode := .off, v := 0, queue := [], plan := [], cruise := none, dwell := none,
           start := .none, held := false, ret := none, booked := 0, bookLeft := none }

/-- `disableUnit` up to the unit's own state: what was in progress and what waits has completed, and the unit is off. -/
def State.halted (s : State) (k : UnitKind) (n : Nat) : State :=
  let s := s.updMotion k n fun m => { (m.postStop .disabled none) with ret := none, posUnc := m.posUnc || decide (k = .axis) }
  let s := if (s.motion k n).suspended then s.updMotion k n fun m => { m with suspended := false } else s
  let s : State := match k with
    | .axis => s.endLongs n
    | .course => s
  (((s.beginStop k n).finishStop k n).cancelLater k n).updMotion k n Motion.halt

/-- The legs of an axis that is disabled go, and its drive with them. -/
def State.unlegged (s : State) (a : Nat) : State :=
  (s.releaseLegs a).updAxis a fun x =>
    { x.undrive with hizzed := false, powerDue := false, m := { x.m with posUnc := true }, watch := { x.watch with on := false, settle := 0 },
                     stall := { x.stall with acc := 0, n := 0, qcnt := 0 } }

theorem State.disableUnit_course (s : State) (n : Nat) : s.disableUnit .course n = s.halted .course n := rfl

theorem State.disableUnit_axis (s : State) (n : Nat) : s.disableUnit .axis n = (((s.halted .axis n).unlegged n).homeStep n).charStep n := rfl

section
variable (s : State) (n : Nat)

theorem State.halted_motion (k : UnitKind) : ∃ m : Motion, (s.halted k n).motion k n = m.halt := ⟨_, State.motion_updMotion_self ..⟩

/-- The operations of an axis have been given up where it has been disabled. -/
theorem State.halted_givenUp : (s.halted .axis n).GivenUp n := by
  unfold State.halted
  dsimp only
  refine State.GivenUp.of_ops (State.endLongs_givenUp ?_)
    ((State.updMotion_ops ..).trans ((State.cancelLater_ops ..).trans ((State.finishStop_ops ..).trans (State.beginStop_ops ..))))
  show (State.motion _ .axis n).stopping.isSome = true
  split
  · rw [State.motion_updMotion_self, State.motion_updMotion_self]
    exact (Motion.postStop_spec ..).2.2
  · rw [State.motion_updMotion_self]
    exact (Motion.postStop_spec ..).2.2

theorem State.releaseLegs_axis (b : Nat) : (s.releaseLegs n).axis b = s.axis b := State.foldl_updLeg_axis ..

theorem State.unlegged_axis : (s.unlegged n).axis n = { (s.axis n).undrive with
    hizzed := false, powerDue := false, m := { (s.axis n).m with posUnc := true }, watch := { (s.axis n).watch with on := false, settle := 0 }
    stall := { (s.axis n).stall with acc := 0, n := 0, qcnt := 0 } } := by
  unfold State.unlegged
  rw [State.axis_updAxis_self, State.releaseLegs_axis]

theorem State.unlegged_leg {l : Nat} (hl : l ∈ axisLegs n) :
    ((s.unlegged n).leg (axisTile n) l).hiz = true ∧ ((s.unlegged n).leg (axisTile n) l).mode = 0 :=
  State.foldl_updLeg_all (P := fun x => x.hiz = true ∧ x.mode = 0) (fun _ => ⟨rfl, rfl⟩) _ _ _ s (.inr hl)

theorem State.unlegged_driven : ((s.unlegged n).axis n).driven = false := by rw [State.unlegged_axis]; rfl

theorem State.unlegged_m : ((s.unlegged n).axis n).m = { (s.axis n).m with posUnc := true } := by rw [State.unlegged_axis]

theorem State.unlegged_ops : (s.unlegged n).ops n = s.ops n := by
  unfold State.ops
  rw [State.unlegged_axis]
  rfl

/-- The operations that have been given up end behind the release of the legs. -/
theorem State.GivenUp.ended {s : State} {n : Nat} (h : s.GivenUp n) : (((s.unlegged n).homeStep n).charStep n).works n = (s.unlegged n).works n := by
  obtain ⟨hworks, hchar⟩ := (h.of_ops (s.unlegged_ops n)).homeStep
  have hdriven := (congrArg (fun p => p.2.1) hworks).trans (s.unlegged_driven n)
  exact (State.charStep_works hchar hdriven).trans hworks

/-- What is left of an axis that has been disabled. -/
theorem State.disableUnit_works : (s.disableUnit .axis n).works n = ((s.halted .axis n).unlegged n).works n :=
  (congrArg (State.works · n) (s.disableUnit_axis n)).trans (s.halted_givenUp n).ended

theorem State.motion_of_works {s t : State} {n : Nat} (h : t.works n = s.works n) : t.motion .axis n = (s.axis n).m := congrArg Prod.fst h

theorem State.leg_of_works {s t : State} {n : Nat} (h : t.works n = s.works n) (j l : Nat) : t.leg j l = s.leg j l :=
  congrArg (fun p : Motion × Bool × Bank Tile => Bank.get Leg.reset (Bank.get Tile.reset p.2.2 j).legs l) h

theorem State.motion_unlegged {u t : State} {n : Nat} {m : Motion} (hm : u.motion .axis n = m) (h : t.works n = (u.unlegged n).works n) :
    t.motion .axis n = { m with posUnc := true } :=
  (State.motion_of_works h).trans ((u.unlegged_m n).trans (congrArg (fun m : Motion => { m with posUnc := true }) hm))

/-- A disabled unit is off and stands; the position of an axis is uncertain. -/
theorem State.disableUnit_motion (k : UnitKind) :
    ∃ (m : Motion) (unc : Bool), (s.disableUnit k n).motion k n = { m.halt with posUnc := unc } ∧ (k = .axis → unc = true) := by
  obtain ⟨m, hm⟩ := s.halted_motion n k
  cases k with
  | course => exact ⟨m, m.halt.posUnc, (congrArg (State.motion · .course n) (s.disableUnit_course n)).trans hm, nofun⟩
  | axis => exact ⟨m, true, State.motion_unlegged hm (s.disableUnit_works n), fun _ => rfl⟩

theorem State.disableUnit_legs {l : Nat} (hl : l ∈ axisLegs n) :
    ((s.disableUnit .axis n).leg (axisTile n) l).hiz = true ∧ ((s.disableUnit .axis n).leg (axisTile n) l).mode = 0 := by
  rw [State.leg_of_works (s.disableUnit_works n)]
  exact State.unlegged_leg _ n hl

end

/-! ### Enabling -/

/-- Power leaves the registers and the motion of an axis in Target position mode, but for the uncertainty of its position. -/
theorem State.power_axis (s : State) (a : Nat) (h : (s.axis a).m.mode = .target) :
    ((s.power a).axis a).regs = (s.axis a).regs ∧ ∃ unc, ((s.power a).axis a).m = { (s.axis a).m with posUnc := unc } := by
  have henergize : ((s.energize a).axis a).regs = (s.axis a).regs ∧
      ((s.energize a).axis a).m = { (s.axis a).m with posUnc := (s.axis a).m.posUnc || (s.axis a).hizzed } := by
    unfold State.energize
    rw [State.axis_updAxis_self, State.foldl_updLeg_axis, h, ite_self]
    exact ⟨rfl, by rw [← h]⟩
  have hdeliver (u : State) : ((u.deliver a).axis a).regs = (u.axis a).regs ∧ ((u.deliver a).axis a).m = (u.axis a).m := by
    unfold State.deliver
    dsimp only
    rw [State.axis_setAxis_self]
    exact ⟨rfl, rfl⟩
  unfold State.power
  split
  · have hcoils := (State.likens_beginCoils ((s.energize a).deliver a) a).axis a
    obtain ⟨hregs, hm⟩ := henergize
    obtain ⟨hregs', hm'⟩ := hdeliver (s.energize a)
    exact ⟨(Axis.regs_of_bare hcoils).trans (hregs'.trans hregs), _, (Axis.m_of_bare hcoils).trans (hm'.trans hm)⟩
  · exact ⟨rfl, (s.axis a).m.posUnc, rfl⟩

/-- An enabled unit stands in Target position mode. -/
def Motion.ready (m : Motion) : Prop :=
  m.en = true ∧ m.disPend = false ∧ m.disDue = false ∧ m.mode = .target ∧ m.v = 0 ∧ m.queue = []

/-- `enableAxis` before the power comes. -/
def State.enabling (s : State) (a : Nat) : State :=
  ((axisLegs a).foldl (fun t l => t.updLeg (axisTile a) l fun x => { x.toHiz with mode := 1 }) s).updAxis a fun x =>
    let p := pos48 x.regs.posSetLo x.regs.posSetHi
    let x := x.loadLive
    { x with
      driven := false, hizzed := false
      m := { x.m with
        en := true, disPend := false, disDue := false, mode := .target
        x := if bit x.regs.ctrl 1 then p * 2 ^ 32 else x.m.x
        tgt := if bit x.regs.ctrl 1 then p else x.m.pos
        v := 0, queue := [], plan := [], cruise := none, start := .none, stopping := none, held := false } }

theorem State.enableAxis_eq (s : State) (a : Nat) : s.enableAxis a = (s.enabling a).power a := rfl

theorem State.enabling_axis (s : State) (a : Nat) : ((s.enabling a).axis a).m.ready ∧ ((s.enabling a).axis a).regs = (s.axis a).regs := by
  unfold State.enabling
  rw [State.axis_updAxis_self, State.foldl_updLeg_axis]
  exact ⟨⟨rfl, rfl, rfl, rfl, rfl, rfl⟩, rfl⟩

theorem State.enableUnit_spec (s : State) (k : UnitKind) (n : Nat) :
    ((s.enableUnit k n).motion k n).ready ∧ (s.enableUnit k n).unitBit k n = s.unitBit k n := by
  cases k with
  | course =>
    refine ⟨?_, ?_⟩
    · show (State.motion (s.enableCourse n) .course n).ready
      unfold State.enableCourse
      rw [State.motion_updMotion_self]
      exact ⟨rfl, rfl, rfl, rfl, rfl, rfl⟩
    · show bit ((s.enableCourse n).course n).ctrl 0 = _
      unfold State.enableCourse State.updMotion State.setMotion
      rw [State.course_setCourse_self]
      rfl
  | axis =>
    show (State.motion (s.enableAxis n) .axis n).ready ∧ bit ((s.enableAxis n).axis n).regs.ctrl 0 = _
    obtain ⟨hmotion, hregs⟩ := s.enabling_axis n
    obtain ⟨hregs', unc, hm⟩ := State.power_axis (s.enabling n) n hmotion.2.2.2.1
    rw [State.enableAxis_eq, hregs', hregs]
    refine ⟨?_, rfl⟩
    show (((s.enabling n).power n).axis n).m.ready
    rw [hm]
    exact hmotion

/-! ### The enable bits -/

theorem State.disableNow_due {s : State} {k : UnitKind} {n : Nat} (hp : s.present k n = true) (hd : (s.motion k n).disDue = true) :
    s.disableNow k n = if s.unitBit k n then (s.disableUnit k n).enableUnit k n else s.disableUnit k n :=
  if_pos (by rw [hp, hd]; rfl)

section
variable {s : State} {k : UnitKind} {n : Nat} {old v raw : Word}

theorem State.unitCtrlWritten_configure (h : s.glb.mode = .configure) : s.unitCtrlWritten k n old v = s := if_pos h

theorem State.unitCtrlWritten_set (h : s.glb.mode ≠ .configure) (ho : bit old 0 = false) (hv : bit v 0 = true) :
    s.unitCtrlWritten k n old v = if (s.motion k n).en then s.updMotion k n fun m => { m with disPend := false } else s.enableUnit k n :=
  (if_neg h).trans (if_pos (by rw [ho, hv]; rfl))

theorem State.unitCtrlWritten_cleared (h : s.glb.mode ≠ .configure) (ho : bit old 0 = true) (hv : bit v 0 = false) :
    s.unitCtrlWritten k n old v = s.updMotion k n fun m => { m with disPend := true } :=
  (if_neg h).trans ((if_neg (by rw [ho, hv]; decide)).trans (if_pos (by rw [ho, hv]; rfl)))

theorem State.unitBit_updMotion (f : Motion → Motion) : (s.updMotion k n f).unitBit k n = s.unitBit k n := by
  cases k with
  | axis =>
    show bit ((s.setAxis n _).axis n).regs.ctrl 0 = _
    rw [State.axis_setAxis_self]
    rfl
  | course =>
    show bit ((s.setCourse n _).course n).ctrl 0 = _
    rw [State.course_setCourse_self]
    rfl

theorem State.unitCtrlWritten_bit : (s.unitCtrlWritten k n old v).unitBit k n = s.unitBit k n := by
  unfold State.unitCtrlWritten
  split
  · rfl
  · split
    · split
      · exact State.unitBit_updMotion _
      · exact (State.enableUnit_spec ..).2
    · split
      · exact State.unitBit_updMotion _
      · rfl

/-- AX_CTRL or CRS_CTRL takes its fields. -/
theorem State.putLoc_unitCtrl (s : State) (k : UnitKind) (n : Nat) (v : Word) :
    (s.putLoc (.unit k n 0) v).unitBit k n = bit v 0 ∧ (s.putLoc (.unit k n 0) v).glb = s.glb ∧
      (s.putLoc (.unit k n 0) v).motion k n = s.motion k n := by
  cases k with
  | axis =>
    have hput : s.putLoc (.unit .axis n 0) v = s.updAxis n fun x => { x with regs := { x.regs with ctrl := v } } := rfl
    rw [hput]
    refine ⟨?_, rfl, ?_⟩
    · exact congrArg (fun x : Axis => bit x.regs.ctrl 0) (State.axis_updAxis_self ..)
    · refine (congrArg Axis.m (State.axis_updAxis_self s n _)).trans ?_
      rfl
  | course =>
    have hput : s.putLoc (.unit .course n 0) v = s.updCourse n fun x => { x with ctrl := v } := rfl
    rw [hput]
    refine ⟨?_, rfl, ?_⟩
    · exact congrArg (fun x : Course => bit x.ctrl 0) (State.course_updCourse_self ..)
    · refine (congrArg Course.m (State.course_updCourse_self s n _)).trans ?_
      rfl

theorem State.unitBit_ofCfg (s : State) (c : CfgB) (k : UnitKind) (n : Nat) : ({ s with cfg := c } : State).unitBit k n = s.unitBit k n := by
  cases k <;> rfl

theorem State.motion_ofCfg (s : State) (c : CfgB) (k : UnitKind) (n : Nat) : ({ s with cfg := c } : State).motion k n = s.motion k n := by
  cases k <;> rfl

/-- A full write of AX_CTRL or CRS_CTRL: the register takes its fields, and its enable bit its effect. -/
theorem State.write_unitCtrl (hp : s.present k n = true) (hj : s.judgeWrite (.unit k n 0) raw = .ok) :
    ∃ (u : State) (old v : Word), s.fullWrite (unitOff k n) raw = u.unitCtrlWritten k n old v ∧ bit old 0 = s.unitBit k n ∧ bit v 0 = bit raw 0 ∧
      u.unitBit k n = bit v 0 ∧ u.glb = s.glb ∧ u.motion k n = s.motion k n := by
  have hw : (Loc.unit k n 0).wmBits = 0 := by cases k <;> rfl
  obtain ⟨c, -, h⟩ := State.fullWrite_inSet (unitReg_low k n (by decide)) (locOf_unit s k n 0 hp (by decide)) hw nofun nofun hj
  have hbit : bit (s.merged (.unit k n 0) raw) 0 = bit raw 0 := by
    refine State.bit_merged hw raw ?_
    cases k with
    | axis => exact (by decide : (0x3#32).getLsbD 0 = true)
    | course => exact (by decide : (0x11#32).getLsbD 0 = true)
  obtain ⟨hput, hglb, hm⟩ := State.putLoc_unitCtrl ({ s with cfg := c } : State) k n (s.merged (.unit k n 0) raw)
  generalize State.putLoc _ _ _ = p at h hput hglb hm
  obtain ⟨c', hc⟩ := p.clearing_frame (unitReg k n 0) (s.stored (.unit k n 0)) (s.merged (.unit k n 0) raw)
  refine ⟨{ p with cfg := c' }, s.stored (.unit k n 0), s.merged (.unit k n 0) raw, ?_, ?_, hbit, ?_, hglb, ?_⟩
  · rw [← hc]
    exact h
  · cases k <;> rfl
  · rw [State.unitBit_ofCfg]
    exact hput
  · rw [State.motion_ofCfg, hm, State.motion_ofCfg]

end

/-- Settles O25: AX_CTRL.EN and CRS_CTRL.EN. -/
theorem unitEnablesAndDisables : Obligations.UnitEnablesAndDisables := by
  unfold Obligations.UnitEnablesAndDisables
  refine ⟨fun k n v s hr hp => ⟨fun hj => ?_, fun hj => ?_⟩, fun k n s hr => ⟨fun hp hd hb => ?_, fun hp hd hb => ?_, fun h => ?_⟩⟩
  · refine exists_next (exec_unitEnable k n v s) hr ?_
    obtain ⟨u, old, w, hwrite, hold, hw, hbit, hglb, hm⟩ := State.write_unitCtrl (s := s.quiet) (by cases k <;> exact hp) hj
    have hset : bit w 0 = true := hw.trans (bit_or_one v)
    have hold' : bit old 0 = s.unitBit k n := hold.trans (by cases k <;> rfl)
    have hm' : u.motion k n = s.motion k n := hm.trans (by cases k <;> rfl)
    rw [hwrite]
    refine ⟨State.unitCtrlWritten_bit.trans (hbit.trans hset), fun hc => ?_, fun hc ho => ?_⟩
    · rw [State.unitCtrlWritten_configure (by rw [hglb]; exact hc), hm']
    · rw [State.unitCtrlWritten_set (by rw [hglb]; exact hc) (hold'.trans ho) hset, hm']
      split
      · rw [State.motion_updMotion_self, hm']
      · obtain ⟨hen, hpend, -, hmode, hv, hq⟩ := (State.enableUnit_spec u k n).1
        exact ⟨hen, hpend, hmode, hv, hq⟩
  · refine exists_next (exec_unitDisable k n v s) hr ?_
    obtain ⟨u, old, w, hwrite, hold, hw, hbit, hglb, hm⟩ := State.write_unitCtrl (s := s.quiet) (by cases k <;> exact hp) hj
    have hclear : bit w 0 = false := hw.trans (bit_and_notOne v)
    have hold' : bit old 0 = s.unitBit k n := hold.trans (by cases k <;> rfl)
    have hm' : u.motion k n = s.motion k n := hm.trans (by cases k <;> rfl)
    rw [hwrite]
    refine ⟨State.unitCtrlWritten_bit.trans (hbit.trans hclear), fun hc => ?_, fun hc ho => ?_⟩
    · rw [State.unitCtrlWritten_configure (by rw [hglb]; exact hc), hm']
    · rw [State.unitCtrlWritten_cleared (by rw [hglb]; exact hc) (hold'.trans ho) hclear, State.motion_updMotion_self, hm']
  · refine exists_next (exec_disableTakesEffect k n s) hr ?_
    rw [State.disableNow_due (s := s.quiet) (by cases k <;> exact hp) (by cases k <;> exact hd), if_neg (by cases k <;> exact Bool.eq_false_iff.1 hb)]
    obtain ⟨m, unc, hm, hunc⟩ := s.quiet.disableUnit_motion n k
    refine ⟨?_, ?_, ?_, ?_, ?_, ?_, ?_, ?_⟩
    · rw [hm]; rfl
    · rw [hm]; rfl
    · rw [hm]; rfl
    · rw [hm]; rfl
    · rw [hm]; rfl
    · rw [hm]; rfl
    · rw [hm]; rfl
    · rintro rfl
      exact ⟨(congrArg Motion.posUnc hm).trans (hunc rfl), fun l hl => s.quiet.disableUnit_legs n hl⟩
  · refine exists_next (exec_disableTakesEffect k n s) hr ?_
    rw [State.disableNow_due (s := s.quiet) (by cases k <;> exact hp) (by cases k <;> exact hd), if_pos (by cases k <;> exact hb)]
    obtain ⟨hen, -, hdue, hmode, hv, hq⟩ := (State.enableUnit_spec (s.quiet.disableUnit k n) k n).1
    exact ⟨hen, hdue, hmode, hv, hq⟩
  · rw [exec_disableTakesEffect, State.command_quiet _ hr]
    refine congrArg _ (if_neg ?_)
    rw [Bool.and_eq_true]
    rintro ⟨hp, hd⟩
    have hp' : s.present k n = true := by cases k <;> exact hp
    have hd' : (s.motion k n).disDue = true := by cases k <;> exact hd
    rcases h with h | h
    · exact absurd (hp'.symm.trans h) nofun
    · exact absurd (hd'.symm.trans h) nofun

end Sys2Proof.Machine
end
